-- ==== Sys2Proof/Word.lean ====
section
/-!
DEFINITION. The word types of the model (R3, R131): 64-bit registers and addresses, bytes, and an instruction
word of 32 bits.
-/
namespace Sys2Proof

/-- A 64-bit scalar register, address or memory word. -/
abbrev Word := BitVec 64

/-- One byte of memory. -/
abbrev Byte := BitVec 8

end Sys2Proof
end

