-- ==== Sys2Proof/Config.lean ====
section
/-!
DEFINITION. The values that the spec leaves open or takes from outside itself. Each is a constant with no body, so
that no proof can see what it is, and a statement that holds does so for every value.
-/
namespace Sys2Proof.Config

/-- A free value, one for each use, selected by the counter `State.free` (log 15): the results of a program that
breaks a "must" without a stated consequence (R10), and the values the spec does not state. -/
opaque freeWord : Nat → Word

/-- The fault kind that EPAGE carries where no row of the table of R353 names the cause: an AMO to a region R311
does not allow, an XAMO or XST to one R423 does not allow (log 15). -/
opaque regionKind : BitVec 8

/-- SM3 of a byte string (R130, R507, R509): a standard that stands outside the spec (log 9). -/
opaque sm3 : List Byte → BitVec 256

/-- Whether an SM2 signature `sig` by the public key `key` over `msg` verifies (R507, R508; log 9). -/
opaque sm2Verify : List Byte → List Byte → List Byte → Bool

/-- The 64-byte signature by the part's identity key over a record, its first byte least significant (R509; log 9). -/
opaque sm2Sign : List Byte → BitVec 512

/-- The 64-byte public half of the identity key, x then y, its first byte least significant (R505, R509; log 9). -/
opaque identityKey : BitVec 512

/-- SM3 of the fuse map, whose layout as bytes the spec does not give (R509; log 9). -/
opaque fuseMapHash : BitVec 256

/-- What a first-stage image gives every tile beside bytes, by the image and an index: 0 the boot entry of the system actor, 1
the entry of its label-0 handler, 2 and 3 its state region's base and size (R508; log 15). -/
opaque imageEntry : List Byte → Nat → Word

/-- The bytes of the system actor's code and state that an image puts into a local store: offsets below the least LSIZE, with
their bytes (R508; log 15). -/
opaque imageCells : List Byte → List (Nat × Byte)

/-- Which of a target's ports peer traffic takes, from the source and destination (R442; log 10). -/
opaque peerHash : Nat → Nat → Nat

/-- The traffic that a load declares per row on one of its wires or fold trees, by the load's number and the number of
the wire, the folds after them: a pattern image has no field for it (R127; log 8). -/
opaque puradTraffic : Nat → Nat → Nat

/-- The program counter of the tile stub (R259): an address that system software chooses (log 8). -/
opaque stubPc : Word

/-- Where in spool memory Purad puts the objects of a launch, by the launch's number and the object: its launch block, its
tree table, its configurations (R259; log 8). -/
opaque puradSpool : Nat → Nat → Nat

/-- The placed configuration of a tile, of at most 8 KiB, as Purad lays it out for the tile stub, from what the pattern says of
the tile: a layout that system software chooses (R259, R280; log 54). -/
opaque tileConfig : List Nat → Vector Byte 8192

/-- A byte of a segment of a fabric image of which R486 gives the contents but not their places, from those contents and the offset in
the segment (log 15). -/
opaque imageSegment : List Nat → Nat → Byte

/-- A byte of a fabric image that R486 gives nothing to, by the launch's number, the tile and the offset (log 15). -/
opaque imageFill : Nat → Nat → Nat → Byte

/-- Which of several equally good routes the manufacturing mapper takes, from the physical tiles at its ends (R22; log 51). -/
opaque routeTie : Nat → Nat → Nat

end Sys2Proof.Config
end

