-- ==== Sys2Proof/Syntax.lean ====
section
/-!
DEFINITION. Syntax of Fredel and of the part's other steps: one constructor for every row of the spec's
opcode table. The 247 encoded rows carry the fields of their word (R133-R161); the 120 rows without an
encoding are steps of the hardware, of the host or of the management plane. They have no fields: where such a
step takes place, and what the outside world supplies to it, stands in the state's event operands (log 20).
-/
namespace Sys2Proof

/-- One constructor per row of the opcode table; each docstring names the rule of the row. -/
inductive Instr where
  /-- `EXT` (R136). -/
  | ext (p : BitVec 25)
  /-- `B` (R222). -/
  | b (o : BitVec 21)
  /-- `BC` (R222). -/
  | bc (p : BitVec 3) (n : BitVec 1) (o : BitVec 21)
  /-- `CALL` (R223). -/
  | call (o : BitVec 21)
  /-- `CALLR` (R223). -/
  | callr (a : BitVec 5)
  /-- `BR` (R222). -/
  | br (a : BitVec 5)
  /-- `LOOP` (R227). -/
  | loop (a : BitVec 5) (o : BitVec 15)
  /-- `TRAP` (R406). -/
  | trap (c : BitVec 15)
  /-- `MFS` (R234). -/
  | mfs (d : BitVec 5) (n : BitVec 10)
  /-- `MTS` (R234). -/
  | mts (a : BitVec 5) (n : BitVec 10)
  /-- `FENCE` (R314). -/
  | fence (s : BitVec 3)
  /-- `ADD` (R212). -/
  | add (d : BitVec 5) (a : BitVec 5) (b : BitVec 5)
  /-- `SUB` (R212). -/
  | sub (d : BitVec 5) (a : BitVec 5) (b : BitVec 5)
  /-- `MUL` (R212). -/
  | mul (d : BitVec 5) (a : BitVec 5) (b : BitVec 5)
  /-- `MULH` (R212). -/
  | mulh (d : BitVec 5) (a : BitVec 5) (b : BitVec 5)
  /-- `MULHU` (R212). -/
  | mulhu (d : BitVec 5) (a : BitVec 5) (b : BitVec 5)
  /-- `DIV` (R212). -/
  | div (d : BitVec 5) (a : BitVec 5) (b : BitVec 5)
  /-- `DIVU` (R212). -/
  | divu (d : BitVec 5) (a : BitVec 5) (b : BitVec 5)
  /-- `REM` (R212). -/
  | rem (d : BitVec 5) (a : BitVec 5) (b : BitVec 5)
  /-- `REMU` (R212). -/
  | remu (d : BitVec 5) (a : BitVec 5) (b : BitVec 5)
  /-- `AND` (R212). -/
  | and (d : BitVec 5) (a : BitVec 5) (b : BitVec 5)
  /-- `OR` (R212). -/
  | or (d : BitVec 5) (a : BitVec 5) (b : BitVec 5)
  /-- `XOR` (R212). -/
  | xor (d : BitVec 5) (a : BitVec 5) (b : BitVec 5)
  /-- `ANDN` (R212). -/
  | andn (d : BitVec 5) (a : BitVec 5) (b : BitVec 5)
  /-- `SHL` (R212). -/
  | shl (d : BitVec 5) (a : BitVec 5) (b : BitVec 5)
  /-- `SHR` (R212). -/
  | shr (d : BitVec 5) (a : BitVec 5) (b : BitVec 5)
  /-- `SRA` (R212). -/
  | sra (d : BitVec 5) (a : BitVec 5) (b : BitVec 5)
  /-- `MIN` (R212). -/
  | min (d : BitVec 5) (a : BitVec 5) (b : BitVec 5)
  /-- `MAX` (R212). -/
  | max (d : BitVec 5) (a : BitVec 5) (b : BitVec 5)
  /-- `MINU` (R212). -/
  | minu (d : BitVec 5) (a : BitVec 5) (b : BitVec 5)
  /-- `MAXU` (R212). -/
  | maxu (d : BitVec 5) (a : BitVec 5) (b : BitVec 5)
  /-- `CLZ` (R212). -/
  | clz (d : BitVec 5) (a : BitVec 5)
  /-- `CTZ` (R212). -/
  | ctz (d : BitVec 5) (a : BitVec 5)
  /-- `POPC` (R212). -/
  | popc (d : BitVec 5) (a : BitVec 5)
  /-- `ADDI` (R213). -/
  | addi (d : BitVec 5) (a : BitVec 5) (i : BitVec 15)
  /-- `ANDI` (R213). -/
  | andi (d : BitVec 5) (a : BitVec 5) (i : BitVec 15)
  /-- `ORI` (R213). -/
  | ori (d : BitVec 5) (a : BitVec 5) (i : BitVec 15)
  /-- `XORI` (R213). -/
  | xori (d : BitVec 5) (a : BitVec 5) (i : BitVec 15)
  /-- `SHLI` (R213). -/
  | shli (d : BitVec 5) (a : BitVec 5) (s : BitVec 6)
  /-- `SHRI` (R213). -/
  | shri (d : BitVec 5) (a : BitVec 5) (s : BitVec 6)
  /-- `SRAI` (R213). -/
  | srai (d : BitVec 5) (a : BitVec 5) (s : BitVec 6)
  /-- `MULI` (R213). -/
  | muli (d : BitVec 5) (a : BitVec 5) (i : BitVec 15)
  /-- `CMP` (R215). -/
  | cmp (p : BitVec 3) (a : BitVec 5) (b : BitVec 5) (c : BitVec 4)
  /-- `CMPI` (R215). -/
  | cmpi (p : BitVec 3) (a : BitVec 5) (c : BitVec 4) (i : BitVec 11)
  /-- `PAND` (R216). -/
  | pand (d : BitVec 3) (a : BitVec 3) (b : BitVec 3)
  /-- `POR` (R216). -/
  | por (d : BitVec 3) (a : BitVec 3) (b : BitVec 3)
  /-- `PXOR` (R216). -/
  | pxor (d : BitVec 3) (a : BitVec 3) (b : BitVec 3)
  /-- `PANDN` (R216). -/
  | pandn (d : BitVec 3) (a : BitVec 3) (b : BitVec 3)
  /-- `SEL` (R217). -/
  | sel (d : BitVec 5) (a : BitVec 5) (b : BitVec 5) (n : BitVec 1) (p : BitVec 3)
  /-- `LEA` (R214). -/
  | lea (d : BitVec 5) (a : BitVec 5) (b : BitVec 5) (s : BitVec 3)
  /-- `FADD` (R219). -/
  | fadd (d : BitVec 5) (a : BitVec 5) (b : BitVec 5) (t : BitVec 2) (r : BitVec 3)
  /-- `FSUB` (R219). -/
  | fsub (d : BitVec 5) (a : BitVec 5) (b : BitVec 5) (t : BitVec 2) (r : BitVec 3)
  /-- `FMUL` (R219). -/
  | fmul (d : BitVec 5) (a : BitVec 5) (b : BitVec 5) (t : BitVec 2) (r : BitVec 3)
  /-- `FFMA` (R219). -/
  | ffma (d : BitVec 5) (a : BitVec 5) (b : BitVec 5) (t : BitVec 2) (r : BitVec 3)
  /-- `FDIV` (R219). -/
  | fdiv (d : BitVec 5) (a : BitVec 5) (b : BitVec 5) (t : BitVec 2) (r : BitVec 3)
  /-- `FSQRT` (R219). -/
  | fsqrt (d : BitVec 5) (a : BitVec 5) (t : BitVec 2) (r : BitVec 3)
  /-- `FMIN` (R219). -/
  | fmin (d : BitVec 5) (a : BitVec 5) (b : BitVec 5) (t : BitVec 2)
  /-- `FMAX` (R219). -/
  | fmax (d : BitVec 5) (a : BitVec 5) (b : BitVec 5) (t : BitVec 2)
  /-- `FABS` (R219). -/
  | fabs (d : BitVec 5) (a : BitVec 5) (t : BitVec 2)
  /-- `FNEG` (R219). -/
  | fneg (d : BitVec 5) (a : BitVec 5) (t : BitVec 2)
  /-- `FCVT` (R220). -/
  | fcvt (d : BitVec 5) (a : BitVec 5) (f : BitVec 5) (t : BitVec 5) (r : BitVec 3)
  /-- `FCMP` (R221). -/
  | fcmp (p : BitVec 3) (a : BitVec 5) (b : BitVec 5) (t : BitVec 2) (c : BitVec 4)
  /-- `LD` (R230). -/
  | ld (d : BitVec 5) (b : BitVec 5) (s : BitVec 3) (o : BitVec 2) (x : BitVec 10)
  /-- `LDS` (R230). -/
  | lds (d : BitVec 5) (b : BitVec 5) (s : BitVec 3) (o : BitVec 2) (x : BitVec 10)
  /-- `ST` (R230). -/
  | st (d : BitVec 5) (b : BitVec 5) (s : BitVec 3) (o : BitVec 2) (x : BitVec 10)
  /-- `LDF` (R308). -/
  | ldf (d : BitVec 5) (b : BitVec 5) (x : BitVec 10)
  /-- `STF` (R308). -/
  | stf (d : BitVec 5) (b : BitVec 5) (x : BitVec 10)
  /-- `STE` (R308). -/
  | ste (d : BitVec 5) (b : BitVec 5) (x : BitVec 10)
  /-- `AMO_ADD` (R312). -/
  | amoAdd (d : BitVec 5) (a : BitVec 5) (b : BitVec 5) (w : BitVec 1) (o : BitVec 2) (s : BitVec 3)
  /-- `AMO_MIN_I` (R312). -/
  | amoMinI (d : BitVec 5) (a : BitVec 5) (b : BitVec 5) (w : BitVec 1) (o : BitVec 2) (s : BitVec 3)
  /-- `AMO_MAX_I` (R312). -/
  | amoMaxI (d : BitVec 5) (a : BitVec 5) (b : BitVec 5) (w : BitVec 1) (o : BitVec 2) (s : BitVec 3)
  /-- `AMO_MIN_N` (R312). -/
  | amoMinN (d : BitVec 5) (a : BitVec 5) (b : BitVec 5) (w : BitVec 1) (o : BitVec 2) (s : BitVec 3)
  /-- `AMO_MAX_N` (R312). -/
  | amoMaxN (d : BitVec 5) (a : BitVec 5) (b : BitVec 5) (w : BitVec 1) (o : BitVec 2) (s : BitVec 3)
  /-- `AMO_AND` (R312). -/
  | amoAnd (d : BitVec 5) (a : BitVec 5) (b : BitVec 5) (w : BitVec 1) (o : BitVec 2) (s : BitVec 3)
  /-- `AMO_OR` (R312). -/
  | amoOr (d : BitVec 5) (a : BitVec 5) (b : BitVec 5) (w : BitVec 1) (o : BitVec 2) (s : BitVec 3)
  /-- `AMO_XOR` (R312). -/
  | amoXor (d : BitVec 5) (a : BitVec 5) (b : BitVec 5) (w : BitVec 1) (o : BitVec 2) (s : BitVec 3)
  /-- `AMO_SWAP` (R312). -/
  | amoSwap (d : BitVec 5) (a : BitVec 5) (b : BitVec 5) (w : BitVec 1) (o : BitVec 2) (s : BitVec 3)
  /-- `AMO_CAS` (R312). -/
  | amoCas (d : BitVec 5) (a : BitVec 5) (b : BitVec 5) (w : BitVec 1) (o : BitVec 2) (s : BitVec 3)
  /-- `AMO_FADD` (R312). -/
  | amoFadd (d : BitVec 5) (a : BitVec 5) (b : BitVec 5) (o : BitVec 2) (s : BitVec 3)
  /-- `SEND` (R237). -/
  | send (a : BitVec 5) (b : BitVec 5)
  /-- `SEND_NR` (R237). -/
  | sendNr (a : BitVec 5) (b : BitVec 5)
  /-- `SEND2` (R237). -/
  | send2 (d : BitVec 5) (a : BitVec 5) (b : BitVec 5)
  /-- `SEND2_NR` (R237). -/
  | send2Nr (d : BitVec 5) (a : BitVec 5) (b : BitVec 5)
  /-- `WEFT` (R241). -/
  | weft (d : BitVec 5) (a : BitVec 5) (b : BitVec 5)
  /-- `FOLD_PUT` (R243). -/
  | foldPut (b : BitVec 5) (t : BitVec 4)
  /-- `FOLD_CFG` (R244). -/
  | foldCfg (a : BitVec 5) (b : BitVec 5) (t : BitVec 4)
  /-- `FOLD_STAT` (R245). -/
  | foldStat (d : BitVec 5) (t : BitVec 4)
  /-- `COPY` (R303). -/
  | copy (d : BitVec 5) (a : BitVec 5)
  /-- `MLOAD` (R300). -/
  | mload (d : BitVec 5) (a : BitVec 5) (b : BitVec 5) (f : BitVec 3) (i : BitVec 2)
  /-- `MROW` (R300). -/
  | mrow (d : BitVec 5) (a : BitVec 5) (b : BitVec 5) (f : BitVec 3) (i : BitVec 2)
  /-- `MDRAIN` (R300). -/
  | mdrain (d : BitVec 5) (a : BitVec 5) (b : BitVec 5) (i : BitVec 2)
  /-- `MRES` (R300). -/
  | mres (d : BitVec 5) (a : BitVec 5) (i : BitVec 2)
  /-- `VADD` (R286). -/
  | vadd (d : BitVec 3) (a : BitVec 3) (b : BitVec 3) (m : BitVec 2) (z : BitVec 1) (w : BitVec 3)
  /-- `VSUB` (R286). -/
  | vsub (d : BitVec 3) (a : BitVec 3) (b : BitVec 3) (m : BitVec 2) (z : BitVec 1) (w : BitVec 3)
  /-- `VMUL` (R286). -/
  | vmul (d : BitVec 3) (a : BitVec 3) (b : BitVec 3) (m : BitVec 2) (z : BitVec 1) (w : BitVec 3)
  /-- `VMULH` (R286). -/
  | vmulh (d : BitVec 3) (a : BitVec 3) (b : BitVec 3) (m : BitVec 2) (z : BitVec 1) (w : BitVec 3)
  /-- `VMULHU` (R286). -/
  | vmulhu (d : BitVec 3) (a : BitVec 3) (b : BitVec 3) (m : BitVec 2) (z : BitVec 1) (w : BitVec 3)
  /-- `VAND` (R286). -/
  | vand (d : BitVec 3) (a : BitVec 3) (b : BitVec 3) (m : BitVec 2) (z : BitVec 1) (w : BitVec 3)
  /-- `VOR` (R286). -/
  | vor (d : BitVec 3) (a : BitVec 3) (b : BitVec 3) (m : BitVec 2) (z : BitVec 1) (w : BitVec 3)
  /-- `VXOR` (R286). -/
  | vxor (d : BitVec 3) (a : BitVec 3) (b : BitVec 3) (m : BitVec 2) (z : BitVec 1) (w : BitVec 3)
  /-- `VANDN` (R286). -/
  | vandn (d : BitVec 3) (a : BitVec 3) (b : BitVec 3) (m : BitVec 2) (z : BitVec 1) (w : BitVec 3)
  /-- `VSHL` (R286). -/
  | vshl (d : BitVec 3) (a : BitVec 3) (b : BitVec 3) (m : BitVec 2) (z : BitVec 1) (w : BitVec 3)
  /-- `VSHR` (R286). -/
  | vshr (d : BitVec 3) (a : BitVec 3) (b : BitVec 3) (m : BitVec 2) (z : BitVec 1) (w : BitVec 3)
  /-- `VSRA` (R286). -/
  | vsra (d : BitVec 3) (a : BitVec 3) (b : BitVec 3) (m : BitVec 2) (z : BitVec 1) (w : BitVec 3)
  /-- `VMIN` (R286). -/
  | vmin (d : BitVec 3) (a : BitVec 3) (b : BitVec 3) (m : BitVec 2) (z : BitVec 1) (w : BitVec 3)
  /-- `VMAX` (R286). -/
  | vmax (d : BitVec 3) (a : BitVec 3) (b : BitVec 3) (m : BitVec 2) (z : BitVec 1) (w : BitVec 3)
  /-- `VMINU` (R286). -/
  | vminu (d : BitVec 3) (a : BitVec 3) (b : BitVec 3) (m : BitVec 2) (z : BitVec 1) (w : BitVec 3)
  /-- `VMAXU` (R286). -/
  | vmaxu (d : BitVec 3) (a : BitVec 3) (b : BitVec 3) (m : BitVec 2) (z : BitVec 1) (w : BitVec 3)
  /-- `VADDS` (R286). -/
  | vadds (d : BitVec 3) (a : BitVec 3) (b : BitVec 3) (m : BitVec 2) (z : BitVec 1) (w : BitVec 3)
  /-- `VADDSU` (R286). -/
  | vaddsu (d : BitVec 3) (a : BitVec 3) (b : BitVec 3) (m : BitVec 2) (z : BitVec 1) (w : BitVec 3)
  /-- `VSUBS` (R286). -/
  | vsubs (d : BitVec 3) (a : BitVec 3) (b : BitVec 3) (m : BitVec 2) (z : BitVec 1) (w : BitVec 3)
  /-- `VSUBSU` (R286). -/
  | vsubsu (d : BitVec 3) (a : BitVec 3) (b : BitVec 3) (m : BitVec 2) (z : BitVec 1) (w : BitVec 3)
  /-- `VABS` (R286). -/
  | vabs (d : BitVec 3) (a : BitVec 3) (m : BitVec 2) (z : BitVec 1) (w : BitVec 3)
  /-- `VMAD` (R286). -/
  | vmad (d : BitVec 3) (a : BitVec 3) (b : BitVec 3) (c : BitVec 3) (m : BitVec 2) (z : BitVec 1) (w : BitVec 3)
  /-- `VMOV` (R286). -/
  | vmov (d : BitVec 3) (a : BitVec 3) (m : BitVec 2) (z : BitVec 1) (w : BitVec 3)
  /-- `VSPLAT` (R286). -/
  | vsplat (d : BitVec 3) (c : BitVec 3) (m : BitVec 2) (z : BitVec 1) (w : BitVec 3)
  /-- `VCMP` (R287). -/
  | vcmp (d : BitVec 2) (a : BitVec 3) (b : BitVec 3) (m : BitVec 2) (z : BitVec 1) (w : BitVec 3) (c : BitVec 4)
  /-- `VFADD` (R288). -/
  | vfadd (d : BitVec 3) (a : BitVec 3) (b : BitVec 3) (m : BitVec 2) (z : BitVec 1) (t : BitVec 3) (r : BitVec 3)
  /-- `VFSUB` (R288). -/
  | vfsub (d : BitVec 3) (a : BitVec 3) (b : BitVec 3) (m : BitVec 2) (z : BitVec 1) (t : BitVec 3) (r : BitVec 3)
  /-- `VFMUL` (R288). -/
  | vfmul (d : BitVec 3) (a : BitVec 3) (b : BitVec 3) (m : BitVec 2) (z : BitVec 1) (t : BitVec 3) (r : BitVec 3)
  /-- `VFFMA` (R288). -/
  | vffma (d : BitVec 3) (a : BitVec 3) (b : BitVec 3) (c : BitVec 3) (m : BitVec 2) (z : BitVec 1) (t : BitVec 3) (r : BitVec 3)
  /-- `VFDIV` (R288). -/
  | vfdiv (d : BitVec 3) (a : BitVec 3) (b : BitVec 3) (m : BitVec 2) (z : BitVec 1) (t : BitVec 3) (r : BitVec 3)
  /-- `VFSQRT` (R288). -/
  | vfsqrt (d : BitVec 3) (a : BitVec 3) (m : BitVec 2) (z : BitVec 1) (t : BitVec 3) (r : BitVec 3)
  /-- `VFMIN` (R288). -/
  | vfmin (d : BitVec 3) (a : BitVec 3) (b : BitVec 3) (m : BitVec 2) (z : BitVec 1) (t : BitVec 3)
  /-- `VFMAX` (R288). -/
  | vfmax (d : BitVec 3) (a : BitVec 3) (b : BitVec 3) (m : BitVec 2) (z : BitVec 1) (t : BitVec 3)
  /-- `VFABS` (R288). -/
  | vfabs (d : BitVec 3) (a : BitVec 3) (m : BitVec 2) (z : BitVec 1) (t : BitVec 3)
  /-- `VFNEG` (R288). -/
  | vfneg (d : BitVec 3) (a : BitVec 3) (m : BitVec 2) (z : BitVec 1) (t : BitVec 3)
  /-- `VFCMP` (R289). -/
  | vfcmp (d : BitVec 2) (a : BitVec 3) (b : BitVec 3) (m : BitVec 2) (z : BitVec 1) (t : BitVec 3) (c : BitVec 4)
  /-- `VCVT` (R290). -/
  | vcvt (d : BitVec 3) (a : BitVec 3) (f : BitVec 5) (m : BitVec 2) (z : BitVec 1) (r : BitVec 3) (t : BitVec 5)
  /-- `VRADD` (R292). -/
  | vradd (d : BitVec 3) (a : BitVec 3) (m : BitVec 2) (w : BitVec 3)
  /-- `VRMIN` (R292). -/
  | vrmin (d : BitVec 3) (a : BitVec 3) (m : BitVec 2) (w : BitVec 3)
  /-- `VRMAX` (R292). -/
  | vrmax (d : BitVec 3) (a : BitVec 3) (m : BitVec 2) (w : BitVec 3)
  /-- `VRMINU` (R292). -/
  | vrminu (d : BitVec 3) (a : BitVec 3) (m : BitVec 2) (w : BitVec 3)
  /-- `VRMAXU` (R292). -/
  | vrmaxu (d : BitVec 3) (a : BitVec 3) (m : BitVec 2) (w : BitVec 3)
  /-- `VRAND` (R292). -/
  | vrand (d : BitVec 3) (a : BitVec 3) (m : BitVec 2) (w : BitVec 3)
  /-- `VROR` (R292). -/
  | vror (d : BitVec 3) (a : BitVec 3) (m : BitVec 2) (w : BitVec 3)
  /-- `VRXOR` (R292). -/
  | vrxor (d : BitVec 3) (a : BitVec 3) (m : BitVec 2) (w : BitVec 3)
  /-- `VRFADD` (R292). -/
  | vrfadd (d : BitVec 3) (a : BitVec 3) (m : BitVec 2) (t : BitVec 3) (r : BitVec 3)
  /-- `VRFMIN` (R292). -/
  | vrfmin (d : BitVec 3) (a : BitVec 3) (m : BitVec 2) (t : BitVec 3)
  /-- `VRFMAX` (R292). -/
  | vrfmax (d : BitVec 3) (a : BitVec 3) (m : BitVec 2) (t : BitVec 3)
  /-- `VPERM` (R293). -/
  | vperm (d : BitVec 3) (a : BitVec 3) (b : BitVec 3) (m : BitVec 2) (z : BitVec 1) (w : BitVec 3)
  /-- `VSLUP` (R293). -/
  | vslup (d : BitVec 3) (a : BitVec 3) (c : BitVec 3) (m : BitVec 2) (z : BitVec 1) (w : BitVec 3)
  /-- `VSLDN` (R293). -/
  | vsldn (d : BitVec 3) (a : BitVec 3) (c : BitVec 3) (m : BitVec 2) (z : BitVec 1) (w : BitVec 3)
  /-- `VZIPLO` (R293). -/
  | vziplo (d : BitVec 3) (a : BitVec 3) (b : BitVec 3) (m : BitVec 2) (z : BitVec 1) (w : BitVec 3)
  /-- `VZIPHI` (R293). -/
  | vziphi (d : BitVec 3) (a : BitVec 3) (b : BitVec 3) (m : BitVec 2) (z : BitVec 1) (w : BitVec 3)
  /-- `VUNZLO` (R293). -/
  | vunzlo (d : BitVec 3) (a : BitVec 3) (b : BitVec 3) (m : BitVec 2) (z : BitVec 1) (w : BitVec 3)
  /-- `VUNZHI` (R293). -/
  | vunzhi (d : BitVec 3) (a : BitVec 3) (b : BitVec 3) (m : BitVec 2) (z : BitVec 1) (w : BitVec 3)
  /-- `VCOMP` (R293). -/
  | vcomp (d : BitVec 3) (a : BitVec 3) (m : BitVec 2) (w : BitVec 3)
  /-- `VEXPD` (R293). -/
  | vexpd (d : BitVec 3) (a : BitVec 3) (m : BitVec 2) (z : BitVec 1) (w : BitVec 3)
  /-- `VGET` (R293). -/
  | vget (a : BitVec 3) (c : BitVec 3) (m : BitVec 2) (w : BitVec 3)
  /-- `VMAND` (R294). -/
  | vmand (d : BitVec 2) (a : BitVec 2) (b : BitVec 2)
  /-- `VMOR` (R294). -/
  | vmor (d : BitVec 2) (a : BitVec 2) (b : BitVec 2)
  /-- `VMXOR` (R294). -/
  | vmxor (d : BitVec 2) (a : BitVec 2) (b : BitVec 2)
  /-- `VMANDN` (R294). -/
  | vmandn (d : BitVec 2) (a : BitVec 2) (b : BitVec 2)
  /-- `VMNOT` (R294). -/
  | vmnot (d : BitVec 2) (a : BitVec 2)
  /-- `VGATHER` (R296). -/
  | vgather (d : BitVec 3) (a : BitVec 3) (c : BitVec 3) (m : BitVec 2) (z : BitVec 1) (w : BitVec 3)
  /-- `VSCATTER` (R296). -/
  | vscatter (d : BitVec 3) (a : BitVec 3) (c : BitVec 3) (m : BitVec 2) (z : BitVec 1) (w : BitVec 3)
  /-- `VLD` (R295). -/
  | vld (m : BitVec 2) (v : BitVec 3) (b : BitVec 5) (w : BitVec 3) (x : BitVec 10)
  /-- `VST` (R295). -/
  | vst (m : BitVec 2) (v : BitVec 3) (b : BitVec 5) (w : BitVec 3) (x : BitVec 10)
  /-- `PBIND` (R397). -/
  | pbind (d : BitVec 5) (a : BitVec 5)
  /-- `PFREE` (R398). -/
  | pfree (d : BitVec 5) (a : BitVec 5)
  /-- `PSTAT_POCKET` (R399). -/
  | pstatPocket (d : BitVec 5) (a : BitVec 5)
  /-- `PSTAT_WAITING` (R399). -/
  | pstatWaiting (d : BitVec 5) (a : BitVec 5)
  /-- `PSTAT_ALLOCATION` (R399). -/
  | pstatAllocation (d : BitVec 5) (a : BitVec 5)
  /-- `RESUME` (R400). -/
  | resume (a : BitVec 5)
  /-- `SPAWN` (R401). -/
  | spawn (d : BitVec 5) (a : BitVec 5) (b : BitVec 5)
  /-- `STEAL` (R402). -/
  | steal (d : BitVec 5) (a : BitVec 5) (b : BitVec 5)
  /-- `LEAVE_MATRIX` (R419). -/
  | leaveMatrix (d : BitVec 5) (a : BitVec 5) (y : BitVec 1)
  /-- `LEAVE_SWAP` (R419). -/
  | leaveSwap (d : BitVec 5) (a : BitVec 5) (y : BitVec 1)
  /-- `LEAVE_STREAM` (R419). -/
  | leaveStream (d : BitVec 5) (a : BitVec 5) (y : BitVec 1)
  /-- `LEAVE_SWATCH` (R419). -/
  | leaveSwatch (d : BitVec 5) (a : BitVec 5) (y : BitVec 1)
  /-- `SNAP` (R426). -/
  | snap (d : BitVec 5) (a : BitVec 5) (b : BitVec 5)
  /-- `TLBINV_ALL` (R409). -/
  | tlbinvAll (a : BitVec 5)
  /-- `TLBINV_ASID` (R409). -/
  | tlbinvAsid (a : BitVec 5)
  /-- `TLBINV_VA` (R409). -/
  | tlbinvVa (a : BitVec 5) (b : BitVec 5)
  /-- `ASIDRET` (R410). -/
  | asidret (d : BitVec 5) (a : BitVec 5)
  /-- `DARN_PREP` (R413). -/
  | darnPrep (d : BitVec 5) (a : BitVec 5)
  /-- `DARN_COMMIT` (R414). -/
  | darnCommit (d : BitVec 5)
  /-- `DARN_ABORT` (R416). -/
  | darnAbort (d : BitVec 5)
  /-- `DARN_BANK` (R417). -/
  | darnBank (d : BitVec 5) (a : BitVec 5)
  /-- `SWATCH_RUN` (R421). -/
  | swatchRun (d : BitVec 5) (a : BitVec 5)
  /-- `SWATCH_STAT` (R421). -/
  | swatchStat (d : BitVec 5) (a : BitVec 5)
  /-- `SWATCH_STOP` (R421). -/
  | swatchStop (d : BitVec 5) (a : BitVec 5)
  /-- `XAMO_ADD` (R423). -/
  | xamoAdd (d : BitVec 5) (a : BitVec 5) (b : BitVec 5) (w : BitVec 1) (o : BitVec 2) (s : BitVec 3)
  /-- `XAMO_MIN_I` (R423). -/
  | xamoMinI (d : BitVec 5) (a : BitVec 5) (b : BitVec 5) (w : BitVec 1) (o : BitVec 2) (s : BitVec 3)
  /-- `XAMO_MAX_I` (R423). -/
  | xamoMaxI (d : BitVec 5) (a : BitVec 5) (b : BitVec 5) (w : BitVec 1) (o : BitVec 2) (s : BitVec 3)
  /-- `XAMO_MIN_N` (R423). -/
  | xamoMinN (d : BitVec 5) (a : BitVec 5) (b : BitVec 5) (w : BitVec 1) (o : BitVec 2) (s : BitVec 3)
  /-- `XAMO_MAX_N` (R423). -/
  | xamoMaxN (d : BitVec 5) (a : BitVec 5) (b : BitVec 5) (w : BitVec 1) (o : BitVec 2) (s : BitVec 3)
  /-- `XAMO_AND` (R423). -/
  | xamoAnd (d : BitVec 5) (a : BitVec 5) (b : BitVec 5) (w : BitVec 1) (o : BitVec 2) (s : BitVec 3)
  /-- `XAMO_OR` (R423). -/
  | xamoOr (d : BitVec 5) (a : BitVec 5) (b : BitVec 5) (w : BitVec 1) (o : BitVec 2) (s : BitVec 3)
  /-- `XAMO_XOR` (R423). -/
  | xamoXor (d : BitVec 5) (a : BitVec 5) (b : BitVec 5) (w : BitVec 1) (o : BitVec 2) (s : BitVec 3)
  /-- `XAMO_SWAP` (R423). -/
  | xamoSwap (d : BitVec 5) (a : BitVec 5) (b : BitVec 5) (w : BitVec 1) (o : BitVec 2) (s : BitVec 3)
  /-- `XAMO_CAS` (R423). -/
  | xamoCas (d : BitVec 5) (a : BitVec 5) (b : BitVec 5) (w : BitVec 1) (o : BitVec 2) (s : BitVec 3)
  /-- `XAMO_FADD` (R423). -/
  | xamoFadd (d : BitVec 5) (a : BitVec 5) (b : BitVec 5) (o : BitVec 2) (s : BitVec 3)
  /-- `XST` (R424). -/
  | xst (d : BitVec 5) (b : BitVec 5) (s : BitVec 3) (o : BitVec 2) (x : BitVec 10)
  /-- `T_ADD` (R180). -/
  | tAdd (g : BitVec 2) (x : BitVec 3) (u : BitVec 1) (d : BitVec 4) (a : BitVec 4) (b : BitVec 4) (l : BitVec 1)
  /-- `T_SUB` (R180). -/
  | tSub (g : BitVec 2) (x : BitVec 3) (u : BitVec 1) (d : BitVec 4) (a : BitVec 4) (b : BitVec 4) (l : BitVec 1)
  /-- `T_MUL` (R180). -/
  | tMul (g : BitVec 2) (x : BitVec 3) (u : BitVec 1) (d : BitVec 4) (a : BitVec 4) (b : BitVec 4) (l : BitVec 1)
  /-- `T_MULH` (R180). -/
  | tMulh (g : BitVec 2) (x : BitVec 3) (u : BitVec 1) (d : BitVec 4) (a : BitVec 4) (b : BitVec 4)
  /-- `T_AND` (R180). -/
  | tAnd (g : BitVec 2) (x : BitVec 3) (u : BitVec 1) (d : BitVec 4) (a : BitVec 4) (b : BitVec 4)
  /-- `T_OR` (R180). -/
  | tOr (g : BitVec 2) (x : BitVec 3) (u : BitVec 1) (d : BitVec 4) (a : BitVec 4) (b : BitVec 4)
  /-- `T_XOR` (R180). -/
  | tXor (g : BitVec 2) (x : BitVec 3) (u : BitVec 1) (d : BitVec 4) (a : BitVec 4) (b : BitVec 4)
  /-- `T_SHL` (R180). -/
  | tShl (g : BitVec 2) (x : BitVec 3) (u : BitVec 1) (d : BitVec 4) (a : BitVec 4) (b : BitVec 4)
  /-- `T_SHR` (R180). -/
  | tShr (g : BitVec 2) (x : BitVec 3) (u : BitVec 1) (d : BitVec 4) (a : BitVec 4) (b : BitVec 4)
  /-- `T_SRA` (R180). -/
  | tSra (g : BitVec 2) (x : BitVec 3) (u : BitVec 1) (d : BitVec 4) (a : BitVec 4) (b : BitVec 4)
  /-- `T_MIN` (R180). -/
  | tMin (g : BitVec 2) (x : BitVec 3) (u : BitVec 1) (d : BitVec 4) (a : BitVec 4) (b : BitVec 4) (l : BitVec 1)
  /-- `T_MAX` (R180). -/
  | tMax (g : BitVec 2) (x : BitVec 3) (u : BitVec 1) (d : BitVec 4) (a : BitVec 4) (b : BitVec 4) (l : BitVec 1)
  /-- `T_MINU` (R180). -/
  | tMinu (g : BitVec 2) (x : BitVec 3) (u : BitVec 1) (d : BitVec 4) (a : BitVec 4) (b : BitVec 4) (l : BitVec 1)
  /-- `T_MAXU` (R180). -/
  | tMaxu (g : BitVec 2) (x : BitVec 3) (u : BitVec 1) (d : BitVec 4) (a : BitVec 4) (b : BitVec 4) (l : BitVec 1)
  /-- `T_CMP` (R181). -/
  | tCmp (g : BitVec 2) (x : BitVec 3) (u : BitVec 1) (d : BitVec 4) (a : BitVec 4) (b : BitVec 4) (c : BitVec 4) (q : BitVec 3)
  /-- `T_MOV` (R182). -/
  | tMov (g : BitVec 2) (x : BitVec 3) (u : BitVec 1) (d : BitVec 4) (a : BitVec 4) (q : BitVec 3)
  /-- `T_SEL` (R183). -/
  | tSel (g : BitVec 2) (x : BitVec 3) (u : BitVec 1) (d : BitVec 4) (a : BitVec 4) (b : BitVec 4) (n : BitVec 1) (q : BitVec 3)
  /-- `T_TAG` (R184). -/
  | tTag (g : BitVec 2) (x : BitVec 3) (u : BitVec 1) (d : BitVec 4) (a : BitVec 4) (t : BitVec 3)
  /-- `T_DUP` (R185). -/
  | tDup (g : BitVec 2) (x : BitVec 3) (u : BitVec 1) (d : BitVec 4) (a : BitVec 4) (n : BitVec 2)
  /-- `T_MASKB` (R195). -/
  | tMaskb (g : BitVec 2) (x : BitVec 3) (u : BitVec 1) (d : BitVec 4) (a : BitVec 4) (b : BitVec 4) (w : BitVec 2) (s : BitVec 1)
  /-- `T_CRNG` (R192). -/
  | tCrng (g : BitVec 2) (x : BitVec 3) (u : BitVec 1) (d : BitVec 4) (a : BitVec 4) (b : BitVec 4)
  /-- `T_FADD` (R187). -/
  | tFadd (g : BitVec 2) (x : BitVec 3) (u : BitVec 1) (f : BitVec 2) (d : BitVec 4) (a : BitVec 4) (b : BitVec 4) (r : BitVec 3)
  /-- `T_FSUB` (R187). -/
  | tFsub (g : BitVec 2) (x : BitVec 3) (u : BitVec 1) (f : BitVec 2) (d : BitVec 4) (a : BitVec 4) (b : BitVec 4) (r : BitVec 3)
  /-- `T_FMUL` (R187). -/
  | tFmul (g : BitVec 2) (x : BitVec 3) (u : BitVec 1) (f : BitVec 2) (d : BitVec 4) (a : BitVec 4) (b : BitVec 4) (r : BitVec 3)
  /-- `T_FFMA` (R187). -/
  | tFfma (g : BitVec 2) (x : BitVec 3) (u : BitVec 1) (f : BitVec 2) (d : BitVec 4) (a : BitVec 4) (b : BitVec 4) (r : BitVec 3) (k : BitVec 3)
  /-- `T_FMIN` (R188). -/
  | tFmin (g : BitVec 2) (x : BitVec 3) (u : BitVec 1) (f : BitVec 2) (d : BitVec 4) (a : BitVec 4) (b : BitVec 4)
  /-- `T_FMAX` (R188). -/
  | tFmax (g : BitVec 2) (x : BitVec 3) (u : BitVec 1) (f : BitVec 2) (d : BitVec 4) (a : BitVec 4) (b : BitVec 4)
  /-- `T_FCMP_F64` (R189). -/
  | tFcmpF64 (g : BitVec 2) (x : BitVec 3) (u : BitVec 1) (d : BitVec 4) (a : BitVec 4) (b : BitVec 4) (c : BitVec 4) (q : BitVec 3)
  /-- `T_FCMP_F32` (R189). -/
  | tFcmpF32 (g : BitVec 2) (x : BitVec 3) (u : BitVec 1) (d : BitVec 4) (a : BitVec 4) (b : BitVec 4) (c : BitVec 4) (q : BitVec 3)
  /-- `T_FCVT` (R190). -/
  | tFcvt (g : BitVec 2) (x : BitVec 3) (u : BitVec 1) (d : BitVec 4) (a : BitVec 4) (r : BitVec 3) (c : BitVec 7)
  /-- `T_LDR` (R198). -/
  | tLdr (g : BitVec 2) (x : BitVec 3) (u : BitVec 1) (d : BitVec 4) (a : BitVec 4) (e : BitVec 4) (t : BitVec 1) (k : BitVec 2) (c : BitVec 2)
  /-- `T_STR` (R199). -/
  | tStr (g : BitVec 2) (x : BitVec 3) (u : BitVec 1) (d : BitVec 4) (a : BitVec 4) (b : BitVec 4) (t : BitVec 1) (k : BitVec 2)
  /-- `T_AMO_ADD` (R200). -/
  | tAmoAdd (g : BitVec 2) (x : BitVec 3) (u : BitVec 1) (d : BitVec 4) (a : BitVec 4) (b : BitVec 4) (t : BitVec 1) (k : BitVec 2)
  /-- `T_AMO_MIN_I` (R200). -/
  | tAmoMinI (g : BitVec 2) (x : BitVec 3) (u : BitVec 1) (d : BitVec 4) (a : BitVec 4) (b : BitVec 4) (t : BitVec 1) (k : BitVec 2)
  /-- `T_AMO_MAX_I` (R200). -/
  | tAmoMaxI (g : BitVec 2) (x : BitVec 3) (u : BitVec 1) (d : BitVec 4) (a : BitVec 4) (b : BitVec 4) (t : BitVec 1) (k : BitVec 2)
  /-- `T_AMO_MIN_N` (R200). -/
  | tAmoMinN (g : BitVec 2) (x : BitVec 3) (u : BitVec 1) (d : BitVec 4) (a : BitVec 4) (b : BitVec 4) (t : BitVec 1) (k : BitVec 2)
  /-- `T_AMO_MAX_N` (R200). -/
  | tAmoMaxN (g : BitVec 2) (x : BitVec 3) (u : BitVec 1) (d : BitVec 4) (a : BitVec 4) (b : BitVec 4) (t : BitVec 1) (k : BitVec 2)
  /-- `T_AMO_AND` (R200). -/
  | tAmoAnd (g : BitVec 2) (x : BitVec 3) (u : BitVec 1) (d : BitVec 4) (a : BitVec 4) (b : BitVec 4) (t : BitVec 1) (k : BitVec 2)
  /-- `T_AMO_OR` (R200). -/
  | tAmoOr (g : BitVec 2) (x : BitVec 3) (u : BitVec 1) (d : BitVec 4) (a : BitVec 4) (b : BitVec 4) (t : BitVec 1) (k : BitVec 2)
  /-- `T_AMO_XOR` (R200). -/
  | tAmoXor (g : BitVec 2) (x : BitVec 3) (u : BitVec 1) (d : BitVec 4) (a : BitVec 4) (b : BitVec 4) (t : BitVec 1) (k : BitVec 2)
  /-- `T_AMO_SWAP` (R200). -/
  | tAmoSwap (g : BitVec 2) (x : BitVec 3) (u : BitVec 1) (d : BitVec 4) (a : BitVec 4) (b : BitVec 4) (t : BitVec 1) (k : BitVec 2)
  /-- `T_AMO_CAS` (R200). -/
  | tAmoCas (g : BitVec 2) (x : BitVec 3) (u : BitVec 1) (d : BitVec 4) (a : BitVec 4) (b : BitVec 4) (t : BitVec 1) (k : BitVec 2)
  /-- `T_AMO_FADD` (R200). -/
  | tAmoFadd (g : BitVec 2) (x : BitVec 3) (u : BitVec 1) (d : BitVec 4) (a : BitVec 4) (b : BitVec 4) (t : BitVec 1) (k : BitVec 2)
  /-- `T_STEER` (R202). -/
  | tSteer (g : BitVec 2) (x : BitVec 3) (u : BitVec 1) (a : BitVec 4) (i : BitVec 2)
  /-- `T_MSEL` (R203). -/
  | tMsel (g : BitVec 2) (x : BitVec 3) (u : BitVec 1) (a : BitVec 4) (q : BitVec 2)
  /-- `T_SIG` (R205). -/
  | tSig (g : BitVec 2) (x : BitVec 3) (u : BitVec 1) (a : BitVec 4) (l : BitVec 7)
  /-- `T_HALT` (R206). -/
  | tHalt (g : BitVec 2) (x : BitVec 3) (u : BitVec 1)
  /-- `T_SIG2` (R205). -/
  | tSig2 (g : BitVec 2) (x : BitVec 3) (u : BitVec 1) (a : BitVec 4) (b : BitVec 4) (l : BitVec 7)
  /-- `POWER_ON` (R507). -/
  | powerOn
  /-- `FIRST_STAGE_IMAGE_CHECK` (R508). -/
  | firstStageImageCheck
  /-- `QSET` (R253). -/
  | qset
  /-- `WINSET` (R447). -/
  | winset
  /-- `SWROUND` (R492). -/
  | swround
  /-- `CAREREAD` (R510). -/
  | careread
  /-- `ATTEST` (R509). -/
  | attest
  /-- `SETID` (R504). -/
  | setid
  /-- `STAGE` (R505). -/
  | stage
  /-- `FETCH` (R505). -/
  | fetch
  /-- `IDKEY` (R505). -/
  | idkey
  /-- `ALERT_READ` (R503). -/
  | alertRead
  /-- `QERR_READ` (R254). -/
  | qerrRead
  /-- `WIDX_WRITE` (R254). -/
  | widxWrite
  /-- `REGISTER_WRITE` (R28). -/
  | registerWrite
  /-- `ASIDS_WRITE` (R354). -/
  | asidsWrite
  /-- `GSTAT_RESUME_WRITE` (R362). -/
  | gstatResumeWrite
  /-- `LPCH_WRITE` (R440). -/
  | lpchWrite
  /-- `LPCH_QUIESCE_DONE` (R440). -/
  | lpchQuiesceDone
  /-- `RELADV_WRITE` (R469). -/
  | reladvWrite
  /-- `HQCFG_WRITE` (R376). -/
  | hqcfgWrite
  /-- `GROUP_TABLE_WRITE` (R79). -/
  | groupTableWrite
  /-- `LAUNCH_RECORD_READ` (R256). -/
  | launchRecordRead
  /-- `LAUNCH_ADMIT` (R258). -/
  | launchAdmit
  /-- `STITCH_INJECT` (R238). -/
  | stitchInject
  /-- `STITCH_ARRIVAL` (R378). -/
  | stitchArrival
  /-- `STITCH_ANSWER_ARRIVAL` (R380). -/
  | stitchAnswerArrival
  /-- `STITCH_RETURN_ARRIVAL` (R381). -/
  | stitchReturnArrival
  /-- `LOCAL_REFUSAL_RETURN` (R381). -/
  | localRefusalReturn
  /-- `RESUME_MARKER_ARRIVAL` (R381). -/
  | resumeMarkerArrival
  /-- `PICK` (R387). -/
  | pick
  /-- `STEAL_REQUEST_TIMEOUT` (R393). -/
  | stealRequestTimeout
  /-- `PLOG_REPLAY_TIMEOUT` (R395). -/
  | plogReplayTimeout
  /-- `BUDGET_EXPIRY` (R391). -/
  | budgetExpiry
  /-- `LATE_REFUSAL_ARRIVAL` (R480). -/
  | lateRefusalArrival
  /-- `LATE_REFUSAL_TRAP` (R480). -/
  | lateRefusalTrap
  /-- `NEEDLE_MEMORY_REPLY` (R209). -/
  | needleMemoryReply
  /-- `STORE_ACK` (R329). -/
  | storeAck
  /-- `FE_REQUEST_RETRY` (R309). -/
  | feRequestRetry
  /-- `TLB_WALK` (R353). -/
  | tlbWalk
  /-- `INVALIDATION_ARRIVAL` (R364). -/
  | invalidationArrival
  /-- `EXTENT_PATCH` (R362). -/
  | extentPatch
  /-- `RESIDENT_LOAD_COMPLETE` (R67). -/
  | residentLoadComplete
  /-- `ROW_DELIVER` (R73). -/
  | rowDeliver
  /-- `ISLAND_FIRE` (R69). -/
  | islandFire
  /-- `ISLAND_REFIRE` (R72). -/
  | islandRefire
  /-- `RESULT_PORT_SEND` (R70). -/
  | resultPortSend
  /-- `FOLD_COMBINE` (R94). -/
  | foldCombine
  /-- `FOLD_DRAIN_INCOMPLETE` (R99). -/
  | foldDrainIncomplete
  /-- `COMPACT_STEP` (R269). -/
  | compactStep
  /-- `MERGE_STEP` (R270). -/
  | mergeStep
  /-- `COPY_SRC_READ` (R273). -/
  | copySrcRead
  /-- `COPY_DST_WRITE` (R273). -/
  | copyDstWrite
  /-- `CT_TOKEN_IN` (R456). -/
  | ctTokenIn
  /-- `CT_TOKEN_OUT` (R456). -/
  | ctTokenOut
  /-- `BURST_BEAT` (R173). -/
  | burstBeat
  /-- `PREDICATE_SQUASH` (R265). -/
  | predicateSquash
  /-- `ELEMENT_MEM_COMPLETION` (R197). -/
  | elementMemCompletion
  /-- `LDR_REPLY` (R198). -/
  | ldrReply
  /-- `DRAIN_WAVE_DOWN` (R278). -/
  | drainWaveDown
  /-- `DRAIN_WAVE_ANSWER` (R278). -/
  | drainWaveAnswer
  /-- `RECONFIG_TOKEN` (R279). -/
  | reconfigToken
  /-- `CONFIG_SWAP` (R280). -/
  | configSwap
  /-- `TACK_PREFETCH` (R280). -/
  | tackPrefetch
  /-- `LAUNCH_COMPLETE` (R262). -/
  | launchComplete
  /-- `GROUP_START_BY_LOADER` (R13). -/
  | groupStartByLoader
  /-- `GROUP_STREAMING_START` (R80). -/
  | groupStreamingStart
  /-- `WEFT_FRAME_SEND` (R82). -/
  | weftFrameSend
  /-- `WEFT_FRAME_RECEIVE` (R84). -/
  | weftFrameReceive
  /-- `WEFT_HELD_DRAIN` (R84). -/
  | weftHeldDrain
  /-- `REPLAY_REQUEST_ARRIVAL` (R85). -/
  | replayRequestArrival
  /-- `WEFT_WATCHDOG` (R86). -/
  | weftWatchdog
  /-- `MEMBER_COMPLETION_REPORT` (R80). -/
  | memberCompletionReport
  /-- `RECEIVER_LOCK` (R77). -/
  | receiverLock
  /-- `RING_RANGE_END` (R89). -/
  | ringRangeEnd
  /-- `RING_RELOCK_DONE` (R89). -/
  | ringRelockDone
  /-- `WEFT_STATUS_RETURN` (R241). -/
  | weftStatusReturn
  /-- `COPY_COMPLETE` (R305). -/
  | copyComplete
  /-- `MAT_COMPLETE` (R299). -/
  | matComplete
  /-- `LEAVE_GRANT` (R495). -/
  | leaveGrant
  /-- `THERMAL_SAMPLE` (R500). -/
  | thermalSample
  /-- `TILE_CLOCK_GATE` (R91). -/
  | tileClockGate
  /-- `TILE_WAKE` (R91). -/
  | tileWake
  /-- `CARE_LOG_FLUSH` (R510). -/
  | careLogFlush
  /-- `CARE_CHECKPOINT` (R510). -/
  | careCheckpoint
  /-- `SWATCH_ROUND` (R492). -/
  | swatchRound
  /-- `SWATCH_TEST_END` (R421). -/
  | swatchTestEnd
  /-- `SWATCH_TEST_ABANDON` (R422). -/
  | swatchTestAbandon
  /-- `ELEMENT_PARITY_ERROR` (R489). -/
  | elementParityError
  /-- `ROUTER_FLIT_ARRIVAL` (R24). -/
  | routerFlitArrival
  /-- `LINK_FAILURE` (R32). -/
  | linkFailure
  /-- `PATH_HOLD_TIMEOUT` (R32). -/
  | pathHoldTimeout
  /-- `DRAIN_MARKER_ARRIVAL` (R31). -/
  | drainMarkerArrival
  /-- `CLOCK_SOURCE_LOSS` (R44). -/
  | clockSourceLoss
  /-- `CLOCK_SWITCH_HOLD_END` (R44). -/
  | clockSwitchHoldEnd
  /-- `BANK_REWEAVE` (R39). -/
  | bankReweave
  /-- `BANK_REWEAVE_DONE` (R417). -/
  | bankReweaveDone
  /-- `TILE_FWD_TO_DEAD` (R415). -/
  | tileFwdToDead
  /-- `DARN_PLAN_TIMEOUT` (R416). -/
  | darnPlanTimeout
  /-- `LINK_PORT_UP` (R434). -/
  | linkPortUp
  /-- `LINK_LANE_FENCE` (R435). -/
  | linkLaneFence
  /-- `LINK_FAR_END_TIMEOUT` (R435). -/
  | linkFarEndTimeout
  /-- `LINK_PORT_DOWN` (R443). -/
  | linkPortDown
  /-- `LINK_TOKEN_ARRIVAL` (R439). -/
  | linkTokenArrival
  /-- `PEER_TRAFFIC_FORWARD` (R442). -/
  | peerTrafficForward
  /-- `STOP_WAVE` (R484). -/
  | stopWave
  /-- `STOP_FIRING_TIMEOUT` (R484). -/
  | stopFiringTimeout
  /-- `QUIET_WAVE` (R484). -/
  | quietWave
  /-- `SAVE_WAVE` (R484). -/
  | saveWave
  /-- `RESUME_WAVE` (R485). -/
  | resumeWave
  /-- `ACTCMD_EVICT` (R408). -/
  | actcmdEvict
  /-- `ACTCMD_RESTORE` (R408). -/
  | actcmdRestore
  /-- `RET` (R223). -/
  | ret
  /-- `ERET` (R407). -/
  | eret
  /-- `HEND` (R240). -/
  | hend
  /-- `IFENCE` (R315). -/
  | ifence
  /-- `RESERVED_ENCODING` (R134). -/
  | reservedEncoding
  /-- `FETCH_FAULT` (R135). -/
  | fetchFault
  /-- `EARLY_SPILL_OR_FILL` (R224). -/
  | earlySpillOrFill
  /-- `GENERATOR_ACCESS_REFUSED` (R196). -/
  | generatorAccessRefused
  /-- `SNAP_COMPLETE` (R427). -/
  | snapComplete
  /-- `ALLOCATION_QUERY_ANSWER` (R399). -/
  | allocationQueryAnswer
  /-- `LOAD_ZERO_CONFIGURED` (R261). -/
  | loadZeroConfigured
  /-- `POWER_LOSS` (R510). -/
  | powerLoss
  deriving DecidableEq, Repr

end Sys2Proof
end

