-- ==== Sys2Proof/WellFormed.lean ====
section
/-!
DEFINITION. Well-formed instructions: the values of fields that the encoding chapter reserves are refused here
(R134, R137-R168), so that decoding answers an instruction only where the spec defines one. `triggerOk` is the
second set of checks of the configuration loader, whose failure is load-failure code 0x03 (R163, R201, R207).
-/
namespace Sys2Proof.WellFormed

/-- Integer condition codes that R142 does not reserve. -/
def intCond (c : BitVec 4) : Bool := decide (c.toNat ≤ 9 ∨ c.toNat = 12 ∨ c.toNat = 13)

/-- Floating-point condition codes that R142 does not reserve. -/
def fltCond (c : BitVec 4) : Bool := decide (c.toNat ≤ 5 ∨ (10 ≤ c.toNat ∧ c.toNat ≤ 13))

/-- Rounding-mode codes valid in an S-mode field (R53, R168). -/
def rmOk (r : BitVec 3) : Bool := decide (r.toNat ≤ 4 ∨ r.toNat = 7)

/-- Rounding-mode codes valid in a T-mode word, where 111 is invalid (R165). -/
def trmOk (r : BitVec 3) : Bool := decide (r.toNat ≤ 4)

/-- Scope codes that R141 does not reserve. -/
def scopeOk (s : BitVec 3) : Bool := decide (s.toNat ≤ 4)

/-- Size codes that R139 does not reserve. -/
def sizeOk (s : BitVec 3) : Bool := decide (s.toNat ≤ 5)

/-- The register rule of R152: .Q names an even register, .O a multiple of four. -/
def groupOk (s : BitVec 3) (d : BitVec 5) : Bool :=
  if s = 4 then decide (d.toNat % 2 = 0) else if s = 5 then decide (d.toNat % 4 = 0) else true

/-- With W = 1 both d and b are even (R153). -/
def pairOk (w : BitVec 1) (d b : BitVec 5) : Bool :=
  decide (w = 0 ∨ (d.toNat % 2 = 0 ∧ b.toNat % 2 = 0))

/-- Element-type codes an FCVT may name (R144, R151): the mx forms are not among them. -/
def scalarType (t : BitVec 5) : Bool := decide (t.toNat ≤ 0x12)

/-- Integer lane widths of R143. -/
def laneOk (w : BitVec 3) : Bool := decide (w.toNat ≤ 4)

/-- Floating-point vector types of R143. -/
def vfOk (t : BitVec 3) : Bool := decide (2 ≤ t.toNat ∧ t.toNat ≤ 5)

/-- The mx block forms of R144. -/
def isMx (t : BitVec 5) : Bool := decide (0x13 ≤ t.toNat ∧ t.toNat ≤ 0x16)

/-- The types an mx form may be paired with (R290): f64, f32, f16 and bf16. -/
def mxPartner (t : BitVec 5) : Bool := decide (0x0A ≤ t.toNat ∧ t.toNat ≤ 0x0D)

/-- The type pairs and register pairs of VCVT (R290, R291). -/
def vcvtOk (f t : BitVec 5) (d a : BitVec 3) : Bool :=
  decide (f.toNat ≤ 0x16) && decide (t.toNat ≤ 0x16) &&
  (if isMx f then mxPartner t && decide (a.toNat % 2 = 0) else true) &&
  (if isMx t then mxPartner f && decide (d.toNat % 2 = 0) else true)

/-- The special-register numbers of R234 and R403. -/
def sprKnown (n : Nat) : Bool :=
  decide (n ≤ 0x00C ∨ (0x010 ≤ n ∧ n ≤ 0x016) ∨ n = 0x018 ∨ n = 0x019 ∨ (0x020 ≤ n ∧ n ≤ 0x022) ∨ n = 0x030 ∨
    (0x100 ≤ n ∧ n ≤ 0x102) ∨ n = 0x110)

/-- Under trigger mode 00, idx must be 000 (R161). -/
def idxOk (g : BitVec 2) (x : BitVec 3) : Bool := decide (g ≠ 0 ∨ x = 0)

/-- The q-bit field of AUX is named only when DEST is 13 (R165). -/
def qOk (d : BitVec 4) (q : BitVec 3) : Bool := decide (d = 13 ∨ q = 0)

end Sys2Proof.WellFormed

namespace Sys2Proof

open WellFormed in
/-- The field values that the encoding chapter defines, row by row; the event rows have no encoding. -/
def Instr.wellFormed (i : Instr) : Bool :=
  match i with
  | .bc p _ _ => decide (p ≠ 0)
  | .loop _ o => decide (o.toNat ≠ 0 ∧ o.toNat < 2 ^ 14)
  | .mfs _ n => sprKnown n.toNat
  | .mts _ n => sprKnown n.toNat
  | .fence s => scopeOk s
  | .cmp _ _ _ c => intCond c
  | .cmpi _ _ c _ => intCond c
  | .fadd _ _ _ _ r => rmOk r
  | .fsub _ _ _ _ r => rmOk r
  | .fmul _ _ _ _ r => rmOk r
  | .ffma _ _ _ _ r => rmOk r
  | .fdiv _ _ _ _ r => rmOk r
  | .fsqrt _ _ _ r => rmOk r
  | .fcvt _ _ f t r => scalarType f && scalarType t && rmOk r
  | .fcmp _ _ _ _ c => fltCond c
  | .ld d _ s o _ => sizeOk s && decide (o = 0 ∨ o = 1) && groupOk s d
  | .lds _ _ s o _ => decide (s.toNat ≤ 2) && decide (o = 0 ∨ o = 1)
  | .st d _ s o _ => sizeOk s && decide (o = 0 ∨ o = 2) && groupOk s d
  | .amoAdd d _ rb w _ s => scopeOk s && pairOk w d rb
  | .amoMinI d _ rb w _ s => scopeOk s && pairOk w d rb
  | .amoMaxI d _ rb w _ s => scopeOk s && pairOk w d rb
  | .amoMinN d _ rb w _ s => scopeOk s && pairOk w d rb
  | .amoMaxN d _ rb w _ s => scopeOk s && pairOk w d rb
  | .amoAnd d _ rb w _ s => scopeOk s && pairOk w d rb
  | .amoOr d _ rb w _ s => scopeOk s && pairOk w d rb
  | .amoXor d _ rb w _ s => scopeOk s && pairOk w d rb
  | .amoSwap d _ rb w _ s => scopeOk s && pairOk w d rb
  | .amoCas d _ rb w _ s => scopeOk s && pairOk w d rb
  | .amoFadd _ _ _ _ s => scopeOk s
  | .foldPut rb _ => decide (rb.toNat % 4 = 0)
  | .mload _ _ _ f _ => decide (f.toNat < 4)
  | .mrow _ _ _ f _ => decide (f.toNat < 4)
  | .vadd _ _ _ _ _ w => laneOk w
  | .vsub _ _ _ _ _ w => laneOk w
  | .vmul _ _ _ _ _ w => laneOk w
  | .vmulh _ _ _ _ _ w => laneOk w
  | .vmulhu _ _ _ _ _ w => laneOk w
  | .vand _ _ _ _ _ w => laneOk w
  | .vor _ _ _ _ _ w => laneOk w
  | .vxor _ _ _ _ _ w => laneOk w
  | .vandn _ _ _ _ _ w => laneOk w
  | .vshl _ _ _ _ _ w => laneOk w
  | .vshr _ _ _ _ _ w => laneOk w
  | .vsra _ _ _ _ _ w => laneOk w
  | .vmin _ _ _ _ _ w => laneOk w
  | .vmax _ _ _ _ _ w => laneOk w
  | .vminu _ _ _ _ _ w => laneOk w
  | .vmaxu _ _ _ _ _ w => laneOk w
  | .vadds _ _ _ _ _ w => laneOk w
  | .vaddsu _ _ _ _ _ w => laneOk w
  | .vsubs _ _ _ _ _ w => laneOk w
  | .vsubsu _ _ _ _ _ w => laneOk w
  | .vabs _ _ _ _ w => laneOk w
  | .vmad _ _ _ _ _ _ w => laneOk w
  | .vmov _ _ _ _ w => laneOk w
  | .vsplat _ _ _ _ w => laneOk w
  | .vcmp _ _ _ _ _ w c => laneOk w && intCond c
  | .vfadd _ _ _ _ _ t r => vfOk t && rmOk r
  | .vfsub _ _ _ _ _ t r => vfOk t && rmOk r
  | .vfmul _ _ _ _ _ t r => vfOk t && rmOk r
  | .vffma _ _ _ _ _ _ t r => vfOk t && rmOk r
  | .vfdiv _ _ _ _ _ t r => vfOk t && rmOk r
  | .vfsqrt _ _ _ _ t r => vfOk t && rmOk r
  | .vfmin _ _ _ _ _ t => vfOk t
  | .vfmax _ _ _ _ _ t => vfOk t
  | .vfabs _ _ _ _ t => vfOk t
  | .vfneg _ _ _ _ t => vfOk t
  | .vfcmp _ _ _ _ _ t c => vfOk t && fltCond c
  | .vcvt d a f _ _ r t => vcvtOk f t d a && rmOk r
  | .vradd _ _ _ w => laneOk w
  | .vrmin _ _ _ w => laneOk w
  | .vrmax _ _ _ w => laneOk w
  | .vrminu _ _ _ w => laneOk w
  | .vrmaxu _ _ _ w => laneOk w
  | .vrand _ _ _ w => laneOk w
  | .vror _ _ _ w => laneOk w
  | .vrxor _ _ _ w => laneOk w
  | .vrfadd _ _ _ t r => vfOk t && rmOk r
  | .vrfmin _ _ _ t => vfOk t
  | .vrfmax _ _ _ t => vfOk t
  | .vperm _ _ _ _ _ w => laneOk w
  | .vslup _ _ _ _ _ w => laneOk w
  | .vsldn _ _ _ _ _ w => laneOk w
  | .vziplo _ _ _ _ _ w => laneOk w
  | .vziphi _ _ _ _ _ w => laneOk w
  | .vunzlo _ _ _ _ _ w => laneOk w
  | .vunzhi _ _ _ _ _ w => laneOk w
  | .vcomp _ _ _ w => laneOk w
  | .vexpd _ _ _ _ w => laneOk w
  | .vget _ _ _ w => laneOk w
  | .vgather _ _ _ _ _ w => laneOk w && decide (w ≠ 0)
  | .vscatter _ _ _ _ _ w => laneOk w && decide (w ≠ 0)
  | .vld _ _ _ w _ => laneOk w
  | .vst _ _ _ w _ => laneOk w
  | .steal d _ _ => decide (d.toNat % 2 = 0)
  | .xamoAdd d _ rb w _ s => scopeOk s && pairOk w d rb
  | .xamoMinI d _ rb w _ s => scopeOk s && pairOk w d rb
  | .xamoMaxI d _ rb w _ s => scopeOk s && pairOk w d rb
  | .xamoMinN d _ rb w _ s => scopeOk s && pairOk w d rb
  | .xamoMaxN d _ rb w _ s => scopeOk s && pairOk w d rb
  | .xamoAnd d _ rb w _ s => scopeOk s && pairOk w d rb
  | .xamoOr d _ rb w _ s => scopeOk s && pairOk w d rb
  | .xamoXor d _ rb w _ s => scopeOk s && pairOk w d rb
  | .xamoSwap d _ rb w _ s => scopeOk s && pairOk w d rb
  | .xamoCas d _ rb w _ s => scopeOk s && pairOk w d rb
  | .xamoFadd _ _ _ _ s => scopeOk s
  | .xst d _ s o _ => sizeOk s && decide (o = 0 ∨ o = 2) && groupOk s d
  | .tAdd g x _ _ _ _ _ => idxOk g x
  | .tSub g x _ _ _ _ _ => idxOk g x
  | .tMul g x _ _ _ _ _ => idxOk g x
  | .tMulh g x _ _ _ _ => idxOk g x
  | .tAnd g x _ _ _ _ => idxOk g x
  | .tOr g x _ _ _ _ => idxOk g x
  | .tXor g x _ _ _ _ => idxOk g x
  | .tShl g x _ _ _ _ => idxOk g x
  | .tShr g x _ _ _ _ => idxOk g x
  | .tSra g x _ _ _ _ => idxOk g x
  | .tMin g x _ _ _ _ _ => idxOk g x
  | .tMax g x _ _ _ _ _ => idxOk g x
  | .tMinu g x _ _ _ _ _ => idxOk g x
  | .tMaxu g x _ _ _ _ _ => idxOk g x
  | .tCmp g x _ d _ _ c q => idxOk g x && intCond c && qOk d q
  | .tMov g x _ d _ q => idxOk g x && qOk d q
  | .tSel g x _ _ _ _ _ _ => idxOk g x
  | .tTag g x _ _ _ _ => idxOk g x
  | .tDup g x _ _ _ _ => idxOk g x
  | .tMaskb g x _ _ _ _ _ _ => idxOk g x
  | .tCrng g x _ _ _ _ => idxOk g x
  | .tFadd g x _ _ _ _ _ r => idxOk g x && trmOk r
  | .tFsub g x _ _ _ _ _ r => idxOk g x && trmOk r
  | .tFmul g x _ _ _ _ _ r => idxOk g x && trmOk r
  | .tFfma g x _ _ _ _ _ r _ => idxOk g x && trmOk r
  | .tFmin g x _ _ _ _ _ => idxOk g x
  | .tFmax g x _ _ _ _ _ => idxOk g x
  | .tFcmpF64 g x _ d _ _ c q => idxOk g x && fltCond c && qOk d q
  | .tFcmpF32 g x _ d _ _ c q => idxOk g x && fltCond c && qOk d q
  | .tFcvt g x _ _ _ r c => idxOk g x && trmOk r && decide (c.toNat < 16)
  | .tLdr g x _ _ _ _ _ _ _ => idxOk g x
  | .tStr g x _ _ _ _ _ _ => idxOk g x
  | .tAmoAdd g x _ _ _ _ _ _ => idxOk g x
  | .tAmoMinI g x _ _ _ _ _ _ => idxOk g x
  | .tAmoMaxI g x _ _ _ _ _ _ => idxOk g x
  | .tAmoMinN g x _ _ _ _ _ _ => idxOk g x
  | .tAmoMaxN g x _ _ _ _ _ _ => idxOk g x
  | .tAmoAnd g x _ _ _ _ _ _ => idxOk g x
  | .tAmoOr g x _ _ _ _ _ _ => idxOk g x
  | .tAmoXor g x _ _ _ _ _ _ => idxOk g x
  | .tAmoSwap g x _ _ _ _ _ _ => idxOk g x
  | .tAmoCas g x _ _ _ _ _ _ => idxOk g x
  | .tAmoFadd g x _ _ _ _ _ _ => idxOk g x
  | .tSteer g x _ _ _ => idxOk g x
  | .tMsel g x _ _ _ => idxOk g x
  | .tSig g x _ _ l => idxOk g x && decide (1 ≤ l.toNat ∧ l.toNat ≤ 124)
  | .tHalt g x _ => idxOk g x
  | .tSig2 g x _ _ _ l => idxOk g x && decide (1 ≤ l.toNat ∧ l.toNat ≤ 124)
  | _ => true

/-- What the shared rules need of a triggered word: its trigger, its destination and the sources it names
(R161, R162). `ka` and `kb` say whether the A and B fields are operands; `mem` marks LDR, STR and AMO, `fixed`
the instructions whose DEST must be 14, `pred` those that may write a predicate bit. -/
structure TForm where
  g : BitVec 2
  x : BitVec 3
  u : BitVec 1
  dest : BitVec 4
  a : Option (BitVec 4)
  b : Option (BitVec 4)
  tok : Option (BitVec 2)
  mem : Bool
  fixed : Bool
  pred : Bool
  deriving DecidableEq, Repr

/-- The trigger and operand fields of a triggered instruction; none for every other row. -/
def Instr.tform (i : Instr) : Option TForm :=
  match i with
  | .tAdd g x u d a rb _ => some ⟨g, x, u, d, some a, some rb, none, false, false, false⟩
  | .tSub g x u d a rb _ => some ⟨g, x, u, d, some a, some rb, none, false, false, false⟩
  | .tMul g x u d a rb _ => some ⟨g, x, u, d, some a, some rb, none, false, false, false⟩
  | .tMulh g x u d a rb => some ⟨g, x, u, d, some a, some rb, none, false, false, false⟩
  | .tAnd g x u d a rb => some ⟨g, x, u, d, some a, some rb, none, false, false, false⟩
  | .tOr g x u d a rb => some ⟨g, x, u, d, some a, some rb, none, false, false, false⟩
  | .tXor g x u d a rb => some ⟨g, x, u, d, some a, some rb, none, false, false, false⟩
  | .tShl g x u d a rb => some ⟨g, x, u, d, some a, some rb, none, false, false, false⟩
  | .tShr g x u d a rb => some ⟨g, x, u, d, some a, some rb, none, false, false, false⟩
  | .tSra g x u d a rb => some ⟨g, x, u, d, some a, some rb, none, false, false, false⟩
  | .tMin g x u d a rb _ => some ⟨g, x, u, d, some a, some rb, none, false, false, false⟩
  | .tMax g x u d a rb _ => some ⟨g, x, u, d, some a, some rb, none, false, false, false⟩
  | .tMinu g x u d a rb _ => some ⟨g, x, u, d, some a, some rb, none, false, false, false⟩
  | .tMaxu g x u d a rb _ => some ⟨g, x, u, d, some a, some rb, none, false, false, false⟩
  | .tCmp g x u d a rb _ _ => some ⟨g, x, u, d, some a, some rb, none, false, false, true⟩
  | .tMov g x u d a _ => some ⟨g, x, u, d, some a, none, none, false, false, true⟩
  | .tSel g x u d a rb _ _ => some ⟨g, x, u, d, some a, some rb, none, false, false, false⟩
  | .tTag g x u d a _ => some ⟨g, x, u, d, some a, none, none, false, false, false⟩
  | .tDup g x u d a _ => some ⟨g, x, u, d, some a, none, none, false, false, false⟩
  | .tMaskb g x u d a rb _ _ => some ⟨g, x, u, d, some a, some rb, none, false, false, false⟩
  | .tCrng g x u d a rb => some ⟨g, x, u, d, some a, some rb, none, false, false, false⟩
  | .tFadd g x u _ d a rb _ => some ⟨g, x, u, d, some a, some rb, none, false, false, false⟩
  | .tFsub g x u _ d a rb _ => some ⟨g, x, u, d, some a, some rb, none, false, false, false⟩
  | .tFmul g x u _ d a rb _ => some ⟨g, x, u, d, some a, some rb, none, false, false, false⟩
  | .tFfma g x u _ d a rb _ _ => some ⟨g, x, u, d, some a, some rb, none, false, false, false⟩
  | .tFmin g x u _ d a rb => some ⟨g, x, u, d, some a, some rb, none, false, false, false⟩
  | .tFmax g x u _ d a rb => some ⟨g, x, u, d, some a, some rb, none, false, false, false⟩
  | .tFcmpF64 g x u d a rb _ _ => some ⟨g, x, u, d, some a, some rb, none, false, false, true⟩
  | .tFcmpF32 g x u d a rb _ _ => some ⟨g, x, u, d, some a, some rb, none, false, false, true⟩
  | .tFcvt g x u d a _ _ => some ⟨g, x, u, d, some a, none, none, false, false, false⟩
  | .tLdr g x u d a _ t k _ => some ⟨g, x, u, d, some a, none, (if t = 1 then some k else none), true, false, false⟩
  | .tStr g x u d a rb t k => some ⟨g, x, u, d, some a, some rb, (if t = 1 then some k else none), true, false, false⟩
  | .tAmoAdd g x u d a rb t k => some ⟨g, x, u, d, some a, some rb, (if t = 1 then some k else none), true, false, false⟩
  | .tAmoMinI g x u d a rb t k => some ⟨g, x, u, d, some a, some rb, (if t = 1 then some k else none), true, false, false⟩
  | .tAmoMaxI g x u d a rb t k => some ⟨g, x, u, d, some a, some rb, (if t = 1 then some k else none), true, false, false⟩
  | .tAmoMinN g x u d a rb t k => some ⟨g, x, u, d, some a, some rb, (if t = 1 then some k else none), true, false, false⟩
  | .tAmoMaxN g x u d a rb t k => some ⟨g, x, u, d, some a, some rb, (if t = 1 then some k else none), true, false, false⟩
  | .tAmoAnd g x u d a rb t k => some ⟨g, x, u, d, some a, some rb, (if t = 1 then some k else none), true, false, false⟩
  | .tAmoOr g x u d a rb t k => some ⟨g, x, u, d, some a, some rb, (if t = 1 then some k else none), true, false, false⟩
  | .tAmoXor g x u d a rb t k => some ⟨g, x, u, d, some a, some rb, (if t = 1 then some k else none), true, false, false⟩
  | .tAmoSwap g x u d a rb t k => some ⟨g, x, u, d, some a, some rb, (if t = 1 then some k else none), true, false, false⟩
  | .tAmoCas g x u d a rb t k => some ⟨g, x, u, d, some a, some rb, (if t = 1 then some k else none), true, false, false⟩
  | .tAmoFadd g x u d a rb t k => some ⟨g, x, u, d, some a, some rb, (if t = 1 then some k else none), true, false, false⟩
  | .tSteer g x u a _ => some ⟨g, x, u, 14, some a, none, none, false, true, false⟩
  | .tMsel g x u a _ => some ⟨g, x, u, 14, some a, none, none, false, true, false⟩
  | .tSig g x u a _ => some ⟨g, x, u, 14, some a, none, none, false, true, false⟩
  | .tHalt g x u => some ⟨g, x, u, 14, none, none, none, false, true, false⟩
  | .tSig2 g x u a rb _ => some ⟨g, x, u, 14, some a, some rb, none, false, true, false⟩
  | _ => none

namespace TForm

/-- A source field that pops its channel (codes 8-11, R161). -/
def pops (c : Option (BitVec 4)) : Bool := c.any fun v => decide (8 ≤ v.toNat ∧ v.toNat ≤ 11)

/-- A source field that peeks its channel (codes 12-15, R161). -/
def peeks (c : Option (BitVec 4)) : Bool := c.any fun v => decide (12 ≤ v.toNat)

/-- The input channel a source field names, popped or peeked. -/
def chan (c : Option (BitVec 4)) : Option Nat :=
  c.bind fun v => if 8 ≤ v.toNat then some (v.toNat % 4) else none

/-- The combinations of R163, R201 and R207 that fail a load with code 0x03; `cas` says that the word is
AMO.CAS, whose DEST is a data register (R200). -/
def ok (f : TForm) (cas : Bool) : Bool :=
  (f.g != 3 || f.a.any (fun v => decide (8 ≤ v.toNat))) &&
  (f.u == 0 || ((pops f.a || pops f.b) && !peeks f.a && !peeks f.b && f.dest != 13 && !f.mem && !f.fixed)) &&
  (chan f.a == none || chan f.a != chan f.b || (!pops f.a && !pops f.b)) &&
  (f.tok.all fun k => some k.toNat != chan f.a && some k.toNat != chan f.b) &&
  (f.dest != 13 || f.pred) && (!cas || decide (f.dest.toNat < 8))

end TForm

/-- The checks whose failure is load-failure code 0x03 (R163, R207); true of every row that is not triggered. -/
def Instr.triggerOk (i : Instr) : Bool :=
  match i.tform with
  | none => true
  | some f => f.ok (match i with | .tAmoCas .. => true | _ => false)

end Sys2Proof
end

