-- ==== Sys2Proof/Decode.lean ====
section
/-!
DEFINITION. Decoding and encoding of Fredel words (R131-R168). A word is a number below 2^32 whose bit 0 is the
least significant (R3). The two issue modes use separate opcode spaces, so there are two decoders; each is total
and answers `none` for every word the encoding chapter does not define. The encoder is written from the same
field layouts.
-/
namespace Sys2Proof

/-- The field of `n` bits whose lowest bit is `lo` (R3). -/
def bits (w lo n : Nat) : Nat := w / 2 ^ lo % 2 ^ n

/-- The same field as a bit vector. -/
def fld (w lo n : Nat) : BitVec n := BitVec.ofNat n (w / 2 ^ lo)

/-- A field placed with its lowest bit at bit 0. -/
def at0 {n : Nat} (x : BitVec n) : Nat := x.toNat * 2 ^ 0

/-- A field placed with its lowest bit at bit 1. -/
def at1 {n : Nat} (x : BitVec n) : Nat := x.toNat * 2 ^ 1

/-- A field placed with its lowest bit at bit 2. -/
def at2 {n : Nat} (x : BitVec n) : Nat := x.toNat * 2 ^ 2

/-- A field placed with its lowest bit at bit 3. -/
def at3 {n : Nat} (x : BitVec n) : Nat := x.toNat * 2 ^ 3

/-- A field placed with its lowest bit at bit 4. -/
def at4 {n : Nat} (x : BitVec n) : Nat := x.toNat * 2 ^ 4

/-- A field placed with its lowest bit at bit 5. -/
def at5 {n : Nat} (x : BitVec n) : Nat := x.toNat * 2 ^ 5

/-- A field placed with its lowest bit at bit 6. -/
def at6 {n : Nat} (x : BitVec n) : Nat := x.toNat * 2 ^ 6

/-- A field placed with its lowest bit at bit 7. -/
def at7 {n : Nat} (x : BitVec n) : Nat := x.toNat * 2 ^ 7

/-- A field placed with its lowest bit at bit 10. -/
def at10 {n : Nat} (x : BitVec n) : Nat := x.toNat * 2 ^ 10

/-- A field placed with its lowest bit at bit 11. -/
def at11 {n : Nat} (x : BitVec n) : Nat := x.toNat * 2 ^ 11

/-- A field placed with its lowest bit at bit 12. -/
def at12 {n : Nat} (x : BitVec n) : Nat := x.toNat * 2 ^ 12

/-- A field placed with its lowest bit at bit 13. -/
def at13 {n : Nat} (x : BitVec n) : Nat := x.toNat * 2 ^ 13

/-- A field placed with its lowest bit at bit 14. -/
def at14 {n : Nat} (x : BitVec n) : Nat := x.toNat * 2 ^ 14

/-- A field placed with its lowest bit at bit 15. -/
def at15 {n : Nat} (x : BitVec n) : Nat := x.toNat * 2 ^ 15

/-- A field placed with its lowest bit at bit 16. -/
def at16 {n : Nat} (x : BitVec n) : Nat := x.toNat * 2 ^ 16

/-- A field placed with its lowest bit at bit 19. -/
def at19 {n : Nat} (x : BitVec n) : Nat := x.toNat * 2 ^ 19

/-- A field placed with its lowest bit at bit 20. -/
def at20 {n : Nat} (x : BitVec n) : Nat := x.toNat * 2 ^ 20

/-- A field placed with its lowest bit at bit 21. -/
def at21 {n : Nat} (x : BitVec n) : Nat := x.toNat * 2 ^ 21

/-- A field placed with its lowest bit at bit 22. -/
def at22 {n : Nat} (x : BitVec n) : Nat := x.toNat * 2 ^ 22

/-- A field placed with its lowest bit at bit 23. -/
def at23 {n : Nat} (x : BitVec n) : Nat := x.toNat * 2 ^ 23

/-- A field placed with its lowest bit at bit 26. -/
def at26 {n : Nat} (x : BitVec n) : Nat := x.toNat * 2 ^ 26

/-- A field placed with its lowest bit at bit 27. -/
def at27 {n : Nat} (x : BitVec n) : Nat := x.toNat * 2 ^ 27

/-- A field placed with its lowest bit at bit 30. -/
def at30 {n : Nat} (x : BitVec n) : Nat := x.toNat * 2 ^ 30

/-! ### Sequenced words, one definition for each major opcode (R145) -/

/-- Major 0x01 (R145-R160): EXT. -/
def decodeMajor01 (w : Nat) : Option Instr :=
    some (.ext (fld w 0 25))

/-- Major 0x02 (R145-R160): B. -/
def decodeMajor02 (w : Nat) : Option Instr :=
    if bits w 21 4 = 0 then some (.b (fld w 0 21)) else none

/-- Major 0x03 (R145-R160): BC. -/
def decodeMajor03 (w : Nat) : Option Instr :=
    some (.bc (fld w 22 3) (fld w 21 1) (fld w 0 21))

/-- Major 0x04 (R145-R160): CALL. -/
def decodeMajor04 (w : Nat) : Option Instr :=
    if bits w 21 4 = 0 then some (.call (fld w 0 21)) else none

/-- Major 0x05 (R145-R160): CALLR. -/
def decodeMajor05 (w : Nat) : Option Instr :=
    if bits w 0 15 = 0 ∧ bits w 20 5 = 0 then some (.callr (fld w 15 5)) else none

/-- Major 0x07 (R145-R160): BR. -/
def decodeMajor07 (w : Nat) : Option Instr :=
    if bits w 0 15 = 0 ∧ bits w 20 5 = 0 then some (.br (fld w 15 5)) else none

/-- Major 0x08 (R145-R160): LOOP. -/
def decodeMajor08 (w : Nat) : Option Instr :=
    if bits w 20 5 = 0 then some (.loop (fld w 15 5) (fld w 0 15)) else none

/-- Major 0x09 (R145-R160): TRAP. -/
def decodeMajor09 (w : Nat) : Option Instr :=
    if bits w 15 10 = 0 then some (.trap (fld w 0 15)) else none

/-- Major 0x0C (R145-R160): MFS. -/
def decodeMajor0C (w : Nat) : Option Instr :=
    if bits w 10 10 = 0 then some (.mfs (fld w 20 5) (fld w 0 10)) else none

/-- Major 0x0D (R145-R160): MTS. -/
def decodeMajor0D (w : Nat) : Option Instr :=
    if bits w 10 5 = 0 ∧ bits w 20 5 = 0 then some (.mts (fld w 15 5) (fld w 0 10)) else none

/-- Major 0x0E (R145-R160): FENCE, IFENCE. -/
def decodeMajor0E (w : Nat) : Option Instr :=
    if bits w 3 22 = 0 then some (.fence (fld w 0 3)) else
    if bits w 0 25 = 8 then some (.ifence) else none

/-- Major 0x10 (R145-R160): ADD, SUB, MUL, MULH, MULHU, DIV, DIVU, REM, REMU, AND, OR, XOR, ANDN, SHL, SHR, SRA, MIN, MAX, MINU, MAXU, CLZ, CTZ, POPC. -/
def decodeMajor10 (w : Nat) : Option Instr :=
    if bits w 0 10 = 0 then some (.add (fld w 20 5) (fld w 15 5) (fld w 10 5)) else
    if bits w 0 10 = 1 then some (.sub (fld w 20 5) (fld w 15 5) (fld w 10 5)) else
    if bits w 0 10 = 2 then some (.mul (fld w 20 5) (fld w 15 5) (fld w 10 5)) else
    if bits w 0 10 = 3 then some (.mulh (fld w 20 5) (fld w 15 5) (fld w 10 5)) else
    if bits w 0 10 = 4 then some (.mulhu (fld w 20 5) (fld w 15 5) (fld w 10 5)) else
    if bits w 0 10 = 5 then some (.div (fld w 20 5) (fld w 15 5) (fld w 10 5)) else
    if bits w 0 10 = 6 then some (.divu (fld w 20 5) (fld w 15 5) (fld w 10 5)) else
    if bits w 0 10 = 7 then some (.rem (fld w 20 5) (fld w 15 5) (fld w 10 5)) else
    if bits w 0 10 = 8 then some (.remu (fld w 20 5) (fld w 15 5) (fld w 10 5)) else
    if bits w 0 10 = 9 then some (.and (fld w 20 5) (fld w 15 5) (fld w 10 5)) else
    if bits w 0 10 = 10 then some (.or (fld w 20 5) (fld w 15 5) (fld w 10 5)) else
    if bits w 0 10 = 11 then some (.xor (fld w 20 5) (fld w 15 5) (fld w 10 5)) else
    if bits w 0 10 = 12 then some (.andn (fld w 20 5) (fld w 15 5) (fld w 10 5)) else
    if bits w 0 10 = 13 then some (.shl (fld w 20 5) (fld w 15 5) (fld w 10 5)) else
    if bits w 0 10 = 14 then some (.shr (fld w 20 5) (fld w 15 5) (fld w 10 5)) else
    if bits w 0 10 = 15 then some (.sra (fld w 20 5) (fld w 15 5) (fld w 10 5)) else
    if bits w 0 10 = 16 then some (.min (fld w 20 5) (fld w 15 5) (fld w 10 5)) else
    if bits w 0 10 = 17 then some (.max (fld w 20 5) (fld w 15 5) (fld w 10 5)) else
    if bits w 0 10 = 18 then some (.minu (fld w 20 5) (fld w 15 5) (fld w 10 5)) else
    if bits w 0 10 = 19 then some (.maxu (fld w 20 5) (fld w 15 5) (fld w 10 5)) else
    if bits w 0 15 = 20 then some (.clz (fld w 20 5) (fld w 15 5)) else
    if bits w 0 15 = 21 then some (.ctz (fld w 20 5) (fld w 15 5)) else
    if bits w 0 15 = 22 then some (.popc (fld w 20 5) (fld w 15 5)) else none

/-- Major 0x11 (R145-R160): ADDI. -/
def decodeMajor11 (w : Nat) : Option Instr :=
    some (.addi (fld w 20 5) (fld w 15 5) (fld w 0 15))

/-- Major 0x12 (R145-R160): ANDI. -/
def decodeMajor12 (w : Nat) : Option Instr :=
    some (.andi (fld w 20 5) (fld w 15 5) (fld w 0 15))

/-- Major 0x13 (R145-R160): ORI. -/
def decodeMajor13 (w : Nat) : Option Instr :=
    some (.ori (fld w 20 5) (fld w 15 5) (fld w 0 15))

/-- Major 0x14 (R145-R160): XORI. -/
def decodeMajor14 (w : Nat) : Option Instr :=
    some (.xori (fld w 20 5) (fld w 15 5) (fld w 0 15))

/-- Major 0x15 (R145-R160): SHLI. -/
def decodeMajor15 (w : Nat) : Option Instr :=
    if bits w 6 9 = 0 then some (.shli (fld w 20 5) (fld w 15 5) (fld w 0 6)) else none

/-- Major 0x16 (R145-R160): SHRI. -/
def decodeMajor16 (w : Nat) : Option Instr :=
    if bits w 6 9 = 0 then some (.shri (fld w 20 5) (fld w 15 5) (fld w 0 6)) else none

/-- Major 0x17 (R145-R160): SRAI. -/
def decodeMajor17 (w : Nat) : Option Instr :=
    if bits w 6 9 = 0 then some (.srai (fld w 20 5) (fld w 15 5) (fld w 0 6)) else none

/-- Major 0x18 (R145-R160): MULI. -/
def decodeMajor18 (w : Nat) : Option Instr :=
    some (.muli (fld w 20 5) (fld w 15 5) (fld w 0 15))

/-- Major 0x19 (R145-R160): CMP. -/
def decodeMajor19 (w : Nat) : Option Instr :=
    if bits w 4 6 = 0 ∧ bits w 23 2 = 0 then some (.cmp (fld w 20 3) (fld w 15 5) (fld w 10 5) (fld w 0 4)) else none

/-- Major 0x1A (R145-R160): CMPI. -/
def decodeMajor1A (w : Nat) : Option Instr :=
    if bits w 23 2 = 0 then some (.cmpi (fld w 20 3) (fld w 15 5) (fld w 11 4) (fld w 0 11)) else none

/-- Major 0x1B (R145-R160): PAND, POR, PXOR, PANDN. -/
def decodeMajor1B (w : Nat) : Option Instr :=
    if bits w 0 10 = 0 ∧ bits w 13 2 = 0 ∧ bits w 18 2 = 0 ∧ bits w 23 2 = 0 then some (.pand (fld w 20 3) (fld w 15 3) (fld w 10 3)) else
    if bits w 0 10 = 1 ∧ bits w 13 2 = 0 ∧ bits w 18 2 = 0 ∧ bits w 23 2 = 0 then some (.por (fld w 20 3) (fld w 15 3) (fld w 10 3)) else
    if bits w 0 10 = 2 ∧ bits w 13 2 = 0 ∧ bits w 18 2 = 0 ∧ bits w 23 2 = 0 then some (.pxor (fld w 20 3) (fld w 15 3) (fld w 10 3)) else
    if bits w 0 10 = 3 ∧ bits w 13 2 = 0 ∧ bits w 18 2 = 0 ∧ bits w 23 2 = 0 then some (.pandn (fld w 20 3) (fld w 15 3) (fld w 10 3)) else none

/-- Major 0x1C (R145-R160): SEL. -/
def decodeMajor1C (w : Nat) : Option Instr :=
    if bits w 4 6 = 0 then some (.sel (fld w 20 5) (fld w 15 5) (fld w 10 5) (fld w 3 1) (fld w 0 3)) else none

/-- Major 0x1D (R145-R160): LEA. -/
def decodeMajor1D (w : Nat) : Option Instr :=
    if bits w 3 7 = 0 then some (.lea (fld w 20 5) (fld w 15 5) (fld w 10 5) (fld w 0 3)) else none

/-- Major 0x1E (R145-R160): FADD, FSUB, FMUL, FFMA, FDIV, FSQRT, FMIN, FMAX, FABS, FNEG. -/
def decodeMajor1E (w : Nat) : Option Instr :=
    if bits w 0 1 = 0 ∧ bits w 6 4 = 0 then some (.fadd (fld w 20 5) (fld w 15 5) (fld w 10 5) (fld w 4 2) (fld w 1 3)) else
    if bits w 0 1 = 0 ∧ bits w 6 4 = 1 then some (.fsub (fld w 20 5) (fld w 15 5) (fld w 10 5) (fld w 4 2) (fld w 1 3)) else
    if bits w 0 1 = 0 ∧ bits w 6 4 = 2 then some (.fmul (fld w 20 5) (fld w 15 5) (fld w 10 5) (fld w 4 2) (fld w 1 3)) else
    if bits w 0 1 = 0 ∧ bits w 6 4 = 3 then some (.ffma (fld w 20 5) (fld w 15 5) (fld w 10 5) (fld w 4 2) (fld w 1 3)) else
    if bits w 0 1 = 0 ∧ bits w 6 4 = 4 then some (.fdiv (fld w 20 5) (fld w 15 5) (fld w 10 5) (fld w 4 2) (fld w 1 3)) else
    if bits w 0 1 = 0 ∧ bits w 6 9 = 5 then some (.fsqrt (fld w 20 5) (fld w 15 5) (fld w 4 2) (fld w 1 3)) else
    if bits w 0 4 = 0 ∧ bits w 6 4 = 6 then some (.fmin (fld w 20 5) (fld w 15 5) (fld w 10 5) (fld w 4 2)) else
    if bits w 0 4 = 0 ∧ bits w 6 4 = 7 then some (.fmax (fld w 20 5) (fld w 15 5) (fld w 10 5) (fld w 4 2)) else
    if bits w 0 4 = 0 ∧ bits w 6 9 = 8 then some (.fabs (fld w 20 5) (fld w 15 5) (fld w 4 2)) else
    if bits w 0 4 = 0 ∧ bits w 6 9 = 9 then some (.fneg (fld w 20 5) (fld w 15 5) (fld w 4 2)) else none

/-- Major 0x1F (R145-R160): FCVT. -/
def decodeMajor1F (w : Nat) : Option Instr :=
    if bits w 0 2 = 0 then some (.fcvt (fld w 20 5) (fld w 15 5) (fld w 10 5) (fld w 5 5) (fld w 2 3)) else none

/-- Major 0x20 (R145-R160): FCMP. -/
def decodeMajor20 (w : Nat) : Option Instr :=
    if bits w 6 4 = 0 ∧ bits w 23 2 = 0 then some (.fcmp (fld w 20 3) (fld w 15 5) (fld w 10 5) (fld w 4 2) (fld w 0 4)) else none

/-- Major 0x28 (R145-R160): LD. -/
def decodeMajor28 (w : Nat) : Option Instr :=
    some (.ld (fld w 20 5) (fld w 15 5) (fld w 12 3) (fld w 10 2) (fld w 0 10))

/-- Major 0x29 (R145-R160): LDS. -/
def decodeMajor29 (w : Nat) : Option Instr :=
    some (.lds (fld w 20 5) (fld w 15 5) (fld w 12 3) (fld w 10 2) (fld w 0 10))

/-- Major 0x2A (R145-R160): ST. -/
def decodeMajor2A (w : Nat) : Option Instr :=
    some (.st (fld w 20 5) (fld w 15 5) (fld w 12 3) (fld w 10 2) (fld w 0 10))

/-- Major 0x2B (R145-R160): LDF. -/
def decodeMajor2B (w : Nat) : Option Instr :=
    if bits w 10 5 = 12 then some (.ldf (fld w 20 5) (fld w 15 5) (fld w 0 10)) else none

/-- Major 0x2C (R145-R160): STF. -/
def decodeMajor2C (w : Nat) : Option Instr :=
    if bits w 10 5 = 12 then some (.stf (fld w 20 5) (fld w 15 5) (fld w 0 10)) else none

/-- Major 0x2D (R145-R160): STE. -/
def decodeMajor2D (w : Nat) : Option Instr :=
    if bits w 10 5 = 12 then some (.ste (fld w 20 5) (fld w 15 5) (fld w 0 10)) else none

/-- Major 0x2E (R145-R160): AMO_ADD, AMO_MIN_I, AMO_MAX_I, AMO_MIN_N, AMO_MAX_N, AMO_AND, AMO_OR, AMO_XOR, AMO_SWAP, AMO_CAS, AMO_FADD. -/
def decodeMajor2E (w : Nat) : Option Instr :=
    if bits w 6 4 = 0 then some (.amoAdd (fld w 20 5) (fld w 15 5) (fld w 10 5) (fld w 5 1) (fld w 3 2) (fld w 0 3)) else
    if bits w 6 4 = 1 then some (.amoMinI (fld w 20 5) (fld w 15 5) (fld w 10 5) (fld w 5 1) (fld w 3 2) (fld w 0 3)) else
    if bits w 6 4 = 2 then some (.amoMaxI (fld w 20 5) (fld w 15 5) (fld w 10 5) (fld w 5 1) (fld w 3 2) (fld w 0 3)) else
    if bits w 6 4 = 3 then some (.amoMinN (fld w 20 5) (fld w 15 5) (fld w 10 5) (fld w 5 1) (fld w 3 2) (fld w 0 3)) else
    if bits w 6 4 = 4 then some (.amoMaxN (fld w 20 5) (fld w 15 5) (fld w 10 5) (fld w 5 1) (fld w 3 2) (fld w 0 3)) else
    if bits w 6 4 = 5 then some (.amoAnd (fld w 20 5) (fld w 15 5) (fld w 10 5) (fld w 5 1) (fld w 3 2) (fld w 0 3)) else
    if bits w 6 4 = 6 then some (.amoOr (fld w 20 5) (fld w 15 5) (fld w 10 5) (fld w 5 1) (fld w 3 2) (fld w 0 3)) else
    if bits w 6 4 = 7 then some (.amoXor (fld w 20 5) (fld w 15 5) (fld w 10 5) (fld w 5 1) (fld w 3 2) (fld w 0 3)) else
    if bits w 6 4 = 8 then some (.amoSwap (fld w 20 5) (fld w 15 5) (fld w 10 5) (fld w 5 1) (fld w 3 2) (fld w 0 3)) else
    if bits w 6 4 = 9 then some (.amoCas (fld w 20 5) (fld w 15 5) (fld w 10 5) (fld w 5 1) (fld w 3 2) (fld w 0 3)) else
    if bits w 5 5 = 20 then some (.amoFadd (fld w 20 5) (fld w 15 5) (fld w 10 5) (fld w 3 2) (fld w 0 3)) else none

/-- Major 0x30 (R145-R160): SEND, SEND_NR, SEND2, SEND2_NR. -/
def decodeMajor30 (w : Nat) : Option Instr :=
    if bits w 0 10 = 0 ∧ bits w 20 5 = 0 then some (.send (fld w 15 5) (fld w 10 5)) else
    if bits w 0 10 = 1 ∧ bits w 20 5 = 0 then some (.sendNr (fld w 15 5) (fld w 10 5)) else
    if bits w 0 10 = 2 then some (.send2 (fld w 20 5) (fld w 15 5) (fld w 10 5)) else
    if bits w 0 10 = 3 then some (.send2Nr (fld w 20 5) (fld w 15 5) (fld w 10 5)) else none

/-- Major 0x31 (R145-R160): WEFT. -/
def decodeMajor31 (w : Nat) : Option Instr :=
    if bits w 0 10 = 0 then some (.weft (fld w 20 5) (fld w 15 5) (fld w 10 5)) else none

/-- Major 0x32 (R145-R160): FOLD_PUT, FOLD_CFG, FOLD_STAT. -/
def decodeMajor32 (w : Nat) : Option Instr :=
    if bits w 0 2 = 0 ∧ bits w 6 4 = 0 ∧ bits w 15 10 = 0 then some (.foldPut (fld w 10 5) (fld w 2 4)) else
    if bits w 0 2 = 1 ∧ bits w 6 4 = 0 ∧ bits w 20 5 = 0 then some (.foldCfg (fld w 15 5) (fld w 10 5) (fld w 2 4)) else
    if bits w 0 2 = 2 ∧ bits w 6 14 = 0 then some (.foldStat (fld w 20 5) (fld w 2 4)) else none

/-- Major 0x33 (R145-R160): COPY. -/
def decodeMajor33 (w : Nat) : Option Instr :=
    if bits w 0 15 = 0 then some (.copy (fld w 20 5) (fld w 15 5)) else none

/-- Major 0x34 (R145-R160): MLOAD, MROW, MDRAIN, MRES. -/
def decodeMajor34 (w : Nat) : Option Instr :=
    if bits w 5 5 = 0 then some (.mload (fld w 20 5) (fld w 15 5) (fld w 10 5) (fld w 2 3) (fld w 0 2)) else
    if bits w 5 5 = 8 then some (.mrow (fld w 20 5) (fld w 15 5) (fld w 10 5) (fld w 2 3) (fld w 0 2)) else
    if bits w 2 8 = 128 then some (.mdrain (fld w 20 5) (fld w 15 5) (fld w 10 5) (fld w 0 2)) else
    if bits w 2 13 = 192 then some (.mres (fld w 20 5) (fld w 15 5) (fld w 0 2)) else none

/-- Major 0x38 (R145-R160): VADD, VSUB, VMUL, VMULH, VMULHU, VAND, VOR, VXOR, VANDN, VSHL, VSHR, VSRA, VMIN, VMAX, VMINU, VMAXU, VADDS, VADDSU, VSUBS, VSUBSU, VABS, VMAD, VMOV, VSPLAT, VCMP. -/
def decodeMajor38 (w : Nat) : Option Instr :=
    if bits w 0 7 = 0 ∧ bits w 13 3 = 0 then some (.vadd (fld w 22 3) (fld w 19 3) (fld w 16 3) (fld w 11 2) (fld w 10 1) (fld w 7 3)) else
    if bits w 0 7 = 1 ∧ bits w 13 3 = 0 then some (.vsub (fld w 22 3) (fld w 19 3) (fld w 16 3) (fld w 11 2) (fld w 10 1) (fld w 7 3)) else
    if bits w 0 7 = 2 ∧ bits w 13 3 = 0 then some (.vmul (fld w 22 3) (fld w 19 3) (fld w 16 3) (fld w 11 2) (fld w 10 1) (fld w 7 3)) else
    if bits w 0 7 = 3 ∧ bits w 13 3 = 0 then some (.vmulh (fld w 22 3) (fld w 19 3) (fld w 16 3) (fld w 11 2) (fld w 10 1) (fld w 7 3)) else
    if bits w 0 7 = 4 ∧ bits w 13 3 = 0 then some (.vmulhu (fld w 22 3) (fld w 19 3) (fld w 16 3) (fld w 11 2) (fld w 10 1) (fld w 7 3)) else
    if bits w 0 7 = 5 ∧ bits w 13 3 = 0 then some (.vand (fld w 22 3) (fld w 19 3) (fld w 16 3) (fld w 11 2) (fld w 10 1) (fld w 7 3)) else
    if bits w 0 7 = 6 ∧ bits w 13 3 = 0 then some (.vor (fld w 22 3) (fld w 19 3) (fld w 16 3) (fld w 11 2) (fld w 10 1) (fld w 7 3)) else
    if bits w 0 7 = 7 ∧ bits w 13 3 = 0 then some (.vxor (fld w 22 3) (fld w 19 3) (fld w 16 3) (fld w 11 2) (fld w 10 1) (fld w 7 3)) else
    if bits w 0 7 = 8 ∧ bits w 13 3 = 0 then some (.vandn (fld w 22 3) (fld w 19 3) (fld w 16 3) (fld w 11 2) (fld w 10 1) (fld w 7 3)) else
    if bits w 0 7 = 9 ∧ bits w 13 3 = 0 then some (.vshl (fld w 22 3) (fld w 19 3) (fld w 16 3) (fld w 11 2) (fld w 10 1) (fld w 7 3)) else
    if bits w 0 7 = 10 ∧ bits w 13 3 = 0 then some (.vshr (fld w 22 3) (fld w 19 3) (fld w 16 3) (fld w 11 2) (fld w 10 1) (fld w 7 3)) else
    if bits w 0 7 = 11 ∧ bits w 13 3 = 0 then some (.vsra (fld w 22 3) (fld w 19 3) (fld w 16 3) (fld w 11 2) (fld w 10 1) (fld w 7 3)) else
    if bits w 0 7 = 12 ∧ bits w 13 3 = 0 then some (.vmin (fld w 22 3) (fld w 19 3) (fld w 16 3) (fld w 11 2) (fld w 10 1) (fld w 7 3)) else
    if bits w 0 7 = 13 ∧ bits w 13 3 = 0 then some (.vmax (fld w 22 3) (fld w 19 3) (fld w 16 3) (fld w 11 2) (fld w 10 1) (fld w 7 3)) else
    if bits w 0 7 = 14 ∧ bits w 13 3 = 0 then some (.vminu (fld w 22 3) (fld w 19 3) (fld w 16 3) (fld w 11 2) (fld w 10 1) (fld w 7 3)) else
    if bits w 0 7 = 15 ∧ bits w 13 3 = 0 then some (.vmaxu (fld w 22 3) (fld w 19 3) (fld w 16 3) (fld w 11 2) (fld w 10 1) (fld w 7 3)) else
    if bits w 0 7 = 16 ∧ bits w 13 3 = 0 then some (.vadds (fld w 22 3) (fld w 19 3) (fld w 16 3) (fld w 11 2) (fld w 10 1) (fld w 7 3)) else
    if bits w 0 7 = 17 ∧ bits w 13 3 = 0 then some (.vaddsu (fld w 22 3) (fld w 19 3) (fld w 16 3) (fld w 11 2) (fld w 10 1) (fld w 7 3)) else
    if bits w 0 7 = 18 ∧ bits w 13 3 = 0 then some (.vsubs (fld w 22 3) (fld w 19 3) (fld w 16 3) (fld w 11 2) (fld w 10 1) (fld w 7 3)) else
    if bits w 0 7 = 19 ∧ bits w 13 3 = 0 then some (.vsubsu (fld w 22 3) (fld w 19 3) (fld w 16 3) (fld w 11 2) (fld w 10 1) (fld w 7 3)) else
    if bits w 0 7 = 20 ∧ bits w 13 6 = 0 then some (.vabs (fld w 22 3) (fld w 19 3) (fld w 11 2) (fld w 10 1) (fld w 7 3)) else
    if bits w 0 7 = 21 then some (.vmad (fld w 22 3) (fld w 19 3) (fld w 16 3) (fld w 13 3) (fld w 11 2) (fld w 10 1) (fld w 7 3)) else
    if bits w 0 7 = 22 ∧ bits w 13 6 = 0 then some (.vmov (fld w 22 3) (fld w 19 3) (fld w 11 2) (fld w 10 1) (fld w 7 3)) else
    if bits w 0 7 = 23 ∧ bits w 16 6 = 0 then some (.vsplat (fld w 22 3) (fld w 13 3) (fld w 11 2) (fld w 10 1) (fld w 7 3)) else
    if bits w 4 3 = 2 ∧ bits w 13 3 = 0 ∧ bits w 24 1 = 0 then some (.vcmp (fld w 22 2) (fld w 19 3) (fld w 16 3) (fld w 11 2) (fld w 10 1) (fld w 7 3) (fld w 0 4)) else none

/-- Major 0x39 (R145-R160): VFADD, VFSUB, VFMUL, VFFMA, VFDIV, VFSQRT, VFMIN, VFMAX, VFABS, VFNEG, VFCMP. -/
def decodeMajor39 (w : Nat) : Option Instr :=
    if bits w 3 4 = 0 ∧ bits w 13 3 = 0 then some (.vfadd (fld w 22 3) (fld w 19 3) (fld w 16 3) (fld w 11 2) (fld w 10 1) (fld w 7 3) (fld w 0 3)) else
    if bits w 3 4 = 1 ∧ bits w 13 3 = 0 then some (.vfsub (fld w 22 3) (fld w 19 3) (fld w 16 3) (fld w 11 2) (fld w 10 1) (fld w 7 3) (fld w 0 3)) else
    if bits w 3 4 = 2 ∧ bits w 13 3 = 0 then some (.vfmul (fld w 22 3) (fld w 19 3) (fld w 16 3) (fld w 11 2) (fld w 10 1) (fld w 7 3) (fld w 0 3)) else
    if bits w 3 4 = 3 then some (.vffma (fld w 22 3) (fld w 19 3) (fld w 16 3) (fld w 13 3) (fld w 11 2) (fld w 10 1) (fld w 7 3) (fld w 0 3)) else
    if bits w 3 4 = 4 ∧ bits w 13 3 = 0 then some (.vfdiv (fld w 22 3) (fld w 19 3) (fld w 16 3) (fld w 11 2) (fld w 10 1) (fld w 7 3) (fld w 0 3)) else
    if bits w 3 4 = 5 ∧ bits w 13 6 = 0 then some (.vfsqrt (fld w 22 3) (fld w 19 3) (fld w 11 2) (fld w 10 1) (fld w 7 3) (fld w 0 3)) else
    if bits w 0 7 = 48 ∧ bits w 13 3 = 0 then some (.vfmin (fld w 22 3) (fld w 19 3) (fld w 16 3) (fld w 11 2) (fld w 10 1) (fld w 7 3)) else
    if bits w 0 7 = 56 ∧ bits w 13 3 = 0 then some (.vfmax (fld w 22 3) (fld w 19 3) (fld w 16 3) (fld w 11 2) (fld w 10 1) (fld w 7 3)) else
    if bits w 0 7 = 64 ∧ bits w 13 6 = 0 then some (.vfabs (fld w 22 3) (fld w 19 3) (fld w 11 2) (fld w 10 1) (fld w 7 3)) else
    if bits w 0 7 = 72 ∧ bits w 13 6 = 0 then some (.vfneg (fld w 22 3) (fld w 19 3) (fld w 11 2) (fld w 10 1) (fld w 7 3)) else
    if bits w 4 3 = 7 ∧ bits w 13 3 = 0 ∧ bits w 24 1 = 0 then some (.vfcmp (fld w 22 2) (fld w 19 3) (fld w 16 3) (fld w 11 2) (fld w 10 1) (fld w 7 3) (fld w 0 4)) else none

/-- Major 0x3A (R145-R160): VCVT. -/
def decodeMajor3A (w : Nat) : Option Instr :=
    if bits w 5 2 = 0 ∧ bits w 13 1 = 0 then some (.vcvt (fld w 22 3) (fld w 19 3) (fld w 14 5) (fld w 11 2) (fld w 10 1) (fld w 7 3) (fld w 0 5)) else none

/-- Major 0x3B (R145-R160): VRADD, VRMIN, VRMAX, VRMINU, VRMAXU, VRAND, VROR, VRXOR, VRFADD, VRFMIN, VRFMAX. -/
def decodeMajor3B (w : Nat) : Option Instr :=
    if bits w 0 7 = 0 ∧ bits w 10 1 = 0 ∧ bits w 13 6 = 0 then some (.vradd (fld w 22 3) (fld w 19 3) (fld w 11 2) (fld w 7 3)) else
    if bits w 0 7 = 8 ∧ bits w 10 1 = 0 ∧ bits w 13 6 = 0 then some (.vrmin (fld w 22 3) (fld w 19 3) (fld w 11 2) (fld w 7 3)) else
    if bits w 0 7 = 16 ∧ bits w 10 1 = 0 ∧ bits w 13 6 = 0 then some (.vrmax (fld w 22 3) (fld w 19 3) (fld w 11 2) (fld w 7 3)) else
    if bits w 0 7 = 24 ∧ bits w 10 1 = 0 ∧ bits w 13 6 = 0 then some (.vrminu (fld w 22 3) (fld w 19 3) (fld w 11 2) (fld w 7 3)) else
    if bits w 0 7 = 32 ∧ bits w 10 1 = 0 ∧ bits w 13 6 = 0 then some (.vrmaxu (fld w 22 3) (fld w 19 3) (fld w 11 2) (fld w 7 3)) else
    if bits w 0 7 = 40 ∧ bits w 10 1 = 0 ∧ bits w 13 6 = 0 then some (.vrand (fld w 22 3) (fld w 19 3) (fld w 11 2) (fld w 7 3)) else
    if bits w 0 7 = 48 ∧ bits w 10 1 = 0 ∧ bits w 13 6 = 0 then some (.vror (fld w 22 3) (fld w 19 3) (fld w 11 2) (fld w 7 3)) else
    if bits w 0 7 = 56 ∧ bits w 10 1 = 0 ∧ bits w 13 6 = 0 then some (.vrxor (fld w 22 3) (fld w 19 3) (fld w 11 2) (fld w 7 3)) else
    if bits w 3 4 = 8 ∧ bits w 10 1 = 0 ∧ bits w 13 6 = 0 then some (.vrfadd (fld w 22 3) (fld w 19 3) (fld w 11 2) (fld w 7 3) (fld w 0 3)) else
    if bits w 0 7 = 72 ∧ bits w 10 1 = 0 ∧ bits w 13 6 = 0 then some (.vrfmin (fld w 22 3) (fld w 19 3) (fld w 11 2) (fld w 7 3)) else
    if bits w 0 7 = 80 ∧ bits w 10 1 = 0 ∧ bits w 13 6 = 0 then some (.vrfmax (fld w 22 3) (fld w 19 3) (fld w 11 2) (fld w 7 3)) else none

/-- Major 0x3C (R145-R160): VPERM, VSLUP, VSLDN, VZIPLO, VZIPHI, VUNZLO, VUNZHI, VCOMP, VEXPD, VGET. -/
def decodeMajor3C (w : Nat) : Option Instr :=
    if bits w 0 7 = 0 ∧ bits w 13 3 = 0 then some (.vperm (fld w 22 3) (fld w 19 3) (fld w 16 3) (fld w 11 2) (fld w 10 1) (fld w 7 3)) else
    if bits w 0 7 = 1 ∧ bits w 16 3 = 0 then some (.vslup (fld w 22 3) (fld w 19 3) (fld w 13 3) (fld w 11 2) (fld w 10 1) (fld w 7 3)) else
    if bits w 0 7 = 2 ∧ bits w 16 3 = 0 then some (.vsldn (fld w 22 3) (fld w 19 3) (fld w 13 3) (fld w 11 2) (fld w 10 1) (fld w 7 3)) else
    if bits w 0 7 = 3 ∧ bits w 13 3 = 0 then some (.vziplo (fld w 22 3) (fld w 19 3) (fld w 16 3) (fld w 11 2) (fld w 10 1) (fld w 7 3)) else
    if bits w 0 7 = 4 ∧ bits w 13 3 = 0 then some (.vziphi (fld w 22 3) (fld w 19 3) (fld w 16 3) (fld w 11 2) (fld w 10 1) (fld w 7 3)) else
    if bits w 0 7 = 5 ∧ bits w 13 3 = 0 then some (.vunzlo (fld w 22 3) (fld w 19 3) (fld w 16 3) (fld w 11 2) (fld w 10 1) (fld w 7 3)) else
    if bits w 0 7 = 6 ∧ bits w 13 3 = 0 then some (.vunzhi (fld w 22 3) (fld w 19 3) (fld w 16 3) (fld w 11 2) (fld w 10 1) (fld w 7 3)) else
    if bits w 0 7 = 7 ∧ bits w 10 1 = 0 ∧ bits w 13 6 = 0 then some (.vcomp (fld w 22 3) (fld w 19 3) (fld w 11 2) (fld w 7 3)) else
    if bits w 0 7 = 8 ∧ bits w 13 6 = 0 then some (.vexpd (fld w 22 3) (fld w 19 3) (fld w 11 2) (fld w 10 1) (fld w 7 3)) else
    if bits w 0 7 = 9 ∧ bits w 10 1 = 0 ∧ bits w 16 3 = 0 ∧ bits w 22 3 = 0 then some (.vget (fld w 19 3) (fld w 13 3) (fld w 11 2) (fld w 7 3)) else none

/-- Major 0x3D (R145-R160): VMAND, VMOR, VMXOR, VMANDN, VMNOT. -/
def decodeMajor3D (w : Nat) : Option Instr :=
    if bits w 0 16 = 0 ∧ bits w 18 1 = 0 ∧ bits w 21 1 = 0 ∧ bits w 24 1 = 0 then some (.vmand (fld w 22 2) (fld w 19 2) (fld w 16 2)) else
    if bits w 0 16 = 1 ∧ bits w 18 1 = 0 ∧ bits w 21 1 = 0 ∧ bits w 24 1 = 0 then some (.vmor (fld w 22 2) (fld w 19 2) (fld w 16 2)) else
    if bits w 0 16 = 2 ∧ bits w 18 1 = 0 ∧ bits w 21 1 = 0 ∧ bits w 24 1 = 0 then some (.vmxor (fld w 22 2) (fld w 19 2) (fld w 16 2)) else
    if bits w 0 16 = 3 ∧ bits w 18 1 = 0 ∧ bits w 21 1 = 0 ∧ bits w 24 1 = 0 then some (.vmandn (fld w 22 2) (fld w 19 2) (fld w 16 2)) else
    if bits w 0 19 = 4 ∧ bits w 21 1 = 0 ∧ bits w 24 1 = 0 then some (.vmnot (fld w 22 2) (fld w 19 2)) else none

/-- Major 0x3E (R145-R160): VGATHER, VSCATTER. VSCATTER writes no register, so z has nothing to zero; R155 gives z to every
V-format major and R134 asks zero of unused fields: z = 1 of a VSCATTER is accepted and ignored (DESIGN CHOICE, log 60). -/
def decodeMajor3E (w : Nat) : Option Instr :=
    if bits w 0 7 = 0 ∧ bits w 16 3 = 0 then some (.vgather (fld w 22 3) (fld w 19 3) (fld w 13 3) (fld w 11 2) (fld w 10 1) (fld w 7 3)) else
    if bits w 0 7 = 1 ∧ bits w 16 3 = 0 then some (.vscatter (fld w 22 3) (fld w 19 3) (fld w 13 3) (fld w 11 2) (fld w 10 1) (fld w 7 3)) else none

/-- Major 0x40 (R145-R160): VLD. -/
def decodeMajor40 (w : Nat) : Option Instr :=
    if bits w 10 2 = 0 then some (.vld (fld w 23 2) (fld w 20 3) (fld w 15 5) (fld w 12 3) (fld w 0 10)) else none

/-- Major 0x41 (R145-R160): VST. -/
def decodeMajor41 (w : Nat) : Option Instr :=
    if bits w 10 2 = 0 then some (.vst (fld w 23 2) (fld w 20 3) (fld w 15 5) (fld w 12 3) (fld w 0 10)) else none

/-- Major 0x48 (R145-R160): PBIND. -/
def decodeMajor48 (w : Nat) : Option Instr :=
    if bits w 0 15 = 0 then some (.pbind (fld w 20 5) (fld w 15 5)) else none

/-- Major 0x49 (R145-R160): PFREE. -/
def decodeMajor49 (w : Nat) : Option Instr :=
    if bits w 0 15 = 0 then some (.pfree (fld w 20 5) (fld w 15 5)) else none

/-- Major 0x4A (R145-R160): PSTAT_POCKET, PSTAT_WAITING, PSTAT_ALLOCATION. -/
def decodeMajor4A (w : Nat) : Option Instr :=
    if bits w 0 15 = 0 then some (.pstatPocket (fld w 20 5) (fld w 15 5)) else none

/-- Major 0x4B (R145-R160): RESUME. -/
def decodeMajor4B (w : Nat) : Option Instr :=
    if bits w 0 15 = 0 ∧ bits w 20 5 = 0 then some (.resume (fld w 15 5)) else none

/-- Major 0x4C (R145-R160): SPAWN. -/
def decodeMajor4C (w : Nat) : Option Instr :=
    if bits w 0 10 = 0 then some (.spawn (fld w 20 5) (fld w 15 5) (fld w 10 5)) else none

/-- Major 0x4D (R145-R160): STEAL. -/
def decodeMajor4D (w : Nat) : Option Instr :=
    if bits w 0 10 = 0 then some (.steal (fld w 20 5) (fld w 15 5) (fld w 10 5)) else none

/-- Major 0x4E (R145-R160): LEAVE_MATRIX, LEAVE_SWAP, LEAVE_STREAM, LEAVE_SWATCH. -/
def decodeMajor4E (w : Nat) : Option Instr :=
    if bits w 0 2 = 0 ∧ bits w 3 12 = 0 then some (.leaveMatrix (fld w 20 5) (fld w 15 5) (fld w 2 1)) else
    if bits w 0 2 = 1 ∧ bits w 3 12 = 0 then some (.leaveSwap (fld w 20 5) (fld w 15 5) (fld w 2 1)) else
    if bits w 0 2 = 2 ∧ bits w 3 12 = 0 then some (.leaveStream (fld w 20 5) (fld w 15 5) (fld w 2 1)) else
    if bits w 0 2 = 3 ∧ bits w 3 12 = 0 then some (.leaveSwatch (fld w 20 5) (fld w 15 5) (fld w 2 1)) else none

/-- Major 0x4F (R145-R160): SNAP. -/
def decodeMajor4F (w : Nat) : Option Instr :=
    if bits w 0 10 = 0 then some (.snap (fld w 20 5) (fld w 15 5) (fld w 10 5)) else none

/-- Major 0x50 (R145-R160): TLBINV_ALL, TLBINV_ASID, TLBINV_VA. -/
def decodeMajor50 (w : Nat) : Option Instr :=
    if bits w 0 15 = 0 ∧ bits w 20 5 = 0 then some (.tlbinvAll (fld w 15 5)) else
    if bits w 0 15 = 1 ∧ bits w 20 5 = 0 then some (.tlbinvAsid (fld w 15 5)) else
    if bits w 0 10 = 2 ∧ bits w 20 5 = 0 then some (.tlbinvVa (fld w 15 5) (fld w 10 5)) else none

/-- Major 0x51 (R145-R160): ASIDRET. -/
def decodeMajor51 (w : Nat) : Option Instr :=
    if bits w 0 15 = 0 then some (.asidret (fld w 20 5) (fld w 15 5)) else none

/-- Major 0x52 (R145-R160): DARN_PREP, DARN_COMMIT, DARN_ABORT, DARN_BANK. -/
def decodeMajor52 (w : Nat) : Option Instr :=
    if bits w 0 15 = 0 then some (.darnPrep (fld w 20 5) (fld w 15 5)) else
    if bits w 0 20 = 1 then some (.darnCommit (fld w 20 5)) else
    if bits w 0 20 = 2 then some (.darnAbort (fld w 20 5)) else
    if bits w 0 15 = 3 then some (.darnBank (fld w 20 5) (fld w 15 5)) else none

/-- Major 0x53 (R145-R160): SWATCH_RUN, SWATCH_STAT, SWATCH_STOP. -/
def decodeMajor53 (w : Nat) : Option Instr :=
    if bits w 0 15 = 0 then some (.swatchRun (fld w 20 5) (fld w 15 5)) else
    if bits w 0 15 = 1 then some (.swatchStat (fld w 20 5) (fld w 15 5)) else
    if bits w 0 15 = 2 then some (.swatchStop (fld w 20 5) (fld w 15 5)) else none

/-- Major 0x54 (R145-R160): XAMO_ADD, XAMO_MIN_I, XAMO_MAX_I, XAMO_MIN_N, XAMO_MAX_N, XAMO_AND, XAMO_OR, XAMO_XOR, XAMO_SWAP, XAMO_CAS, XAMO_FADD. -/
def decodeMajor54 (w : Nat) : Option Instr :=
    if bits w 6 4 = 0 then some (.xamoAdd (fld w 20 5) (fld w 15 5) (fld w 10 5) (fld w 5 1) (fld w 3 2) (fld w 0 3)) else
    if bits w 6 4 = 1 then some (.xamoMinI (fld w 20 5) (fld w 15 5) (fld w 10 5) (fld w 5 1) (fld w 3 2) (fld w 0 3)) else
    if bits w 6 4 = 2 then some (.xamoMaxI (fld w 20 5) (fld w 15 5) (fld w 10 5) (fld w 5 1) (fld w 3 2) (fld w 0 3)) else
    if bits w 6 4 = 3 then some (.xamoMinN (fld w 20 5) (fld w 15 5) (fld w 10 5) (fld w 5 1) (fld w 3 2) (fld w 0 3)) else
    if bits w 6 4 = 4 then some (.xamoMaxN (fld w 20 5) (fld w 15 5) (fld w 10 5) (fld w 5 1) (fld w 3 2) (fld w 0 3)) else
    if bits w 6 4 = 5 then some (.xamoAnd (fld w 20 5) (fld w 15 5) (fld w 10 5) (fld w 5 1) (fld w 3 2) (fld w 0 3)) else
    if bits w 6 4 = 6 then some (.xamoOr (fld w 20 5) (fld w 15 5) (fld w 10 5) (fld w 5 1) (fld w 3 2) (fld w 0 3)) else
    if bits w 6 4 = 7 then some (.xamoXor (fld w 20 5) (fld w 15 5) (fld w 10 5) (fld w 5 1) (fld w 3 2) (fld w 0 3)) else
    if bits w 6 4 = 8 then some (.xamoSwap (fld w 20 5) (fld w 15 5) (fld w 10 5) (fld w 5 1) (fld w 3 2) (fld w 0 3)) else
    if bits w 6 4 = 9 then some (.xamoCas (fld w 20 5) (fld w 15 5) (fld w 10 5) (fld w 5 1) (fld w 3 2) (fld w 0 3)) else
    if bits w 5 5 = 20 then some (.xamoFadd (fld w 20 5) (fld w 15 5) (fld w 10 5) (fld w 3 2) (fld w 0 3)) else none

/-- Major 0x55 (R145-R160): XST. -/
def decodeMajor55 (w : Nat) : Option Instr :=
    some (.xst (fld w 20 5) (fld w 15 5) (fld w 12 3) (fld w 10 2) (fld w 0 10))

/-- Major 0x06 (R145-R160): RET. -/
def decodeMajor06 (w : Nat) : Option Instr :=
    if bits w 0 25 = 0 then some (.ret) else none

/-- Major 0x0A (R145-R160): ERET. -/
def decodeMajor0A (w : Nat) : Option Instr :=
    if bits w 0 25 = 0 then some (.eret) else none

/-- Major 0x0B (R145-R160): HEND. -/
def decodeMajor0B (w : Nat) : Option Instr :=
    if bits w 0 25 = 0 then some (.hend) else none

/-- The row a sequenced word names by its major and selectors (R133, R145-R160), before the checks of field values. -/
def rowS (w : Nat) : Option Instr :=
  match bits w 25 7 with
  | 0x01 => decodeMajor01 w
  | 0x02 => decodeMajor02 w
  | 0x03 => decodeMajor03 w
  | 0x04 => decodeMajor04 w
  | 0x05 => decodeMajor05 w
  | 0x07 => decodeMajor07 w
  | 0x08 => decodeMajor08 w
  | 0x09 => decodeMajor09 w
  | 0x0C => decodeMajor0C w
  | 0x0D => decodeMajor0D w
  | 0x0E => decodeMajor0E w
  | 0x10 => decodeMajor10 w
  | 0x11 => decodeMajor11 w
  | 0x12 => decodeMajor12 w
  | 0x13 => decodeMajor13 w
  | 0x14 => decodeMajor14 w
  | 0x15 => decodeMajor15 w
  | 0x16 => decodeMajor16 w
  | 0x17 => decodeMajor17 w
  | 0x18 => decodeMajor18 w
  | 0x19 => decodeMajor19 w
  | 0x1A => decodeMajor1A w
  | 0x1B => decodeMajor1B w
  | 0x1C => decodeMajor1C w
  | 0x1D => decodeMajor1D w
  | 0x1E => decodeMajor1E w
  | 0x1F => decodeMajor1F w
  | 0x20 => decodeMajor20 w
  | 0x28 => decodeMajor28 w
  | 0x29 => decodeMajor29 w
  | 0x2A => decodeMajor2A w
  | 0x2B => decodeMajor2B w
  | 0x2C => decodeMajor2C w
  | 0x2D => decodeMajor2D w
  | 0x2E => decodeMajor2E w
  | 0x30 => decodeMajor30 w
  | 0x31 => decodeMajor31 w
  | 0x32 => decodeMajor32 w
  | 0x33 => decodeMajor33 w
  | 0x34 => decodeMajor34 w
  | 0x38 => decodeMajor38 w
  | 0x39 => decodeMajor39 w
  | 0x3A => decodeMajor3A w
  | 0x3B => decodeMajor3B w
  | 0x3C => decodeMajor3C w
  | 0x3D => decodeMajor3D w
  | 0x3E => decodeMajor3E w
  | 0x40 => decodeMajor40 w
  | 0x41 => decodeMajor41 w
  | 0x48 => decodeMajor48 w
  | 0x49 => decodeMajor49 w
  | 0x4A => decodeMajor4A w
  | 0x4B => decodeMajor4B w
  | 0x4C => decodeMajor4C w
  | 0x4D => decodeMajor4D w
  | 0x4E => decodeMajor4E w
  | 0x4F => decodeMajor4F w
  | 0x50 => decodeMajor50 w
  | 0x51 => decodeMajor51 w
  | 0x52 => decodeMajor52 w
  | 0x53 => decodeMajor53 w
  | 0x54 => decodeMajor54 w
  | 0x55 => decodeMajor55 w
  | 0x06 => decodeMajor06 w
  | 0x0A => decodeMajor0A w
  | 0x0B => decodeMajor0B w
  | _ => none

/-! ### Triggered words (R161-R166) -/

/-- Opcode 0x01 (R164, R165): T_ADD. -/
def decodeT01 (w : Nat) : Option Instr :=
    if bits w 0 6 = 0 then some (.tAdd (fld w 30 2) (fld w 27 3) (fld w 26 1) (fld w 15 4) (fld w 11 4) (fld w 7 4) (fld w 6 1)) else none

/-- Opcode 0x02 (R164, R165): T_SUB. -/
def decodeT02 (w : Nat) : Option Instr :=
    if bits w 0 6 = 0 then some (.tSub (fld w 30 2) (fld w 27 3) (fld w 26 1) (fld w 15 4) (fld w 11 4) (fld w 7 4) (fld w 6 1)) else none

/-- Opcode 0x03 (R164, R165): T_MUL. -/
def decodeT03 (w : Nat) : Option Instr :=
    if bits w 0 6 = 0 then some (.tMul (fld w 30 2) (fld w 27 3) (fld w 26 1) (fld w 15 4) (fld w 11 4) (fld w 7 4) (fld w 6 1)) else none

/-- Opcode 0x04 (R164, R165): T_MULH. -/
def decodeT04 (w : Nat) : Option Instr :=
    if bits w 0 7 = 0 then some (.tMulh (fld w 30 2) (fld w 27 3) (fld w 26 1) (fld w 15 4) (fld w 11 4) (fld w 7 4)) else none

/-- Opcode 0x05 (R164, R165): T_AND. -/
def decodeT05 (w : Nat) : Option Instr :=
    if bits w 0 7 = 0 then some (.tAnd (fld w 30 2) (fld w 27 3) (fld w 26 1) (fld w 15 4) (fld w 11 4) (fld w 7 4)) else none

/-- Opcode 0x06 (R164, R165): T_OR. -/
def decodeT06 (w : Nat) : Option Instr :=
    if bits w 0 7 = 0 then some (.tOr (fld w 30 2) (fld w 27 3) (fld w 26 1) (fld w 15 4) (fld w 11 4) (fld w 7 4)) else none

/-- Opcode 0x07 (R164, R165): T_XOR. -/
def decodeT07 (w : Nat) : Option Instr :=
    if bits w 0 7 = 0 then some (.tXor (fld w 30 2) (fld w 27 3) (fld w 26 1) (fld w 15 4) (fld w 11 4) (fld w 7 4)) else none

/-- Opcode 0x08 (R164, R165): T_SHL. -/
def decodeT08 (w : Nat) : Option Instr :=
    if bits w 0 7 = 0 then some (.tShl (fld w 30 2) (fld w 27 3) (fld w 26 1) (fld w 15 4) (fld w 11 4) (fld w 7 4)) else none

/-- Opcode 0x09 (R164, R165): T_SHR. -/
def decodeT09 (w : Nat) : Option Instr :=
    if bits w 0 7 = 0 then some (.tShr (fld w 30 2) (fld w 27 3) (fld w 26 1) (fld w 15 4) (fld w 11 4) (fld w 7 4)) else none

/-- Opcode 0x0A (R164, R165): T_SRA. -/
def decodeT0A (w : Nat) : Option Instr :=
    if bits w 0 7 = 0 then some (.tSra (fld w 30 2) (fld w 27 3) (fld w 26 1) (fld w 15 4) (fld w 11 4) (fld w 7 4)) else none

/-- Opcode 0x0B (R164, R165): T_MIN. -/
def decodeT0B (w : Nat) : Option Instr :=
    if bits w 0 6 = 0 then some (.tMin (fld w 30 2) (fld w 27 3) (fld w 26 1) (fld w 15 4) (fld w 11 4) (fld w 7 4) (fld w 6 1)) else none

/-- Opcode 0x0C (R164, R165): T_MAX. -/
def decodeT0C (w : Nat) : Option Instr :=
    if bits w 0 6 = 0 then some (.tMax (fld w 30 2) (fld w 27 3) (fld w 26 1) (fld w 15 4) (fld w 11 4) (fld w 7 4) (fld w 6 1)) else none

/-- Opcode 0x0D (R164, R165): T_MINU. -/
def decodeT0D (w : Nat) : Option Instr :=
    if bits w 0 6 = 0 then some (.tMinu (fld w 30 2) (fld w 27 3) (fld w 26 1) (fld w 15 4) (fld w 11 4) (fld w 7 4) (fld w 6 1)) else none

/-- Opcode 0x0E (R164, R165): T_MAXU. -/
def decodeT0E (w : Nat) : Option Instr :=
    if bits w 0 6 = 0 then some (.tMaxu (fld w 30 2) (fld w 27 3) (fld w 26 1) (fld w 15 4) (fld w 11 4) (fld w 7 4) (fld w 6 1)) else none

/-- Opcode 0x0F (R164, R165): T_CMP. -/
def decodeT0F (w : Nat) : Option Instr :=
    some (.tCmp (fld w 30 2) (fld w 27 3) (fld w 26 1) (fld w 15 4) (fld w 11 4) (fld w 7 4) (fld w 3 4) (fld w 0 3))

/-- Opcode 0x10 (R164, R165): T_MOV. -/
def decodeT10 (w : Nat) : Option Instr :=
    if bits w 3 8 = 0 then some (.tMov (fld w 30 2) (fld w 27 3) (fld w 26 1) (fld w 15 4) (fld w 11 4) (fld w 0 3)) else none

/-- Opcode 0x11 (R164, R165): T_SEL. -/
def decodeT11 (w : Nat) : Option Instr :=
    if bits w 4 3 = 0 then some (.tSel (fld w 30 2) (fld w 27 3) (fld w 26 1) (fld w 15 4) (fld w 11 4) (fld w 7 4) (fld w 3 1) (fld w 0 3)) else none

/-- Opcode 0x12 (R164, R165): T_TAG. -/
def decodeT12 (w : Nat) : Option Instr :=
    if bits w 3 8 = 0 then some (.tTag (fld w 30 2) (fld w 27 3) (fld w 26 1) (fld w 15 4) (fld w 11 4) (fld w 0 3)) else none

/-- Opcode 0x13 (R164, R165): T_DUP. -/
def decodeT13 (w : Nat) : Option Instr :=
    if bits w 2 9 = 0 then some (.tDup (fld w 30 2) (fld w 27 3) (fld w 26 1) (fld w 15 4) (fld w 11 4) (fld w 0 2)) else none

/-- Opcode 0x14 (R164, R165): T_MASKB. -/
def decodeT14 (w : Nat) : Option Instr :=
    if bits w 3 4 = 0 then some (.tMaskb (fld w 30 2) (fld w 27 3) (fld w 26 1) (fld w 15 4) (fld w 11 4) (fld w 7 4) (fld w 1 2) (fld w 0 1)) else none

/-- Opcode 0x15 (R164, R165): T_CRNG. -/
def decodeT15 (w : Nat) : Option Instr :=
    if bits w 0 7 = 0 then some (.tCrng (fld w 30 2) (fld w 27 3) (fld w 26 1) (fld w 15 4) (fld w 11 4) (fld w 7 4)) else none

/-- Opcode 0x18 (R164, R165): T_FADD. -/
def decodeT18 (w : Nat) : Option Instr :=
    if bits w 0 4 = 0 then some (.tFadd (fld w 30 2) (fld w 27 3) (fld w 26 1) (fld w 19 2) (fld w 15 4) (fld w 11 4) (fld w 7 4) (fld w 4 3)) else none

/-- Opcode 0x1C (R164, R165): T_FSUB. -/
def decodeT1C (w : Nat) : Option Instr :=
    if bits w 0 4 = 0 then some (.tFsub (fld w 30 2) (fld w 27 3) (fld w 26 1) (fld w 19 2) (fld w 15 4) (fld w 11 4) (fld w 7 4) (fld w 4 3)) else none

/-- Opcode 0x20 (R164, R165): T_FMUL. -/
def decodeT20 (w : Nat) : Option Instr :=
    if bits w 0 4 = 0 then some (.tFmul (fld w 30 2) (fld w 27 3) (fld w 26 1) (fld w 19 2) (fld w 15 4) (fld w 11 4) (fld w 7 4) (fld w 4 3)) else none

/-- Opcode 0x24 (R164, R165): T_FFMA. -/
def decodeT24 (w : Nat) : Option Instr :=
    if bits w 3 1 = 0 then some (.tFfma (fld w 30 2) (fld w 27 3) (fld w 26 1) (fld w 19 2) (fld w 15 4) (fld w 11 4) (fld w 7 4) (fld w 4 3) (fld w 0 3)) else none

/-- Opcode 0x28 (R164, R165): T_FMIN. -/
def decodeT28 (w : Nat) : Option Instr :=
    if bits w 0 7 = 0 then some (.tFmin (fld w 30 2) (fld w 27 3) (fld w 26 1) (fld w 19 2) (fld w 15 4) (fld w 11 4) (fld w 7 4)) else none

/-- Opcode 0x2C (R164, R165): T_FMAX. -/
def decodeT2C (w : Nat) : Option Instr :=
    if bits w 0 7 = 0 then some (.tFmax (fld w 30 2) (fld w 27 3) (fld w 26 1) (fld w 19 2) (fld w 15 4) (fld w 11 4) (fld w 7 4)) else none

/-- Opcode 0x30 (R164, R165): T_FCMP_F64. -/
def decodeT30 (w : Nat) : Option Instr :=
    some (.tFcmpF64 (fld w 30 2) (fld w 27 3) (fld w 26 1) (fld w 15 4) (fld w 11 4) (fld w 7 4) (fld w 3 4) (fld w 0 3))

/-- Opcode 0x31 (R164, R165): T_FCMP_F32. -/
def decodeT31 (w : Nat) : Option Instr :=
    some (.tFcmpF32 (fld w 30 2) (fld w 27 3) (fld w 26 1) (fld w 15 4) (fld w 11 4) (fld w 7 4) (fld w 3 4) (fld w 0 3))

/-- Opcode 0x32 (R164, R165): T_FCVT. -/
def decodeT32 (w : Nat) : Option Instr :=
    if bits w 10 1 = 0 then some (.tFcvt (fld w 30 2) (fld w 27 3) (fld w 26 1) (fld w 15 4) (fld w 11 4) (fld w 7 3) (fld w 0 7)) else none

/-- Opcode 0x38 (R164, R165): T_LDR. -/
def decodeT38 (w : Nat) : Option Instr :=
    if bits w 0 2 = 0 then some (.tLdr (fld w 30 2) (fld w 27 3) (fld w 26 1) (fld w 15 4) (fld w 11 4) (fld w 7 4) (fld w 6 1) (fld w 4 2) (fld w 2 2)) else none

/-- Opcode 0x39 (R164, R165): T_STR. -/
def decodeT39 (w : Nat) : Option Instr :=
    if bits w 0 4 = 0 then some (.tStr (fld w 30 2) (fld w 27 3) (fld w 26 1) (fld w 15 4) (fld w 11 4) (fld w 7 4) (fld w 6 1) (fld w 4 2)) else none

/-- Opcode 0x3A (R164, R165): T_AMO_ADD, T_AMO_MIN_I, T_AMO_MAX_I, T_AMO_MIN_N, T_AMO_MAX_N, T_AMO_AND, T_AMO_OR, T_AMO_XOR, T_AMO_SWAP, T_AMO_CAS, T_AMO_FADD. -/
def decodeT3A (w : Nat) : Option Instr :=
    if bits w 0 4 = 0 then some (.tAmoAdd (fld w 30 2) (fld w 27 3) (fld w 26 1) (fld w 15 4) (fld w 11 4) (fld w 7 4) (fld w 6 1) (fld w 4 2)) else
    if bits w 0 4 = 1 then some (.tAmoMinI (fld w 30 2) (fld w 27 3) (fld w 26 1) (fld w 15 4) (fld w 11 4) (fld w 7 4) (fld w 6 1) (fld w 4 2)) else
    if bits w 0 4 = 2 then some (.tAmoMaxI (fld w 30 2) (fld w 27 3) (fld w 26 1) (fld w 15 4) (fld w 11 4) (fld w 7 4) (fld w 6 1) (fld w 4 2)) else
    if bits w 0 4 = 3 then some (.tAmoMinN (fld w 30 2) (fld w 27 3) (fld w 26 1) (fld w 15 4) (fld w 11 4) (fld w 7 4) (fld w 6 1) (fld w 4 2)) else
    if bits w 0 4 = 4 then some (.tAmoMaxN (fld w 30 2) (fld w 27 3) (fld w 26 1) (fld w 15 4) (fld w 11 4) (fld w 7 4) (fld w 6 1) (fld w 4 2)) else
    if bits w 0 4 = 5 then some (.tAmoAnd (fld w 30 2) (fld w 27 3) (fld w 26 1) (fld w 15 4) (fld w 11 4) (fld w 7 4) (fld w 6 1) (fld w 4 2)) else
    if bits w 0 4 = 6 then some (.tAmoOr (fld w 30 2) (fld w 27 3) (fld w 26 1) (fld w 15 4) (fld w 11 4) (fld w 7 4) (fld w 6 1) (fld w 4 2)) else
    if bits w 0 4 = 7 then some (.tAmoXor (fld w 30 2) (fld w 27 3) (fld w 26 1) (fld w 15 4) (fld w 11 4) (fld w 7 4) (fld w 6 1) (fld w 4 2)) else
    if bits w 0 4 = 8 then some (.tAmoSwap (fld w 30 2) (fld w 27 3) (fld w 26 1) (fld w 15 4) (fld w 11 4) (fld w 7 4) (fld w 6 1) (fld w 4 2)) else
    if bits w 0 4 = 9 then some (.tAmoCas (fld w 30 2) (fld w 27 3) (fld w 26 1) (fld w 15 4) (fld w 11 4) (fld w 7 4) (fld w 6 1) (fld w 4 2)) else
    if bits w 0 4 = 10 then some (.tAmoFadd (fld w 30 2) (fld w 27 3) (fld w 26 1) (fld w 15 4) (fld w 11 4) (fld w 7 4) (fld w 6 1) (fld w 4 2)) else none

/-- Opcode 0x40 (R164, R165): T_STEER. -/
def decodeT40 (w : Nat) : Option Instr :=
    if bits w 2 9 = 0 ∧ bits w 15 4 = 14 then some (.tSteer (fld w 30 2) (fld w 27 3) (fld w 26 1) (fld w 11 4) (fld w 0 2)) else none

/-- Opcode 0x41 (R164, R165): T_MSEL. -/
def decodeT41 (w : Nat) : Option Instr :=
    if bits w 2 9 = 0 ∧ bits w 15 4 = 14 then some (.tMsel (fld w 30 2) (fld w 27 3) (fld w 26 1) (fld w 11 4) (fld w 0 2)) else none

/-- Opcode 0x42 (R164, R165): T_SIG. -/
def decodeT42 (w : Nat) : Option Instr :=
    if bits w 7 4 = 0 ∧ bits w 15 4 = 14 then some (.tSig (fld w 30 2) (fld w 27 3) (fld w 26 1) (fld w 11 4) (fld w 0 7)) else none

/-- Opcode 0x43 (R164, R165): T_HALT. -/
def decodeT43 (w : Nat) : Option Instr :=
    if bits w 0 19 = 458752 then some (.tHalt (fld w 30 2) (fld w 27 3) (fld w 26 1)) else none

/-- Opcode 0x44 (R164, R165): T_SIG2. -/
def decodeT44 (w : Nat) : Option Instr :=
    if bits w 15 4 = 14 then some (.tSig2 (fld w 30 2) (fld w 27 3) (fld w 26 1) (fld w 11 4) (fld w 7 4) (fld w 0 7)) else none

/-- The row a triggered word names by its opcode (R164), before the checks of field values. -/
def rowT (w : Nat) : Option Instr :=
  match bits w 19 7 with
  | 0x01 => decodeT01 w
  | 0x02 => decodeT02 w
  | 0x03 => decodeT03 w
  | 0x04 => decodeT04 w
  | 0x05 => decodeT05 w
  | 0x06 => decodeT06 w
  | 0x07 => decodeT07 w
  | 0x08 => decodeT08 w
  | 0x09 => decodeT09 w
  | 0x0A => decodeT0A w
  | 0x0B => decodeT0B w
  | 0x0C => decodeT0C w
  | 0x0D => decodeT0D w
  | 0x0E => decodeT0E w
  | 0x0F => decodeT0F w
  | 0x10 => decodeT10 w
  | 0x11 => decodeT11 w
  | 0x12 => decodeT12 w
  | 0x13 => decodeT13 w
  | 0x14 => decodeT14 w
  | 0x15 => decodeT15 w
  | 0x18 | 0x19 | 0x1A | 0x1B => decodeT18 w
  | 0x1C | 0x1D | 0x1E | 0x1F => decodeT1C w
  | 0x20 | 0x21 | 0x22 | 0x23 => decodeT20 w
  | 0x24 | 0x25 | 0x26 | 0x27 => decodeT24 w
  | 0x28 | 0x29 | 0x2A | 0x2B => decodeT28 w
  | 0x2C | 0x2D | 0x2E | 0x2F => decodeT2C w
  | 0x30 => decodeT30 w
  | 0x31 => decodeT31 w
  | 0x32 => decodeT32 w
  | 0x38 => decodeT38 w
  | 0x39 => decodeT39 w
  | 0x3A => decodeT3A w
  | 0x40 => decodeT40 w
  | 0x41 => decodeT41 w
  | 0x42 => decodeT42 w
  | 0x43 => decodeT43 w
  | 0x44 => decodeT44 w
  | _ => none

/-- Why a word is no instruction. -/
inductive DecodeError where
  /-- A reserved major, selector, field value or non-zero unused bit (R134, R168). -/
  | reserved
  deriving DecidableEq, Repr

/-- Decode a sequenced word (R134): reserved values are refused. -/
def decodeS (w : Nat) : Except DecodeError Instr :=
  match rowS w with
  | some i => if i.wellFormed then .ok i else .error .reserved
  | none => .error .reserved

/-- Decode a triggered word (R165, R168): what is refused here fails its load with code 0x02. -/
def decodeT (w : Nat) : Except DecodeError Instr :=
  match rowT w with
  | some i => if i.wellFormed then .ok i else .error .reserved
  | none => .error .reserved


/-- Words of rows 0 to 49 of the encoded rows (R133, R145-R166). -/
def encodePart0 (i : Instr) : Option Nat :=
  match i with
  | .ext p => some (0x02000000 + at0 p)
  | .b o => some (0x04000000 + at0 o)
  | .bc p n o => some (0x06000000 + at22 p + at21 n + at0 o)
  | .call o => some (0x08000000 + at0 o)
  | .callr a => some (0x0A000000 + at15 a)
  | .br a => some (0x0E000000 + at15 a)
  | .loop a o => some (0x10000000 + at15 a + at0 o)
  | .trap c => some (0x12000000 + at0 c)
  | .mfs d n => some (0x18000000 + at20 d + at0 n)
  | .mts a n => some (0x1A000000 + at15 a + at0 n)
  | .fence s => some (0x1C000000 + at0 s)
  | .add d a b => some (0x20000000 + at20 d + at15 a + at10 b)
  | .sub d a b => some (0x20000001 + at20 d + at15 a + at10 b)
  | .mul d a b => some (0x20000002 + at20 d + at15 a + at10 b)
  | .mulh d a b => some (0x20000003 + at20 d + at15 a + at10 b)
  | .mulhu d a b => some (0x20000004 + at20 d + at15 a + at10 b)
  | .div d a b => some (0x20000005 + at20 d + at15 a + at10 b)
  | .divu d a b => some (0x20000006 + at20 d + at15 a + at10 b)
  | .rem d a b => some (0x20000007 + at20 d + at15 a + at10 b)
  | .remu d a b => some (0x20000008 + at20 d + at15 a + at10 b)
  | .and d a b => some (0x20000009 + at20 d + at15 a + at10 b)
  | .or d a b => some (0x2000000A + at20 d + at15 a + at10 b)
  | .xor d a b => some (0x2000000B + at20 d + at15 a + at10 b)
  | .andn d a b => some (0x2000000C + at20 d + at15 a + at10 b)
  | .shl d a b => some (0x2000000D + at20 d + at15 a + at10 b)
  | .shr d a b => some (0x2000000E + at20 d + at15 a + at10 b)
  | .sra d a b => some (0x2000000F + at20 d + at15 a + at10 b)
  | .min d a b => some (0x20000010 + at20 d + at15 a + at10 b)
  | .max d a b => some (0x20000011 + at20 d + at15 a + at10 b)
  | .minu d a b => some (0x20000012 + at20 d + at15 a + at10 b)
  | .maxu d a b => some (0x20000013 + at20 d + at15 a + at10 b)
  | .clz d a => some (0x20000014 + at20 d + at15 a)
  | .ctz d a => some (0x20000015 + at20 d + at15 a)
  | .popc d a => some (0x20000016 + at20 d + at15 a)
  | .addi d a i => some (0x22000000 + at20 d + at15 a + at0 i)
  | .andi d a i => some (0x24000000 + at20 d + at15 a + at0 i)
  | .ori d a i => some (0x26000000 + at20 d + at15 a + at0 i)
  | .xori d a i => some (0x28000000 + at20 d + at15 a + at0 i)
  | .shli d a s => some (0x2A000000 + at20 d + at15 a + at0 s)
  | .shri d a s => some (0x2C000000 + at20 d + at15 a + at0 s)
  | .srai d a s => some (0x2E000000 + at20 d + at15 a + at0 s)
  | .muli d a i => some (0x30000000 + at20 d + at15 a + at0 i)
  | .cmp p a b c => some (0x32000000 + at20 p + at15 a + at10 b + at0 c)
  | .cmpi p a c i => some (0x34000000 + at20 p + at15 a + at11 c + at0 i)
  | .pand d a b => some (0x36000000 + at20 d + at15 a + at10 b)
  | .por d a b => some (0x36000001 + at20 d + at15 a + at10 b)
  | .pxor d a b => some (0x36000002 + at20 d + at15 a + at10 b)
  | .pandn d a b => some (0x36000003 + at20 d + at15 a + at10 b)
  | .sel d a b n p => some (0x38000000 + at20 d + at15 a + at10 b + at3 n + at0 p)
  | .lea d a b s => some (0x3A000000 + at20 d + at15 a + at10 b + at0 s)
  | _ => none

/-- Words of rows 50 to 99 of the encoded rows (R133, R145-R166). -/
def encodePart1 (i : Instr) : Option Nat :=
  match i with
  | .fadd d a b t r => some (0x3C000000 + at20 d + at15 a + at10 b + at4 t + at1 r)
  | .fsub d a b t r => some (0x3C000040 + at20 d + at15 a + at10 b + at4 t + at1 r)
  | .fmul d a b t r => some (0x3C000080 + at20 d + at15 a + at10 b + at4 t + at1 r)
  | .ffma d a b t r => some (0x3C0000C0 + at20 d + at15 a + at10 b + at4 t + at1 r)
  | .fdiv d a b t r => some (0x3C000100 + at20 d + at15 a + at10 b + at4 t + at1 r)
  | .fsqrt d a t r => some (0x3C000140 + at20 d + at15 a + at4 t + at1 r)
  | .fmin d a b t => some (0x3C000180 + at20 d + at15 a + at10 b + at4 t)
  | .fmax d a b t => some (0x3C0001C0 + at20 d + at15 a + at10 b + at4 t)
  | .fabs d a t => some (0x3C000200 + at20 d + at15 a + at4 t)
  | .fneg d a t => some (0x3C000240 + at20 d + at15 a + at4 t)
  | .fcvt d a f t r => some (0x3E000000 + at20 d + at15 a + at10 f + at5 t + at2 r)
  | .fcmp p a b t c => some (0x40000000 + at20 p + at15 a + at10 b + at4 t + at0 c)
  | .ld d b s o x => some (0x50000000 + at20 d + at15 b + at12 s + at10 o + at0 x)
  | .lds d b s o x => some (0x52000000 + at20 d + at15 b + at12 s + at10 o + at0 x)
  | .st d b s o x => some (0x54000000 + at20 d + at15 b + at12 s + at10 o + at0 x)
  | .ldf d b x => some (0x56003000 + at20 d + at15 b + at0 x)
  | .stf d b x => some (0x58003000 + at20 d + at15 b + at0 x)
  | .ste d b x => some (0x5A003000 + at20 d + at15 b + at0 x)
  | .amoAdd d a b w o s => some (0x5C000000 + at20 d + at15 a + at10 b + at5 w + at3 o + at0 s)
  | .amoMinI d a b w o s => some (0x5C000040 + at20 d + at15 a + at10 b + at5 w + at3 o + at0 s)
  | .amoMaxI d a b w o s => some (0x5C000080 + at20 d + at15 a + at10 b + at5 w + at3 o + at0 s)
  | .amoMinN d a b w o s => some (0x5C0000C0 + at20 d + at15 a + at10 b + at5 w + at3 o + at0 s)
  | .amoMaxN d a b w o s => some (0x5C000100 + at20 d + at15 a + at10 b + at5 w + at3 o + at0 s)
  | .amoAnd d a b w o s => some (0x5C000140 + at20 d + at15 a + at10 b + at5 w + at3 o + at0 s)
  | .amoOr d a b w o s => some (0x5C000180 + at20 d + at15 a + at10 b + at5 w + at3 o + at0 s)
  | .amoXor d a b w o s => some (0x5C0001C0 + at20 d + at15 a + at10 b + at5 w + at3 o + at0 s)
  | .amoSwap d a b w o s => some (0x5C000200 + at20 d + at15 a + at10 b + at5 w + at3 o + at0 s)
  | .amoCas d a b w o s => some (0x5C000240 + at20 d + at15 a + at10 b + at5 w + at3 o + at0 s)
  | .amoFadd d a b o s => some (0x5C000280 + at20 d + at15 a + at10 b + at3 o + at0 s)
  | .send a b => some (0x60000000 + at15 a + at10 b)
  | .sendNr a b => some (0x60000001 + at15 a + at10 b)
  | .send2 d a b => some (0x60000002 + at20 d + at15 a + at10 b)
  | .send2Nr d a b => some (0x60000003 + at20 d + at15 a + at10 b)
  | .weft d a b => some (0x62000000 + at20 d + at15 a + at10 b)
  | .foldPut b t => some (0x64000000 + at10 b + at2 t)
  | .foldCfg a b t => some (0x64000001 + at15 a + at10 b + at2 t)
  | .foldStat d t => some (0x64000002 + at20 d + at2 t)
  | .copy d a => some (0x66000000 + at20 d + at15 a)
  | .mload d a b f i => some (0x68000000 + at20 d + at15 a + at10 b + at2 f + at0 i)
  | .mrow d a b f i => some (0x68000100 + at20 d + at15 a + at10 b + at2 f + at0 i)
  | .mdrain d a b i => some (0x68000200 + at20 d + at15 a + at10 b + at0 i)
  | .mres d a i => some (0x68000300 + at20 d + at15 a + at0 i)
  | .vadd d a b m z w => some (0x70000000 + at22 d + at19 a + at16 b + at11 m + at10 z + at7 w)
  | .vsub d a b m z w => some (0x70000001 + at22 d + at19 a + at16 b + at11 m + at10 z + at7 w)
  | .vmul d a b m z w => some (0x70000002 + at22 d + at19 a + at16 b + at11 m + at10 z + at7 w)
  | .vmulh d a b m z w => some (0x70000003 + at22 d + at19 a + at16 b + at11 m + at10 z + at7 w)
  | .vmulhu d a b m z w => some (0x70000004 + at22 d + at19 a + at16 b + at11 m + at10 z + at7 w)
  | .vand d a b m z w => some (0x70000005 + at22 d + at19 a + at16 b + at11 m + at10 z + at7 w)
  | .vor d a b m z w => some (0x70000006 + at22 d + at19 a + at16 b + at11 m + at10 z + at7 w)
  | .vxor d a b m z w => some (0x70000007 + at22 d + at19 a + at16 b + at11 m + at10 z + at7 w)
  | _ => none

/-- Words of rows 100 to 149 of the encoded rows (R133, R145-R166). -/
def encodePart2 (i : Instr) : Option Nat :=
  match i with
  | .vandn d a b m z w => some (0x70000008 + at22 d + at19 a + at16 b + at11 m + at10 z + at7 w)
  | .vshl d a b m z w => some (0x70000009 + at22 d + at19 a + at16 b + at11 m + at10 z + at7 w)
  | .vshr d a b m z w => some (0x7000000A + at22 d + at19 a + at16 b + at11 m + at10 z + at7 w)
  | .vsra d a b m z w => some (0x7000000B + at22 d + at19 a + at16 b + at11 m + at10 z + at7 w)
  | .vmin d a b m z w => some (0x7000000C + at22 d + at19 a + at16 b + at11 m + at10 z + at7 w)
  | .vmax d a b m z w => some (0x7000000D + at22 d + at19 a + at16 b + at11 m + at10 z + at7 w)
  | .vminu d a b m z w => some (0x7000000E + at22 d + at19 a + at16 b + at11 m + at10 z + at7 w)
  | .vmaxu d a b m z w => some (0x7000000F + at22 d + at19 a + at16 b + at11 m + at10 z + at7 w)
  | .vadds d a b m z w => some (0x70000010 + at22 d + at19 a + at16 b + at11 m + at10 z + at7 w)
  | .vaddsu d a b m z w => some (0x70000011 + at22 d + at19 a + at16 b + at11 m + at10 z + at7 w)
  | .vsubs d a b m z w => some (0x70000012 + at22 d + at19 a + at16 b + at11 m + at10 z + at7 w)
  | .vsubsu d a b m z w => some (0x70000013 + at22 d + at19 a + at16 b + at11 m + at10 z + at7 w)
  | .vabs d a m z w => some (0x70000014 + at22 d + at19 a + at11 m + at10 z + at7 w)
  | .vmad d a b c m z w => some (0x70000015 + at22 d + at19 a + at16 b + at13 c + at11 m + at10 z + at7 w)
  | .vmov d a m z w => some (0x70000016 + at22 d + at19 a + at11 m + at10 z + at7 w)
  | .vsplat d c m z w => some (0x70000017 + at22 d + at13 c + at11 m + at10 z + at7 w)
  | .vcmp d a b m z w c => some (0x70000020 + at22 d + at19 a + at16 b + at11 m + at10 z + at7 w + at0 c)
  | .vfadd d a b m z t r => some (0x72000000 + at22 d + at19 a + at16 b + at11 m + at10 z + at7 t + at0 r)
  | .vfsub d a b m z t r => some (0x72000008 + at22 d + at19 a + at16 b + at11 m + at10 z + at7 t + at0 r)
  | .vfmul d a b m z t r => some (0x72000010 + at22 d + at19 a + at16 b + at11 m + at10 z + at7 t + at0 r)
  | .vffma d a b c m z t r => some (0x72000018 + at22 d + at19 a + at16 b + at13 c + at11 m + at10 z + at7 t + at0 r)
  | .vfdiv d a b m z t r => some (0x72000020 + at22 d + at19 a + at16 b + at11 m + at10 z + at7 t + at0 r)
  | .vfsqrt d a m z t r => some (0x72000028 + at22 d + at19 a + at11 m + at10 z + at7 t + at0 r)
  | .vfmin d a b m z t => some (0x72000030 + at22 d + at19 a + at16 b + at11 m + at10 z + at7 t)
  | .vfmax d a b m z t => some (0x72000038 + at22 d + at19 a + at16 b + at11 m + at10 z + at7 t)
  | .vfabs d a m z t => some (0x72000040 + at22 d + at19 a + at11 m + at10 z + at7 t)
  | .vfneg d a m z t => some (0x72000048 + at22 d + at19 a + at11 m + at10 z + at7 t)
  | .vfcmp d a b m z t c => some (0x72000070 + at22 d + at19 a + at16 b + at11 m + at10 z + at7 t + at0 c)
  | .vcvt d a f m z r t => some (0x74000000 + at22 d + at19 a + at14 f + at11 m + at10 z + at7 r + at0 t)
  | .vradd d a m w => some (0x76000000 + at22 d + at19 a + at11 m + at7 w)
  | .vrmin d a m w => some (0x76000008 + at22 d + at19 a + at11 m + at7 w)
  | .vrmax d a m w => some (0x76000010 + at22 d + at19 a + at11 m + at7 w)
  | .vrminu d a m w => some (0x76000018 + at22 d + at19 a + at11 m + at7 w)
  | .vrmaxu d a m w => some (0x76000020 + at22 d + at19 a + at11 m + at7 w)
  | .vrand d a m w => some (0x76000028 + at22 d + at19 a + at11 m + at7 w)
  | .vror d a m w => some (0x76000030 + at22 d + at19 a + at11 m + at7 w)
  | .vrxor d a m w => some (0x76000038 + at22 d + at19 a + at11 m + at7 w)
  | .vrfadd d a m t r => some (0x76000040 + at22 d + at19 a + at11 m + at7 t + at0 r)
  | .vrfmin d a m t => some (0x76000048 + at22 d + at19 a + at11 m + at7 t)
  | .vrfmax d a m t => some (0x76000050 + at22 d + at19 a + at11 m + at7 t)
  | .vperm d a b m z w => some (0x78000000 + at22 d + at19 a + at16 b + at11 m + at10 z + at7 w)
  | .vslup d a c m z w => some (0x78000001 + at22 d + at19 a + at13 c + at11 m + at10 z + at7 w)
  | .vsldn d a c m z w => some (0x78000002 + at22 d + at19 a + at13 c + at11 m + at10 z + at7 w)
  | .vziplo d a b m z w => some (0x78000003 + at22 d + at19 a + at16 b + at11 m + at10 z + at7 w)
  | .vziphi d a b m z w => some (0x78000004 + at22 d + at19 a + at16 b + at11 m + at10 z + at7 w)
  | .vunzlo d a b m z w => some (0x78000005 + at22 d + at19 a + at16 b + at11 m + at10 z + at7 w)
  | .vunzhi d a b m z w => some (0x78000006 + at22 d + at19 a + at16 b + at11 m + at10 z + at7 w)
  | .vcomp d a m w => some (0x78000007 + at22 d + at19 a + at11 m + at7 w)
  | .vexpd d a m z w => some (0x78000008 + at22 d + at19 a + at11 m + at10 z + at7 w)
  | .vget a c m w => some (0x78000009 + at19 a + at13 c + at11 m + at7 w)
  | _ => none

/-- Words of rows 150 to 199 of the encoded rows (R133, R145-R166). -/
def encodePart3 (i : Instr) : Option Nat :=
  match i with
  | .vmand d a b => some (0x7A000000 + at22 d + at19 a + at16 b)
  | .vmor d a b => some (0x7A000001 + at22 d + at19 a + at16 b)
  | .vmxor d a b => some (0x7A000002 + at22 d + at19 a + at16 b)
  | .vmandn d a b => some (0x7A000003 + at22 d + at19 a + at16 b)
  | .vmnot d a => some (0x7A000004 + at22 d + at19 a)
  | .vgather d a c m z w => some (0x7C000000 + at22 d + at19 a + at13 c + at11 m + at10 z + at7 w)
  | .vscatter d a c m z w => some (0x7C000001 + at22 d + at19 a + at13 c + at11 m + at10 z + at7 w)
  | .vld m v b w x => some (0x80000000 + at23 m + at20 v + at15 b + at12 w + at0 x)
  | .vst m v b w x => some (0x82000000 + at23 m + at20 v + at15 b + at12 w + at0 x)
  | .pbind d a => some (0x90000000 + at20 d + at15 a)
  | .pfree d a => some (0x92000000 + at20 d + at15 a)
  | .pstatPocket d a => some (0x94000000 + at20 d + at15 a)
  | .pstatWaiting d a => some (0x94000000 + at20 d + at15 a)
  | .pstatAllocation d a => some (0x94000000 + at20 d + at15 a)
  | .resume a => some (0x96000000 + at15 a)
  | .spawn d a b => some (0x98000000 + at20 d + at15 a + at10 b)
  | .steal d a b => some (0x9A000000 + at20 d + at15 a + at10 b)
  | .leaveMatrix d a y => some (0x9C000000 + at20 d + at15 a + at2 y)
  | .leaveSwap d a y => some (0x9C000001 + at20 d + at15 a + at2 y)
  | .leaveStream d a y => some (0x9C000002 + at20 d + at15 a + at2 y)
  | .leaveSwatch d a y => some (0x9C000003 + at20 d + at15 a + at2 y)
  | .snap d a b => some (0x9E000000 + at20 d + at15 a + at10 b)
  | .tlbinvAll a => some (0xA0000000 + at15 a)
  | .tlbinvAsid a => some (0xA0000001 + at15 a)
  | .tlbinvVa a b => some (0xA0000002 + at15 a + at10 b)
  | .asidret d a => some (0xA2000000 + at20 d + at15 a)
  | .darnPrep d a => some (0xA4000000 + at20 d + at15 a)
  | .darnCommit d => some (0xA4000001 + at20 d)
  | .darnAbort d => some (0xA4000002 + at20 d)
  | .darnBank d a => some (0xA4000003 + at20 d + at15 a)
  | .swatchRun d a => some (0xA6000000 + at20 d + at15 a)
  | .swatchStat d a => some (0xA6000001 + at20 d + at15 a)
  | .swatchStop d a => some (0xA6000002 + at20 d + at15 a)
  | .xamoAdd d a b w o s => some (0xA8000000 + at20 d + at15 a + at10 b + at5 w + at3 o + at0 s)
  | .xamoMinI d a b w o s => some (0xA8000040 + at20 d + at15 a + at10 b + at5 w + at3 o + at0 s)
  | .xamoMaxI d a b w o s => some (0xA8000080 + at20 d + at15 a + at10 b + at5 w + at3 o + at0 s)
  | .xamoMinN d a b w o s => some (0xA80000C0 + at20 d + at15 a + at10 b + at5 w + at3 o + at0 s)
  | .xamoMaxN d a b w o s => some (0xA8000100 + at20 d + at15 a + at10 b + at5 w + at3 o + at0 s)
  | .xamoAnd d a b w o s => some (0xA8000140 + at20 d + at15 a + at10 b + at5 w + at3 o + at0 s)
  | .xamoOr d a b w o s => some (0xA8000180 + at20 d + at15 a + at10 b + at5 w + at3 o + at0 s)
  | .xamoXor d a b w o s => some (0xA80001C0 + at20 d + at15 a + at10 b + at5 w + at3 o + at0 s)
  | .xamoSwap d a b w o s => some (0xA8000200 + at20 d + at15 a + at10 b + at5 w + at3 o + at0 s)
  | .xamoCas d a b w o s => some (0xA8000240 + at20 d + at15 a + at10 b + at5 w + at3 o + at0 s)
  | .xamoFadd d a b o s => some (0xA8000280 + at20 d + at15 a + at10 b + at3 o + at0 s)
  | .xst d b s o x => some (0xAA000000 + at20 d + at15 b + at12 s + at10 o + at0 x)
  | .tAdd g x u d a b l => some (0x00080000 + at30 g + at27 x + at26 u + at15 d + at11 a + at7 b + at6 l)
  | .tSub g x u d a b l => some (0x00100000 + at30 g + at27 x + at26 u + at15 d + at11 a + at7 b + at6 l)
  | .tMul g x u d a b l => some (0x00180000 + at30 g + at27 x + at26 u + at15 d + at11 a + at7 b + at6 l)
  | .tMulh g x u d a b => some (0x00200000 + at30 g + at27 x + at26 u + at15 d + at11 a + at7 b)
  | .tAnd g x u d a b => some (0x00280000 + at30 g + at27 x + at26 u + at15 d + at11 a + at7 b)
  | _ => none

/-- Words of rows 200 to 246 of the encoded rows (R133, R145-R166). -/
def encodePart4 (i : Instr) : Option Nat :=
  match i with
  | .tOr g x u d a b => some (0x00300000 + at30 g + at27 x + at26 u + at15 d + at11 a + at7 b)
  | .tXor g x u d a b => some (0x00380000 + at30 g + at27 x + at26 u + at15 d + at11 a + at7 b)
  | .tShl g x u d a b => some (0x00400000 + at30 g + at27 x + at26 u + at15 d + at11 a + at7 b)
  | .tShr g x u d a b => some (0x00480000 + at30 g + at27 x + at26 u + at15 d + at11 a + at7 b)
  | .tSra g x u d a b => some (0x00500000 + at30 g + at27 x + at26 u + at15 d + at11 a + at7 b)
  | .tMin g x u d a b l => some (0x00580000 + at30 g + at27 x + at26 u + at15 d + at11 a + at7 b + at6 l)
  | .tMax g x u d a b l => some (0x00600000 + at30 g + at27 x + at26 u + at15 d + at11 a + at7 b + at6 l)
  | .tMinu g x u d a b l => some (0x00680000 + at30 g + at27 x + at26 u + at15 d + at11 a + at7 b + at6 l)
  | .tMaxu g x u d a b l => some (0x00700000 + at30 g + at27 x + at26 u + at15 d + at11 a + at7 b + at6 l)
  | .tCmp g x u d a b c q => some (0x00780000 + at30 g + at27 x + at26 u + at15 d + at11 a + at7 b + at3 c + at0 q)
  | .tMov g x u d a q => some (0x00800000 + at30 g + at27 x + at26 u + at15 d + at11 a + at0 q)
  | .tSel g x u d a b n q => some (0x00880000 + at30 g + at27 x + at26 u + at15 d + at11 a + at7 b + at3 n + at0 q)
  | .tTag g x u d a t => some (0x00900000 + at30 g + at27 x + at26 u + at15 d + at11 a + at0 t)
  | .tDup g x u d a n => some (0x00980000 + at30 g + at27 x + at26 u + at15 d + at11 a + at0 n)
  | .tMaskb g x u d a b w s => some (0x00A00000 + at30 g + at27 x + at26 u + at15 d + at11 a + at7 b + at1 w + at0 s)
  | .tCrng g x u d a b => some (0x00A80000 + at30 g + at27 x + at26 u + at15 d + at11 a + at7 b)
  | .tFadd g x u f d a b r => some (0x00C00000 + at30 g + at27 x + at26 u + at19 f + at15 d + at11 a + at7 b + at4 r)
  | .tFsub g x u f d a b r => some (0x00E00000 + at30 g + at27 x + at26 u + at19 f + at15 d + at11 a + at7 b + at4 r)
  | .tFmul g x u f d a b r => some (0x01000000 + at30 g + at27 x + at26 u + at19 f + at15 d + at11 a + at7 b + at4 r)
  | .tFfma g x u f d a b r k => some (0x01200000 + at30 g + at27 x + at26 u + at19 f + at15 d + at11 a + at7 b + at4 r + at0 k)
  | .tFmin g x u f d a b => some (0x01400000 + at30 g + at27 x + at26 u + at19 f + at15 d + at11 a + at7 b)
  | .tFmax g x u f d a b => some (0x01600000 + at30 g + at27 x + at26 u + at19 f + at15 d + at11 a + at7 b)
  | .tFcmpF64 g x u d a b c q => some (0x01800000 + at30 g + at27 x + at26 u + at15 d + at11 a + at7 b + at3 c + at0 q)
  | .tFcmpF32 g x u d a b c q => some (0x01880000 + at30 g + at27 x + at26 u + at15 d + at11 a + at7 b + at3 c + at0 q)
  | .tFcvt g x u d a r c => some (0x01900000 + at30 g + at27 x + at26 u + at15 d + at11 a + at7 r + at0 c)
  | .tLdr g x u d a e t k c => some (0x01C00000 + at30 g + at27 x + at26 u + at15 d + at11 a + at7 e + at6 t + at4 k + at2 c)
  | .tStr g x u d a b t k => some (0x01C80000 + at30 g + at27 x + at26 u + at15 d + at11 a + at7 b + at6 t + at4 k)
  | .tAmoAdd g x u d a b t k => some (0x01D00000 + at30 g + at27 x + at26 u + at15 d + at11 a + at7 b + at6 t + at4 k)
  | .tAmoMinI g x u d a b t k => some (0x01D00001 + at30 g + at27 x + at26 u + at15 d + at11 a + at7 b + at6 t + at4 k)
  | .tAmoMaxI g x u d a b t k => some (0x01D00002 + at30 g + at27 x + at26 u + at15 d + at11 a + at7 b + at6 t + at4 k)
  | .tAmoMinN g x u d a b t k => some (0x01D00003 + at30 g + at27 x + at26 u + at15 d + at11 a + at7 b + at6 t + at4 k)
  | .tAmoMaxN g x u d a b t k => some (0x01D00004 + at30 g + at27 x + at26 u + at15 d + at11 a + at7 b + at6 t + at4 k)
  | .tAmoAnd g x u d a b t k => some (0x01D00005 + at30 g + at27 x + at26 u + at15 d + at11 a + at7 b + at6 t + at4 k)
  | .tAmoOr g x u d a b t k => some (0x01D00006 + at30 g + at27 x + at26 u + at15 d + at11 a + at7 b + at6 t + at4 k)
  | .tAmoXor g x u d a b t k => some (0x01D00007 + at30 g + at27 x + at26 u + at15 d + at11 a + at7 b + at6 t + at4 k)
  | .tAmoSwap g x u d a b t k => some (0x01D00008 + at30 g + at27 x + at26 u + at15 d + at11 a + at7 b + at6 t + at4 k)
  | .tAmoCas g x u d a b t k => some (0x01D00009 + at30 g + at27 x + at26 u + at15 d + at11 a + at7 b + at6 t + at4 k)
  | .tAmoFadd g x u d a b t k => some (0x01D0000A + at30 g + at27 x + at26 u + at15 d + at11 a + at7 b + at6 t + at4 k)
  | .tSteer g x u a i => some (0x02070000 + at30 g + at27 x + at26 u + at11 a + at0 i)
  | .tMsel g x u a q => some (0x020F0000 + at30 g + at27 x + at26 u + at11 a + at0 q)
  | .tSig g x u a l => some (0x02170000 + at30 g + at27 x + at26 u + at11 a + at0 l)
  | .tHalt g x u => some (0x021F0000 + at30 g + at27 x + at26 u)
  | .tSig2 g x u a b l => some (0x02270000 + at30 g + at27 x + at26 u + at11 a + at7 b + at0 l)
  | .ret => some (0x0C000000)
  | .eret => some (0x14000000)
  | .hend => some (0x16000000)
  | .ifence => some (0x1C000008)
  | _ => none

/-- The word of an instruction (R133, R161); none for a row without an encoding. -/
def encode (i : Instr) : Option Nat :=
  encodePart0 i <|> encodePart1 i <|> encodePart2 i <|> encodePart3 i <|> encodePart4 i

/-- The four bytes of a word, least significant first (R45, R131). -/
def wordBytes (w : Nat) : List Byte :=
  [BitVec.ofNat 8 w, BitVec.ofNat 8 (w / 2 ^ 8), BitVec.ofNat 8 (w / 2 ^ 16), BitVec.ofNat 8 (w / 2 ^ 24)]

/-- A word from its bytes, least significant first (R45); bytes beyond the fourth are left. -/
def bytesWord (bs : List Byte) : Option (Nat × List Byte) :=
  match bs with
  | a :: b :: c :: d :: rest => some (a.toNat + b.toNat * 2 ^ 8 + c.toNat * 2 ^ 16 + d.toNat * 2 ^ 24, rest)
  | _ => none

/-- The EXT row, whose opcode space shares words with STEER, MSEL, SIG, HALT and SIG2 of the other issue mode. -/
def isExtWord (w : Nat) : Bool := bits w 25 7 == 1

/-- The instruction a table word stands for. The issue mode of a word is where it lies (R161), which a bare word
does not say: it is read as a sequenced word where that is defined, else as a triggered one. A word with the
major of EXT that is exactly a defined triggered word is read as the latter (log 5). -/
def decodeAny (w : Nat) : Option Instr :=
  match decodeS w, decodeT w with
  | .ok i, .ok t => if isExtWord w then some t else some i
  | .ok i, .error _ => some i
  | .error _, .ok t => some t
  | .error _, .error _ => none

/-- The instruction the decoder reads from a table word of `nbits` bits: its bytes are laid out little-endian as
the hardware stores them and handed to the decoder (R131). -/
def decodeTableWord (nbits w : Nat) : Option Instr :=
  if nbits = 32 then (bytesWord (wordBytes w)).bind fun p => decodeAny p.1 else none

end Sys2Proof
end

