-- ==== Sys2Proof/Machine/State.lean ====
section
/-!
DEFINITION. The machine's state: everything the spec gives one wafer of the part, as plain data, with the closed
types of faults and refusals and the state right after reset. Tables indexed by a unit's number are sparse: a key
that is not listed holds the reset value of its entry (see `Machine/Ops.lean`, `Tab.get`).
-/
namespace Sys2Proof.Machine

/-- A sparse table: pairs of a key and an entry, keys strictly rising. -/
abbrev Tab (α : Type) := List (Nat × α)

/-- What an access that left its unit can be turned back by (R231, R480, R196). -/
inductive LateCause where
  | elsize | epeer | epath | edata
  deriving DecidableEq, Repr

/-- The kinds of access that R355 tells apart. -/
inductive AccKind where
  | load | store | amo | ldf | stf | ste | fetch
  deriving DecidableEq, Repr

/-- A 68-bit fabric token (R169): POISON, TAG and DATA. -/
structure Token where
  poison : Bool
  tag : BitVec 3
  data : Word
  deriving DecidableEq, Repr

/-! ### The needle core -/

/-- Modes of a slot (R208). -/
inductive Mode where
  | user | system
  deriving DecidableEq, Repr

/-- Whose handler a slot runs (R370, R371). -/
inductive Owner where
  | sys | actor (n : Nat)
  deriving DecidableEq, Repr

/-- What a slot is doing: nothing, a handler, or stopped for good under R481. -/
inductive Run where
  | free | handler (o : Owner) | stopped
  deriving DecidableEq, Repr

/-- A loop entry (R226): LSTART, LEND, LCOUNT or OSTART, OEND, OCOUNT, with its fields of LSTAT. -/
structure Loop where
  start : Word
  stop : Word
  count : Word
  depth : BitVec 16
  sysMode : Bool
  armed : Bool
  deriving DecidableEq, Repr

/-- FPCS (R56). -/
structure Fpcs where
  en : BitVec 5
  rm : BitVec 3
  flags : BitVec 5
  deriving DecidableEq, Repr

/-- A lane of a vector load that is not performed: its number, its location, its address and whether its page is full-empty
(R295, R296). -/
structure Lane where
  k : Nat
  loc : Nat
  va : Word
  fe : Bool
  deriving DecidableEq, Repr

/-- What an outstanding entry of a slot waits for (R209, R231, R308, R299, R304); `vec` lists the lanes of a vector load
that are not performed, and in `got` the values of those that are; `zero` clears the other lanes (R295, R325). -/
inductive PendKind where
  | load (size : Nat) (signed : Bool)
  | ldf
  | stf (v : Word)
  | amo (op : Nat) (bytes : Nat) (x : BitVec 128) (exp : BitVec 128)
  | vec (v : BitVec 3) (width : Nat) (zero : Bool) (lanes : List Lane) (got : List (Nat × Nat))
  | result
  deriving DecidableEq, Repr

/-- An access or result the slot waits for: `dst` lists the absolute register numbers whose writes are pending
(s0-s7, then 16 per window depth, so that a call or return does not renumber them). -/
structure Pend where
  id : Nat
  dst : List Nat
  kind : PendKind
  va : Word
  loc : Nat
  fe : Bool
  acq : Bool
  deriving DecidableEq, Repr

/-- A held late refusal (R480, R482): a TRAPCAUSE value and its TRAPVAL. -/
structure Late where
  cause : Word
  val : Word
  deriving DecidableEq, Repr

/-- A request for leave (R419, R495). -/
structure LeaveReq where
  tile : Nat
  slot : Option Nat
  cls : BitVec 2
  n : Nat
  deriving DecidableEq, Repr

/-- One needle thread slot (R208, R367, R391, R403, R419, R480). `file` holds s0-s31 as the running code names
them; `frames` holds s8-s23 of the older resident windows, newest first (R223). `held` is the location of a read of its instruction (a
fetch, a page walk, a block) that a router on the way holds, `cut` says that the router has answered it with the path error (R32). `bad`
lists the registers, by absolute number, that hold an error of two bits (R488). `dying` holds the cause and the address of a double trap
whose handler ends once its accesses are over (R481). -/
structure Slot where
  run : Run
  mode : Mode
  pc : Word
  file : Vector Word 32
  frames : List (Vector Word 16)
  depth : BitVec 16
  wsp : Word
  preds : BitVec 8
  v : Vector (BitVec 4096) 8
  m : Vector (BitVec 1024) 4
  fpcs : Fpcs
  rseed : Word
  rctr : Word
  top : Loop
  below : Loop
  ext : Option (BitVec 25)
  asid : BitVec 12
  gen : BitVec 4
  budget : BitVec 32
  budgetDue : Bool
  trapCause : Word
  trapPc : Word
  trapVal : Word
  inTrap : Bool
  pMode : Mode
  tscr : Word
  bal : Vector (BitVec 16) 4
  asked : Option LeaveReq
  granted : Bool
  pend : List Pend
  late : List Late
  waiting : Bool
  held : Option Nat
  cut : Bool
  bad : List Nat
  dying : Option (Word × Word)
  deriving DecidableEq, Repr

/-- What a store does to the bytes it names: it writes them, leaves their word empty (STE, R308), or writes the low or high
half of a byte (a lane of .L4, R295). -/
inductive StoreHow where
  | bytes
  | empty
  | nibble (high : Bool)
  deriving DecidableEq, Repr

/-- An access of a needle store in the tile's pending-store table (R329). The lanes of one vector store share `entry`, the
number of their table entry; `quiet` is set once one of them has been refused, and `rel` where the store is a release. -/
structure StoreEnt where
  id : Nat
  slot : Nat
  va : Word
  loc : Nat
  bytes : List Byte
  fe : Bool
  how : StoreHow
  entry : Nat
  quiet : Bool
  rel : Bool
  deriving DecidableEq, Repr

/-- A store that its owner has acknowledged but that is not performed at system scope (R329): the tile it came from, its slot (8 + g
for copy stream g, 16 for an element), where it is, the bytes that agents outside the wafer still see there, and whether it is a
release, which they see only after what it orders (R334). The list of them is in the order of acknowledgement. -/
structure Behind where
  id : Nat
  tile : Nat
  slot : Nat
  loc : Nat
  old : List Byte
  rel : Bool
  deriving DecidableEq, Repr

/-- A cached table entry of a panel (R357). -/
structure WalkEnt where
  asid : BitVec 12
  gen : BitVec 4
  level : Nat
  page : Nat
  entry : Word
  deriving DecidableEq, Repr

/-- A walk in progress (R353, R358), of a needle slot, or of generator `unit` - 8: the levels and the table it has still to
read, the entries it has read, and the fault it has come to. -/
structure Walker where
  tile : Nat
  unit : Nat
  asid : BitVec 12
  gen : BitVec 4
  va : Word
  levels : List Nat
  table : Nat
  read : List WalkEnt
  fault : Option Nat
  deriving DecidableEq, Repr

/-- A cached translation (R357): page base and size, and the leaf entry. -/
structure TlbEnt where
  asid : BitVec 12
  gen : BitVec 4
  level : Nat
  page : Nat
  leaf : Word
  deriving DecidableEq, Repr

/-! ### Stitches, pockets and actors -/

/-- A stitch with what its receiver can see of it (R211, R236): sender, addressee, words and status. `ent` is the overflow
entry that holds its words (R376). -/
structure Stitch where
  src : Nat
  srcElem : Bool
  srcUnit : Nat
  dst : Nat
  label : Nat
  handle : Option (BitVec 32)
  two : Bool
  w0 : Word
  w1 : Word
  status : BitVec 4
  launch : Option Nat
  ent : Option Nat
  deriving DecidableEq, Repr

/-- States of a pocket (R375). -/
inductive PocketState where
  | unbound | idle | ready | away | freed
  deriving DecidableEq, Repr

/-- A pocket (R374): POCKA, POCKB and the stitches it holds in the store and in the overflow area. -/
structure Pocket where
  state : PocketState
  sys : Bool
  owner : Nat
  two : Bool
  tag0 : BitVec 2
  tag1 : BitVec 2
  prio : Nat
  depthM1 : Nat
  held : Bool
  entry : Word
  store : List Stitch
  ovf : List Stitch
  deriving DecidableEq, Repr

/-- States of an actor record (R373). -/
inductive ActorState where
  | free | bound | running | away | exited
  deriving DecidableEq, Repr

/-- An actor record (R372, R373, R392): ACTA, ACTB, ACTC and ACTD, with its launch and what an eviction saved;
`savedLate` and `savedBad` are the late refusals beyond the eight of R482's image and the registers with errors (R488; log 28). -/
structure Actor where
  state : ActorState
  slot : Nat
  inc : BitVec 10
  sbase : Word
  ssize : Word
  dqBase : BitVec 20
  dqLog : BitVec 5
  tail : BitVec 16
  head : BitVec 16
  launch : Option Nat
  exiting : Bool
  saved : Option Word
  savedRun : Bool
  savedPend : List Pend
  savedLate : List Late
  savedBad : List Nat
  savedAsid : BitVec 12
  savedGen : BitVec 4
  evicting : Bool
  deriving DecidableEq, Repr

/-- An entry of the hold queue (R384): its label, whether it is an orphan, the stitch, and its place in the order in which the tile's stitches
came (R383, R385). -/
structure HoldEnt where
  label : Nat
  orphan : Bool
  st : Stitch
  seen : Nat
  deriving DecidableEq, Repr

/-- A stitch in the injection queue (R237, R238): a release waits for the accesses older than `before`. -/
structure InjEnt where
  st : Stitch
  rel : Bool
  slot : Nat
  before : Nat
  deriving DecidableEq, Repr

/-- The router's state that a darning commit moves to new silicon (R414), and the picker's (R387). -/
structure Router where
  pockets : Tab Pocket
  actors : Tab Actor
  sysActor : Actor
  orphans : List Stitch
  holdq : List HoldEnt
  sender : List (Nat × Nat)
  refusal : List (Nat × Nat)
  wide : Bool
  inFlight : Tab Nat
  inj : List InjEnt
  localRef : List Stitch
  ovfcfg : Word
  hqbase : Word
  hqFull : Bool
  hqLog : BitVec 5
  hbdef : BitVec 32
  ploga : Word
  plogb : Word
  pickN : Nat
  lastPick : Tab Nat
  deriving DecidableEq, Repr

/-! ### The fabric of a tile -/

/-- Where a wire of the resident load begins (R111). -/
inductive Source where
  | elem (e k : Nat) | island (i : Nat) | stream (g : Nat) | ct | cmp | mrg | fold (t : Nat) | weft (g : Nat)
  | link (port ch : Nat)
  deriving DecidableEq, Repr

/-- Where a wire of the resident load ends (R111). -/
inductive Sink where
  | elem (e k : Nat) | island (i : Nat) | stream (g : Nat) | ct | cmp | mrg (k : Nat) | fold (t : Nat)
  | link (port ch : Nat)
  deriving DecidableEq, Repr

/-- A wire: its source, its select queue if it has the select option, and its destinations with their tiles. -/
structure Wire where
  src : Source
  sel : Option Nat
  dsts : List (Nat × Sink)
  deriving DecidableEq, Repr

/-- A fabric element (R105, R169, R193, R206, R263-R267). `resolved` says that a q bit has come to another value since firings
were last squashed, `off` that an access of the element waits for the loader to translate its address (R196, R362). -/
structure Elem where
  slots : Tab (BitVec 32)
  burst : Nat
  q : BitVec 8
  d : Vector Token 8
  chans : Tab (List Token)
  replies : Tab (List Nat)
  seed : Word
  ctr : Word
  drawIx : Nat
  halted : Bool
  stopped : Bool
  off : Bool
  beat : Option (Nat × Nat)
  fires : BitVec 32
  squash : BitVec 32
  resolved : Bool
  deriving DecidableEq, Repr

/-- What an element memory operation does (R198-R200). -/
inductive ElemOpKind where
  | ldr (e k : Nat) | str | amo (op : Nat)
  deriving DecidableEq, Repr

/-- An element memory operation in flight (R196, R197): `got` holds the reply of an LDR or the old value of an AMO that has
been performed, `told` and `replied` say that its completion and its reply have been delivered. -/
structure ElemOp where
  id : Nat
  elem : Nat
  kind : ElemOpKind
  va : Word
  loc : Nat
  fe : Bool
  data : Word
  exp : Word
  dest : BitVec 4
  tag : BitVec 3
  refused : Bool
  got : Option Token
  told : Bool
  replied : Bool
  deriving DecidableEq, Repr

/-- A physical extent of a generator (R361): `stale` once an invalidation or a resumption asks for it to be patched again (R362,
R364), `used` when it was last used. -/
structure Extent where
  vbase : Nat
  pbase : Nat
  npages : Nat
  r : Bool
  w : Bool
  fe : Bool
  asid : BitVec 12
  gen : BitVec 4
  stale : Bool
  used : Nat
  deriving DecidableEq, Repr

/-- A four-dimensional box (R272). -/
structure Box where
  base : Word
  run : Nat
  rows : Nat
  planes : Nat
  cubes : Nat
  pitch : Word
  ppitch : Word
  cpitch : Word
  deriving DecidableEq, Repr

/-- A running COPY (R303-R307): its destination box, its completion, where it was issued, and in `buf` the words of its unit that it
has read and not yet written. -/
structure CopyJob where
  dst : Box
  notify : Word
  cookie : Word
  param : Word
  pend : Nat
  slot : Nat
  owner : Owner
  launch : Option Nat
  ended : Option (BitVec 8)
  buf : List Word
  deriving DecidableEq, Repr

/-- A copy-island stream (R272-R275, R361): streams 0-3 are ci0.s0-s3 and 4-7 are ci1.s0-s3. -/
structure Stream where
  used : Bool
  isDst : Bool
  box : Box
  pos : Nat
  ext : List Extent
  reason : BitVec 3
  kind : BitVec 3
  gfva : Word
  inq : List Token
  job : Option CopyJob
  asid : BitVec 12
  gen : BitVec 4
  deriving DecidableEq, Repr

/-- A streamed row (R68, R81): its format, element bytes, block scales, and the origin word of a poisoned token. -/
structure Row where
  fmt : BitVec 3
  elems : List Byte
  scales : List Byte
  poison : Option Word
  deriving DecidableEq, Repr

/-- A MAT instruction that an island carries out (R300, R302). -/
inductive MatKind where
  | load | row | drain
  deriving DecidableEq, Repr

/-- A queued MAT instruction with its progress and its pending status register. -/
structure MatJob where
  kind : MatKind
  fmt : BitVec 3
  a : Nat
  b : Nat
  count : Nat
  done : Nat
  poisoned : Bool
  started : Bool
  pend : Nat
  slot : Nat
  owner : Owner
  asid : BitVec 12
  deriving DecidableEq, Repr

/-- A token of a select or steer queue (R73, R74, R204): MASK or ROUTE, COUNT, and the mark of R204. -/
structure QTok where
  sel : Nat
  count : Nat
  poisoned : Option Word
  deriving DecidableEq, Repr

/-- A matrix island (R66-R74, R298-R302). A result row is a list of f32 values with their poison. -/
structure Island where
  valid : Bool
  fmt : BitVec 3
  ebase : Nat
  sbase : Nat
  elems : List Byte
  scales : List Byte
  loading : Bool
  named : Bool
  rows : List Row
  parts : List Token
  results : List (List Token)
  sent : Nat
  refire : Bool
  mism : BitVec 16
  claimBlock : Bool
  claimRows : Bool
  claimResults : Bool
  rowFmt : BitVec 3
  src : BitVec 2
  routes : Nat
  steer : List QTok
  jobs : List MatJob
  cordoned : Bool
  deriving DecidableEq, Repr

/-- A value in a fold tree (R93, R96, R97): its bits or its exact sum, and the origin word of a poisoned value. -/
structure FoldVal where
  x : Int
  poison : Option Word
  deriving DecidableEq, Repr

/-- A fold flit: row, position in the row, values, and the range of slice indices it covers (R94, R95). -/
structure FoldFlit where
  row : Nat
  k : Nat
  vals : List FoldVal
  lo : Nat
  hi : Nat
  deriving DecidableEq, Repr

/-- A fold slot (R92-R99, R243-R245, R429). `inq` holds the flits of inputs 0-3 (hop codes of R30) and, from key
8, of the local sources in SRC order; `parts` holds partials under order=index, `outq` the tokens of a root's flit that
its wire has not taken; `gone` counts, by row, the slices whose last flit has left a router under order=index (R245); `short`: the
row in hand is one of fewer rows (R99), and its report is made. -/
structure FoldSlot where
  v : Bool
  op : BitVec 3
  idx : Bool
  ins : BitVec 5
  out : BitVec 3
  srcs : BitVec 6
  len : Nat
  slice : Nat
  ovf : Bool
  pattern : Bool
  elemSrc : Nat
  rootOff : Option Nat
  inq : Tab (List FoldFlit)
  parts : List FoldFlit
  rows : BitVec 32
  nextK : Nat
  pushed : Tab Nat
  half : Option Token
  outq : List Token
  gone : Tab Nat
  short : Bool
  deriving DecidableEq, Repr

/-- The compaction unit (R269). -/
structure Compact where
  width : Nat
  seen : Nat
  passed : Nat
  inq : List Token
  due : Bool
  deriving DecidableEq, Repr

/-- The merge unit (R270, R271). -/
structure Merge where
  keys : Nat
  n : Nat
  spent : List Nat
  entries : Tab Token
  in0 : List Token
  in1 : List Token
  deriving DecidableEq, Repr

/-- States of a half of the corner-turn buffer (R456). -/
inductive HalfState where
  | empty | filling | full | draining
  deriving DecidableEq, Repr

/-- A half of the corner-turn buffer: the tokens received, whether an end-of-stream token ended it, the position
of its reader and its age. -/
structure Half where
  state : HalfState
  toks : List Token
  ended : Bool
  pos : Nat
  age : Nat
  deriving DecidableEq, Repr

/-- The corner-turn buffer (R455-R460). -/
structure Corner where
  fmt : BitVec 5
  reblock : BitVec 5
  h0 : Half
  h1 : Half
  wr : Bool
  inq : List Token
  deriving DecidableEq, Repr

/-- A weft frame (R81), as its header and payload say: LEN counts the payload's 8-byte units. -/
structure Frame where
  group : Nat
  fmt : BitVec 3
  last : Bool
  epoch : BitVec 8
  len : Nat
  seq : BitVec 32
  payload : List Byte
  deriving DecidableEq, Repr

/-- The weft port's state for one bound group (R84, R86). -/
structure PortGroup where
  bound : Bool
  n : BitVec 32
  e : BitVec 8
  done : Bool
  held : Tab Frame
  fmt : BitVec 3
  lanes : Nat
  units : Nat
  asked : Option (BitVec 32)
  deriving DecidableEq, Repr

/-- A ring receiver (R77, R89). -/
structure Ring where
  st : BitVec 2
  lambda : BitVec 4
  group : Nat
  w2 : Bool
  lane : Nat
  fails : Nat
  cordoned : Bool
  deriving DecidableEq, Repr

/-- A sink's report state within a load (R179). -/
structure SinkRep where
  first : Bool
  origin : Word
  what : Nat
  count : BitVec 16
  deriving DecidableEq, Repr

/-- States of a tile's part in a launch (R281). -/
inductive PartState where
  | idle | config | running | settled | saved
  deriving DecidableEq, Repr

/-- A tile's part in a launch (R259, R278-R281, R484): the launch's number, the load, the wave's bookkeeping, and the
leave that the loader asks for and holds (R279, R497). -/
structure Part where
  launch : Option Nat
  load : Nat
  state : PartState
  tacked : Bool
  rootCycles : Word
  s : Nat
  a : Nat
  dirty : Bool
  waveHere : Bool
  waveDown : Bool
  answers : List (Nat × Nat × Nat × Bool)
  lastSum : Option (Nat × Nat)
  tokenHere : Bool
  wanted : List LeaveReq
  leave : List LeaveReq
  stopping : Bool
  firingStopped : Bool
  quiet : Bool
  deriving DecidableEq, Repr

/-- A running swatch test (R420, R421): its descriptor, the issuing tile, whether it is a targeted one and how often it
was abandoned (R490), and whether a SWATCH unit is booked for it, as for every test of SWATCH.RUN. `wide` is set where the tile is the
containment unit of its error (R489). `corrected` is of the MARCH after a corrected error: the banks of the three errors, the bank of this
one, and whether the three lie within an hour (R469). -/
structure Test where
  ticket : BitVec 16
  desc : Word
  issuer : Nat
  targeted : Bool
  tries : Nat
  booked : Bool
  wide : Bool
  corrected : Option (Nat × Nat × Bool)
  deriving DecidableEq, Repr

/-- Swatch tests of a tile (R421, R490). -/
structure Swatch where
  next : BitVec 16
  running : List Test
  reports : List (BitVec 16 × Word × Word)
  cordoned : List Nat
  deriving DecidableEq, Repr

/-- The reliability logic's memory of corrected errors (R469): CYCLES stamps and banks, newest first. -/
structure Reliab where
  stamps : List (Word × Nat)
  advisory : Option Nat
  reladv : Word
  deriving DecidableEq, Repr

/-- A leaky bucket (R498). -/
structure Bucket where
  rate : BitVec 16
  depth : BitVec 16
  count : Nat
  deriving DecidableEq, Repr

/-- The fabric of a tile. -/
structure Fabric where
  elems : Tab Elem
  ops : List ElemOp
  path : Stream
  streams : Tab Stream
  islands : Tab Island
  selq : Tab (List QTok)
  folds : Tab FoldSlot
  cmp : Compact
  mrg : Merge
  ct : Corner
  wires : List Wire
  groups : Tab PortGroup
  raw : Tab (List Token)
  rings : Tab Ring
  sinks : Tab SinkRep
  part : Part
  deriving DecidableEq, Repr

/-- A command of ACTCMD whose MTS has not completed (R408): its slot and command word, whether an EVICT still moves
stitches (R384), and whether it has taken effect. -/
structure ActWait where
  slot : Nat
  cmd : Word
  moving : Bool
  done : Bool
  deriving DecidableEq, Repr

/-- A logical tile. `matDue` counts the MATRIX units that a slot returned while MROWs it queued still run (R494); `xids` names the XSTs
and XAMOs of its slots that are under way (R425); `level` is the throttle level of its panel in the present window (R502). -/
structure Tile where
  slots : Vector Slot 8
  cycles : Word
  tvec : Word
  actcmd : BitVec 8
  actWait : Option ActWait
  stores : List StoreEnt
  tlb : List TlbEnt
  router : Router
  fabric : Fabric
  swatch : Swatch
  reliab : Reliab
  fsave : Word
  buckW : Bucket
  buckC0 : Bucket
  buckC1 : Bucket
  gateEn : Bool
  gated : Bool
  marked : List Nat
  reweave : Option Nat
  reweaving : Bool
  matDue : Tab Nat
  xids : List Nat
  level : Nat
  deriving DecidableEq, Repr

/-! ### The wafer -/

/-- The router and silicon of a physical tile (R28-R44); `dead` marks silicon that the map names as unusable (R23), `dark`
silicon without a clock (R44); `lost` marks the candidates of CLKSRC whose clock it has lost (R42, R44). -/
structure Phys where
  dself : BitVec 32
  drtd : Word
  drts : Word
  measd : BitVec 32
  meass : BitVec 32
  clksrc : BitVec 32
  banks : BitVec 16
  emap : BitVec 5
  badLinks : List Nat
  lanes : Tab Nat
  fwd : Option Nat
  hold : Bool
  dead : Bool
  dark : Bool
  lost : BitVec 4
  deriving DecidableEq, Repr

/-- What travels between tiles and the selvedge; a frame as the bytes on its fibre (R81), up to four tokens of one wire in a
flit (R267), a fold flit with the fold slot and the input it goes to (R98). -/
inductive Msg where
  | stitch (st : Stitch)
  | answer (st : Stitch)
  | returned (st : Stitch) (counts : Bool)
  | marker (label : Nat)
  | drain (dir : BitVec 2) (data : Bool)
  | frame (wire : List Byte) (rx : Nat)
  | replay (g : Nat) (epoch : BitVec 8) (first : BitVec 32) (overrun : Bool)
  | report (g : Nat) (epoch : BitVec 8)
  | inval (kind : Nat) (asid : BitVec 12) (va : Word) (wafer : Bool) (who : Nat)
  | peer (wid : BitVec 8) (dl : Bool)
  | tokens (sink : Sink) (ks : List Token)
  | fold (slot input : Nat) (f : FoldFlit)
  deriving DecidableEq, Repr

/-- A message in flight: where it is (a physical tile), the hops of a detour it still has to follow, the mesh
(true for data), and whether a failed link holds it (R24, R32). -/
structure Flight where
  id : Nat
  msg : Msg
  src : Nat
  dst : Nat
  at_ : Nat
  hops : List (BitVec 2)
  data : Bool
  held : Bool
  deriving DecidableEq, Repr

/-- States of a multicast group (R80). -/
inductive GroupState where
  | idle | armed | streaming | closing
  deriving DecidableEq, Repr

/-- A selvedge group: its table entry (R78) and its stream's bookkeeping (R80, R85, R87, R109, R241, R511). `spent` marks the
entry of a load that has ended, which Purad may use again. -/
structure Group where
  v : Bool
  state : GroupState
  w2 : Bool
  fibre : Nat
  lambda : BitVec 4
  split : BitVec 8
  fmt : BitVec 3
  nmem : Nat
  pace : Nat
  epoch : BitVec 8
  seq : BitVec 32
  last : BitVec 32
  members : List Nat
  completed : List Nat
  overruns : Nat
  basePace : Nat
  rowAsked : List (Nat × Nat)
  byWeft : Bool
  starter : Option (Nat × Nat × Word × Option Nat)
  spent : Bool
  patIndex : Nat
  launch : Option Nat
  load : Nat
  elemsAt : Word
  scalesAt : Word
  stride : Word
  units : Nat
  ended : Bool
  deriving DecidableEq, Repr

/-- A work queue (R253, R254). -/
structure Queue where
  d0 : Word
  d1 : Word
  widx : BitVec 32
  ridx : BitVec 32
  cidx : BitVec 32
  qerr : BitVec 3
  busy : Bool
  deriving DecidableEq, Repr

/-- A parameter of a node record (R120, R121): a value, or one value for each tile of the node's range. -/
inductive Param where
  | const (v : Word) | perTile (vs : List Word)
  deriving DecidableEq, Repr

/-- An element block (R123). -/
structure ElemBlock where
  slots : Tab (BitVec 32)
  burst : Nat
  qinit : BitVec 8
  dinit : List Param
  rseed : Param
  deriving DecidableEq, Repr

/-- A node record (R121), with the element block and the group list it names. -/
structure Node where
  kind : Nat
  unit : Nat
  flags : Nat
  x0 : Nat
  y0 : Nat
  x1 : Nat
  y1 : Nat
  p : List Param
  block : Option ElemBlock
  groups : List Nat
  deriving DecidableEq, Repr

/-- A wire record (R122). -/
structure WireRec where
  srcNode : Nat
  srcPort : Nat
  select : Bool
  cont : Bool
  atOff : Bool
  dstNode : Nat
  dstPort : Nat
  dx : Int
  dy : Int
  deriving DecidableEq, Repr

/-- A load of a pattern (R119), with the origin Purad gave it (R127) and that of a redundant load's second placement. -/
structure Load where
  width : Nat
  height : Nat
  fixed : Bool
  atx : Nat
  aty : Nat
  red : Bool
  keep : Nat
  nodes : List Node
  wires : List WireRec
  ox : Nat
  oy : Nat
  ox2 : Nat
  oy2 : Nat
  deriving DecidableEq, Repr

/-- A pocket record and an actor record of a pattern (R124). -/
structure PocketRec where
  label : Nat
  w : Nat
  tags : Nat
  prio : Nat
  depth : Nat
  entry : Word
  deriving DecidableEq, Repr

structure ActorRec where
  x : Nat
  y : Nat
  sbase : Word
  ssize : Word
  pockets : List PocketRec
  deriving DecidableEq, Repr

/-- A data record (R125). -/
structure DataRec where
  vaddr : Word
  size : Nat
  init : Option (Nat × Nat)
  deriving DecidableEq, Repr

/-- A pattern image as read from memory (R118-R125). -/
structure Pattern where
  loads : List Load
  actors : List ActorRec
  data : List DataRec
  deriving DecidableEq, Repr

/-- Where a launch stands (R256-R262, R484, R485). -/
inductive LaunchState where
  | waiting | running | stopping | saved | resuming | finished
  deriving DecidableEq, Repr

/-- A launch (R253-R262): its queue and record, its allocation, its placed pattern, and what a pre-emption saved of its
tiles (R484, R486). -/
structure Launch where
  queue : Nat
  index : BitVec 32
  prio : Nat
  seqNo : Nat
  asid : BitVec 12
  gen : BitVec 4
  ax : Nat
  ay : Nat
  aw : Nat
  ah : Nat
  patternVa : Word
  arg : Word
  done : Word
  cookie : Word
  notify : Word
  state : LaunchState
  pat : Pattern
  root : Nat
  mgen : BitVec 32
  tree : List (Nat × Nat × Bool)
  load : Nat
  loadsDone : Bool
  sent : Nat
  received : Nat
  rerun : Bool
  fault : Option (Nat × Nat)
  saved : Tab Fabric
  deriving DecidableEq, Repr

/-- A cached placement (R129): its key and the origins of its loads. -/
structure Placement where
  key : BitVec 256
  origins : List (Nat × Nat)
  deriving DecidableEq, Repr

/-- A panel's power and thermal controller (R494-R501). -/
structure Panel where
  budget : BitVec 24
  booked : Nat
  tnow : BitVec 8
  talert : BitVec 8
  thyst : BitVec 8
  tcrit : BitVec 8
  level : Nat
  hotMs : Nat
  coolMs : Nat
  reqs : List LeaveReq
  walk : List WalkEnt
  deriving DecidableEq, Repr

/-- A link port (R433-R440). `cnt` holds counter C0 to C3 of lane j (16-31 inbound) under 4j to 4j + 3; `sent` the tokens
of a send channel whose credit has not come back, `rq` those of a receive channel, `cycles` the STAMP of R426. -/
structure Port where
  state : BitVec 2
  outFence : BitVec 16
  inFence : BitVec 16
  lmgen : BitVec 32
  farWid : BitVec 8
  farPort : BitVec 7
  farV : Bool
  lpch : Tab Word
  pendCh : Tab Word
  cnt : Tab Word
  rq : Tab (List Token)
  sent : Tab (List Token)
  cycles : Word
  joined : List Nat
  deriving DecidableEq, Repr

/-- A record of the care label (R493). -/
structure CareRec where
  w0 : Word
  w1 : Word
  deriving DecidableEq, Repr

/-- The care label (R493, R510): records not yet in flash, the flash's log, the number ever written, the lifetime
counters and the histograms (bin b of panel p: temperature under 128 p + b, voltage 64 above) as they run and as last
checkpointed. -/
structure Care where
  buf : List CareRec
  log : List CareRec
  total : Nat
  ctr : Tab Nat
  saved : Tab Nat
  hist : Tab Nat
  histSaved : Tab Nat
  deriving DecidableEq, Repr

/-- An entry of a darning plan (R411): physical tile, register, value. -/
structure PlanEnt where
  phys : Nat
  reg : Nat
  value : Word
  deriving DecidableEq, Repr

/-- A route entry that a commit changes, until it comes into force (R31, R35). -/
structure RouteChange where
  phys : Nat
  tile : Nat
  dir : Nat
  data : Bool
  entry : Nat
  measure : Nat
  deriving DecidableEq, Repr

/-- A staged plan and the tile, or as `tileCount + n` the management core, that owns it (R413);
from its commit on, the slot that waits for the commit to end, and the
route entries that come into force with its end. -/
structure Plan where
  owner : Nat
  ents : List PlanEnt
  slot : Option Nat
  due : List RouteChange
  deriving DecidableEq, Repr

/-- An ASIDS entry (R354, R365). -/
structure Asid where
  root : BitVec 52
  v : Bool
  low : BitVec 4
  gen : BitVec 4
  deriving DecidableEq, Repr

/-- An access that another wafer makes through a link port, or the host or another wafer to its own memory (R308, R312, R423-R425, R442);
`fe` says that its page is full-empty. -/
inductive OutOp where
  | load (n : Nat) (fe : Bool) | store (bytes : List Byte) (fe : Bool) | ldf | stf (v : Word) | ste (v : Word)
  | amo (op n x e : Nat) (fe : Bool)
  deriving DecidableEq, Repr

/-- What the link layer of a port does: its cycles pass, a counter of R436 advances, the port trains or is cordoned (R434). -/
inductive LinkStep where
  | cycles (k : Nat) | count (i k : Nat) | state (st : BitVec 2)
  deriving DecidableEq, Repr

/-- A full-empty request that waits at the owner of its word (R309): who made it. `poll` is the read of a unit of a tile that
makes the access itself when its turn has come: a copy stream (0-7), an island (16-19), a window fill or a block read of a
slot (32-39). -/
inductive FeWho where
  | needle (tile slot id : Nat) | elem (tile id : Nat) | poll (tile unit : Nat) | outside (port id : Nat) (op : OutOp) (loc : Nat)
  deriving DecidableEq, Repr

/-- A waiting full-empty request and the word it waits on. -/
structure FeReq where
  who : FeWho
  word : Nat
  retry : Bool
  deriving DecidableEq, Repr

/-- A SNAP that has latched its record, and the locations of its 32-byte pieces with their FE bits (R426, R427). -/
structure SnapJob where
  tile : Nat
  slot : Nat
  pend : Nat
  lmgen : BitVec 32
  pieces : List (Nat × Bool)
  bytes : List Byte
  deriving DecidableEq, Repr

/-- A WEFT request whose answer is due (R241), or an allocation query (R399): the caller's launch, and of a WEFT the allocation
that its stitch target is read under, with whether the target is valid. -/
structure Ask where
  tile : Nat
  slot : Nat
  pend : Nat
  a : Word
  b : Word
  launch : Option Nat
  alloc : Option Nat
  targetOk : Bool
  deriving DecidableEq, Repr

/-- Boot and management state (R503-R510): the manufacturing map in the fuses, the field changes to it in flash (R23), the
accepted image, the command block, alerts with the MSI-X messages sent (R503), the host windows. -/
structure Mgmt where
  fuses : Tab (BitVec 32 × Word × Word × BitVec 32 × BitVec 32)
  fuseBanks : Tab (BitVec 16)
  fuseEmap : Tab (BitVec 5)
  fuseDead : List Nat
  fuseHash : List (BitVec 256)
  fuseSvn : BitVec 32
  field : Tab Phys
  basted : Bool
  imageHash : BitVec 256
  svn : BitVec 32
  alert : BitVec 4
  msix : Nat
  cmd : Vector Word 8
  idSet : Bool
  wid : BitVec 8
  swLog : Nat
  winBase : Tab Word
  winSize : Tab Word
  deriving DecidableEq, Repr

/-- Which unit runs a step's instruction: a needle slot of a tile, or an element's slot. -/
inductive Focus where
  | needle (tile slot : Nat) | elem (tile e k : Nat)
  deriving DecidableEq, Repr

/-- The operands of a step without an encoding (log 20): the tile or panel or port (`tile`), the unit in it
(`unit`), an index (`n`), a written value (`v`), an outcome (`flag`), and what the outside world supplies. -/
structure EvArgs where
  tile : Nat
  unit : Nat
  n : Nat
  v : BitVec 128
  flag : Bool
  cause : LateCause
  kind : AccKind
  tok : Token
  upset : List (Nat × Int)
  deriving DecidableEq, Repr

/-- Whose turn it is (log 1): a needle slot, an element, a step of the hardware, the host or the management plane, an error
that an access finds in a word of memory, one that an instruction finds in a register (R488), DARN by a management core (R413,
R503), an access that another wafer or the host makes (R442), or what the link layer of a port does (R434-R436). -/
inductive Turn where
  | needle (tile slot : Nat) | elem (tile e : Nat) | event (i : Instr) (a : EvArgs) | upset (loc : Nat) (double : Bool)
  | register (tile slot reg : Nat) (double : Bool) | core (n op loc : Nat)
  | outside (port : Nat) (op : OutOp) (loc : Nat) | link (port : Nat) (x : LinkStep)
  deriving DecidableEq, Repr

/-- The whole machine. `agenda`, `focus`, `ev`, `seq`, `free` and `turns` are the model's own (logs 1, 11, 15, 20);
every other field is the spec's: `cores` holds the status word of each management core's last DARN (R413, log 65), `rerouted` the wafers
whose port has changed with the stamp from which traffic to them waits (R443, log 68). `mem`, `empties` and `marks` hold the bytes, the empty full-empty words and the
words marked as uncorrectable, by location (R324, R356, R488). -/
structure State where
  mem : List Host.Cell
  empties : List Nat
  marks : List Nat
  tiles : Tab Tile
  phys : Tab Phys
  mgen : BitVec 32
  plan : Option Plan
  cores : Tab Word
  asids : Tab Asid
  groups : Tab Group
  splits : Tab (BitVec 8)
  queues : Tab Queue
  launches : Tab Launch
  cache : List Placement
  panels : Tab Panel
  ports : Tab Port
  wroute : Tab Word
  reach : BitVec 256
  rerouted : Tab Nat
  care : Care
  mgmt : Mgmt
  flights : List Flight
  behind : List Behind
  walkers : List Walker
  feWait : List FeReq
  snaps : List SnapJob
  wefts : List Ask
  queries : List Ask
  focus : Focus
  ev : EvArgs
  agenda : List Turn
  seq : Nat
  free : Nat
  turns : Nat
  deriving DecidableEq, Repr

/-- What stops the machine. -/
inductive Fault where
  /-- Raised by the step when the turn names a tile, slot or element that the part does not have (R2, R6, R7).
  Safe: no such unit exists. -/
  | noSuchUnit
  deriving DecidableEq, Repr

/-- What the model gives no meaning. -/
inductive Refusal where
  /-- Raised by the dispatch of an instruction that has no meaning yet. Safe: nothing is claimed of it. -/
  | notModelled (mnemonic : String)
  deriving DecidableEq, Repr

/-! ### Reset -/

namespace Loop
/-- A disarmed loop entry with every register zero (R210). -/
def off : Loop := ⟨0, 0, 0, 0, false, false⟩
end Loop

namespace Token
/-- A token of data 0, tag 0 and no poison (R105, R197). -/
def zero : Token := ⟨false, 0, 0⟩
end Token

namespace Box
/-- The empty box. -/
def empty : Box := ⟨0, 0, 0, 0, 0, 0, 0, 0⟩
end Box

namespace Slot
/-- A free slot (R208). The spec gives no value for most registers of a slot before its first handler; they are
zero here (log 4). RSEED and RCTR start at zero (R193). -/
def reset : Slot where
  run := .free
  mode := .system
  pc := 0
  file := Vector.replicate 32 0
  frames := []
  depth := 0
  wsp := 0
  preds := 0
  v := Vector.replicate 8 0
  m := Vector.replicate 4 0
  fpcs := ⟨0, 0, 0⟩
  rseed := 0
  rctr := 0
  top := Loop.off
  below := Loop.off
  ext := none
  asid := 0
  gen := 0
  budget := 0
  budgetDue := false
  trapCause := 0
  trapPc := 0
  trapVal := 0
  inTrap := false
  pMode := .user
  tscr := 0
  bal := Vector.replicate 4 0
  asked := none
  granted := false
  pend := []
  late := []
  waiting := false
  held := none
  cut := false
  bad := []
  dying := none
end Slot

namespace Actor
/-- A FREE record (R373). -/
def reset : Actor := ⟨.free, 0, 0, 0, 0, 0, 0, 0, 0, none, false, none, false, [], [], [], 0, 0, false⟩
end Actor

namespace Pocket
/-- An UNBOUND pocket (R375). -/
def reset : Pocket := ⟨.unbound, false, 0, false, 0, 0, 0, 0, false, 0, [], []⟩
end Pocket

namespace Router
/-- No pocket bound, every register of R377 zero. -/
def reset : Router :=
  ⟨[], [], Actor.reset, [], [], [], [], false, [], [], [], 0, 0, false, 0, 0, 0, 0, 0, []⟩
end Router

namespace Elem
/-- An element with no slot programmed: it issues nothing (R11). -/
def reset : Elem := ⟨[], 4, 0, Vector.replicate 8 Token.zero, [], [], 0, 0, 0, false, false, false, none, 0, 0, false⟩
end Elem

namespace Stream
/-- A stream that no load declares and no COPY uses (R275). -/
def reset : Stream := ⟨false, false, Box.empty, 0, [], 0, 0, 0, [], none, 0, 0⟩
end Stream

namespace Island
/-- An island without a block (R67). -/
def reset : Island :=
  ⟨false, 0, 0, 0, [], [], false, false, [], [], [], 0, false, 0, false, false, false, 0, 0, 0, [], [], false⟩
end Island

namespace FoldSlot
/-- A free fold slot (R92). -/
def reset : FoldSlot :=
  ⟨false, 0, false, 0, 0, 0, 0, 0, false, false, 0, none, [], [], 0, 0, [], none, [], [], false⟩
end FoldSlot

namespace Half
/-- An empty half (R456). -/
def reset : Half := ⟨.empty, [], false, 0, 0⟩
end Half

namespace PortGroup
/-- No group bound. -/
def reset : PortGroup := ⟨false, 0, 0, true, [], 0, 1, 0, none⟩
end PortGroup

namespace Ring
/-- A receiver that is off (R77). -/
def reset : Ring := ⟨0, 0, 0, false, 0, 0, false⟩
end Ring

namespace SinkRep
/-- A sink that has reported nothing (R179). -/
def reset : SinkRep := ⟨false, 0, 0, 0⟩
end SinkRep

namespace Part
/-- A tile with no launch (R281). -/
def reset : Part :=
  ⟨none, 0, .idle, false, 0, 0, 0, false, false, false, [], none, false, [], [], false, false, false⟩
end Part

namespace Fabric
/-- A fabric with no load (R11). -/
def reset : Fabric :=
  ⟨[], [], Stream.reset, [], [], [], [], ⟨0, 0, 0, [], false⟩, ⟨0, 0, [], [], [], []⟩,
   ⟨0, 0x1F, Half.reset, Half.reset, false, []⟩, [], [], [], [], [], Part.reset⟩
end Fabric

namespace Bucket
/-- RATE 256, DEPTH 64 (R501), full (log 4). -/
def reset : Bucket := ⟨256, 64, 64 * 256⟩
end Bucket

namespace Tile
/-- A tile right after reset: TVEC 0 (R404), GATE.EN 1 (R91), buckets of R501, everything else idle. -/
def reset : Tile where
  slots := Vector.replicate 8 Slot.reset
  cycles := 0
  tvec := 0
  actcmd := 0
  actWait := none
  stores := []
  tlb := []
  router := Router.reset
  fabric := Fabric.reset
  swatch := ⟨0, [], [], []⟩
  reliab := ⟨[], none, 0⟩
  fsave := 0
  buckW := Bucket.reset
  buckC0 := Bucket.reset
  buckC1 := Bucket.reset
  gateEn := true
  gated := false
  marked := []
  reweave := none
  reweaving := false
  matDue := []
  xids := []
  level := 8
end Tile

namespace Group
/-- An invalid entry (R78). -/
def reset : Group :=
  ⟨false, .idle, false, 0, 0, 0, 0, 0, 0, 0, 0, 0, [], [], 0, 0, [], false, none, false, 0, none, 0, 0, 0, 0, 0, false⟩
end Group

namespace Queue
/-- A queue that has not been set up (R253). -/
def reset : Queue := ⟨0, 0, 0, 0, 0, 0, false⟩
end Queue

namespace Panel
/-- The controller's values after boot (R501); TNOW is a measured value, 0 before the first sample (log 4). -/
def reset : Panel := ⟨607142, 0, 0, 95, 5, 110, 8, 0, 0, [], []⟩
end Panel

namespace Port
/-- A port that is down (R434), every counter 0 (R436). -/
def reset : Port := ⟨0, 0, 0, 0, 0, 0, false, [], [], [], [], [], 0, []⟩
end Port

namespace Asid
/-- GEN and LOW are zero after boot (R365); ROOT and V are zero (log 4). -/
def reset : Asid := ⟨0, false, 0, 0⟩
end Asid

namespace EvArgs
/-- Operands of a step that needs none. -/
def none : EvArgs := ⟨0, 0, 0, 0, false, .elsize, .load, Token.zero, []⟩
end EvArgs

namespace Mgmt
/-- An unbasted part (R508) whose fuses name no defect (log 6). -/
def reset : Mgmt :=
  ⟨[], [], [], [], [], 0, [], false, 0, 0, 0, 0, Vector.replicate 8 0, false, 0, 32, [], []⟩
end Mgmt

/-- The machine right after reset: no memory byte listed (log 3), every presence bit full (R356), no tile basted,
no launch, MGEN 0 (R35), every controller as R501 gives, reach only to the wafer itself (R443). -/
def State.reset : State where
  mem := []
  empties := []
  marks := []
  tiles := []
  phys := []
  mgen := 0
  plan := none
  cores := []
  asids := []
  groups := []
  splits := []
  queues := []
  launches := []
  cache := []
  panels := []
  ports := []
  wroute := []
  reach := 1
  rerouted := []
  care := ⟨[], [], 0, [], [], [], []⟩
  mgmt := Mgmt.reset
  flights := []
  behind := []
  walkers := []
  feWait := []
  snaps := []
  wefts := []
  queries := []
  focus := .needle 0 0
  ev := EvArgs.none
  agenda := []
  seq := 0
  free := 0
  turns := 0

end Sys2Proof.Machine
end

