-- ==== Sys2Proof/Machine/Ops.lean ====
section
/-!
DEFINITION. The named operations that every meaning is built from: sparse tables, memory by location, the map of
logical tiles onto silicon, the registers of a slot, choosing the next pc, the care label, messages between tiles,
stitches that hardware sends, the end of a handler, taking a trap and returning from one.
-/
namespace Sys2Proof.Machine

/-! ### Tables, sorted lists of numbers, bytes -/

/-- The entry of key `n`, or `d` where the table lists none. -/
def Tab.get {α : Type} (d : α) : Tab α → Nat → α
  | [], _ => d
  | (k, v) :: r, n => if n = k then v else Tab.get d r n

/-- The table with entry `v` at key `n`. -/
def Tab.put {α : Type} : Tab α → Nat → α → Tab α
  | [], n, v => [(n, v)]
  | (k, w) :: r, n, v =>
    if n < k then (n, v) :: (k, w) :: r else if n = k then (n, v) :: r else (k, w) :: Tab.put r n v

/-- The table without an entry for key `n`. -/
def Tab.del {α : Type} (t : Tab α) (n : Nat) : Tab α := t.filter fun p => p.1 != n

/-- A rising list of numbers with `n` put in. -/
def natInsert (n : Nat) : List Nat → List Nat
  | [] => [n]
  | k :: r => if n < k then n :: k :: r else if n = k then k :: r else k :: natInsert n r

/-- A list of numbers without `n`. -/
def natErase (n : Nat) (l : List Nat) : List Nat := l.filter fun k => k != n

/-- The first `n` bytes of a number, least significant first (R45). -/
def natBytes : Nat → Nat → List Byte
  | 0, _ => []
  | n + 1, v => BitVec.ofNat 8 v :: natBytes n (v / 256)

/-- The number that bytes stand for, least significant first (R45). -/
def bytesNat : List Byte → Nat
  | [] => 0
  | b :: r => b.toNat + 256 * bytesNat r

/-- The list without its element at position `i`. -/
def dropAt {α : Type} (l : List α) (i : Nat) : List α := l.take i ++ l.drop (i + 1)

/-- The list with its element at position `i` replaced. -/
def setAt {α : Type} (l : List α) (i : Nat) (v : α) : List α := l.take i ++ v :: l.drop (i + 1)

/-- A word that holds value `v` of `n` bits from bit `lo` upward: one field of a register map. -/
def put (lo n : Nat) (v : Nat) : Word := BitVec.ofNat 64 (v % 2 ^ n * 2 ^ lo)

/-- Bits [hi:lo] of a word as a number (R3). -/
def get (w : Word) (hi lo : Nat) : Nat := w.toNat / 2 ^ lo % 2 ^ (hi + 1 - lo)

/-- A Bool as a field value. -/
def bit (b : Bool) : Nat := if b then 1 else 0

/-- The signed value of the low `n` bits of a number. -/
def signed (n : Nat) (v : Nat) : Int := if v % 2 ^ n < 2 ^ (n - 1) then v % 2 ^ n else (v % 2 ^ n : Nat) - (2 ^ n : Nat)

/-! ### Coordinates -/

/-- Tiles of the logical mesh (R2): 136 columns and 188 rows, numbered row by row. -/
def tileCount : Nat := 136 * 188

/-- The key that stands for the selvedge as the source or destination of a message (R13). -/
def selvedge : Nat := tileCount

/-- Key of logical tile (x, y) (R6). -/
def tileKey (x y : Nat) : Nat := 136 * y + x

/-- Logical x of a tile. -/
def tileX (t : Nat) : Nat := t % 136

/-- Logical y of a tile. -/
def tileY (t : Nat) : Nat := t / 136

/-- Key of physical tile (px, py) (R17). -/
def physKey (px py : Nat) : Nat := 140 * py + px

/-- The panel of a physical tile (R17). -/
def physPanel (p : Nat) : Nat := 7 * (p / 140 / 24) + p % 140 / 20

/-! ### The map without defects (R19, R30, R34, R42; log 6) -/

/-- The logical tile that the map without defects puts at a physical tile, if any (R19). -/
def logical0 (p : Nat) : Option Nat :=
  let px := p % 140
  let py := p / 140
  if px % 35 = 34 ∨ py % 48 = 47 then none else some (tileKey (34 * (px / 35) + px % 35) (47 * (py / 48) + py % 48))

/-- The physical tile of a logical tile in the map without defects (R19). -/
def phys0 (t : Nat) : Nat :=
  physKey (35 * (tileX t / 34) + tileX t % 34) (48 * (tileY t / 47) + tileY t % 47)

/-- Physical hops and seam links between the positions `a` and `b` of one row or column, whose panels are `w`
positions wide. -/
def span (a b w : Nat) : Nat × Nat :=
  if a ≤ b then (b - a, b / w - a / w) else (a - b, a / w - b / w)

/-- Hops, seams and hop code of the logical link in direction `d` (R30's codes) of the map without defects; no hops
where the mesh ends. -/
def link0 (t d : Nat) : Nat × Nat :=
  let x := tileX t
  let y := tileY t
  let px := fun x => phys0 (tileKey x y) % 140
  let py := fun y => phys0 (tileKey x y) / 140
  match d with
  | 0 => if x < 135 then span (px x) (px (x + 1)) 20 else (0, 0)
  | 1 => if y < 187 then span (py y) (py (y + 1)) 24 else (0, 0)
  | 2 => if 0 < x then span (px x) (px (x - 1)) 20 else (0, 0)
  | _ => if 0 < y then span (py y) (py (y - 1)) 24 else (0, 0)

/-- A route entry (R30) of `h` hops, all in direction `d`. -/
def routeEntry (h d : Nat) : Nat :=
  if h = 0 then 0
  else 0x8000 + (h - 1) * 2 ^ 13 + d * 2 ^ 5 + (if 1 < h then d * 2 ^ 7 else 0) + (if 2 < h then d * 2 ^ 9 else 0)
    + (if 3 < h then d * 2 ^ 11 else 0)

/-- The router and silicon of a physical tile whose wafer has no defect: R19's map with its shortest routes, sixteen
live banks, no dead element, and clocks that come from the west. R42 gives no order of preference at reset: DESIGN CHOICE (log 6), the
candidates 0 to 3 are west, north, south and east. -/
def phys0State (p : Nat) : Phys :=
  let px := p % 140
  let route := fun t => routeEntry (link0 t 0).1 0 + routeEntry (link0 t 1).1 1 * 2 ^ 16
    + routeEntry (link0 t 2).1 2 * 2 ^ 32 + routeEntry (link0 t 3).1 3 * 2 ^ 48
  let meas := fun t d => (link0 t d).1 * 32 + (link0 t d).2 * 8
  let measure := fun t => meas t 0 + meas t 1 * 2 ^ 8 + meas t 2 * 2 ^ 16 + meas t 3 * 2 ^ 24
  { dself := match logical0 p with
      | some t => BitVec.ofNat 32 (2 ^ 29 + tileY t * 256 + tileX t)
      | none => 0
    drtd := match logical0 p with
      | some t => BitVec.ofNat 64 (route t)
      | none => 0
    drts := match logical0 p with
      | some t => BitVec.ofNat 64 (route t)
      | none => 0
    measd := match logical0 p with
      | some t => BitVec.ofNat 32 (measure t)
      | none => 0
    meass := match logical0 p with
      | some t => BitVec.ofNat 32 (measure t)
      | none => 0
    clksrc := BitVec.ofNat 32 ((px + 1) * 2 ^ 16 + 0x1E * 2 ^ 8 + (if px = 139 then 0xF else 0x7))
    banks := 0xFFFF
    emap := 17
    badLinks := []
    lanes := []
    fwd := none
    hold := false
    dead := false
    dark := false
    lost := 0 }

/-! ### Reading and changing the parts of the machine -/

/-- The state of logical tile `t`. -/
def State.tile (s : State) (t : Nat) : Tile := s.tiles.get Tile.reset t

/-- The machine with tile `t` changed. -/
def State.modTile (s : State) (t : Nat) (f : Tile → Tile) : State := { s with tiles := s.tiles.put t (f (s.tile t)) }

/-- The router and silicon of physical tile `p`. -/
def State.phy (s : State) (p : Nat) : Phys := s.phys.get (phys0State p) p

/-- The machine with physical tile `p` changed. -/
def State.modPhy (s : State) (p : Nat) (f : Phys → Phys) : State := { s with phys := s.phys.put p (f (s.phy p)) }

/-- DSELF.STATE (R29). -/
def Phys.state (p : Phys) : Nat := p.dself.toNat / 2 ^ 29

/-- The key of the logical position in DSELF's LX and LY (R29). -/
def Phys.logical (p : Phys) : Nat := tileKey (p.dself.toNat % 256) (p.dself.toNat / 256 % 256)

/-- Whether a physical tile holds a logical tile: state LIVE, AWAY or DRAIN (R29). -/
def Phys.holds (p : Phys) (t : Nat) : Bool := decide (1 ≤ p.state ∧ p.state ≤ 3 ∧ p.logical = t)

/-- The key of the state that silicon `p` keeps for itself while it holds no logical tile: its local registers, which a
commit does not move (R414). -/
def spareKey (p : Nat) : Nat := 0x10000 + p

/-- The physical tile that holds logical tile `t`: one whose DSELF names it, else its place under R19. A key of silicon
without a logical tile names that silicon. -/
def State.physOf (s : State) (t : Nat) : Nat :=
  if 0x10000 ≤ t then t - 0x10000
  else
    match s.phys.find? fun e => e.2.holds t with
    | some e => e.1
    | none => phys0 t

/-- The silicon of logical tile `t`. -/
def State.silicon (s : State) (t : Nat) : Phys := s.phy (s.physOf t)

/-- The panel of logical tile `t` (R17). -/
def State.panelOf (s : State) (t : Nat) : Nat := physPanel (s.physOf t)

/-- Live banks of a mask (R37). -/
def bankCount (b : BitVec 16) : Nat := ((List.range 16).filter fun i => b.getLsbD i).length

/-- LSIZE of a tile (R37): 64 KiB for each live bank. -/
def State.lsize (s : State) (t : Nat) : Nat := 0x10000 * bankCount (s.silicon t).banks

/-- A panel's controller. -/
def State.panel (s : State) (p : Nat) : Panel := s.panels.get Panel.reset p

/-- The machine with a panel's controller changed. -/
def State.modPanel (s : State) (p : Nat) (f : Panel → Panel) : State :=
  { s with panels := s.panels.put p (f (s.panel p)) }

/-- A selvedge group's entry (R78). -/
def State.group (s : State) (g : Nat) : Group := s.groups.get Group.reset g

/-- The machine with a group's entry changed. -/
def State.modGroup (s : State) (g : Nat) (f : Group → Group) : State :=
  { s with groups := s.groups.put g (f (s.group g)) }

/-- The split mask of a weight fibre: after boot it selects only the fibre's home row, row `f` mod 8 of its octet (R75). -/
def State.splitMask (s : State) (f : Nat) : BitVec 8 := s.splits.get (1#8 <<< (f % 8)) f

/-- A work queue (R253). -/
def State.queue (s : State) (q : Nat) : Queue := s.queues.get Queue.reset q

/-- The machine with a work queue changed. -/
def State.modQueue (s : State) (q : Nat) (f : Queue → Queue) : State :=
  { s with queues := s.queues.put q (f (s.queue q)) }

/-- A link port (R433). -/
def State.port (s : State) (p : Nat) : Port := s.ports.get Port.reset p

/-- The machine with a link port changed. -/
def State.modPort (s : State) (p : Nat) (f : Port → Port) : State := { s with ports := s.ports.put p (f (s.port p)) }

/-- The ASIDS entry of an address space (R354). -/
def State.asid (s : State) (a : BitVec 12) : Asid := s.asids.get Asid.reset a.toNat

/-- The launch of number `n`, if there is one. -/
def State.launch? (s : State) (n : Nat) : Option Launch := (s.launches.find? fun e => e.1 == n).map (·.2)

/-- The machine with launch `n` changed, where it exists. -/
def State.modLaunch (s : State) (n : Nat) (f : Launch → Launch) : State :=
  match s.launch? n with
  | some l => { s with launches := s.launches.put n (f l) }
  | none => s

/-- The machine with the fabric of tile `t` changed. -/
def State.modFabric (s : State) (t : Nat) (f : Fabric → Fabric) : State :=
  s.modTile t fun T => { T with fabric := f T.fabric }

/-- The machine with the router of tile `t` changed. -/
def State.modRouter (s : State) (t : Nat) (f : Router → Router) : State :=
  s.modTile t fun T => { T with router := f T.router }

/-- Slot `k` of a tile. -/
def Tile.slot (T : Tile) (k : Nat) : Slot := T.slots[k % 8]'(Nat.mod_lt _ (by decide))

/-- A tile with slot `k` changed. -/
def Tile.modSlot (T : Tile) (k : Nat) (f : Slot → Slot) : Tile :=
  { T with slots := T.slots.set (k % 8) (f (T.slot k)) (Nat.mod_lt _ (by decide)) }

/-- Slot `k` of tile `t`. -/
def State.slot (s : State) (t k : Nat) : Slot := (s.tile t).slot k

/-- The machine with slot `k` of tile `t` changed. -/
def State.modSlot (s : State) (t k : Nat) (f : Slot → Slot) : State := s.modTile t fun T => T.modSlot k f

/-- The tile whose unit runs the instruction of this step. -/
def State.ft (s : State) : Nat :=
  match s.focus with
  | .needle t _ => t
  | .elem t _ _ => t

/-- The needle slot (or element) that runs the instruction of this step. -/
def State.fk (s : State) : Nat :=
  match s.focus with
  | .needle _ k => k
  | .elem _ e _ => e

/-- The slot that runs the instruction of this step. -/
def State.cur (s : State) : Slot := s.slot s.ft s.fk

/-- The machine with the running slot changed. -/
def State.modCur (s : State) (f : Slot → Slot) : State := s.modSlot s.ft s.fk f

/-- A fresh order stamp, and the machine that has used it. -/
def State.stamp (s : State) : State := { s with seq := s.seq + 1 }

/-- A fresh free value (log 15). -/
def State.freeVal (s : State) : Word := Config.freeWord s.free

/-- The machine after one free value has been used. -/
def State.useFree (s : State) : State := { s with free := s.free + 1 }

/-! ### Memory by location (R322, R324) -/

/-- What a byte that no list entry names reads as: 0 (log 3). -/
def unlisted : Byte := 0

/-- The byte at a location. -/
def cellGet : List Host.Cell → Nat → Byte
  | [], _ => unlisted
  | (a, b) :: r, n => if n = a then b else cellGet r n

/-- A memory with a byte written; a byte equal to what an unlisted address reads as is not listed. -/
def cellPut : List Host.Cell → Nat → Byte → List Host.Cell
  | [], n, v => if v = unlisted then [] else [(n, v)]
  | (a, b) :: r, n, v =>
    if n < a then (if v = unlisted then (a, b) :: r else (n, v) :: (a, b) :: r)
    else if n = a then (if v = unlisted then r else (n, v) :: r)
    else (a, b) :: cellPut r n v

/-- A memory is in canonical form above `lo`: addresses at least `lo` and strictly rising, no entry unlisted. -/
def cellsFrom : Nat → List Host.Cell → Bool
  | _, [] => true
  | lo, (a, b) :: r => decide (lo ≤ a) && decide (b ≠ unlisted) && cellsFrom (a + 1) r

/-- The canonical form of a memory. -/
def Memory.wf (m : List Host.Cell) : Bool := cellsFrom 0 m

/-- The bytes of `n` locations from `a`. -/
def cellBytes (m : List Host.Cell) (a : Nat) : Nat → List Byte
  | 0 => []
  | n + 1 => cellGet m a :: cellBytes m (a + 1) n

/-- A memory with bytes written from location `a` upward. -/
def cellWrite (m : List Host.Cell) (a : Nat) : List Byte → List Host.Cell
  | [] => m
  | b :: r => cellWrite (cellPut m a b) (a + 1) r

/-- The byte of a location. -/
def State.byte (s : State) (loc : Nat) : Byte := cellGet s.mem loc

/-- `n` bytes from a location. -/
def State.bytes (s : State) (loc n : Nat) : List Byte := cellBytes s.mem loc n

/-- The little-endian value of `n` bytes from a location (R45). -/
def State.readNat (s : State) (loc n : Nat) : Nat := bytesNat (s.bytes loc n)

/-- The eight bytes of a location as a word. -/
def State.read64 (s : State) (loc : Nat) : Word := BitVec.ofNat 64 (s.readNat loc 8)

/-- The 8-byte word of a location (R356, R488). -/
def wordOf (loc : Nat) : Nat := loc / 8 * 8

/-- The words that `n` bytes from a location touch. -/
def wordsOf (loc n : Nat) : List Nat :=
  (List.range ((loc + n - 1) / 8 + 1 - loc / 8)).map fun i => (loc / 8 + i) * 8

/-- Whether a word's presence bit is clear (R356). -/
def State.isEmpty (s : State) (w : Nat) : Bool := s.empties.contains w

/-- Whether a word is marked as uncorrectable data (R488). -/
def State.isMarked (s : State) (w : Nat) : Bool := s.marks.contains w

/-- Whether any of `n` bytes from a location lies in a marked word. -/
def State.marked (s : State) (loc n : Nat) : Bool := (wordsOf loc n).any s.isMarked

/-- Set a word's presence bit. -/
def State.fill (s : State) (w : Nat) : State := { s with empties := natErase w s.empties }

/-- Clear a word's presence bit. -/
def State.drain (s : State) (w : Nat) : State := { s with empties := natInsert w s.empties }

/-- Clear the marks of the words that `n` bytes from a location cover whole (R488). -/
def State.clearMarks (s : State) (loc n : Nat) : State :=
  { s with marks := s.marks.filter fun w => !(decide (loc ≤ w) && decide (w + 8 ≤ loc + n)) }

/-- Write bytes at a location, clearing the marks of the words they cover whole (R488). -/
def State.write (s : State) (loc : Nat) (bs : List Byte) : State :=
  { s with mem := cellWrite s.mem loc bs }.clearMarks loc bs.length

/-- The location of offset `off` of the local store of tile `t`: its region-0x01 address (R323, R324). -/
def localLoc (t off : Nat) : Nat := 2 ^ 56 + tileY t * 2 ^ 28 + tileX t * 2 ^ 20 + off

/-- The location of host bus address `a` (log 14). -/
def hostLoc (a : Nat) : Nat := 2 ^ 64 + a

/-- The location of offset `o` of the first-stage image in BAR2 (R507; log 14). -/
def imageLoc (o : Nat) : Nat := 2 ^ 65 + o

/-! ### The registers of a slot (R132, R208) -/

/-- s[r]; s0 reads 0. -/
def Slot.sreg (sl : Slot) (r : BitVec 5) : Word := if r = 0 then 0 else sl.file[r.toNat]'r.isLt

/-- The number of a register that does not change when the window rotates (R223): s8 of depth d is 16 d + 8. -/
def Slot.absReg (sl : Slot) (r : BitVec 5) : Nat := if r.toNat < 8 then r.toNat else 16 * sl.depth.toNat + r.toNat

/-- The slot with s[r] written; a write to s0 is discarded. -/
def Slot.setSreg (sl : Slot) (r : BitVec 5) (v : Word) : Slot :=
  if r = 0 then sl else { sl with file := sl.file.set r.toNat v r.isLt, bad := natErase (sl.absReg r) sl.bad }

/-- p[n]; p0 reads true. -/
def Slot.pred (sl : Slot) (n : BitVec 3) : Bool := decide (n = 0) || sl.preds.getLsbD n.toNat

/-- The slot with p[n] written; a write to p0 is discarded. -/
def Slot.setPred (sl : Slot) (n : BitVec 3) (v : Bool) : Slot :=
  if n = 0 then sl
  else { sl with preds := if v then sl.preds ||| (1#8 <<< n.toNat) else sl.preds &&& ~~~(1#8 <<< n.toNat) }

/-- v[n]. -/
def Slot.vreg (sl : Slot) (n : BitVec 3) : BitVec 4096 := sl.v[n.toNat]'n.isLt

/-- The slot with v[n] written. -/
def Slot.setVreg (sl : Slot) (n : BitVec 3) (x : BitVec 4096) : Slot := { sl with v := sl.v.set n.toNat x n.isLt }

/-- m[n]; m0 reads all ones. -/
def Slot.mreg (sl : Slot) (n : BitVec 2) : BitVec 1024 := if n = 0 then BitVec.allOnes 1024 else sl.m[n.toNat]'n.isLt

/-- The slot with m[n] written; a write to m0 is discarded. -/
def Slot.setMreg (sl : Slot) (n : BitVec 2) (x : BitVec 1024) : Slot :=
  if n = 0 then sl else { sl with m := sl.m.set n.toNat x n.isLt }

/-- The slot with the register of absolute number `n` written: in the visible window or in an older resident one. -/
def Slot.setAbs (sl0 : Slot) (n : Nat) (v : Word) : Slot :=
  let sl := { sl0 with bad := natErase n sl0.bad }
  let top := 16 * sl.depth.toNat
  if n = 0 then sl0
  else if n < 8 then { sl with file := sl.file.set! n v }
  else if top + 8 ≤ n then (if n - top < 32 then { sl with file := sl.file.set! (n - top) v } else sl)
  else
    let back := (top + 7 - n) / 16
    match sl.frames[back]? with
    | some f => { sl with frames := setAt sl.frames back (f.set! ((n + 8) % 16) v) }
    | none => sl

/-- A pending write to one of the registers `rs` (R209). -/
def Slot.pendsOn (sl : Slot) (rs : List (BitVec 5)) : Bool :=
  rs.any fun r => r != 0 && sl.pend.any fun p => p.dst.contains (sl.absReg r)

/-- A ninth held late refusal stalls the slot's issue (R480). -/
def Slot.lateFull (sl : Slot) : Bool := decide (9 ≤ sl.late.length)

/-- The accesses of a slot that have not returned (R314): loads and atomic operations. -/
def Slot.accesses (sl : Slot) : List Pend :=
  sl.pend.filter fun p => match p.kind with
    | .result => false
    | _ => true

/-- Remove pending entry `i` of a slot. -/
def Slot.dropPend (sl : Slot) (i : Nat) : Slot := { sl with pend := sl.pend.filter fun p => p.id != i }

/-- Write the values of a completed entry to its registers and remove it (R209). -/
def Slot.complete (sl : Slot) (i : Nat) (vals : List Word) : Slot :=
  match sl.pend.find? fun p => p.id == i with
  | some p => ((p.dst.zip vals).foldl (fun a rv => a.setAbs rv.1 rv.2) sl).dropPend i
  | none => sl

/-! ### The next pc (R226, R228) -/

/-- drop_top of R228. -/
def Slot.dropTop (sl : Slot) : Slot :=
  if sl.below.armed then { sl with top := sl.below, below := { sl.below with armed := false } }
  else { sl with top := { sl.top with armed := false } }

/-- The top entry applies: armed at this depth and in this mode (R228). -/
def Slot.loopHere (sl : Slot) : Bool :=
  sl.top.armed && decide (sl.top.depth = sl.depth) && decide (sl.top.sysMode = decide (sl.mode = Mode.system))

/-- loop_step of R228; two entries need at most three rounds. -/
def Slot.loopRounds : Nat → Slot → Word → Bool → Slot × Word
  | 0, sl, next, _ => (sl, next)
  | n + 1, sl, next, taken =>
    if !sl.loopHere then (sl, next)
    else if taken then
      (if sl.top.start ≤ next ∧ next ≤ sl.top.stop then (sl, next) else Slot.loopRounds n sl.dropTop next taken)
    else if sl.pc ≠ sl.top.stop then (sl, next)
    else
      let sl' := { sl with top := { sl.top with count := sl.top.count - 1 } }
      if sl'.top.count ≠ 0 then (sl', sl'.top.start) else Slot.loopRounds n sl'.dropTop next taken

/-- loop_step for the instruction whose last word is at the slot's pc. -/
def Slot.loopStep (sl : Slot) (next : Word) (taken : Bool) : Slot × Word := Slot.loopRounds 3 sl next taken

/-- An address with bits [1:0] cleared, as the pc holds it (R131, log 22). -/
def pcOf (a : Word) : Word := a &&& ~~~3

/-- The instruction completes and selects `next`; the EXT payload is used up (R138). -/
def Slot.goto (sl : Slot) (next : Word) (taken : Bool) : Slot :=
  let r := sl.loopStep next taken
  { r.1 with pc := pcOf r.2, ext := none }

/-- The instruction completes and goes on to the next word. -/
def Slot.advance (sl : Slot) : Slot := sl.goto (sl.pc + 4) false

/-- The address a trap of the running instruction reports: its EXT's, where it has one (R138). -/
def Slot.instrPc (sl : Slot) : Word := if sl.ext.isSome then sl.pc - 4 else sl.pc

/-- The word a trap of the running instruction reports: its EXT word, where it has one (R477). -/
def Slot.instrWord (sl : Slot) (i : Instr) : Word :=
  match sl.ext with
  | some p => BitVec.ofNat 64 (0x02000000 + p.toNat)
  | none => BitVec.ofNat 64 ((encode i).getD 0)

/-! ### The care label (R493) -/

/-- The silicon that an event on tile `t` names in [47:32] of its record. -/
def careWhere (s : State) (t : Nat) : Nat := s.physOf t / 140 * 256 + s.physOf t % 140

/-- Count an event on tile `t`: a record and its lifetime counter, which saturates (R493). -/
def State.care1 (s : State) (t ev detail : Nat) : State :=
  let w1 := careWhere s t * 2 ^ 32 + detail % 65536 * 65536 + ev
  { s with care := { s.care with
      buf := s.care.buf ++ [⟨(s.tile t).cycles, BitVec.ofNat 64 w1⟩]
      ctr := s.care.ctr.put w1 (min (2 ^ 64 - 1) (s.care.ctr.get 0 w1 + 1)) } }

/-- Set a bit of ALERT (R503, R506). -/
def State.raise (s : State) (b : Nat) : State :=
  { s with mgmt := { s.mgmt with
      alert := s.mgmt.alert ||| (1#4 <<< b)
      msix := if s.mgmt.alert.getLsbD b then s.mgmt.msix else s.mgmt.msix + 1 } }

/-! ### Power bookings (R494) -/

/-- What a unit of a class books, in milliwatts (R494): MATRIX, SWAP, STREAM, SWATCH. -/
def leaveCost (cls : BitVec 2) : Nat :=
  match cls.toNat with
  | 0 => 125
  | 1 => 400
  | 2 => 360
  | _ => 40

/-- Book an amount with a tile's panel. -/
def State.book (s : State) (t mw : Nat) : State :=
  s.modPanel (s.panelOf t) fun p => { p with booked := p.booked + mw }

/-- Give an amount back to a tile's panel. -/
def State.unbook (s : State) (t mw : Nat) : State :=
  s.modPanel (s.panelOf t) fun p => { p with booked := p.booked - mw }

/-- What a request books. -/
def LeaveReq.cost (q : LeaveReq) : Nat := leaveCost q.cls * q.n

/-- Withdraw the leave request of a slot (R419); a grant it has not used goes back. -/
def State.withdrawLeave (s : State) (t k : Nat) : State :=
  let back := match (s.slot t k).asked with
    | some q => if (s.slot t k).granted then q.cost else 0
    | none => 0
  ((s.unbook t back).modPanel (s.panelOf t) fun p =>
    { p with reqs := p.reqs.filter fun r => !(r.tile == t && r.slot == some k) }).modSlot t k
      fun sl => { sl with asked := none, granted := false }

/-! ### Messages between tiles (R24, R25) -/

/-- Send a message from one tile to another; it starts at the sender's silicon. -/
def State.post (s : State) (m : Msg) (src dst : Nat) (data : Bool) : State :=
  { s.stamp with flights := s.flights ++ [⟨s.seq, m, src, dst, s.physOf src, [], data, false⟩] }

/-- The message of number `n`. -/
def State.flight? (s : State) (n : Nat) : Option Flight := s.flights.find? fun f => f.id == n

/-- The machine without message `n`. -/
def State.dropFlight (s : State) (n : Nat) : State := { s with flights := s.flights.filter fun f => f.id != n }

/-- The hold queue stands at its size, so that no stitch is accepted (R384). -/
def Router.holdStall (r : Router) : Bool := decide (r.hqLog ≠ 0) && decide (2 ^ r.hqLog.toNat ≤ r.holdq.length)

/-- A message is a stitch, which a full hold queue stops; answers, returns and markers pass it (R384). -/
def Msg.isStitch : Msg → Bool
  | .stitch _ => true
  | _ => false

/-- `g` stands at its destination's router as a stitch that a full hold queue stops, and `f` passes it (R384). -/
def State.passes (s : State) (f g : Flight) : Bool :=
  g.msg.isStitch && !f.msg.isStitch && g.hops.isEmpty && !g.held && decide (g.dst < tileCount)
    && (s.tile g.dst).router.holdStall

/-- A message has reached the router of its destination, which has a clock (R44), and no older one of its source, destination and
mesh is on its way (R25), but for a stitch that a full hold queue stops (R384). -/
def State.arrived (s : State) (f : Flight) : Bool :=
  !f.held && f.hops.isEmpty && !(decide (f.dst < tileCount) && (s.silicon f.dst).dark) && (decide (tileCount ≤ f.dst) || decide (tileCount ≤ f.src) || f.at_ == s.physOf f.dst)
    && !(s.flights.any fun g => decide (g.id < f.id) && g.src == f.src && g.dst == f.dst && g.data == f.data
        && !s.passes f g)

/-- The in-flight counter of a destination tile and label (R380). -/
def flightCounter (dst label : Nat) : Nat := (tileX dst + 3 * tileY dst + 7 * label) % 256

/-- Count a stitch that entered its tile's injection queue (R380). -/
def Router.countUp (r : Router) (dst label : Nat) : Router :=
  { r with inFlight := r.inFlight.put (flightCounter dst label) (r.inFlight.get 0 (flightCounter dst label) + 1) }

/-- Count an answer or return (R380). -/
def Router.countDown (r : Router) (dst label : Nat) : Router :=
  { r with inFlight := r.inFlight.put (flightCounter dst label) (r.inFlight.get 0 (flightCounter dst label) - 1) }

/-- A stitch that the hardware of tile `t` sends: status 4 or 3, from a slot or an element (R211). -/
def State.hwStitch (s : State) (t dst label : Nat) (elem : Bool) (unit : Nat) (status : BitVec 4) (w0 w1 : Word)
    (handle : Option (BitVec 32)) : State :=
  let st : Stitch := ⟨t, elem, unit, dst, label, handle, true, w0, w1, status, none, none⟩
  (s.modRouter t fun r => r.countUp dst label).post (.stitch st) t dst false

/-! ### Pockets and returns (R374, R381, R384, R512) -/

/-- Pocket `l` of a router; labels 0, 125, 126 and 127 have the fixed settings of R375. -/
def Router.pocket (r : Router) (l : Nat) : Pocket := r.pockets.get Pocket.reset l

/-- The router with pocket `l` changed. -/
def Router.modPocket (r : Router) (l : Nat) (f : Pocket → Pocket) : Router :=
  { r with pockets := r.pockets.put l (f (r.pocket l)) }

/-- Entries of the pending store in use, of 256 (R375). -/
def Router.storeUsed (r : Router) : Nat := (r.pockets.map fun e => e.2.store.length).sum

/-- Entries of the overflow area in use: pockets' stitches, orphans and locally refused stitches (R376, R381, R385). -/
def Router.ovfUsed (r : Router) : Nat :=
  (r.pockets.map fun e => e.2.ovf.length).sum + r.orphans.length + r.localRef.length

/-- The location of overflow entry `i` of tile `t`: its two words (R376). -/
def Router.ovfAt (r : Router) (t i : Nat) : Nat := localLoc t (get r.ovfcfg 51 32 + 16 * i)

/-- A stitch as it leaves its overflow entry: with the words that the entry holds (R376). -/
def State.unload (s : State) (t : Nat) (st : Stitch) : Stitch :=
  match st.ent with
  | some i =>
    let a := (s.tile t).router.ovfAt t i
    { st with w0 := s.read64 a, w1 := s.read64 (a + 8), ent := none }
  | none => st

/-- Stitches take overflow entries, each the lowest that is not in use: the entries in use after that, and the stitches. -/
def takeEntries (used : List Nat) : List Stitch → List Nat × List Stitch
  | [] => (used, [])
  | st :: r =>
    match st.ent with
    | some _ =>
      let x := takeEntries used r
      (x.1, st :: x.2)
    | none =>
      let i := ((List.range (used.length + 1)).find? fun i => !used.contains i).getD 0
      let x := takeEntries (i :: used) r
      (x.1, { st with ent := some i } :: x.2)

/-- The stitches that use overflow entries: pockets' stitches, orphans and locally refused stitches (R376, R381, R385). -/
def Router.ovfList (r : Router) : List Stitch := (r.pockets.flatMap fun e => e.2.ovf) ++ r.orphans ++ r.localRef

/-- The router with its overflow area's stitches replaced, in the order of `ovfList`. -/
def Router.setOvf (r : Router) (l : List Stitch) : Router :=
  let go := r.pockets.foldl (fun (a : Tab Pocket × List Stitch) (e : Nat × Pocket) =>
    (a.1 ++ [(e.1, { e.2 with ovf := a.2.take e.2.ovf.length })], a.2.drop e.2.ovf.length)) ([], l)
  { r with pockets := go.1, orphans := go.2.take r.orphans.length, localRef := go.2.drop r.orphans.length }

/-- The router of tile `t` writes the words of the stitches that have come into its overflow area, and takes up those of the
stitches that have left it (R376). -/
def State.syncOvf (s : State) (t : Nat) : State :=
  let r := (s.tile t).router
  let r1 := { r with
    pockets := r.pockets.map fun (e : Nat × Pocket) => (e.1, { e.2 with store := e.2.store.map (s.unload t) })
    holdq := r.holdq.map fun (h : HoldEnt) => { h with st := s.unload t h.st } }
  let old := r1.ovfList
  let new := (takeEntries (old.filterMap fun st => st.ent) old).2
  (old.zip new).foldl (fun a x =>
    match x.1.ent, x.2.ent with
    | none, some i => a.write (r.ovfAt t i) (natBytes 8 x.2.w0.toNat ++ natBytes 8 x.2.w1.toNat)
    | _, _ => a) (s.modRouter t fun _ => r1.setOvf new)

/-- An overflow entry is free (R376). -/
def Router.ovfFree (r : Router) : Bool := decide (r.ovfUsed < r.ovfcfg.toNat % 4096)

/-- The hold queue has room; without one (LOG2 of 0) it never has (R376, R377). -/
def Router.holdFree (r : Router) : Bool := decide (r.hqLog ≠ 0) && decide (r.holdq.length < 2 ^ r.hqLog.toNat)

/-- A pocket that holds a stitch is READY, one that holds none is IDLE (R375). -/
def Pocket.settle (p : Pocket) : Pocket :=
  match p.state with
  | .idle | .ready => { p with state := if p.store.isEmpty && p.ovf.isEmpty && !p.held then .idle else .ready }
  | _ => p

/-- Actor record `n` of a router (R372). -/
def Router.actor (r : Router) (n : Nat) : Actor := r.actors.get Actor.reset n

/-- The router with an actor record changed. -/
def Router.modActor (r : Router) (n : Nat) (f : Actor → Actor) : Router :=
  { r with actors := r.actors.put n (f (r.actor n)) }

/-- The handle of actor record `n` of tile `t` (R371). -/
def handleOf (t n : Nat) (inc : BitVec 10) : BitVec 32 :=
  BitVec.ofNat 32 (2 ^ 31 + tileY t * 2 ^ 23 + tileX t * 2 ^ 15 + n * 2 ^ 10 + inc.toNat)

/-- Send a stitch back to its sender with a status (R378, R380); under R512 a report or a hardware completion is not
returned with STATUS 2 but discarded and counted. `counts` is false for a stitch that was answered when accepted. -/
def State.giveBack (s : State) (t : Nat) (st : Stitch) (status : BitVec 4) (counts : Bool) : State :=
  if status = 2 ∧ (st.status = 3 ∨ st.status = 4) then s.care1 t 0x000F st.label
  else s.post (.returned { s.unload t st with status := status } counts) t st.src false

/-- The stitches of a pocket that lie in the hold queue, in ring order (R384). -/
def Router.inHold (r : Router) (l : Nat) : List Stitch := (r.holdq.filter fun h => h.label == l && !h.orphan).map fun h => h.st

/-- Every stitch a pocket holds, oldest first: store, overflow, hold queue (R378); of a pocket that is AWAY those in the hold queue
come first, since they moved there in order (R384). -/
def Router.held (r : Router) (l : Nat) : List Stitch :=
  let p := r.pocket l
  if p.state = .away then r.inHold l ++ p.store ++ p.ovf else p.store ++ p.ovf ++ r.inHold l

/-- A pocket that is AWAY still has a stitch to move to the hold queue (R384). -/
def Pocket.leaving (p : Pocket) : Bool := decide (p.state = .away) && !(p.store.isEmpty && p.ovf.isEmpty)

/-- The oldest stitch of an AWAY pocket moves to a hold-queue entry that is free; the last free entry sets FULL (R384). -/
def Router.leaveOnce (r : Router) (l : Nat) : Router :=
  let p := r.pocket l
  let q := r.holdq ++ ((p.store ++ p.ovf).take 1).map fun st => ⟨l, false, st, 0⟩
  { r.modPocket l (fun p => { p with store := p.store.drop 1, ovf := if p.store.isEmpty then p.ovf.drop 1 else p.ovf, held := true }) with
    holdq := q, hqFull := r.hqFull || decide (q.length = 2 ^ r.hqLog.toNat) }

/-- Pocket `l` can take its oldest overflow entry into the store (R378). -/
def Router.canLift (r : Router) (l : Nat) : Bool :=
  let p := r.pocket l
  !p.ovf.isEmpty && decide (p.store.length ≤ p.depthM1) && decide (r.storeUsed < 256)
    && decide (p.state = .idle ∨ p.state = .ready)

/-- The pocket's oldest overflow entry moves into the store (R378). -/
def Router.lift (r : Router) (l : Nat) : Router :=
  r.modPocket l fun p => { p with store := p.store ++ p.ovf.take 1, ovf := p.ovf.drop 1 }.settle

/-- Bring overflow and hold-queue entries up as entries free (R378, R384): a stitch of a pocket that is AWAY into the hold queue; a
pocket's oldest overflow entry into the store while its depth and the store allow; then the oldest hold-queue entry of a pocket with
HELD set into the overflow area while no pocket is AWAY. One round. -/
def Router.drainOnce (r : Router) : Option Router :=
  match (r.pockets.find? fun e => e.2.leaving && r.holdFree), r.pockets.find? fun e => r.canLift e.1 with
  | some (l, _), _ => some (r.leaveOnce l)
  | none, some (l, _) => some (r.lift l)
  | none, none =>
    if !r.ovfFree || (r.pockets.any fun e => decide (e.2.state = .away)) then none
    else
      match r.holdq.findIdx? fun h => !h.orphan && (r.pocket h.label).held with
      | none => none
      | some i =>
        match r.holdq[i]? with
        | none => none
        | some h =>
          let q := dropAt r.holdq i
          some ({ r with holdq := q }.modPocket h.label fun p =>
            { p with ovf := p.ovf ++ [h.st], held := q.any fun x => !x.orphan && x.label == h.label }.settle)

/-- Rounds of `drainOnce` until nothing moves, at most `n`. -/
def Router.drainUp : Nat → Router → Router
  | 0, r => r
  | n + 1, r => match r.drainOnce with
    | some r1 => Router.drainUp n r1
    | none => r

/-- The router after an entry freed (R378). -/
def Router.refill (r : Router) : Router := r.drainUp (2 * (r.storeUsed + r.ovfUsed + r.holdq.length) + 1)

/-- A pocket is freed: its stitches go back with STATUS 2, oldest first, and what waits for the entries that free moves up (R375,
R378, R398). -/
def State.freePocket (s : State) (t l : Nat) : State :=
  let r := (s.tile t).router
  (((r.held l).map (s.unload t)).foldl (fun a st => a.giveBack t st 2 false)
    (s.modRouter t fun r =>
      { r.modPocket l (fun p => { p with state := .freed, store := [], ovf := [], held := false }) with
        holdq := r.holdq.filter fun h => !(h.label == l && !h.orphan) }.refill)).syncOvf t

/-- The labels of an actor's pockets that are not FREED. -/
def Router.pocketsOf (r : Router) (n : Nat) : List Nat :=
  (r.pockets.filter fun e => !e.2.sys && e.2.owner == n && e.2.state != .freed && e.2.state != .unbound).map (·.1)

/-- An actor exits: its pockets become FREED and its record EXITED; while it runs, the exit waits (R373). -/
def State.exitActor (s : State) (t n : Nat) : State :=
  if ((s.tile t).router.actor n).state = .running then
    s.modRouter t fun r => r.modActor n fun a => { a with exiting := true }
  else
    (((s.tile t).router.pocketsOf n).foldl (fun a l => a.freePocket t l) s).modRouter t fun r =>
      r.modActor n fun a => { a with state := .exited, exiting := false }

/-- Room in the tile's return pocket: its depth and the pending store (R375, R378). -/
def Router.returnRoom (r : Router) : Bool :=
  decide ((r.pocket 0).store.length ≤ (r.pocket 0).depthM1) && (r.pocket 0).ovf.isEmpty
    && decide (r.storeUsed < 256)

/-- Put a return into the tile's return pocket: the store, the overflow area or the hold queue (R384). -/
def Router.placeReturn (r : Router) (st : Stitch) : Router :=
  if r.returnRoom && !(r.pocket 0).held then
    r.modPocket 0 fun p => { p with store := p.store ++ [st] }.settle
  else if r.ovfFree && !(r.pocket 0).held then
    r.modPocket 0 fun p => { p with ovf := p.ovf ++ [st] }.settle
  else
    let q := r.holdq ++ [⟨0, false, st, 0⟩]
    { r.modPocket 0 (fun p => { p with held := true }.settle) with
      holdq := q, hqFull := r.hqFull || decide (q.length = 2 ^ r.hqLog.toNat) }

/-- A poison report, or another report of the hardware, to the tile's own return pocket (R179): never refused, dropped
and counted when the pocket and the overflow area are full. -/
def State.report (s : State) (t unit : Nat) (status : BitVec 4) (w0 w1 : Word) : State :=
  let st : Stitch := ⟨t, true, unit % 16, t, 0, none, true, w0, w1, status, none, none⟩
  let r := (s.tile t).router
  if (r.returnRoom || r.ovfFree) && !(r.pocket 0).held then s.modRouter t fun r => r.placeReturn st
  else s.care1 t 0x0009 unit

/-! ### Allocations, launches and stitch targets (R236) -/

/-- The launch in whose name a slot runs: that of its pattern actor; none in the system actor's handler. -/
def State.launchOf (s : State) (t k : Nat) : Option Nat :=
  match (s.slot t k).run with
  | .handler (.actor n) => ((s.tile t).router.actor n).launch
  | _ => none

/-- An allocation: origin and extent in logical coordinates. -/
structure Alloc where
  x : Nat
  y : Nat
  w : Nat
  h : Nat
  deriving DecidableEq, Repr

/-- The whole logical mesh. -/
def wholeMesh : Alloc := ⟨0, 0, 136, 188⟩

/-- The allocation of a launch, or the whole mesh. -/
def State.allocOf (s : State) (l : Option Nat) : Alloc :=
  match l.bind s.launch? with
  | some l => ⟨l.ax, l.ay, l.aw, l.ah⟩
  | none => wholeMesh

/-- An absolute position lies in an allocation. -/
def Alloc.has (a : Alloc) (x y : Nat) : Bool := decide (a.x ≤ x ∧ x < a.x + a.w ∧ a.y ≤ y ∧ y < a.y + a.h)

/-- A handle is well-formed for a sender in allocation `a` (R371). -/
def Alloc.handleOk (a : Alloc) (h : BitVec 32) : Bool :=
  decide (h.toNat / 2 ^ 31 = 1) && a.has (h.toNat / 2 ^ 15 % 256) (h.toNat / 2 ^ 23 % 256)

/-- A stitch target read under an allocation (R236): the tile, the label and the handle it names, or nothing where
R237 refuses it. -/
def Alloc.target (a : Alloc) (t : Word) : Option (Nat × Nat × Option (BitVec 32)) :=
  let name := get t 31 0
  let label := get t 38 32
  if get t 61 39 ≠ 0 then none
  else if get t 63 62 = 0 then
    (if name / 2 ^ 16 = 0 ∧ name % 256 < a.w ∧ name / 256 < a.h then
      some (tileKey (a.x + name % 256) (a.y + name / 256), label, none)
    else none)
  else if get t 63 62 = 1 then
    (if a.handleOk (BitVec.ofNat 32 name) then
      some (tileKey (name / 2 ^ 15 % 256) (name / 2 ^ 23 % 256), label, some (BitVec.ofNat 32 name))
    else none)
  else none

/-- The labels that user mode may not name (R237). -/
def reservedLabel (l : Nat) : Bool := l == 0 || l == 125 || l == 126 || l == 127

/-- The completion stitch of a WEFT, a COPY or a launch to a target of its allocation; KIND 11 names none (R236,
R305). -/
def State.notify (s : State) (t k : Nat) (a : Alloc) (target w0 w1 : Word) : State :=
  match a.target target with
  | some (dst, label, h) => s.hwStitch t dst label false k 4 w0 w1 h
  | none => s

/-- Put a stitch of a slot into the tile's injection queue: its place in the order is fixed (R237, R380). -/
def State.inject (s : State) (t k : Nat) (dst label : Nat) (h : Option (BitVec 32)) (two : Bool) (w0 w1 : Word)
    (rel : Bool) : State :=
  let st : Stitch := ⟨t, false, k, dst, label, h, two, w0, w1, 0, s.launchOf t k, none⟩
  s.stamp.modRouter t fun r => { r.countUp dst label with inj := r.inj ++ [⟨st, rel, k, s.seq⟩] }

/-- The sender table, or WIDE, refuses the pair locally (R381). -/
def Router.refusedHere (r : Router) (dst label : Nat) : Bool := r.wide || r.sender.contains (dst, label)

/-- A stitch refused locally: it waits for its pair's counter, then enters the return pocket with STATUS 1 (R239,
R381). -/
def State.refuseHere (s : State) (t k : Nat) (dst label : Nat) (h : Option (BitVec 32)) (two : Bool) (w0 w1 : Word) :
    State :=
  (s.modRouter t fun r =>
    { r with localRef := r.localRef ++ [⟨t, false, k, dst, label, h, two, w0, w1, 1, s.launchOf t k, none⟩] }).syncOvf t

/-- A stitch of a launch has been sent (R262). -/
def State.countSent (s : State) (l : Option Nat) : State :=
  match l with
  | some n => s.modLaunch n fun x => { x with sent := x.sent + 1 }
  | none => s

/-- SEND from a slot once its checks have passed, counted in its launch where it leaves the tile's router (R237, R239, R262). -/
def State.sendFrom (s : State) (t k : Nat) (dst label : Nat) (h : Option (BitVec 32)) (two : Bool) (w0 w1 : Word)
    (rel : Bool) : State :=
  if (s.tile t).router.refusedHere dst label then s.refuseHere t k dst label h two w0 w1
  else (s.inject t k dst label h two w0 w1 rel).countSent (s.launchOf t k)

/-! ### The end of a handler (R240, R393) -/

/-- Tasks in an actor's deque (R392). -/
def Actor.tasks (a : Actor) : Nat := (a.tail - a.head).toNat

/-- Capacity of an actor's deque: 2^DQLOG for a DQLOG from 1 to 12 (R392). -/
def Actor.dqOk (a : Actor) : Bool := decide (1 ≤ a.dqLog.toNat ∧ a.dqLog.toNat ≤ 12)

/-- Own-tile offset of deque entry `i` (R392). -/
def Actor.dqAt (a : Actor) (i : Nat) : Nat := a.dqBase.toNat + 16 * (i % 2 ^ a.dqLog.toNat)

/-- A steal request names this actor or any (R393). -/
def stealNames (h : BitVec 32) (st : Stitch) : Bool := st.w1 = 0 || st.w1 = h.zeroExtend 64

/-- Take stitch `i` out of the store of pocket `l`; the entry frees, and the pocket's own oldest overflow entry takes it (R378). -/
def Router.takeStitch (r : Router) (l i : Nat) : Router :=
  let r1 := r.modPocket l fun p => { p with store := dropAt p.store i }.settle
  (if r1.canLift l then r1.lift l else r1).refill

/-- HEND serves the oldest waiting steal request that names the actor from HEAD of its deque (R393). -/
def State.serveSteal (s : State) (t k n : Nat) : State :=
  let r := (s.tile t).router
  let a := r.actor n
  match r.pocket 126 |>.store.findIdx? (stealNames (handleOf t n a.inc)) with
  | none => s
  | some i =>
    match (r.pocket 126).store[i]? with
    | none => s
    | some q0 =>
      let q := s.unload t q0
      if a.dqOk && decide (a.tasks ≠ 0) then
        let loc := localLoc t (a.dqAt a.head.toNat)
        let w0 := s.read64 loc
        let w1 := s.read64 (loc + 8)
        let s1 := (s.modRouter t fun r => (r.modActor n fun a => { a with head := a.head + 1 }).takeStitch 126 i).syncOvf t
        match (s.allocOf q.launch).target q.w0 with
        | some (dst, label, h) => s1.sendFrom t k dst label h true w0 w1 true
        | none => s1
      else s

/-- MROWs that a slot queued and that still run on the islands of its tile (R494). -/
def Fabric.rowsOf (f : Fabric) (k : Nat) : Nat :=
  (f.islands.map fun e => (e.2.jobs.filter fun j => decide (j.kind = MatKind.row) && j.slot == k).length).sum

/-- WEFTs of a slot's handler that wait for their answer; each of them uses a unit of the slot's stream balance (R241). -/
def State.weftsOf (s : State) (t k : Nat) : Nat :=
  (s.wefts.filter fun q => q.tile == t && (s.slot t k).pend.any fun p => p.id == q.pend).length

/-- A slot's leave balances go back to the controller (R419); MATRIX units stay booked while MROWs of the slot run
(R494), STREAM units that a WEFT uses until its answer (R241). -/
def State.returnLeave (s : State) (t k : Nat) : State :=
  let b := (s.slot t k).bal
  let rest := 400 * (b[1]).toNat + 360 * ((b[2]).toNat - s.weftsOf t k) + 40 * (b[3]).toNat
  let s1 := s.unbook t rest
  let s2 := if (s.tile t).fabric.rowsOf k = 0 then s1.unbook t (125 * (b[0]).toNat)
    else s1.modTile t fun T => { T with matDue := T.matDue.put k (T.matDue.get 0 k + (b[0]).toNat) }
  s2.modSlot t k fun sl => { sl with bal := Vector.replicate 4 0 }

/-- A request that keeps its slot out of the rotation: on a full-empty page, its instruction has not completed. -/
def Pend.holds (p : Pend) : Bool := p.fe

/-- Remove a slot's waiting full-empty requests (R310). -/
def State.withdrawFe (s : State) (t k : Nat) : State :=
  let mine := fun (q : FeReq) => match q.who with
    | .needle t' k' _ => t' == t && k' == k
    | .poll t' u => t' == t && u == 32 + k
    | _ => false
  { s with feWait := s.feWait.filter fun q => !mine q }.modSlot t k fun sl =>
    { sl with waiting := false, pend := sl.pend.filter fun p => !p.holds }

/-- The slot's handler is over: registers abandoned, loops disarmed, pending results dropped, the slot free (R229,
R240). -/
def Slot.ended (sl : Slot) : Slot :=
  { sl with run := .free, pend := [], late := [], waiting := false, ext := none, inTrap := false,
            held := none, cut := false, bad := [], dying := none,
            budgetDue := false, granted := false, asked := none, bal := Vector.replicate 4 0,
            top := { sl.top with armed := false }, below := { sl.below with armed := false } }

/-- A command of ACTCMD that slot `k` still waits for is given up. -/
def State.dropWait (s : State) (t k : Nat) : State :=
  s.modTile t fun T => { T with actWait := T.actWait.filter fun w => w.slot != k }

/-- The running handler of a slot ends (R240): a thief is served, leave goes back, the actor may be picked again or
exits, and the slot is free. -/
def State.endHandler (s : State) (t k : Nat) : State :=
  let s0 := ((s.withdrawFe t k).withdrawLeave t k).dropWait t k
  match (s.slot t k).run with
  | .handler (.actor n) =>
    let s1 := ((s0.serveSteal t k n).returnLeave t k).modSlot t k Slot.ended
    let s2 := s1.modRouter t fun r => r.modActor n fun a => { a with state := .bound }
    if ((s2.tile t).router.actor n).exiting then s2.exitActor t n else s2
  | .handler .sys =>
    ((s0.returnLeave t k).modSlot t k Slot.ended).modRouter t fun r =>
      { r with sysActor := { r.sysActor with state := .bound } }
  | _ => s0

/-! ### Taking a trap and returning from one (R404, R405, R407, R478, R481) -/

/-- TRAPCAUSE (R478). -/
def trapWord (cause sub : Nat) (late : Bool) : Word := put 0 8 cause + put 15 1 (bit late) + put 24 8 sub

/-- TSTAT, TRAPCAUSE, TRAPPC and TRAPVAL as take_trap of R405 writes them; a read that a failed path holds is given up. -/
def Slot.recordTrap (sl : Slot) (cause pcRec val : Word) : Slot :=
  { sl with pMode := sl.mode, inTrap := true, trapCause := cause, trapPc := pcRec, trapVal := val, held := none, cut := false }

/-- A handler whose double trap is over ends with a report to label 0 (R481). -/
def State.endDying (s : State) (t k : Nat) (cause raiser : Word) : State :=
  (s.endHandler t k).hwStitch t t 0 false k 4 (cause ||| (1 <<< 63)) raiser none

/-- A double trap (R481): a pattern handler ends as HEND ends it, once its accesses are over and a thief can be served, with a report to
label 0; a slot of the system actor stops and the tile raises its alert (R506). -/
def State.doubleTrap (s : State) (t k : Nat) (cause raiser : Word) : State :=
  let s1 := s.care1 t 0x000E (cause.toNat % 256)
  match (s.slot t k).run with
  | .handler (.actor _) =>
    if (s.slot t k).accesses.isEmpty && ((s.tile t).router.pocket 126).store.isEmpty then s1.endDying t k cause raiser
    else s1.modSlot t k fun sl => { sl with dying := some (cause, raiser), ext := none }
  | _ => ((s1.dropWait t k).modSlot t k fun sl => { sl with run := .stopped, ext := none }).raise 0

/-- take_trap of R405, with R404 and R481 for a tile without a vector and for a trap inside a trap handler, whose
report names the instruction at `raiser`. A waiting full-empty request and a waiting leave request are withdrawn
(R310, R419). -/
def State.takeTrap (s : State) (t k : Nat) (cause pcRec raiser val : Word) : State :=
  let s0 := (s.withdrawFe t k).withdrawLeave t k
  let sl := s.slot t k
  if sl.inTrap then s0.doubleTrap t k cause raiser
  else
    let s1 := s0.modSlot t k fun sl => sl.recordTrap cause pcRec val
    if (s.tile t).tvec = 0 then s1.doubleTrap t k cause raiser
    else s1.modSlot t k fun sl => { sl with mode := .system, pc := (s.tile t).tvec, ext := none }

/-- The running instruction traps precisely with a cause of R477. -/
def State.trap (s : State) (cause sub : Nat) (val : Word) : State :=
  s.takeTrap s.ft s.fk (trapWord cause sub false) s.cur.instrPc s.cur.instrPc val

/-- The running instruction `i` traps with EILLEGAL: TRAPVAL holds the word, or the EXT word of a pair (R134, R477). -/
def State.trapIllegal (s : State) (i : Instr) : State := s.trap 0x01 0 (s.cur.instrWord i)

/-- The running instruction `i` traps with EPRIV (R135, R477). -/
def State.trapPriv (s : State) (i : Instr) : State := s.trap 0x03 0 (s.cur.instrWord i)

/-- The return of ERET (R407), once its checks have passed: it passes through no loop check. -/
def Slot.returned (sl : Slot) : Slot := { sl with pc := sl.trapPc, mode := sl.pMode, inTrap := false, ext := none }

end Sys2Proof.Machine
end

