-- ==== Sys2Proof/Machine/Flags.lean ====
section
/-!
DEFINITION. Number formats, rounding and flags (R46-R62), the random streams that stochastic rounding draws from
(R191, R193), and what a floating-point instruction does to FPCS (R56-R58). Values are computed exactly and narrowed
once at the end.
-/
namespace Sys2Proof.Machine

/-! ### Formats (R47) -/

/-- How a format uses its top exponent: infinities and NaNs, one NaN fraction (e4m3), or finite numbers only. -/
inductive FKind where
  | ieee | e4m3 | finite
  deriving DecidableEq, Repr

/-- A floating-point format: exponent bits, fraction bits, bias, use of the top exponent, signalling NaNs. -/
structure FFmt where
  eb : Nat
  fb : Nat
  bias : Nat
  kind : FKind
  snan : Bool
  deriving DecidableEq, Repr

def f64 : FFmt := ⟨11, 52, 1023, .ieee, true⟩
def f32 : FFmt := ⟨8, 23, 127, .ieee, true⟩
def f16 : FFmt := ⟨5, 10, 15, .ieee, true⟩
def bf16 : FFmt := ⟨8, 7, 127, .ieee, true⟩
def e5m2 : FFmt := ⟨5, 2, 15, .ieee, false⟩
def e4m3 : FFmt := ⟨4, 3, 7, .e4m3, false⟩
def e3m2 : FFmt := ⟨3, 2, 3, .finite, false⟩
def e2m3 : FFmt := ⟨2, 3, 1, .finite, false⟩
def e2m1 : FFmt := ⟨2, 1, 1, .finite, false⟩

/-- Bits of a format. -/
def FFmt.width (f : FFmt) : Nat := 1 + f.eb + f.fb

/-- A value read from a format; a finite one is m × 2^e with its sign. -/
inductive FVal where
  | nan (signalling : Bool)
  | inf (neg : Bool)
  | fin (neg : Bool) (m : Nat) (e : Int)
  deriving DecidableEq, Repr

/-- The value that the low bits of `x` encode (R47, R48). -/
def FFmt.unpack (f : FFmt) (x : Nat) : FVal :=
  let frac := x % 2 ^ f.fb
  let ex := x / 2 ^ f.fb % 2 ^ f.eb
  let neg := decide (x / 2 ^ (f.fb + f.eb) % 2 = 1)
  let fin := if ex = 0 then FVal.fin neg frac (1 - f.bias - f.fb : Int)
    else FVal.fin neg (frac + 2 ^ f.fb) ((ex : Int) - f.bias - f.fb)
  if ex = 2 ^ f.eb - 1 then
    match f.kind with
    | .ieee => if frac = 0 then .inf neg else .nan (f.snan && decide (frac < 2 ^ (f.fb - 1)))
    | .e4m3 => if frac = 2 ^ f.fb - 1 then .nan false else fin
    | .finite => fin
  else fin

/-- The encoding of the largest finite magnitude (R47). -/
def FFmt.maxBits (f : FFmt) : Nat :=
  match f.kind with
  | .ieee => (2 ^ f.eb - 1) * 2 ^ f.fb - 1
  | .e4m3 => 2 ^ (f.eb + f.fb) - 2
  | .finite => 2 ^ (f.eb + f.fb) - 1

/-- A sign put on a magnitude's encoding. -/
def FFmt.withSign (f : FFmt) (neg : Bool) (mag : Nat) : Nat := mag + (if neg then 2 ^ (f.eb + f.fb) else 0)

/-- The canonical NaN (R48); +0 in the formats that have none (R55). -/
def FFmt.canonical (f : FFmt) : Nat :=
  match f.kind with
  | .ieee => (2 ^ f.eb - 1) * 2 ^ f.fb + 2 ^ (f.fb - 1)
  | .e4m3 => 2 ^ (f.eb + f.fb) - 1
  | .finite => 0

/-! ### Exceptions, in the order of FLAGS (R56) -/

/-- Exceptions raised: bit 4 NV, 3 DZ, 2 OF, 1 UF, 0 NX. -/
abbrev Exc := BitVec 5

def excNV : Exc := 16
def excDZ : Exc := 8
def excOF : Exc := 4
def excUF : Exc := 2
def excNX : Exc := 1

/-- NV where a condition holds. -/
def nvIf (b : Bool) : Exc := if b then excNV else 0

/-- The bits of a result and the exceptions it raises. -/
structure FRes where
  bits : Nat
  exc : Exc
  deriving DecidableEq, Repr

/-! ### Rounding (R53-R55) -/

/-- An exact value: magnitude m × 2^e, or strictly between that and (m + 1) × 2^e where `sticky` is set. -/
structure Exact where
  neg : Bool
  m : Nat
  e : Int
  sticky : Bool
  deriving DecidableEq, Repr

/-- The magnitude of `x` in units of 2^q under mode `rm` with a 24-bit draw, and whether it is inexact (R54). -/
def Exact.roundAt (rm draw : Nat) (x : Exact) (q : Int) : Nat × Bool :=
  if q ≤ x.e then (x.m * 2 ^ (x.e - q).toNat, x.sticky)
  else
    let s := (q - x.e).toNat
    let lo := x.m / 2 ^ s
    let r := x.m % 2 ^ s
    let inexact := decide (r ≠ 0) || x.sticky
    let up := match rm with
      | 0 => decide (2 ^ s < 2 * r) || (decide (2 * r = 2 ^ s) && (x.sticky || decide (lo % 2 = 1)))
      | 1 => false
      | 2 => inexact && !x.neg
      | 3 => inexact && x.neg
      | _ => decide (2 ^ 24 ≤ r * 2 ^ 24 / 2 ^ s + draw)
    (if up then lo + 1 else lo, inexact)

/-- What a value beyond the largest finite one becomes (R55). -/
def FFmt.overflow (f : FFmt) (rm : Nat) (neg : Bool) : Nat :=
  let toInf := match f.kind with
    | .ieee => decide (rm = 0 ∨ rm = 4) || (decide (rm = 2) && !neg) || (decide (rm = 3) && neg)
    | _ => false
  f.withSign neg (if toInf then f.maxBits + 1 else f.maxBits)

/-- rnd(x, f, rm) with the exceptions of R55. "Tiny" is judged on the rounding with unbounded exponent. -/
def FFmt.round (f : FFmt) (rm draw : Nat) (x : Exact) : FRes :=
  if x.m = 0 then ⟨f.withSign x.neg 0, 0⟩
  else
    let top := x.e + Nat.log2 x.m
    let qU := top - f.fb
    let emin : Int := 1 - f.bias
    let q := max qU (emin - f.fb)
    let r := x.roundAt rm draw q
    let rU := x.roundAt rm draw qU
    let bits := ((q + f.bias + f.fb).toNat - 1) * 2 ^ f.fb + r.1
    let tiny := decide (top + (if rU.1 = 2 ^ (f.fb + 1) then 1 else 0) < emin)
    if f.maxBits < bits then ⟨f.overflow rm x.neg, excOF ||| excNX⟩
    else ⟨f.withSign x.neg bits, if r.2 then (if tiny then excUF ||| excNX else excNX) else 0⟩

/-- The sum of two signed magnitudes, exactly; an exact zero of unlike operands is +0, but −0 under RDN (R49). -/
def exactSum (rm : Nat) (n1 : Bool) (m1 : Nat) (e1 : Int) (n2 : Bool) (m2 : Nat) (e2 : Int) : Exact :=
  let e := min e1 e2
  let a : Int := (m1 * 2 ^ (e1 - e).toNat : Nat)
  let b : Int := (m2 * 2 ^ (e2 - e).toNat : Nat)
  let t := (if n1 then -a else a) + (if n2 then -b else b)
  if t = 0 then ⟨if m1 = 0 ∧ m2 = 0 ∧ n1 = n2 then n1 else decide (rm = 3), 0, e, false⟩
  else ⟨decide (t < 0), t.natAbs, e, false⟩

/-! ### Operations (R219) -/

/-- A NaN result: canonical, with NV where asked. -/
def FFmt.nanRes (f : FFmt) (nv : Bool) : FRes := ⟨f.canonical, nvIf nv⟩

/-- Whether a value is a signalling NaN. -/
def FVal.sig (v : FVal) : Bool := match v with
  | .nan s => s
  | _ => false

/-- An infinity of a format. -/
def FFmt.infRes (f : FFmt) (neg : Bool) : FRes := ⟨f.withSign neg (f.maxBits + 1), 0⟩

/-- A value with its sign inverted. -/
def FVal.neg (v : FVal) : FVal := match v with
  | .nan s => .nan s
  | .inf n => .inf (!n)
  | .fin n m e => .fin (!n) m e

/-- rnd(a + b) on values (R219). -/
def FFmt.addVal (f : FFmt) (rm draw : Nat) (a b : FVal) : FRes :=
  match a, b with
  | .nan s, y => f.nanRes (s || y.sig)
  | _, .nan s => f.nanRes s
  | .inf n, .inf k => if n = k then f.infRes n else f.nanRes true
  | .inf n, .fin _ _ _ => f.infRes n
  | .fin _ _ _, .inf n => f.infRes n
  | .fin n m e, .fin k p g => f.round rm draw (exactSum rm n m e k p g)

/-- FADD. -/
def FFmt.add (f : FFmt) (rm draw a b : Nat) : FRes := f.addVal rm draw (f.unpack a) (f.unpack b)

/-- FSUB. -/
def FFmt.sub (f : FFmt) (rm draw a b : Nat) : FRes := f.addVal rm draw (f.unpack a) (f.unpack b).neg

/-- FMUL. -/
def FFmt.mul (f : FFmt) (rm draw a b : Nat) : FRes :=
  match f.unpack a, f.unpack b with
  | .nan s, y => f.nanRes (s || y.sig)
  | _, .nan s => f.nanRes s
  | .inf n, .inf k => f.infRes (n != k)
  | .inf n, .fin k m _ => if m = 0 then f.nanRes true else f.infRes (n != k)
  | .fin k m _, .inf n => if m = 0 then f.nanRes true else f.infRes (n != k)
  | .fin n m e, .fin k p g => f.round rm draw ⟨n != k, m * p, e + g, false⟩

/-- An infinite product of sign `n` plus an addend. -/
def FFmt.addInf (f : FFmt) (n : Bool) (z : FVal) (sigs : Bool) : FRes :=
  match z with
  | .nan _ => f.nanRes sigs
  | .inf j => if n = j then f.infRes n else f.nanRes true
  | .fin _ _ _ => f.infRes n

/-- FFMA: a × b + c with one rounding. NV for 0 × ∞ also where c is a quiet NaN. -/
def FFmt.fma (f : FFmt) (rm draw a b c : Nat) : FRes :=
  let x := f.unpack a
  let y := f.unpack b
  let z := f.unpack c
  let sigs := x.sig || y.sig || z.sig
  match x, y with
  | .nan _, _ => f.nanRes sigs
  | _, .nan _ => f.nanRes sigs
  | .inf n, .inf k => f.addInf (n != k) z sigs
  | .inf n, .fin k m _ => if m = 0 then f.nanRes true else f.addInf (n != k) z sigs
  | .fin k m _, .inf n => if m = 0 then f.nanRes true else f.addInf (n != k) z sigs
  | .fin n m e, .fin k p g =>
    match z with
    | .nan _ => f.nanRes sigs
    | .inf j => f.infRes j
    | .fin j q h => f.round rm draw (exactSum rm (n != k) (m * p) (e + g) j q h)

/-- FDIV: the quotient carries 160 bits beyond the divisor's and a sticky bit, which R54 never looks past. -/
def FFmt.div (f : FFmt) (rm draw a b : Nat) : FRes :=
  match f.unpack a, f.unpack b with
  | .nan s, y => f.nanRes (s || y.sig)
  | _, .nan s => f.nanRes s
  | .inf _, .inf _ => f.nanRes true
  | .inf n, .fin k _ _ => f.infRes (n != k)
  | .fin n _ _, .inf k => ⟨f.withSign (n != k) 0, 0⟩
  | .fin n m e, .fin k p g =>
    if p = 0 then (if m = 0 then f.nanRes true else ⟨(f.infRes (n != k)).bits, excDZ⟩)
    else f.round rm draw ⟨n != k, m * 2 ^ 160 / p, e - g - 160, decide (m * 2 ^ 160 % p ≠ 0)⟩

/-- The integer square root by `n` rounds of doubling, each adding one bit: the largest r with r² ≤ x for x < 4^n. -/
def isqrt : Nat → Nat → Nat
  | 0, _ => 0
  | n + 1, x =>
    let r := 2 * isqrt n (x / 4)
    if (r + 1) * (r + 1) ≤ x then r + 1 else r

/-- FSQRT. -/
def FFmt.sqrt (f : FFmt) (rm draw a : Nat) : FRes :=
  match f.unpack a with
  | .nan s => f.nanRes s
  | .inf n => if n then f.nanRes true else f.infRes false
  | .fin n m e =>
    if m = 0 then ⟨f.withSign n 0, 0⟩
    else if n then f.nanRes true
    else
      let x := m * 2 ^ (200 + (e % 2).toNat)
      let r := isqrt 140 x
      f.round rm draw ⟨false, r, (e - 200 - e % 2) / 2, decide (r * r ≠ x)⟩

/-- A value orders below another, NaNs aside; −0 equals +0. -/
def FVal.lt (a b : FVal) : Bool :=
  match a, b with
  | .inf n, .inf k => n && !k
  | .inf n, .fin _ _ _ => n
  | .fin _ _ _, .inf k => !k
  | .fin n m e, .fin k p g =>
    let s := exactSum 0 n m e (!k) p g
    s.neg && decide (s.m ≠ 0)
  | _, _ => false

/-- A value is a NaN. -/
def FVal.isNan (v : FVal) : Bool := match v with
  | .nan _ => true
  | _ => false

/-- A value's sign is set. -/
def FVal.isNeg (v : FVal) : Bool := match v with
  | .nan _ => false
  | .inf n => n
  | .fin n _ _ => n

/-- FMIN and FMAX under R62: −0 below +0, the other operand beside a NaN. -/
def FFmt.minmax (f : FFmt) (isMax : Bool) (a b : Nat) : FRes :=
  let x := f.unpack a
  let y := f.unpack b
  let nv := nvIf (x.sig || y.sig)
  if x.isNan && y.isNan then ⟨f.canonical, nv⟩
  else if x.isNan then ⟨b % 2 ^ f.width, nv⟩
  else if y.isNan then ⟨a % 2 ^ f.width, nv⟩
  else
    let below := x.lt y || (!(y.lt x) && x.isNeg && !y.isNeg)
    ⟨(if below != isMax then a else b) % 2 ^ f.width, nv⟩

/-- FABS. -/
def FFmt.abs (f : FFmt) (a : Nat) : FRes :=
  match f.unpack a with
  | .nan s => f.nanRes s
  | _ => ⟨a % 2 ^ (f.eb + f.fb), 0⟩

/-- FNEG. -/
def FFmt.negate (f : FFmt) (a : Nat) : FRes :=
  match f.unpack a with
  | .nan s => f.nanRes s
  | v => ⟨f.withSign (!v.isNeg) (a % 2 ^ (f.eb + f.fb)), 0⟩

/-- The floating-point column of R142, with NV for a signalling NaN (R221). -/
def FFmt.compare (f : FFmt) (c : Nat) (a b : Nat) : Bool × Exc :=
  let x := f.unpack a
  let y := f.unpack b
  let uno := x.isNan || y.isNan
  let lt := x.lt y
  let gt := y.lt x
  let r := match c with
    | 0 => !uno && !lt && !gt
    | 1 => uno || lt || gt
    | 2 => !uno && lt
    | 3 => !uno && !lt
    | 4 => !uno && !gt
    | 5 => !uno && gt
    | 10 => uno
    | 11 => !uno
    | 12 => true
    | _ => false
  (r, nvIf (x.sig || y.sig))

/-- The integer column of R142 on 64-bit values. -/
def intCompare (c : Nat) (a b : Word) : Bool :=
  match c with
  | 0 => a = b
  | 1 => a ≠ b
  | 2 => a.slt b
  | 3 => !a.slt b
  | 4 => !b.slt a
  | 5 => b.slt a
  | 6 => a.ult b
  | 7 => !a.ult b
  | 8 => !b.ult a
  | 9 => b.ult a
  | 12 => true
  | _ => false

/-! ### Element types and conversions (R46, R144, R220) -/

/-- A type that a conversion names: an integer (signed or not) of a width, or a float. -/
inductive EType where
  | int (sgn : Bool) (w : Nat)
  | flt (f : FFmt)
  deriving DecidableEq, Repr

/-- The type of a code 0x00 to 0x12 (R144). -/
def etype (c : Nat) : EType :=
  match c with
  | 0 => .int true 4
  | 1 => .int true 6
  | 2 => .int true 8
  | 3 => .int true 16
  | 4 => .int true 32
  | 5 => .int true 64
  | 6 => .int false 8
  | 7 => .int false 16
  | 8 => .int false 32
  | 9 => .int false 64
  | 10 => .flt f64
  | 11 => .flt f32
  | 12 => .flt f16
  | 13 => .flt bf16
  | 14 => .flt e5m2
  | 15 => .flt e4m3
  | 16 => .flt e3m2
  | 17 => .flt e2m3
  | _ => .flt e2m1

/-- Bits of a type. -/
def EType.width (t : EType) : Nat := match t with
  | .int _ w => w
  | .flt f => f.width

/-- sat_iN and sat_nN (R46). -/
def sat (sgn : Bool) (w : Nat) (x : Int) : Int :=
  if sgn then
    (if (2 ^ (w - 1) : Nat) - 1 < x then (2 ^ (w - 1) : Nat) - 1 else if x < -(2 ^ (w - 1) : Nat) then -(2 ^ (w - 1) : Nat) else x)
  else (if (2 ^ w : Nat) - 1 < x then (2 ^ w : Nat) - 1 else if x < 0 then 0 else x)

/-- The low `w` bits of an integer. -/
def intBits (w : Nat) (x : Int) : Nat := (x % (2 ^ w : Nat)).toNat

/-- A saturated integer and NV where saturation changed it. -/
def satRes (sgn : Bool) (w : Nat) (x : Int) (exact : Exc) : FRes :=
  let y := sat sgn w x
  ⟨intBits w y, if y = x then exact else excNV⟩

/-- The exact value of an integer. -/
def exactInt (x : Int) : Exact := ⟨decide (x < 0), x.natAbs, 0, false⟩

/-- An exact value rounded to an integer (R54). -/
def Exact.toInt (rm draw : Nat) (x : Exact) : Int × Bool :=
  let r := x.roundAt rm draw 0
  (if x.neg then -(r.1 : Int) else r.1, r.2)

/-- FCVT of the low bits of `x` (R220): the result at its own width, and its exceptions. -/
def convert (dst frm : EType) (rm draw x : Nat) : FRes :=
  match dst, frm with
  | .int sg w, .int sg0 w0 => satRes sg w (if sg0 then signed w0 x else (x % 2 ^ w0 : Nat)) 0
  | .flt f, .int sg0 w0 => f.round rm draw (exactInt (if sg0 then signed w0 x else (x % 2 ^ w0 : Nat)))
  | .int sg w, .flt g =>
    match g.unpack x with
    | .nan _ => ⟨0, excNV⟩
    | .inf n => ⟨intBits w (sat sg w (if n then -(2 ^ 80 : Nat) else (2 ^ 80 : Nat))), excNV⟩
    | .fin n m e =>
      let r := (Exact.mk n m e false).toInt rm draw
      satRes sg w r.1 (if r.2 then excNX else 0)
  | .flt f, .flt g =>
    match g.unpack x with
    | .nan s => (match f.kind with
      | .finite => ⟨0, excNV⟩
      | _ => f.nanRes s)
    | .inf n => (match f.kind with
      | .ieee => f.infRes n
      | _ => ⟨f.withSign n f.maxBits, excNV⟩)
    | .fin n m e => if f = g then ⟨x % 2 ^ f.width, 0⟩ else f.round rm draw ⟨n, m, e, false⟩

/-- The 64-bit register image of a result of a type: sign-extended for a signed integer, else zero-extended. -/
def EType.image (t : EType) (bits : Nat) : Word :=
  match t with
  | .int true w => BitVec.ofInt 64 (signed w bits)
  | _ => BitVec.ofNat 64 bits

/-- The lane image of a result (R50): 6-bit types fill their byte by sign or with zeros. -/
def EType.lane (t : EType) (bits : Nat) : Nat :=
  match t with
  | .int true 6 => intBits 8 (signed 6 bits)
  | _ => bits

/-! ### mx blocks (R51, R52, R291) -/

/-- Element bits of an mx format code (000 mxi4, 001 mxi6, 010 mxi8, 011 mxi16). -/
def mxWidth (c : Nat) : Nat := match c with
  | 0 => 4
  | 1 => 6
  | 2 => 8
  | _ => 16

/-- An encoded block: its scale byte, its elements, the exceptions, in element order. -/
structure MxBlock where
  scale : Nat
  elems : List Int
  exc : Exc
  deriving DecidableEq, Repr

/-- floor(log2 |v|) of a finite non-zero value. -/
def FVal.expo (v : FVal) : Option Int := match v with
  | .fin _ m e => if m = 0 then none else some (e + Nat.log2 m)
  | _ => none

/-- A value is finite. -/
def FVal.finite (v : FVal) : Bool := match v with
  | .fin _ _ _ => true
  | _ => false

/-- The largest floor(log2 |v|) of a block, if any value is not zero. -/
def maxExpo (vs : List FVal) : Option Int :=
  vs.foldl (fun a v => match a, v.expo with
    | none, y => y
    | x, none => x
    | some x, some y => some (max x y)) none

/-- mx_encode (R52): values and the draw each of them takes. -/
def mxEncode (w rm : Nat) (vs : List (FVal × Nat)) : MxBlock :=
  if vs.any fun v => !v.1.finite then ⟨0xFF, vs.map fun _ => 0, excNV⟩
  else
    match maxExpo (vs.map (·.1)) with
    | none => ⟨0, vs.map fun _ => 0, 0⟩
    | some top =>
      let e0 := top - (w - 2 : Nat)
      let e := min (max e0 (-127)) 127
      let rs := vs.map fun v => match v.1 with
        | .fin n m g => (Exact.mk n m (g - e) false).toInt rm v.2
        | _ => (0, false)
      let clip := rs.any fun r => sat true w r.1 != r.1
      ⟨(e + 127).toNat, rs.map fun r => sat true w r.1,
       (if decide (127 < e0) && clip then excOF else 0) ||| (if clip || rs.any (·.2) then excNX else 0)⟩

/-- An mx element under its block's scale code as an exact value, none for a scale of 0xFF (R51). -/
def mxValue (scale : Nat) (x : Int) : Option Exact :=
  if scale = 0xFF then none else some ⟨decide (x < 0), x.natAbs, (scale : Int) - 127, false⟩

/-! ### Random streams (R191, R193) -/

/-- One round of crng. -/
def crngRound (key : Word) (h : Word × Word) (c : Nat × Nat × Nat) : Word × Word :=
  let lo := h.2 + h.1 + (key ^^^ BitVec.ofNat 64 c.1)
  (h.1.rotateLeft c.2.1 ^^^ lo, lo.rotateLeft c.2.2)

/-- The round constants and rotation amounts of R191. -/
def crngTable : List (Nat × Nat × Nat) :=
  [(0x8F1BC3A564D27E09, 23, 32), (0x5A3E91C70B6FD428, 41, 7), (0xC7D02E94A13B58F6, 17, 45),
   (0x36A9F5E17C084BD3, 53, 19), (0xE24C6B0FD9751A8E, 29, 38), (0x71F8A3D62E5C90B4, 11, 13)]

/-- crng(key, ctr): (hi, lo) (R191). -/
def crng (key ctr : Word) : Word × Word := crngTable.foldl (crngRound key) (key ^^^ 0x6A3D91F4C25E0B87, ctr)

/-- Draw `j` of an output block (R193). -/
def drawOf (h : Word × Word) (j : Nat) : Nat := (h.1.toNat * 2 ^ 64 + h.2.toNat) / 2 ^ (24 * j) % 2 ^ 24

/-- Draw number RCTR + i of a slot's stream (R193). -/
def Slot.draw (sl : Slot) (i : Nat) : Nat :=
  let n := (sl.rctr + BitVec.ofNat 64 i).toNat
  drawOf (crng sl.rseed (BitVec.ofNat 64 (n / 5))) (n % 5)

/-! ### FPCS (R56-R58) -/

/-- The rounding mode of an instruction: its field, or FPCS.RM for 111 (R53). -/
def Slot.mode3 (sl : Slot) (rm : BitVec 3) : Nat := if rm = 7 then sl.fpcs.rm.toNat else rm.toNat

/-- The exceptions of an instruction are ORed into FLAGS. -/
def Slot.raise (sl : Slot) (x : Exc) : Slot := { sl with fpcs := { sl.fpcs with flags := sl.fpcs.flags ||| x } }

/-- `n` draws are used up under RSR (R54, R193). -/
def Slot.consume (sl : Slot) (rm n : Nat) : Slot := if rm = 4 then { sl with rctr := sl.rctr + BitVec.ofNat 64 n } else sl

/-- FPCS as MFS reads it (R56). -/
def Fpcs.word (f : Fpcs) : Word := put 0 5 f.flags.toNat + put 5 3 f.rm.toNat + put 8 5 f.en.toNat

/-- The end of a floating-point instruction of the running slot: an enabled exception traps with EFP before anything is
written (R58), else FLAGS, the draws and the result take effect (R57). -/
def State.fpEnd (s : State) (x : Exc) (rm draws : Nat) (f : Slot → Slot) : State :=
  if x &&& s.cur.fpcs.en ≠ 0 then (s.modCur fun sl => sl.raise x).trap 0x07 0 (x.zeroExtend 64)
  else s.modCur fun sl => (f ((sl.raise x).consume rm draws)).advance

end Sys2Proof.Machine
end

