-- ==== Sys2Proof/Machine/Operands.lean ====
section
/-!
DEFINITION. Operand forms: immediates with and without an EXT (R136), memory and branch operands (R222, R230),
register groups (R152), vector lanes and masks (R282, R283), element types (R143, R144), and the shapes that
instructions of the needle core share.
-/
namespace Sys2Proof.Machine

/-! ### Immediates and addresses (R136, R148) -/

/-- An immediate, widened by the EXT payload above it and sign-extended (R136). -/
def Slot.immS (sl : Slot) {n : Nat} (x : BitVec n) : Word :=
  match sl.ext with
  | some p => (p ++ x).signExtend 64
  | none => x.signExtend 64

/-- An immediate, widened by the EXT payload above it and zero-extended (R136). -/
def Slot.immZ (sl : Slot) {n : Nat} (x : BitVec n) : Word :=
  match sl.ext with
  | some p => (p ++ x).zeroExtend 64
  | none => x.zeroExtend 64

/-- The address of an M-format operand: s[base] + sext(off10) × size (R230). -/
def Slot.addr (sl : Slot) (b : BitVec 5) (x : BitVec 10) (size : Nat) : Word :=
  sl.sreg b + sl.immS x * BitVec.ofNat 64 size

/-- The target of a B-format operand: the word's own address plus 4 × sext(off21) (R222). -/
def Slot.branchTo (sl : Slot) (o : BitVec 21) : Word := sl.pc + sl.immS o * 4

/-- Bytes of a size code (R139). -/
def sizeBytes (s : BitVec 3) : Nat := 2 ^ s.toNat

/-- The group of `n` registers from s[d]; numbers wrap within the 32 registers. -/
def regGroup (d : BitVec 5) (n : Nat) : List (BitVec 5) := (List.range n).map fun i => d + BitVec.ofNat 5 i

/-- Registers a load or store of `size` bytes names (R152): one, two for .Q, four for .O. -/
def sizeRegs (d : BitVec 5) (size : Nat) : List (BitVec 5) := regGroup d ((size + 7) / 8)

/-- The bytes that a store of `size` bytes takes from the group of s[d] (R230). -/
def Slot.storeBytes (sl : Slot) (d : BitVec 5) (size : Nat) : List Byte :=
  ((sizeRegs d size).flatMap fun r => natBytes 8 (sl.sreg r).toNat).take size

/-- The global register that a 3-bit vector field names (R155). -/
def global (c : BitVec 3) : BitVec 5 := c.zeroExtend 5

/-- The 128-bit value of a register pair, or of one register (R311). -/
def Slot.wide (sl : Slot) (r : BitVec 5) (w : BitVec 1) : BitVec 128 :=
  if w = 0 then (sl.sreg r).zeroExtend 128 else sl.sreg (r + 1) ++ sl.sreg r

/-! ### Lanes and masks (R143, R282, R283) -/

/-- Lane width in bits of an integer width code (R143). -/
def laneBits (w : BitVec 3) : Nat := 4 * 2 ^ w.toNat

/-- Lane `k` of `w` bits. -/
def lane (w : Nat) (x : BitVec 4096) (k : Nat) : Nat := x.toNat / 2 ^ (w * k) % 2 ^ w

/-- The number whose lanes 0 to n − 1 of `w` bits are `f`. -/
def lanesNat (w : Nat) (f : Nat → Nat) : Nat → Nat
  | 0 => 0
  | n + 1 => lanesNat w f n + f n % 2 ^ w * 2 ^ (w * n)

/-- The register whose lanes 0 to n − 1 are `f`, with zeros above. -/
def ofLanes (w n : Nat) (f : Nat → Nat) : BitVec 4096 := BitVec.ofNat 4096 (lanesNat w f n)

/-- A lane is active (R283). -/
def Slot.active (sl : Slot) (m : BitVec 2) (k : Nat) : Bool := (sl.mreg m).getLsbD k

/-- The destination of a masked vector operation (R283): new lanes where active, else kept or zeroed. -/
def Slot.merged (sl : Slot) (w : Nat) (d : BitVec 3) (m : BitVec 2) (z : BitVec 1) (f : Nat → Nat) : BitVec 4096 :=
  ofLanes w (4096 / w) fun k =>
    if sl.active m k then f k else if z = 1 then 0 else lane w (sl.vreg d) k

/-- The mask a compare writes (R287): active bits from `f`, inactive ones kept or cleared, zeros from `n` up. -/
def Slot.mergedMask (sl : Slot) (n : Nat) (d : BitVec 2) (m : BitVec 2) (z : BitVec 1) (f : Nat → Bool) : BitVec 1024 :=
  BitVec.ofNat 1024 (lanesNat 1 (fun k =>
    bit (if sl.active m k then f k else if z = 1 then false else (sl.mreg d).getLsbD k)) n)

/-- The active lanes below `n`, in ascending order. -/
def Slot.activeLanes (sl : Slot) (m : BitVec 2) (n : Nat) : List Nat := (List.range n).filter (sl.active m)

/-! ### Float types (R143, R150) -/

/-- The 2-bit scalar type (R143). -/
def scalarFmt (t : BitVec 2) : FFmt :=
  match t.toNat with
  | 0 => f64
  | 1 => f32
  | 2 => f16
  | _ => bf16

/-- The V-format type code (R143). -/
def vectorFmt (t : BitVec 3) : FFmt :=
  match t.toNat with
  | 2 => f16
  | 3 => f32
  | 4 => f64
  | _ => bf16

/-! ### Shapes shared by instructions -/

/-- An instruction that acts on its slot alone: it waits for the registers it names (R209), then takes effect and goes
on to the next word (R228). -/
def State.onSlot (s : State) (rs : List (BitVec 5)) (f : Slot → Slot) : State :=
  if s.cur.pendsOn rs then s else s.modCur fun sl => (f sl).advance

/-- sD ← f(sA, sB) (R212). -/
def State.alu (s : State) (d a b : BitVec 5) (f : Word → Word → Word) : State :=
  s.onSlot [d, a, b] fun sl => sl.setSreg d (f (sl.sreg a) (sl.sreg b))

/-- sD ← f(sA, immediate) (R213). -/
def State.aluImm (s : State) (d a : BitVec 5) (imm : Slot → Word) (f : Word → Word → Word) : State :=
  s.onSlot [d, a] fun sl => sl.setSreg d (f (sl.sreg a) (imm sl))

/-- A vector operation without flags (R286): lane k of vD from lanes of va and vb and from the slot. -/
def State.lanes (s : State) (w : BitVec 3) (d : BitVec 3) (m : BitVec 2) (z : BitVec 1)
    (f : Slot → Nat → Nat) : State :=
  s.onSlot [] fun sl => sl.setVreg d (sl.merged (laneBits w) d m z (f sl))

/-- A lane-by-lane operation of two registers (R286). -/
def State.lanes2 (s : State) (w : BitVec 3) (d a b : BitVec 3) (m : BitVec 2) (z : BitVec 1)
    (f : Nat → Nat → Nat → Nat) : State :=
  s.lanes w d m z fun sl k => f (laneBits w) (lane (laneBits w) (sl.vreg a) k) (lane (laneBits w) (sl.vreg b) k)

end Sys2Proof.Machine
end

