-- ==== Sys2Proof/Machine/Routes.lean ====
section
/-!
DEFINITION. Routes between logical tiles (R24, R30-R32): logical neighbours, physical hops, route entries, the logical and
physical links that traffic takes, and whether all of them are open.
-/
namespace Sys2Proof.Machine

/-! ### Physical hops (R17, R30) -/

/-- The physical tile one hop away; none where the wafer ends. -/
def physNext (p d : Nat) : Option Nat :=
  match d with
  | 0 => if p % 140 < 139 then some (p + 1) else none
  | 1 => if p / 140 < 191 then some (p + 140) else none
  | 2 => if 0 < p % 140 then some (p - 1) else none
  | _ => if 0 < p / 140 then some (p - 140) else none

/-- The route entry of a register for a direction (R30). -/
def entryOf (w : Word) (d : Nat) : Nat := w.toNat / 2 ^ (16 * d) % 2 ^ 16

/-- An entry names a route. -/
def entryValid (e : Nat) : Bool := decide (e / 2 ^ 15 = 1)

/-- The hops of a route entry, in order. -/
def entryHops (e : Nat) : List (BitVec 2) :=
  (List.range (e / 2 ^ 13 % 4 + 1)).map fun k => BitVec.ofNat 2 (e / 2 ^ (5 + 2 * k))

/-- The physical tile at the end of hops; none where they leave the wafer. -/
def walkHops : Nat → List (BitVec 2) → Option Nat
  | p, [] => some p
  | p, h :: r => (physNext p h.toNat).bind fun q => walkHops q r

/-- The physical links that hops take, as near tile and direction. -/
def hopLinks : Nat → List (BitVec 2) → List (Nat × Nat)
  | _, [] => []
  | p, h :: r => (p, h.toNat) :: match physNext p h.toNat with
    | some q => hopLinks q r
    | none => []

/-- The route register of a mesh. -/
def Phys.drt (P : Phys) (data : Bool) : Word := if data then P.drtd else P.drts

/-- The measure register of a mesh. -/
def Phys.meas (P : Phys) (data : Bool) : BitVec 32 := if data then P.measd else P.meass

/-- The number of a physical link of a mesh at its near end. -/
def linkKey (d : Nat) (data : Bool) : Nat := d + 4 * bit data

/-- The opposite of a hop direction. -/
def opposite (d : Nat) : Nat := (d + 2) % 4

/-! ### Logical links (R24, R30, R31) -/

/-- The logical neighbour of a tile in a hop direction (R30). -/
def neighbour (t d : Nat) : Nat :=
  match d with
  | 0 => t + 1
  | 1 => t + 136
  | 2 => t - 1
  | _ => t - 136

/-- The direction of the next logical hop: along x, then along y (R24). -/
def nextDir (t u : Nat) : Option Nat :=
  if tileX t < tileX u then some 0
  else if tileX u < tileX t then some 2
  else if tileY t < tileY u then some 1
  else if tileY u < tileY t then some 3
  else none

/-- The logical links from one tile to another, in order, as near tile and direction; `n` bounds their number. -/
def logicalLinks : Nat → Nat → Nat → List (Nat × Nat)
  | 0, _, _ => []
  | n + 1, t, u => match nextDir t u with
    | none => []
    | some d => (t, d) :: logicalLinks n (neighbour t d) u

/-- The logical links of the route between two tiles: at most 135 + 187 (R24). -/
def routeLinks (t u : Nat) : List (Nat × Nat) := logicalLinks 322 t u

/-- The physical links behind a logical link of a mesh, under its route entry. -/
def State.linkHops (s : State) (t d : Nat) (data : Bool) : List (Nat × Nat) :=
  hopLinks (s.physOf t) (entryHops (entryOf ((s.silicon t).drt data) d))

/-- A commit is changing the route entry of a logical link of a tile: the router holds new traffic for the link until the
entry is in force (R31, R35). -/
def State.draining (s : State) (t d : Nat) (data : Bool) : Bool :=
  s.plan.any fun p => p.due.any fun c => c.tile == t && c.dir == d && c.data == data

/-- A failed physical link lies behind a logical link (R32). -/
def State.linkFailed (s : State) (t d : Nat) (data : Bool) : Bool :=
  (s.linkHops t d data).any fun x => (s.phy x.1).badLinks.contains (linkKey x.2 data)

/-- A failed physical link lies on the route from one tile to another (R32). -/
def State.routeFailed (s : State) (t u : Nat) (data : Bool) : Bool :=
  (routeLinks t u).any fun x => s.linkFailed x.1 x.2 data

/-- Nothing on the route from one tile to another holds traffic: every logical link has its entry, no drain marker is on its
way over one, and no physical link has failed (R24, R31, R32). -/
def State.routeOpen (s : State) (t u : Nat) (data : Bool) : Bool :=
  (routeLinks t u).all fun x =>
    entryValid (entryOf ((s.silicon x.1).drt data) x.2) && !s.draining x.1 x.2 data && !s.linkFailed x.1 x.2 data

end Sys2Proof.Machine
end

