-- ==== Sys2Proof/Machine/Translate.lean ====
section
/-!
DEFINITION. Physical addresses (R323, R324), the page walk with its caches (R351-R358), the checks of a needle
access (R231), invalidation of cached translations (R359, R364) and ASID generations (R365).
-/
namespace Sys2Proof.Machine

/-! ### Regions (R323) -/

/-- The node that serves an address: a tile's local store with the offset, a spool, a host port, a peer wafer, or a
control register. The last number is the location (R324). -/
inductive Place where
  | store (t off : Nat)
  | spool (loc : Nat)
  | host (port loc : Nat)
  | peer (wid loc : Nat)
  | control (pa : Nat)
  deriving DecidableEq, Repr

/-- The location of a place (R324). -/
def Place.loc (p : Place) : Nat :=
  match p with
  | .store t off => localLoc t off
  | .spool l => l
  | .host _ l => l
  | .peer _ l => l
  | .control l => l

/-- The region-0x01 layout of the low 36 bits (R323). -/
def storePlace (v : Nat) : Option Place :=
  let x := v / 2 ^ 20 % 256
  let y := v / 2 ^ 28 % 256
  if x ≤ 135 ∧ y ≤ 187 then some (.store (tileKey x y) (v % 2 ^ 20)) else none

/-- Offset `o` of spool `n` (R323). -/
def spoolPlace (n o : Nat) : Option Place :=
  if n < 48 ∧ o < 0x6000000000 then some (.spool (0x10 * 2 ^ 56 + n * 2 ^ 53 + o)) else none

/-- Where a physical address lies for an access of tile `t`; nothing where it breaks its region's layout (R323). -/
def State.place (s : State) (t pa : Nat) : Option Place :=
  let top := pa / 2 ^ 56 % 256
  if top = 0 then (if pa / 2 ^ 20 % 2 ^ 36 = 0 then some (.store t (pa % 2 ^ 20)) else none)
  else if top = 1 then (if pa / 2 ^ 36 % 2 ^ 20 = 0 then storePlace (pa % 2 ^ 36) else none)
  else if 0x10 ≤ top ∧ top ≤ 0x17 then
    (if pa / 2 ^ 39 % 2 ^ 14 = 0 then spoolPlace (pa / 2 ^ 53 % 64) (pa % 2 ^ 39) else none)
  else if top = 0x20 then
    let port := pa / 2 ^ 52 % 8
    let off := pa % 2 ^ 52
    if pa / 2 ^ 55 % 2 = 0 ∧ off < (s.mgmt.winSize.get 0 port).toNat then
      some (.host port (hostLoc ((s.mgmt.winBase.get 0 port).toNat + off)))
    else none
  else if 0x40 ≤ top ∧ top ≤ 0x7F then
    let wid := pa / 2 ^ 54 % 256
    let kind := pa / 2 ^ 52 % 4
    let form := if kind = 0 then (if pa / 2 ^ 36 % 2 ^ 16 = 0 then storePlace (pa % 2 ^ 36) else none)
      else if kind = 1 then
        (if pa / 2 ^ 51 % 2 = 0 ∧ pa / 2 ^ 39 % 64 = 0 then spoolPlace (pa / 2 ^ 45 % 64) (pa % 2 ^ 39) else none)
      else none
    if wid = s.mgmt.wid.toNat then form else form.map fun _ => .peer wid pa
  else if top = 0xF0 then
    let x := pa / 2 ^ 20 % 256
    let y := pa / 2 ^ 28 % 256
    if pa / 2 ^ 41 % 2 ^ 15 = 0 ∧ pa / 2 ^ 36 % 16 = 0 ∧
        (if pa / 2 ^ 40 % 2 = 0 then x ≤ 135 ∧ y ≤ 187 else x ≤ 139 ∧ y ≤ 191) then some (.control pa)
    else none
  else none

/-- A wafer is reachable (R368): itself always, another as its reach bit says. -/
def State.reaches (s : State) (wid : Nat) : Bool := decide (wid = s.mgmt.wid.toNat) || s.reach.getLsbD wid

/-- A place on a wafer that is out of reach (R368). -/
def State.unreached (s : State) (p : Place) : Bool :=
  match p with
  | .peer wid _ => !s.reaches wid
  | _ => false

/-! ### The walk (R351-R355) -/

/-- Bytes that an entry at a level covers (R351). -/
def levelSize (l : Nat) : Nat :=
  match l with
  | 0 => 2 ^ 16
  | 1 => 2 ^ 21
  | 2 => 2 ^ 30
  | _ => 2 ^ 39

/-- The index of a virtual address at a level (R351). -/
def levelIndex (l va : Nat) : Nat := va % 2 ^ 48 / levelSize l % (if l = 0 then 32 else 512)

/-- A virtual address is canonical (R351). -/
def canonical (va : Word) : Bool := decide (get va 63 47 = 0 ∨ get va 63 47 = 2 ^ 17 - 1)

/-- Leaf attribute bits (R352). -/
def leafR (e : Word) : Bool := e.getLsbD 2
def leafW (e : Word) : Bool := e.getLsbD 3
def leafX (e : Word) : Bool := e.getLsbD 4
def leafU (e : Word) : Bool := e.getLsbD 5
def leafFE (e : Word) : Bool := e.getLsbD 6

/-- permitted(e, kind, mode) (R355). -/
def permitted (e : Word) (kind : AccKind) (user : Bool) : Bool :=
  (!user || leafU e) &&
    match kind with
    | .load => leafR e
    | .store => leafW e
    | .amo => leafR e && leafW e
    | .ldf => leafR e && leafW e
    | .stf => leafW e
    | .ste => leafW e
    | .fetch => leafX e

/-- A table lies where R353 lets it: region 0x01 or spool. -/
def tablePlace (s : State) (t : Nat) : Option Nat :=
  let top := t / 2 ^ 56 % 256
  if top = 1 ∨ (0x10 ≤ top ∧ top ≤ 0x15) then (s.place 0 t).map Place.loc else none

/-! ### Outstanding accesses, and the ports of peer traffic (R325, R433, R442, R443) -/

/-- One access of an outstanding entry: its location and length, its address, and whether its page is full-empty. -/
structure Piece where
  loc : Nat
  n : Nat
  va : Word
  fe : Bool
  deriving DecidableEq, Repr

/-- The accesses of an outstanding entry: one, or one for each lane that is not performed (R325). -/
def Pend.pieces (p : Pend) : List Piece :=
  match p.kind with
  | .load n _ => [⟨p.loc, n, p.va, p.fe⟩]
  | .ldf => [⟨p.loc, 8, p.va, p.fe⟩]
  | .stf _ => [⟨p.loc, 8, p.va, p.fe⟩]
  | .amo _ n _ _ => [⟨p.loc, n, p.va, p.fe⟩]
  | .vec _ w _ l _ => l.map fun e => ⟨e.loc, (w + 7) / 8, e.va, e.fe⟩
  | .result => []

/-- The bytes that an outstanding entry covers, as location and length. -/
def Pend.spans (p : Pend) : List (Nat × Nat) := p.pieces.map fun x => (x.loc, x.n)

/-- The bytes of them that lie on full-empty pages (R232, R356). -/
def Pend.feSpans (p : Pend) : List (Nat × Nat) := (p.pieces.filter fun x => x.fe).map fun x => (x.loc, x.n)

/-- The home tile of a link port (R433). -/
def portHome (n : Nat) : Nat :=
  let k := n % 20
  match n / 20 with
  | 0 => tileKey (7 * k) 0
  | 1 => tileKey (7 * k) 187
  | 2 => tileKey 0 (9 * k + 4)
  | _ => tileKey 135 (9 * k + 4)

/-- The wafer that a location of a peer region lies on. -/
def peerOf (loc : Nat) : Option Nat :=
  if 0x40 ≤ loc / 2 ^ 56 ∧ loc / 2 ^ 56 ≤ 0x7F then some (loc / 2 ^ 54 % 256) else none

/-- The ports that traffic for a wafer may leave by: those up in the groups of its WROUTE, ascending. -/
def State.peerPorts (s : State) (w : Nat) : List Nat :=
  let r := s.wroute.get 0 w
  if r.getLsbD 63 then
    (List.range 80).filter fun n => decide ((s.port n).state = 2) && r.getLsbD (4 * (n / 20) + n % 20 / 5)
  else []

/-- The port by which tile `t`'s access to a peer location leaves the wafer (R442): nothing for a location of this wafer or where no port
of the wafer's route is up. A source is its wafer's identifier times 2^16 and its tile. -/
def State.leavePort (s : State) (t loc : Nat) : Option Nat :=
  match peerOf loc with
  | none => none
  | some w => (s.peerPorts w)[Config.peerHash (s.mgmt.wid.toNat * 2 ^ 16 + t) loc % (s.peerPorts w).length]?

/-- Traffic to wafer `w` that began before number `n` and is not acknowledged (R443). -/
def State.oldPeer (s : State) (w n : Nat) : Bool :=
  let there := fun (loc : Nat) => peerOf loc == some w
  s.tiles.any (fun e =>
    e.2.slots.toList.any (fun sl => sl.pend.any fun p => !p.fe && decide (p.id < n) && p.spans.any fun x => there x.1)
      || e.2.stores.any (fun x => decide (x.id < n) && there x.loc)
      || e.2.fabric.ops.any fun o => decide (o.id < n) && o.got.isNone && !o.refused && there o.loc)
    || s.flights.any fun f => decide (f.id < n) && match f.msg with
      | .peer w' _ => w'.toNat == w
      | _ => false

/-- Access number `id` to a peer location began after the ports of its wafer's route last changed, and is held until what began before
has been acknowledged (R443). -/
def State.routeHeld (s : State) (id loc : Nat) : Bool :=
  match peerOf loc with
  | none => false
  | some w => (s.rerouted.find? fun e => e.1 == w).any fun e => decide (e.2 ≤ id) && s.oldPeer w e.2

/-! ### The way to an owner (R24, R31, R32, R39) -/

/-- The tile whose local store holds a location, if one does. -/
def storeTile (loc : Nat) : Option (Nat × Nat) :=
  if loc / 2 ^ 56 = 1 then some (tileKey (loc / 2 ^ 20 % 256) (loc / 2 ^ 28 % 256), loc % 2 ^ 20) else none

/-- The local store of the tile that holds a location is being re-woven (R39). -/
def State.reweavingAt (s : State) (loc : Nat) : Bool :=
  match storeTile loc with
  | some (t, _) => (s.tile t).reweaving
  | none => false

/-- Nothing on the way from a tile to the owner of a location, or to the port that a peer access leaves by, holds a request (R24, R31,
R32, R39, R442). -/
def State.pathOpen (s : State) (t loc : Nat) : Bool :=
  !s.reweavingAt loc && match storeTile loc, s.leavePort t loc with
    | some (u, _), _ => s.routeOpen t u true
    | none, some n => s.routeOpen t (portHome n) true
    | none, none => true

/-- A failed link lies on the way from a tile to the owner of a location (R32); on the way to memory beyond the local stores it
may be any failed link of the data mesh (log 11). -/
def State.pathFailed (s : State) (t loc : Nat) : Bool :=
  match storeTile loc, s.leavePort t loc with
  | some (u, _), _ => s.routeFailed t u true
  | none, some n => s.routeFailed t (portHome n) true
  | none, none => s.phys.any fun e => e.2.badLinks.any fun b => decide (4 ≤ b)

/-- What a walk yields: a leaf and its level with the entries it read, a fault kind of R353, or the location of a table entry whose
read is held on its way (R31, R32, R39). -/
inductive Walk where
  | held (loc : Nat)
  | leaf (e : Word) (level : Nat) (read : List WalkEnt)
  | fault (kind : Nat)
  deriving DecidableEq, Repr

/-- The levels of a walk from table `t`, with a panel's cached entries read first (R353, R357). -/
def walkFrom (s : State) (from_ : Option Nat) (cache : List WalkEnt) (a : BitVec 12) (g : BitVec 4) (va : Word) :
    List Nat → Nat → List WalkEnt → Walk
  | [], _, _ => .fault 3
  | l :: ls, t, acc =>
    let page := va.toNat / levelSize l
    let hit := cache.find? fun e => e.asid == a && e.gen == g && e.level == l && e.page == page
    let at_ := if hit.isSome then none else (tablePlace s t).map fun loc => loc + 8 * levelIndex l va.toNat
    match (at_.filter fun loc => from_.any fun u => !s.pathOpen u loc), (hit.map WalkEnt.entry).orElse fun _ => at_.map s.read64 with
    | some loc, _ => .held loc
    | none, none => .fault 3
    | none, some e =>
      let acc' := acc ++ [⟨a, g, l, page, e⟩]
      if !e.getLsbD 0 then .fault 2
      else if !e.getLsbD 1 then
        (if l = 0 ∨ get e 11 2 ≠ 0 then .fault 3 else walkFrom s from_ cache a g va ls (get e 63 12 * 4096) acc')
      else if l = 3 ∨ get e 15 7 ≠ 0 ∨ (l = 1 ∧ get e 20 16 ≠ 0) ∨ (l = 2 ∧ get e 29 16 ≠ 0) then .fault 3
      else if leafFE e && (get e 63 56 == 0x20 || get e 63 56 == 0xF0) then .fault 3
      else .leaf e l acc'

/-- The walk of R353 up to its leaf, for a canonical address and a valid, current ASID. The reads of the walk that a tile `from_` makes
are held on their way like other requests (R31, R32, R39). -/
def State.walk (s : State) (from_ : Option Nat) (panel : Nat) (a : BitVec 12) (g : BitVec 4) (va : Word) : Walk :=
  let A := s.asid a
  if !canonical va then .fault 1
  else if !A.v || g != A.gen then .fault 6
  else walkFrom s from_ (s.panel panel).walk a g va [3, 2, 1, 0] (A.root.toNat * 4096) []

/-- A walk of unit `u` of a tile for an address: one in progress goes on from the level it has come to (R358). -/
def State.walkOf (s : State) (t u : Nat) (a : BitVec 12) (g : BitVec 4) (va : Word) : Walk :=
  match s.walkers.find? fun w => w.tile == t && w.unit == u && w.asid == a && w.gen == g && w.va == va with
  | none => s.walk (some t) (s.panelOf t) a g va
  | some w =>
    match w.fault with
    | some k => .fault k
    | none => walkFrom s (some t) (s.panel (s.panelOf t)).walk a g va w.levels w.table w.read

/-- The walk of a unit of a tile is over. -/
def State.walkEnd (s : State) (t u : Nat) : State :=
  { s with walkers := s.walkers.filter fun w => !(w.tile == t && w.unit == u) }

/-- A walk reads its next level (R353, R358): what it has come to, or none once it has its leaf. -/
def State.walkStep (s : State) (w : Walker) : Option Walker :=
  match w.levels with
  | [] => some { w with fault := some 3 }
  | l :: ls =>
    match walkFrom s (some w.tile) (s.panel (s.panelOf w.tile)).walk w.asid w.gen w.va [l] w.table w.read with
    | .leaf _ _ _ => none
    | .held _ => none
    | .fault k =>
      let page := w.va.toNat / levelSize l
      let hit := (s.panel (s.panelOf w.tile)).walk.find? fun e =>
        e.asid == w.asid && e.gen == w.gen && e.level == l && e.page == page
      match (match hit with
        | some e => some e.entry
        | none => (tablePlace s w.table).map fun loc => s.read64 (loc + 8 * levelIndex l w.va.toNat)) with
      | some e =>
        if e.getLsbD 0 && !e.getLsbD 1 && decide (l ≠ 0 ∧ get e 11 2 = 0) then
          some { w with levels := ls, table := get e 63 12 * 4096, read := w.read ++ [⟨w.asid, w.gen, l, page, e⟩] }
        else some { w with fault := some k }
      | none => some { w with fault := some k }

/-- A unit of a tile begins a walk for an address, or a walk of its goes on by one level; a walk that has its leaf stays before
it, for the access to end it, and one whose read is held stays where it is. -/
def State.walkOn (s : State) (t u : Nat) (a : BitVec 12) (g : BitVec 4) (va : Word) : State :=
  let mine := fun (w : Walker) => w.tile == t && w.unit == u && w.asid == a && w.gen == g && w.va == va
  match s.walkers.find? mine with
  | none =>
    let A := s.asid a
    if !canonical va || !A.v || g != A.gen then s
    else
      let s1 := s.walkEnd t u
      { s1 with walkers := s1.walkers ++ [⟨t, u, a, g, va, [3, 2, 1, 0], A.root.toNat * 4096, [], none⟩] }
  | some w =>
    match w.fault, s.walkStep w with
    | none, some w1 => { s with walkers := s.walkers.map fun x => if mine x then w1 else x }
    | _, _ => s

/-- The physical address of a virtual address under a leaf (R353). -/
def leafPa (e : Word) (level : Nat) (va : Word) : Nat := get e 63 16 * 65536 + va.toNat % levelSize level

/-- A full-empty instruction (R308). -/
def AccKind.fullEmpty (k : AccKind) : Bool :=
  match k with
  | .ldf | .stf | .ste => true
  | _ => false

/-- The end of a translation: permission, the full-empty attribute where the instruction needs it, the region. `pa` is
the physical address itself. A needle's walk may also be held on its way, or lost there to the path error (R32). -/
inductive Tr where
  | ok (p : Place) (fe : Bool) (pa : Nat)
  | fault (kind : Nat)
  | held
  | lost
  deriving DecidableEq, Repr

/-- Permission and region of a leaf (R353, R355, R323). -/
def State.leafUse (s : State) (t : Nat) (e : Word) (level : Nat) (kind : AccKind) (user : Bool) (va : Word) : Tr :=
  if !permitted e kind user then .fault 4
  else if kind.fullEmpty && !leafFE e then .fault 5
  else
    match s.place t (leafPa e level va) with
    | some p => .ok p (leafFE e) (leafPa e level va)
    | none => .fault 3

/-- A translation without a TLB, as generators, copies and the management plane make it (R360, R505). -/
def State.translate (s : State) (t : Nat) (a : BitVec 12) (g : BitVec 4) (kind : AccKind) (user : Bool)
    (va : Word) : Tr :=
  match s.walk none (s.panelOf t) a g va with
  | .held _ => .held
  | .fault k => .fault k
  | .leaf e l _ => s.leafUse t e l kind user va

/-! ### The TLB (R357, R358, R365) -/

/-- A TLB entry matches: ASID, generation and page (R357). -/
def TlbEnt.hits (e : TlbEnt) (a : BitVec 12) (g : BitVec 4) (va : Word) : Bool :=
  e.asid == a && e.gen == g && e.page == va.toNat / levelSize e.level

/-- Put a translation into a TLB of 64 entries; the oldest gives way (log 16). -/
def tlbPut (l : List TlbEnt) (e : TlbEnt) : List TlbEnt := (if l.length < 64 then l else l.drop 1) ++ [e]

/-- Put walked entries into a panel's walk cache of 2,048 entries; the oldest give way (log 16). -/
def walkPut (l new : List WalkEnt) : List WalkEnt :=
  let m := l ++ new.filter fun e => !l.contains e
  m.drop (m.length - 2048)

/-- The caches after a walk that found a leaf (R357). -/
def State.cacheWalk (s : State) (t : Nat) (a : BitVec 12) (g : BitVec 4) (va : Word) (e : Word) (l : Nat)
    (read : List WalkEnt) : State :=
  (s.modPanel (s.panelOf t) fun p => { p with walk := walkPut p.walk read }).modTile t fun T =>
    { T with tlb := tlbPut T.tlb ⟨a, g, l, va.toNat / levelSize l, e⟩ }

/-- Of the locations that a slot reads with its instruction, one whose way from its tile is not open: the read is held, or, once the
router that held it has answered it with the path error, lost (R31, R32). Nothing where every way is open. -/
def State.holdRead (s : State) (t k : Nat) (locs : List Nat) : Option (State × Bool) :=
  let sl := s.slot t k
  if sl.cut && locs.any fun l => sl.held == some l then
    some (s.modSlot t k fun sl => { sl with cut := false, held := none }, true)
  else (locs.find? fun l => !s.pathOpen t l || s.routeHeld s.seq l).map fun l => (s.modSlot t k fun sl => { sl with held := some l, cut := false }, false)

/-- A needle translation (R353, R357): the TLB first, then a walk that fills it. The generation is checked on every
access (R365); V only by a walk (R354). -/
def State.needleTr (s : State) (t k : Nat) (kind : AccKind) (va : Word) : State × Tr :=
  let sl := s.slot t k
  let user := decide (sl.mode = Mode.user)
  if !canonical va then (s, .fault 1)
  else if sl.gen ≠ (s.asid sl.asid).gen then (s, .fault 6)
  else
    match (s.tile t).tlb.find? fun e => e.hits sl.asid sl.gen va with
    | some e => (s, s.leafUse t e.leaf e.level kind user va)
    | none =>
      match s.walkOf t k sl.asid sl.gen va with
      | .held loc =>
        match s.holdRead t k [loc] with
        | some (s1, true) => (s1.walkEnd t k, .lost)
        | some (s1, false) => (s1, .held)
        | none => (s, .held)
      | .fault f => (s.walkEnd t k, .fault f)
      | .leaf e l read => ((s.walkEnd t k).cacheWalk t sl.asid sl.gen va e l read, s.leafUse t e l kind user va)

/-! ### The checks of a needle access (R231) -/

/-- What the checks of a needle access end in. -/
inductive Acc where
  | ok (s : State) (p : Place) (fe : Bool)
  | trap (s : State) (cause sub : Nat) (val : Word)
  | wait (s : State)
  deriving DecidableEq, Repr

/-- EALIGN, EPAGE, ELSIZE and EPEER in order (R231), EPAGE for a region that the instruction may not name (R311,
R423, R424), and EPRIV for control space in user mode (R28). A walk that is held on its way stalls the instruction; one that its
router has answered with the path error ends in EPATH (R31, R32). -/
def State.checkIn (s : State) (t k : Nat) (i : Instr) (kind : AccKind) (allowed : Nat → Place → Bool) (va : Word)
    (align : Nat) : Acc :=
  if va.toNat % align ≠ 0 then .trap s 0x02 0 va
  else
    match s.needleTr t k kind va with
    | (s1, .held) => .wait s1
    | (s1, .lost) => .trap s1 0x0E 0 va
    | (s1, .fault f) => .trap s1 0x04 f va
    | (s1, .ok p fe pa) =>
      if !allowed pa p then .trap s1 0x04 Config.regionKind.toNat va
      else
        match p with
        | .store t' off => if t' = t ∧ s.lsize t ≤ off then .trap s1 0x05 0 va else .ok s1 p fe
        | .peer wid _ => if s.reaches wid then .ok s1 p fe else .trap s1 0x06 wid va
        | .control _ =>
          if (s.slot t k).mode = .user then .trap s1 0x03 0 ((s.slot t k).instrWord i) else .ok s1 p fe
        | _ => .ok s1 p fe

/-- The checks of an access that may name every region (R231). -/
def State.check (s : State) (t k : Nat) (i : Instr) (kind : AccKind) (va : Word) (align : Nat) : Acc :=
  s.checkIn t k i kind (fun _ _ => true) va align

/-- The owner refuses an access to its location: at or above its tile's LSIZE (R40). -/
def State.lsizeRefused (s : State) (loc : Nat) : Bool :=
  match storeTile loc with
  | some (t, off) => decide (s.lsize t ≤ off)
  | none => false

/-- An entry of the pending-store table of tile `t` covers one of `n` bytes from a location (R329). -/
def State.covered (s : State) (t loc n : Nat) : Bool :=
  (s.tile t).stores.any fun e => decide (loc < e.loc + e.bytes.length) && decide (e.loc < loc + n)

/-! ### Instruction fetch (R135, R315, R479) -/

/-- What a fetch of one word ends in: the word, a fault, or a wait. -/
inductive Fetch where
  | word (s : State) (w : Nat)
  | trap (s : State) (cause sub : Nat)
  | wait (s : State)
  deriving DecidableEq, Repr

/-- Fetch the instruction word at a virtual address: it waits for a store of the tile to the word and for what
holds it on its way, and a peer out of reach or a failed link refuses it (R31, R32, R39, R329, R368). A page of control space holds no code (EPAGE, log 12). -/
def State.fetch (s : State) (t k : Nat) (va : Word) : Fetch :=
  match s.needleTr t k .fetch va with
  | (s1, .held) => .wait s1
  | (s1, .lost) => .trap s1 0x0E 0
  | (s1, .fault f) => .trap s1 0x04 f
  | (s1, .ok p _ _) =>
    match p with
    | .control _ => .trap s1 0x04 Config.regionKind.toNat
    | _ =>
      if s1.lsizeRefused p.loc then .trap s1 0x05 0
      else if s1.unreached p then .trap s1 0x06 (p.loc / 2 ^ 54 % 256)
      else if s1.covered t p.loc 4 then .wait s1
      else
        match s1.holdRead t k [p.loc] with
        | some (s2, true) => .trap s2 0x0E 0
        | some (s2, false) => .wait s2
        | none =>
          if s1.marked p.loc 4 then .trap s1 0x0D 0
          else .word s1 (s1.readNat p.loc 4)

/-! ### Invalidation and generations (R359, R364, R365) -/

/-- What an invalidation names: every ASID, one ASID, or the page of one address (R359). -/
inductive InvKind where
  | all
  | asid (a : BitVec 12)
  | page (a : BitVec 12) (va : Word)
  deriving DecidableEq, Repr

/-- A cached entry of an ASID, level and page matches an invalidation. -/
def InvKind.hits (i : InvKind) (a : BitVec 12) (level page : Nat) : Bool :=
  match i with
  | .all => true
  | .asid b => a == b
  | .page b va => a == b && page == va.toNat / levelSize level

/-- An extent matches an invalidation: its ASID, and for a page a range that holds the page's address (R364). -/
def InvKind.hitsExtent (i : InvKind) (e : Extent) : Bool :=
  match i with
  | .all => true
  | .asid b => e.asid == b
  | .page b va =>
    e.asid == b && decide (e.vbase ≤ va.toNat / 65536) && decide (va.toNat / 65536 ≤ e.vbase + e.npages)

/-- Positions in one run of a box. -/
def Box.per (b : Box) : Nat := b.run / 8

/-- Positions of a box. -/
def Box.size (b : Box) : Nat := b.per * b.rows * b.planes * b.cubes

/-- The address of position `n` in box order (R272). -/
def Box.addr (b : Box) (n : Nat) : Word :=
  let a := n % b.per
  let r := n / b.per % b.rows
  let p := n / b.per / b.rows % b.planes
  let c := n / b.per / b.rows / b.planes
  b.base + BitVec.ofNat 64 c * b.cpitch + BitVec.ofNat 64 p * b.ppitch + BitVec.ofNat 64 r * b.pitch
    + BitVec.ofNat 64 (8 * a)

/-- The address of a stream's next position. -/
def Stream.next (g : Stream) : Word := g.box.addr g.pos

/-- The address that an invalidation names, or the base of the first extent it affects: what the element path's GFVA shows while
the path is paused (log 11: the spec speaks of the access that paused it). -/
def InvKind.address (i : InvKind) (l : List Extent) : Word :=
  match i with
  | .page _ va => va
  | _ => BitVec.ofNat 64 (((l.find? i.hitsExtent).map Extent.vbase).getD 0 * 65536)

/-- A generator that an invalidation affects no longer uses the extents that it names; a running one takes REASON 101, with the
address `at_` in GFVA (R361, R364). -/
def Stream.pause (g : Stream) (i : InvKind) (at_ : Word) : Stream :=
  if g.ext.any i.hitsExtent then
    { g with
      ext := g.ext.map fun e => if i.hitsExtent e then { e with stale := true } else e
      reason := if g.reason.toNat < 2 then 5 else g.reason
      gfva := if g.reason = 0 then at_ else g.gfva }
  else g

/-- An invalidation reaches a tile: TLB entries drop and affected generators pause (R359, R364). -/
def Tile.invalidate (T : Tile) (i : InvKind) : Tile :=
  { T with
    tlb := T.tlb.filter fun e => !i.hits e.asid e.level e.page
    fabric := { T.fabric with
      path := T.fabric.path.pause i (i.address T.fabric.path.ext)
      streams := T.fabric.streams.map fun e => (e.1, e.2.pause i e.2.next) } }

/-- The tiles whose state differs from reset and that a scope holds: a panel's, or all (R328). -/
def State.tilesIn (s : State) (panel : Option Nat) : List Nat :=
  (s.tiles.map (·.1)).filter fun t => decide (t < tileCount) && match panel with
    | some p => s.panelOf t == p
    | none => true

/-- The walk caches of a scope drop what matches. -/
def State.dropWalks (s : State) (i : InvKind) (panel : Option Nat) : State :=
  { s with panels := s.panels.map fun e =>
      if panel.all (· == e.1) then
        (e.1, { e.2 with walk := e.2.walk.filter fun w => !i.hits w.asid w.level w.page })
      else e }

/-- LOW[a] ← GEN[a] for the ASIDs an invalidation of kind ASID or all names, at wafer scope (R365). -/
def State.raiseLow (s : State) (i : InvKind) : State :=
  match i with
  | .all => { s with asids := s.asids.map fun e => (e.1, { e.2 with low := e.2.gen }) }
  | .asid a => { s with asids := s.asids.put a.toNat { s.asid a with low := (s.asid a).gen } }
  | .page _ _ => s

/-- Walks in progress that an invalidation matches at their tile deliver nothing: the access walks again (R358). -/
def State.dropWalkers (s : State) (i : InvKind) (here : Nat → Bool) : State :=
  { s with walkers := s.walkers.filter fun w => !(here w.tile && match i with
      | .all => true
      | .asid a => w.asid == a
      | .page a va => w.asid == a && [0, 1, 2].any fun l => w.va.toNat / levelSize l == va.toNat / levelSize l) }

/-- Perform an invalidation at a scope: a panel, or the wafer (R359, R365). -/
def State.invalidate (s : State) (i : InvKind) (panel : Option Nat) : State :=
  let s0 := s.dropWalkers i fun t => panel.all fun p => s.panelOf t == p
  let s1 := (s0.tilesIn panel).foldl (fun a t => a.modTile t fun T => T.invalidate i) (s0.dropWalks i panel)
  if panel.isNone then s1.raiseLow i else s1

/-- ASID a is sweep-required (R365). -/
def State.sweepRequired (s : State) (a : BitVec 12) : Bool := (s.asid a).gen + 1 == (s.asid a).low

/-! ### Extents (R360-R362) -/

/-- The run of R360 that holds a virtual address: the leaf's page, as an extent of 64 KiB units. -/
def leafExtent (e : Word) (level : Nat) (a : BitVec 12) (g : BitVec 4) (va : Word) : Extent :=
  { vbase := va.toNat / levelSize level * levelSize level / 65536
    pbase := get e 63 16
    npages := levelSize level / 65536 - 1
    r := leafR e
    w := leafW e
    fe := leafFE e
    asid := a
    gen := g
    stale := false
    used := 0 }

/-- An extent covers a virtual address. -/
def Extent.covers (x : Extent) (va : Word) : Bool :=
  decide (x.vbase ≤ va.toNat / 65536) && decide (va.toNat / 65536 ≤ x.vbase + x.npages)

/-- The physical address under an extent. -/
def Extent.pa (x : Extent) (va : Word) : Nat := x.pbase * 65536 + (va.toNat - x.vbase * 65536)

/-- Two runs that lie behind each other in virtual and in physical memory, with the same attributes, are one, of at most 65,536
units (R360, R361). -/
def Extent.join (x y : Extent) : Option Extent :=
  let n := x.npages + y.npages + 1
  if x.vbase + x.npages + 1 = y.vbase ∧ x.pbase + x.npages + 1 = y.pbase ∧ x.r = y.r ∧ x.w = y.w ∧ x.fe = y.fe
      ∧ x.asid = y.asid ∧ x.gen = y.gen ∧ n < 65536 then some { x with npages := n }
  else none

/-- Put a run after a list of runs: joined to the last of them where it goes on from it or leads up to it. -/
def runAppend (l : List Extent) (x : Extent) : List Extent :=
  match l.getLast? with
  | none => [x]
  | some y =>
    match (y.join x).orElse fun _ => x.join y with
    | some z => l.dropLast ++ [z]
    | none => l ++ [x]

/-- The place in a generator's extents that a run takes in a list that is full: of an extent that is to be patched again, else of
the one furthest behind, or least recently used (R362). -/
def extentVictim (l : List Extent) : Nat :=
  match l.findIdx? fun e => e.stale with
  | some i => i
  | none => (l.zipIdx.foldl (fun (a : Nat × Nat) e => if e.1.used < a.1 then (e.1.used, e.2) else a)
      ((l.head?.map Extent.used).getD 0, 0)).2

/-- Put a run into a generator's extents of capacity `cap` (R362). -/
def extentPut (l : List Extent) (cap : Nat) (x : Extent) : List Extent :=
  if l.length < cap ∧ !(l.any fun e => e.stale) then l ++ [x] else l.set (extentVictim l) x

/-- The extent of a generator that an address goes through. -/
def extentFor (l : List Extent) (va : Word) : Option Extent := l.find? fun x => !x.stale && x.covers va

/-- The extents once the one that an address goes through is used at `now`. -/
def extentUsed (l : List Extent) (va : Word) (now : Nat) : List Extent :=
  l.map fun x => if !x.stale && x.covers va then { x with used := now } else x

/-- Extents that cover an address are to be patched again. -/
def extentRetry (l : List Extent) (va : Word) : List Extent := l.map fun x => if x.covers va then { x with stale := true } else x

end Sys2Proof.Machine
end

