-- ==== Sys2Proof/Machine/Ctl.lean ====
section
/-!
DEFINITION. Privileged control space (R28): what every register of a tile's control block reads as, and what a store
to it does. An offset that names no register reads as zero and ignores a store (R9, R28).
-/
namespace Sys2Proof.Machine

/-! ### Words of the registers -/

/-- BANKS (R37). -/
def banksWord (b : BitVec 16) : Word := put 0 16 b.toNat + put 16 5 (bankCount b)

/-- POCKA (R374). -/
def Pocket.wordA (p : Pocket) : Word :=
  let st := match p.state with
    | .unbound => 0
    | .idle => 1
    | .ready => 2
    | .away => 3
    | .freed => 4
  put 61 3 st + put 60 1 (bit p.sys) + put 55 5 p.owner + put 54 1 (bit p.two) + put 52 2 p.tag1.toNat
    + put 50 2 p.tag0.toNat + put 44 6 p.prio + put 36 8 p.depthM1 + put 27 9 p.store.length
    + put 15 12 p.ovf.length + put 14 1 (bit p.held)

/-- POCKA of the orphan pocket (R374, R385): NOVF counts the orphans in overflow entries, HELD says that the hold queue has
some. -/
def Router.orphanWord (r : Router) : Word :=
  (r.pocket 127).wordA + put 15 12 r.orphans.length + put 14 1 (bit (r.holdq.any fun h => h.orphan))

/-- The STATE code of an actor record (R373). -/
def ActorState.code (a : ActorState) : Nat :=
  match a with
  | .free => 0
  | .bound => 1
  | .running => 2
  | .away => 3
  | .exited => 4

/-- ACTA to ACTD by index (R372, R392). -/
def Actor.word (a : Actor) (i : Nat) : Word :=
  match i with
  | 0 => put 61 3 a.state.code + put 58 3 a.slot + put 48 10 a.inc.toNat + put 6 42 (get a.sbase 47 6)
  | 1 => put 6 26 (get a.ssize 31 6)
  | 2 => put 32 20 a.dqBase.toNat + put 0 5 a.dqLog.toNat
  | _ => put 16 16 a.tail.toNat + put 0 16 a.head.toNat

/-- A WRX register of receiver `n` (R77). Of a receiver that is off the spec gives LAMBDA, GROUP, EPOCH and NEXT no value: the
model's choice is 0 for LAMBDA and GROUP, with EPOCH and NEXT of the port's group 0 (log 4). -/
def Fabric.wrx (f : Fabric) (n : Nat) : Word :=
  let r := f.rings.get Ring.reset n
  let g := f.groups.get PortGroup.reset r.group
  put 62 2 r.st.toNat + put 58 4 r.lambda.toNat + put 48 10 r.group + put 47 1 (bit r.w2) + put 46 1 r.lane
    + put 38 8 g.e.toNat + put 0 32 g.n.toNat

/-- FOLDT of a fold slot (R92). -/
def FoldSlot.word (f : FoldSlot) : Word :=
  put 63 1 (bit f.v) + put 60 3 f.op.toNat + put 59 1 (bit f.idx) + put 54 5 f.ins.toNat + put 51 3 f.out.toNat
    + put 45 6 f.srcs.toNat + put 36 9 f.len + put 28 8 f.slice + put 27 1 (bit f.ovf)

/-- EXTA and EXTB of an extent (R361); V is 0 while the loader has it to patch again (log 11). -/
def Extent.wordA (x : Extent) : Word :=
  put 16 48 x.vbase + put 6 1 (bit x.fe) + put 3 1 (bit x.w) + put 2 1 (bit x.r) + put 0 1 (bit (!x.stale))
def Extent.wordB (x : Extent) : Word := put 16 48 x.pbase + put 0 16 x.npages

/-- GSTAT (R361). -/
def Stream.stat (g : Stream) : Word := put 61 3 g.reason.toNat + put 58 3 g.kind.toNat + put 0 40 g.pos

/-- Generator `n`: a copy stream, or 8 for the element path (R361). -/
def Fabric.gen (f : Fabric) (n : Nat) : Stream := if n = 8 then f.path else f.streams.get Stream.reset n

/-- The fabric with generator `n` changed. -/
def Fabric.modGen (f : Fabric) (n : Nat) (g : Stream → Stream) : Fabric :=
  if n = 8 then { f with path := g f.path } else { f with streams := f.streams.put n (g (f.gen n)) }

/-- A register half of an extent list; zero for an extent that is not valid. -/
def extentWord (l : List Extent) (j : Nat) (b : Bool) : Word :=
  match l[j]? with
  | some x => if b then x.wordB else x.wordA
  | none => 0

/-- ASIDS (R354). -/
def Asid.word (a : Asid) : Word :=
  put 12 52 a.root.toNat + put 8 1 (bit a.v) + put 4 4 a.low.toNat + put 0 4 a.gen.toNat

/-- A sender-table or refusal-table entry (R382). -/
def pairWord (p : Option (Nat × Nat)) : Word :=
  match p with
  | some (t, l) => put 63 1 1 + put 16 7 l + put 8 8 (tileY t) + put 0 8 (tileX t)
  | none => 0

/-- HQCFG (R376). -/
def Router.hqcfg (r : Router) : Word := put 37 1 (bit r.hqFull) + put 32 5 r.hqLog.toNat + put 0 32 (min r.holdq.length (2 ^ r.hqLog.toNat))

/-- A bucket register (R498). -/
def Bucket.word (b : Bucket) : Word := put 32 16 b.depth.toNat + put 0 16 b.rate.toNat

/-- Lanes in use of a direction of a port (R434). -/
def lanesUp (fence : BitVec 16) (st : BitVec 2) : Nat := if st = 2 then 16 - bankCount fence else 0

/-- LPSTAT (R434). -/
def Port.stat (p : Port) : Word :=
  put 32 32 p.lmgen.toNat + put 14 2 p.state.toNat + put 5 5 (lanesUp p.inFence p.state)
    + put 0 5 (lanesUp p.outFence p.state)

/-- LPFAR (R434). -/
def Port.far (p : Port) : Word := put 8 8 p.farWid.toNat + put 7 1 (bit p.farV) + put 0 7 p.farPort.toNat

/-- The port whose home is a tile, if one is (R433). -/
def portAt (t : Nat) : Option Nat := (List.range 80).find? fun n => portHome n == t

/-! ### Reading (R28) -/

/-- The tile whose registers silicon `p` shows: the logical one it holds, or its own. -/
def State.keyAt (s : State) (p : Nat) : Nat :=
  if 1 ≤ (s.phy p).state ∧ (s.phy p).state ≤ 3 then (s.phy p).logical else spareKey p

/-- The tile and the silicon that a control address selects: silicon without a logical tile answers for itself. -/
def State.block (s : State) (pa : Nat) : Nat × Nat :=
  let x := pa / 2 ^ 20 % 256
  let y := pa / 2 ^ 28 % 256
  if pa / 2 ^ 40 % 2 = 0 then (tileKey x y, s.physOf (tileKey x y))
  else (s.keyAt (physKey x y), physKey x y)

/-- The target of a DSELF entry to FWD. -/
def PlanEnt.target (e : PlanEnt) : Nat := physKey (get e.value 39 32) (get e.value 47 40)

/-- An entry makes its tile FWD. -/
def PlanEnt.isFwd (e : PlanEnt) : Bool := e.reg == 0 && decide (get e.value 31 29 = 4)

/-- The silicon whose route entries stand in the map for silicon `p`: while the entries of a commit wait for its markers, those of a
tile that it has moved stay, under the old MGEN, what they were (R35). -/
def State.mapOf (s : State) (p : Nat) : Nat :=
  match s.plan.bind fun x => if x.due.isEmpty then none else x.ents.find? fun e => e.isFwd && decide (e.target = p) with
  | some e => e.phys
  | none => p

/-- Registers of the silicon (R28). -/
def State.siliconReg (s : State) (p off : Nat) : Option Word :=
  let P := if off = 0x10 ∨ off = 0x08 ∨ off = 0x20 ∨ off = 0x28 then s.phy (s.mapOf p) else s.phy p
  match off with
  | 0x00 => some (P.dself.zeroExtend 64)
  | 0x08 => some P.drtd
  | 0x10 => some P.drts
  | 0x20 => some (P.measd.zeroExtend 64)
  | 0x28 => some (P.meass.zeroExtend 64)
  | 0x30 => some (s.mgen.zeroExtend 64)
  | 0x40 => some (P.clksrc.zeroExtend 64)
  | 0x48 => some (banksWord P.banks)
  | 0x50 => some (P.emap.zeroExtend 64)
  | _ => none

/-- The single registers of a tile from 0x9D00 (R376, R91, R394, R469, R483, R498, R500) and of the wafer (R441). -/
def State.tileReg (s : State) (t off : Nat) : Word :=
  let T := s.tile t
  match off with
  | 0x9D00 => T.router.ovfcfg
  | 0x9D08 => T.router.hqbase
  | 0x9D10 => T.router.hqcfg
  | 0x9D18 => T.router.hbdef.zeroExtend 64
  | 0x9D20 => T.router.ploga
  | 0x9D28 => T.router.plogb
  | 0x9D30 => T.reliab.reladv
  | 0x9D38 => T.fsave
  | 0x9D40 => T.buckW.word
  | 0x9D48 => T.buckC0.word
  | 0x9D50 => T.buckC1.word
  | 0x9D58 => put 0 4 (s.panel (s.panelOf t)).level
  | 0x9D60 => put 63 1 (bit T.router.wide) + put 0 7 T.router.sender.length
  | 0x9D68 => put 1 1 (bit T.gated) + put 0 1 (bit T.gateEn)
  | 0xA100 => s.mgmt.wid.zeroExtend 64
  | _ => 0

/-- The registers that come in arrays (R77, R92, R266, R361, R354, R374, R372, R433, R441, R382). -/
def State.arrayReg (s : State) (t off : Nat) : Word :=
  let T := s.tile t
  let F := T.fabric
  if 0x100 ≤ off ∧ off < 0x140 then F.wrx ((off - 0x100) / 8)
  else if 0x200 ≤ off ∧ off < 0x280 then (F.folds.get FoldSlot.reset ((off - 0x200) / 8)).word
  else if 0x400 ≤ off ∧ off < 0x480 then
    let e := F.elems.get Elem.reset ((off - 0x400) / 8)
    put 32 32 e.squash.toNat + put 0 32 e.fires.toNat
  else if 0x800 ≤ off ∧ off < 0xA00 then
    extentWord (F.gen ((off - 0x800) / 64)).ext (off % 64 / 16) (decide (off % 16 = 8))
  else if 0xA00 ≤ off ∧ off < 0xB00 then extentWord F.path.ext ((off - 0xA00) / 16) (decide (off % 16 = 8))
  else if 0xB00 ≤ off ∧ off ≤ 0xB40 then (F.gen ((off - 0xB00) / 8)).stat
  else if 0xB80 ≤ off ∧ off ≤ 0xBC0 then (F.gen ((off - 0xB80) / 8)).gfva
  else if 0x1000 ≤ off ∧ off < 0x9000 then (s.asid (BitVec.ofNat 12 ((off - 0x1000) / 8))).word
  else if 0x9000 ≤ off ∧ off < 0x9800 then
    let l := (off - 0x9000) / 16
    let p := T.router.pocket l
    if off % 16 = 0 then (if l = 127 then T.router.orphanWord else p.wordA) else p.entry &&& ~~~3
  else if 0x9800 ≤ off ∧ off < 0x9C00 then (T.router.actor ((off - 0x9800) / 32)).word (off % 32 / 8)
  else if 0x9C00 ≤ off ∧ off < 0x9C20 then T.router.sysActor.word (off % 32 / 8)
  else if 0xA000 ≤ off ∧ off < 0xA030 then
    match portAt t with
    | none => 0
    | some n =>
      if off = 0xA000 then (s.port n).stat
      else if off = 0xA008 then (s.port n).far
      else (s.port n).lpch.get 0 ((off - 0xA010) / 8)
  else if 0xA180 ≤ off ∧ off < 0xA1A0 then
    BitVec.ofNat 64 (s.reach.toNat / 2 ^ (64 * ((off - 0xA180) / 8)))
  else if 0xA800 ≤ off ∧ off < 0xB000 then s.wroute.get 0 ((off - 0xA800) / 8)
  else if 0xB000 ≤ off ∧ off < 0xB200 then pairWord T.router.sender[(off - 0xB000) / 8]?
  else if 0xB200 ≤ off ∧ off < 0xB400 then pairWord T.router.refusal[(off - 0xB200) / 8]?
  else s.tileReg t off

/-- The register at a control address (R28), at its aligned 8 bytes. -/
def State.ctlRead (s : State) (pa : Nat) : Word :=
  let off := pa % 2 ^ 20 / 8 * 8
  let b := s.block pa
  match s.siliconReg b.2 off with
  | some v => v
  | none => s.arrayReg b.1 off

/-! ### Storing (R28) -/

/-- A store to ASIDSa: ROOT and V on every tile (R354). -/
def State.setAsid (s : State) (a : Nat) (v : Word) : State :=
  let A := s.asid (BitVec.ofNat 12 a)
  { s with asids := s.asids.put (a % 4096) { A with root := BitVec.ofNat 52 (get v 63 12), v := v.getLsbD 8 } }

/-- A store to the GSTAT of a stopped generator: the loader translates the address of GFVA again (R362). Refused accesses of the
element path are issued again after that, before any other access of the path (R196). -/
def State.resumeGen (s : State) (t g : Nat) : State :=
  if 2 ≤ ((s.tile t).fabric.gen g).reason.toNat ∧ ((s.tile t).fabric.gen g).reason.toNat ≤ 4 then
    s.modFabric t fun F => F.modGen g fun x => { x with reason := 1, kind := 0, ext := extentRetry x.ext x.gfva }
  else s

/-- A store to LPCHk: the channel starts to quiesce toward the new binding (R440). -/
def State.rebind (s : State) (port k : Nat) (v : Word) : State :=
  s.modPort port fun p => { p with pendCh := p.pendCh.put k (v &&& 0xFFFFE00000000000) }

/-- A store to RELADV (R469). -/
def State.setReladv (s : State) (t : Nat) (v : Word) : State :=
  s.modTile t fun T => { T with reliab := { T.reliab with reladv := v &&& ~~~2 } }

/-- A store to HQCFG (R376, R377): FULL clears, and LOG2 changes while the queue is empty; with a LOG2 other than 0 and 10 to 24
it has no effect. -/
def Router.setHqcfg (r : Router) (v : Word) : Router :=
  let l := get v 36 32
  if !decide (l = 0 ∨ (10 ≤ l ∧ l ≤ 24)) then r
  else { r with hqFull := false, hqLog := if r.holdq.isEmpty then BitVec.ofNat 5 l else r.hqLog }

/-- REACH after a change of routes or ports (R443). -/
def State.reachNow (s : State) : BitVec 256 :=
  let up := (List.range 80).filter fun n => decide ((s.port n).state = 2)
  BitVec.ofNat 256 (lanesNat 1 (fun w =>
    let r := s.wroute.get 0 w
    bit (decide (w = s.mgmt.wid.toNat) ||
      (r.getLsbD 63 && up.any fun n => r.getLsbD (4 * (n / 20) + n % 20 / 5)))) 256)

/-- After a change of routes or ports: REACH follows, and traffic to a wafer whose ports have changed is held behind what went before
(R443). `old` is the machine before the change. -/
def State.setReach (s old : State) : State :=
  { s.stamp with
    reach := s.reachNow
    rerouted := (List.range 256).foldl (fun r w => if s.peerPorts w = old.peerPorts w then r else r.put w s.seq) s.rerouted }

/-- MODE of PLOGA (R394). -/
def Router.plogMode (r : Router) : Nat := get r.ploga 63 62

/-- Replay ends with MODE 00 once RIDX is WIDX, a store of the registers that leaves them so included (R395). -/
def Router.plogEnd (r : Router) : Router :=
  if r.plogMode = 2 ∧ get r.plogb 63 32 = get r.plogb 31 0 then { r with ploga := r.ploga &&& 0x3FFFFFFFFFFFFFFF } else r

/-- A store to a tile's single registers (R376, R394, R483, R91). -/
def State.setTileReg (s : State) (t off : Nat) (v : Word) : State :=
  match off with
  | 0x9D00 =>
    if ((s.tile t).router.ovfUsed) = 0 then s.modRouter t fun r => { r with ovfcfg := v &&& 0x000FFFFF00000FFF } else s
  | 0x9D08 => s.modRouter t fun r => { r with hqbase := v &&& ~~~0xFFFF }
  | 0x9D10 => s.modRouter t fun r => r.setHqcfg v
  | 0x9D18 => s.modRouter t fun r => { r with hbdef := v.setWidth 32 }
  | 0x9D20 => s.modRouter t fun r => { r with ploga := v &&& 0xE00FFFFF0000001F }.plogEnd
  | 0x9D28 => s.modRouter t fun r => { r with plogb := v }.plogEnd
  | 0x9D30 => s.setReladv t v
  | 0x9D38 => s.modTile t fun T => { T with fsave := v &&& 0x800FFFFF00000000 }
  | 0x9D68 => s.modTile t fun T => { T with gateEn := v.getLsbD 0 }
  | _ => s

/-- A store to ACTC or ACTD, without effect while the actor is RUNNING (R372, R392). -/
def Actor.setDeque (a : Actor) (i : Nat) (v : Word) : Actor :=
  if a.state = .running then a
  else match i with
  | 2 => { a with dqBase := BitVec.ofNat 20 (get v 51 32), dqLog := BitVec.ofNat 5 (get v 4 0) }
  | 3 => { a with tail := BitVec.ofNat 16 (get v 31 16), head := BitVec.ofNat 16 (get v 15 0) }
  | _ => a

/-- A store to the registers that come in arrays. -/
def State.setArrayReg (s : State) (t off : Nat) (v : Word) : State :=
  if 0xB00 ≤ off ∧ off ≤ 0xB40 then s.resumeGen t ((off - 0xB00) / 8)
  else if 0x1000 ≤ off ∧ off < 0x9000 then s.setAsid ((off - 0x1000) / 8) v
  else if 0x9800 ≤ off ∧ off < 0x9C00 then
    s.modRouter t fun r => r.modActor ((off - 0x9800) / 32) fun a => a.setDeque (off % 32 / 8) v
  else if 0xA010 ≤ off ∧ off < 0xA030 then
    match portAt t with
    | some n => s.rebind n ((off - 0xA010) / 8) v
    | none => s
  else if 0xA800 ≤ off ∧ off < 0xB000 then
    { s with wroute := s.wroute.put ((off - 0xA800) / 8) (v &&& 0xC00000000000FFFF) }.setReach s
  else s.setTileReg t off v

/-- A store of a whole register at a control address. -/
def State.ctlWrite (s : State) (pa : Nat) (v : Word) : State :=
  let off := pa % 2 ^ 20 / 8 * 8
  let b := s.block pa
  match s.siliconReg b.2 off with
  | some _ => s
  | none => s.setArrayReg b.1 off v

/-- `n` bytes read from control space at an address. -/
def State.ctlBytes (s : State) (pa : Nat) (n : Nat) : List Byte :=
  ((List.range ((n + 7) / 8)).flatMap fun i => natBytes 8 (s.ctlRead (pa / 8 * 8 + 8 * i)).toNat).drop (pa % 8) |>.take n

/-- Bytes stored to control space: each register takes the bytes given and keeps the others as it reads. -/
def State.ctlStore (s : State) (pa : Nat) (bs : List Byte) : State :=
  (List.range ((bs.length + 7) / 8)).foldl (fun a i =>
    let base := pa / 8 * 8 + 8 * i
    let old := natBytes 8 (a.ctlRead base).toNat
    let piece := (bs.drop (8 * i)).take 8
    let lo := if i = 0 then pa % 8 else 0
    a.ctlWrite base (BitVec.ofNat 64 (bytesNat (old.take lo ++ piece ++ old.drop (lo + piece.length))))) s

end Sys2Proof.Machine
end

