-- ==== Sys2Proof/Machine/Access.lean ====
section
/-!
DEFINITION. Accesses of the needle core and full-empty words: when an access may leave its slot (R329-R335), what
returns to it (R231, R480, R488), atomic operations (R312), stores through the pending-store table (R329), and the
queues of full-empty requests (R232, R308-R310, R341).
-/
namespace Sys2Proof.Machine

/-! ### Poison and late refusals (R176, R480) -/

/-- The origin word of poison that arises at a unit of tile `t` (R176). -/
def originWord (t unit cause : Nat) : Word :=
  put 28 8 (tileY t) + put 20 8 (tileX t) + put 4 5 unit + put 0 4 cause

/-- The UNIT of poison from a marked word (R176, R488): the store that holds it, or memory beyond the local stores. -/
def markOrigin (t loc : Nat) : Word :=
  match storeTile loc with
  | some (o, _) => originWord o 27 5
  | none => originWord t 29 5

/-- Hold a late refusal for a slot that runs a handler (R480). -/
def Slot.pushLate (sl : Slot) (cause sub : Nat) (val : Word) : Slot :=
  match sl.run with
  | .handler _ => { sl with late := sl.late ++ [⟨trapWord cause sub true, val⟩] }
  | _ => sl

/-- What the owner answers to an access that has left its unit, beside its data (R40, R368): ELSIZE or EPEER. -/
def State.refusal (s : State) (loc : Nat) : Option (Nat × Nat) :=
  if s.lsizeRefused loc then some (0x05, 0)
  else if 0x40 ≤ loc / 2 ^ 56 ∧ loc / 2 ^ 56 ≤ 0x7F ∧ s.reaches (loc / 2 ^ 54 % 256) = false then
    some (0x06, loc / 2 ^ 54 % 256)
  else none

/-! ### When an access may leave (R329-R331) -/

/-- Two byte ranges overlap. -/
def overlaps (a n b m : Nat) : Bool := decide (a < b + m) && decide (b < a + n)

/-- Nothing of the slot is outstanding: its loads and AMOs have returned and its stores have been acknowledged. -/
def State.settledSlot (s : State) (t k : Nat) : Bool :=
  (s.slot t k).accesses.isEmpty && !((s.tile t).stores.any fun e => e.slot == k % 8)

/-- An access of a slot to `n` bytes may leave: no acquire is outstanding (R331), no older access of the slot overlaps
it (R330), no entry of the tile's table covers its bytes (R329), the store is not being re-woven, and to control space it
goes after every earlier access of the slot (R335). -/
def State.mayAccess (s : State) (t k loc n : Nat) : Bool :=
  !((s.slot t k).pend.any fun p => p.acq || p.spans.any fun x => overlaps x.1 x.2 loc n)
    && !s.covered t loc n && !s.reweavingAt loc && (decide (loc / 2 ^ 56 ≠ 0xF0) || s.settledSlot t k)

/-- Bytes of an element access (R196). -/
def ElemOpKind.size (k : ElemOpKind) : Nat :=
  match k with
  | .amo 10 => 4
  | _ => 8

/-- An access of a slot, older than number `id`, of tile `t` to some bytes is on its way. -/
def State.olderNeedle (s : State) (t id : Nat) (l : List (Nat × Nat)) : Bool :=
  let hits := fun (a n : Nat) => l.any fun x => overlaps a n x.1 x.2
  let T := s.tile t
  T.slots.toList.any (fun sl => sl.pend.any fun p => !p.fe && decide (p.id < id) && p.spans.any fun x => hits x.1 x.2)
    || T.stores.any fun e => decide (e.id < id) && hits e.loc e.bytes.length

/-- A request of tile `t` older than `id` to one of some bytes is on its way: requests from one tile to one owner do not overtake
one another (R25, R327, R330). One that waits at its owner for a word has arrived. -/
def State.olderRequest (s : State) (t id : Nat) (l : List (Nat × Nat)) : Bool :=
  s.olderNeedle t id l || (s.tile t).fabric.ops.any fun o =>
    decide (o.id < id) && o.got.isNone && !o.refused && (l.any fun x => overlaps o.loc o.kind.size x.1 x.2)
      && !(s.feWait.any fun q => q.who == .elem t o.id)

/-- Access `i` of tile `t` is an XST or XAMO (R423-R425). -/
def State.isX (s : State) (t i : Nat) : Bool := (s.tile t).xids.contains i

/-- An older XST or XAMO of the slot that made XST or XAMO `i`, to the same wafer, is not performed: an XST has to have left its tile, for
an XAMO also to have been performed at system scope (R425). -/
def State.olderX (s : State) (t i : Nat) (l : List (Nat × Nat)) : Bool :=
  let T := s.tile t
  let wafer := fun (n : Nat) => l.any fun x => decide (x.1 / 2 ^ 54 = n / 2 ^ 54)
  let st := T.stores.find? fun e => e.id == i
  s.isX t i && (T.slots.toList.zipIdx.any fun y =>
    (decide (st.map StoreEnt.slot = some y.2) || (y.1.pend.any fun p => p.id == i))
      && ((y.1.pend.any fun p => decide (p.id < i) && s.isX t p.id && wafer p.loc)
        || (T.stores.any fun e => decide (e.slot = y.2 ∧ e.id < i) && s.isX t e.id && wafer e.loc)
        || (st.isNone && s.behind.any fun b => decide (b.tile = t ∧ b.slot = y.2 ∧ b.id < i) && s.isX t b.id && wafer b.loc)))

/-- Request `id` of tile `t` to some bytes can be performed at its owners. -/
def State.mayPerform (s : State) (t id : Nat) (l : List (Nat × Nat)) : Bool :=
  !s.olderRequest t id l && !s.olderX t id l && l.all fun x => s.pathOpen t x.1 && !s.routeHeld id x.1

/-- The outcome `u` of an XST or XAMO of the running slot: where it has left its slot it takes its place in their order, and those
that are over leave the list (R425). -/
def State.noteX (s u : State) : State :=
  if u.seq = s.seq then u
  else u.modTile s.ft fun T => { T with xids := (T.xids ++ [s.seq]).filter fun i => (T.stores.any fun e => e.id == i)
    || (T.slots.toList.any fun sl => sl.pend.any fun p => p.id == i) || u.behind.any fun b => b.id == i }

/-- A location that a store meets at system scope later than at wafer scope: all but the local stores (R329). -/
def systemLater (loc : Nat) : Bool := decide (loc / 2 ^ 56 ≠ 1)

/-- A location whose owner only a system-wide scope holds: a host window or a peer wafer (R328, R331). -/
def systemOwner (loc : Nat) : Bool := decide (0x20 ≤ loc / 2 ^ 56)

/-- Every store that has been acknowledged is performed at system scope (R329). A release at system scope waits for all of them, since
those of other tiles may happen before it (R332; log 11). -/
def State.systemDone (s : State) : Bool := s.behind.isEmpty

/-- A store of unit `u` of tile `t` to `n` bytes beyond the local stores has been acknowledged: at system scope it is not performed
yet (R329). -/
def State.noteStore (s : State) (id t u loc n : Nat) (rel : Bool) : State :=
  if systemLater loc then { s with behind := s.behind ++ [⟨id, t, u, loc, s.bytes loc n, rel⟩] } else s

/-- What is performed at every scope at once shows in the bytes that agents outside the wafer see (R329). -/
def State.expose (s : State) (loc : Nat) (bs : List Byte) : State :=
  { s with behind := s.behind.map fun b =>
      { b with old := b.old.mapIdx fun i x => if loc ≤ b.loc + i then bs.getD (b.loc + i - loc) x else x } }

/-- A release may leave: every earlier load and AMO of the slot has returned and the tile's table is empty, so that no
agent can see the release before what it orders (R331, R332, R334). -/
def State.released (s : State) (t k : Nat) : Bool :=
  (s.slot t k).accesses.isEmpty && (s.tile t).stores.isEmpty

/-! ### Values (R230, R312) -/

/-- The register values of a load of some bytes (R230). -/
def loadWords (sgn : Bool) (bs : List Byte) : List Word :=
  if bs.length ≤ 8 then
    [if sgn then BitVec.ofInt 64 (signed (8 * bs.length) (bytesNat bs)) else BitVec.ofNat 64 (bytesNat bs)]
  else (List.range (bs.length / 8)).map fun i => BitVec.ofNat 64 (bytesNat ((bs.drop (8 * i)).take 8))

/-- The words of a 128-bit value, low first. -/
def pairWords (n : Nat) (v : Nat) : List Word :=
  if n = 16 then [BitVec.ofNat 64 v, BitVec.ofNat 64 (v / 2 ^ 64)] else [BitVec.ofNat 64 v]

/-- The new value of amo of R312 for operation `op` of R153 on `b` bytes; none where CAS writes nothing. -/
def amoNew (op b old x exp : Nat) : Option Nat :=
  let n := 8 * b
  let o := old % 2 ^ n
  let y := x % 2 ^ n
  match op with
  | 0 => some ((o + y) % 2 ^ n)
  | 1 => some (if signed n y < signed n o then y else o)
  | 2 => some (if signed n o < signed n y then y else o)
  | 3 => some (min o y)
  | 4 => some (max o y)
  | 5 => some (o &&& y)
  | 6 => some (o ||| y)
  | 7 => some (o ^^^ y)
  | 8 => some y
  | 9 => if o = exp % 2 ^ n then some y else none
  | _ => some (f32.add 0 0 o y).bits

/-- amo of R312 at a location, as one step: the memory after it and the old value. -/
def State.amoAt (s : State) (loc op b x exp : Nat) : State × Nat :=
  let old := s.readNat loc b
  match amoNew op b old x exp with
  | some v => (s.write loc (natBytes b v), old)
  | none => (s, old)

/-- amo of R312 by unit `u` of tile `t`. While stores are not performed at system scope, agents outside the wafer see its result after
them (R333, R334; log 11). -/
def State.amoBy (s : State) (id t u loc op b x exp : Nat) : State × Nat :=
  (if s.systemDone then s else s.noteStore id t u loc b true).amoAt loc op b x exp

/-! ### Full-empty words (R232, R308-R310, R341) -/

/-- The pending entry of a slot by number. -/
def Slot.pend? (sl : Slot) (i : Nat) : Option Pend := sl.pend.find? fun p => p.id == i

/-- The element operation of a tile by number. -/
def Fabric.op? (f : Fabric) (i : Nat) : Option ElemOp := f.ops.find? fun o => o.id == i

/-- The fabric with element operation `i` changed. -/
def Fabric.modOp (f : Fabric) (i : Nat) (g : ElemOp → ElemOp) : Fabric :=
  { f with ops := f.ops.map fun o => if o.id == i then g o else o }

/-- A request waits for an empty word: STF. -/
def State.feWantsEmpty (s : State) (q : FeReq) : Bool :=
  match q.who with
  | .outside _ _ (.stf _) _ => true
  | .needle t k i => (match (s.slot t k).pend? i with
    | some p => (match p.kind with
      | .stf _ => true
      | _ => false)
    | none => false)
  | _ => false

/-- A request can be served in the present state of its word (R309). -/
def State.feReady (s : State) (q : FeReq) : Bool := s.feWantsEmpty q == s.isEmpty q.word

/-- A request of a unit that makes its access itself. -/
def FeReq.polls (q : FeReq) : Bool :=
  match q.who with
  | .poll _ _ => true
  | _ => false

/-- The tile that made a request. -/
def FeReq.tile (q : FeReq) : Nat :=
  match q.who with
  | .needle t _ _ => t
  | .elem t _ => t
  | .poll t _ => t
  | .outside p _ _ _ => portHome p

/-- The lowest empty word that some byte ranges touch. -/
def State.firstEmpty (s : State) (spans : List (Nat × Nat)) : Option Nat :=
  (s.empties.filter fun w => spans.any fun x => overlaps x.1 x.2 w 8).head?

/-- The instruction of a waiting slot completes with its values (R310). -/
def Slot.feDone (sl : Slot) (i : Nat) (vals : List Word) : Slot :=
  { (sl.complete i vals).advance with waiting := false }

/-- The instruction of a waiting slot fails late: nothing is written (R480, R488). -/
def Slot.feFail (sl : Slot) (i cause sub : Nat) (va : Word) : Slot :=
  { ((sl.dropPend i).advance.pushLate cause sub va) with waiting := false }

/-- Lane values read at their locations (R282, R295): whole bytes, or a nibble by its parity in the low bit of the
lane's number. -/
def State.laneAt (s : State) (w : Nat) (lane loc : Nat) : Nat :=
  if w = 4 then s.readNat loc 1 / 2 ^ (4 * (lane % 2)) % 16 else s.readNat loc (w / 8)

/-- v[n] with some lanes loaded; the other lanes keep their contents, or are zeroed (R283, R295). -/
def Slot.setLanes (sl : Slot) (v : BitVec 3) (w : Nat) (zero : Bool) (vals : List (Nat × Nat)) : Slot :=
  sl.setVreg v (ofLanes w (4096 / w) fun k => Tab.get (if zero then 0 else lane w (sl.vreg v) k) vals k)

/-- The memory node that holds a word's queue has no free entry of its 128 (R309). -/
def State.nodeFull (s : State) (w : Nat) : Bool :=
  match storeTile w with
  | some (t, _) => decide (128 ≤ (s.feWait.filter fun q =>
      !q.retry && (storeTile q.word).map (·.1) == some t).length)
  | none => false

/-- A request of a tile is turned back to be tried again, or held on its way (R31, R32, R39, R309). -/
def State.feTurned (s : State) (t w : Nat) : Bool := s.nodeFull w || !s.pathOpen t w

/-- A request of a needle slot is served (R308, R309): it reads, writes, or moves on to another empty word it covers. -/
def State.feServeNeedle (s : State) (t k : Nat) (p : Pend) : State :=
  match s.firstEmpty p.feSpans, p.kind with
  | _, .stf v => (((s.noteStore p.id t k p.loc 8 true).write p.loc (natBytes 8 v.toNat)).fill p.loc).modSlot t k fun sl =>
      sl.feDone p.id []
  | some w, _ => { s with feWait := s.feWait ++ [⟨.needle t k p.id, w, s.feTurned t w⟩] }
  | none, kind =>
    match p.pieces.find? fun x => s.marked x.loc x.n with
    | some x => s.modSlot t k fun sl => sl.feFail p.id 0x0D 0 x.va
    | none =>
      match kind with
      | .load n sgn => s.modSlot t k fun sl => sl.feDone p.id (loadWords sgn (s.bytes p.loc n))
      | .ldf => (s.drain p.loc).modSlot t k fun sl => sl.feDone p.id [s.read64 p.loc]
      | .amo op n x e =>
        let r := s.amoBy p.id t k p.loc op n x.toNat e.toNat
        r.1.modSlot t k fun sl => sl.feDone p.id (pairWords n r.2)
      | .vec v w z l got =>
        let vals := got ++ l.map fun e => (e.k, s.laneAt w e.k e.loc)
        s.modSlot t k fun sl => (sl.setLanes v w z vals).feDone p.id []
      | _ => s

/-- A token of data and tag. -/
def Token.of (data : Word) (tag : BitVec 3) : Token := ⟨false, tag, data⟩

/-- A poisoned token (R169). -/
def Token.poisonOf (origin : Word) (tag : BitVec 3) : Token := ⟨true, tag, origin⟩

/-- An element operation is performed at its owner (R198-R200): the token it will deliver stands in `got`. -/
def State.performElem (s : State) (t : Nat) (o : ElemOp) : State :=
  match o.kind with
  | .str =>
    let s1 := (s.noteStore o.id t 16 o.loc 8 o.fe).write o.loc (natBytes 8 o.data.toNat)
    (if o.fe then s1.fill o.loc else s1).modFabric t fun f => f.modOp o.id fun x => { x with got := some Token.zero }
  | .ldr _ _ =>
    let tok := if s.isMarked o.loc then Token.poisonOf (markOrigin t o.loc) o.tag
      else Token.of (s.read64 o.loc) o.tag
    s.modFabric t fun f => f.modOp o.id fun x => { x with got := some tok }
  | .amo op =>
    let b := if op = 10 then 4 else 8
    if s.isMarked (wordOf o.loc) then
      s.modFabric t fun f => f.modOp o.id fun x => { x with got := some (Token.poisonOf (markOrigin t o.loc) o.tag) }
    else
      let r := s.amoBy o.id t 16 o.loc op b o.data.toNat o.exp.toNat
      r.1.modFabric t fun f => f.modOp o.id fun x => { x with got := some (Token.of (BitVec.ofNat 64 r.2) o.tag) }

/-- A narrow write to a marked word is refused (R488). -/
def State.narrowMarked (s : State) (loc n : Nat) : Bool :=
  (wordsOf loc n).any fun w => s.isMarked w && !(decide (loc ≤ w) && decide (w + 8 ≤ loc + n))

/-- A store of another wafer, or of the host, is performed here: at every scope at once (R328, R442). -/
def State.outWrite (s : State) (loc : Nat) (bs : List Byte) : State := (s.expose loc bs).write loc bs

/-- An access of another wafer or of the host that has its turn at its owner (R308, R312, R442); what a load reads leaves the wafer, and
an access that an uncorrectable word refuses has no effect (R488). -/
def State.outPerform (s : State) (op : OutOp) (loc : Nat) : State :=
  match op with
  | .load _ _ => s
  | .store bs _ => if s.narrowMarked loc bs.length then s else s.outWrite loc bs
  | .ldf => if s.isMarked loc then s else s.drain loc
  | .stf v => (s.outWrite loc (natBytes 8 v.toNat)).fill loc
  | .ste v => (s.outWrite loc (natBytes 8 v.toNat)).drain loc
  | .amo o n x e _ =>
    if s.marked loc n then s
    else
      let r := s.amoAt loc o n x e
      r.1.expose loc (r.1.bytes loc n)

/-- A full-empty request is served, and leaves its queue (R309). -/
def State.feServe (s : State) (q : FeReq) : State :=
  let s0 := { s with feWait := s.feWait.filter fun x => x.who != q.who }
  match q.who with
  | .needle t k i => (match (s.slot t k).pend? i with
    | some p => s0.feServeNeedle t k p
    | none => s0)
  | .elem t i => (match (s.tile t).fabric.op? i with
    | some o => s0.performElem t o
    | none => s0)
  | .poll _ _ => s0
  | .outside _ _ op loc => s0.outPerform op loc

/-- The queue of a word is served from the oldest request that its state lets proceed, up to `n` times, or up to one whose unit
makes the access itself (R309). -/
def State.serveWord : Nat → State → Nat → State
  | 0, s, _ => s
  | n + 1, s, w =>
    match s.feWait.find? fun q => q.word == w && !q.retry && s.feReady q with
    | some q => if q.polls then s else State.serveWord n (s.feServe q) w
    | none => s

/-- The word's state has changed: its queue is served (R309). -/
def State.serve (s : State) (w : Nat) : State := State.serveWord s.feWait.length s w

/-- Every word of some list is served. -/
def State.serveAll (s : State) (ws : List Nat) : State := ws.foldl (fun a w => a.serve w) s

/-- A request that came before has its turn at a word (R309): the read of a unit, or one that a withdrawal has let through. -/
def State.feAhead (s : State) (w : Nat) : Bool := s.feWait.any fun q => q.word == w && !q.retry && s.feReady q

/-- A request reaches the owner of its word: served at once, taken into the queue, or refused for a retry (R309). -/
def State.feRequest (s : State) (who : FeWho) (w : Nat) : State :=
  let q : FeReq := ⟨who, w, false⟩
  if s.feReady q && !q.polls && !s.feAhead w && s.pathOpen q.tile w then (s.feServe q).serve w
  else
    let r : FeReq := ⟨who, w, s.feTurned q.tile w⟩
    { s with feWait := s.feWait ++ [r] }.serve w

/-- A word that holds back the read of a unit: it is empty, or requests that came before the unit's wait for it (R309, R341). -/
def State.pollBlock (s : State) (t u : Nat) (spans : List (Nat × Nat)) : Option Nat :=
  let words := ((s.empties ++ s.feWait.map fun q => q.word).filter fun w => spans.any fun x => overlaps x.1 x.2 w 8)
  let before := fun (w : Nat) => (s.feWait.takeWhile fun q => !(q.who == FeWho.poll t u && q.word == w)).any fun q =>
    q.word == w && !q.retry && !q.polls && !s.feWantsEmpty q
  words.find? fun w => s.isEmpty w || before w

/-- The read of a unit waits at a word (R309). -/
def State.pollWait (s : State) (t u w : Nat) : State :=
  if s.feWait.any fun q => q.who == FeWho.poll t u && q.word == w then s
  else { s with feWait := (s.feWait.filter fun q => q.who != FeWho.poll t u) ++ [⟨.poll t u, w, s.feTurned t w⟩] }

/-- The read of a unit has been made, or is given up: what waited behind it is served (R309). -/
def State.pollDone (s : State) (t u : Nat) : State :=
  let ws := (s.feWait.filter fun q => q.who == FeWho.poll t u).map fun q => q.word
  if ws.isEmpty then s else { s with feWait := s.feWait.filter fun q => q.who != FeWho.poll t u }.serveAll ws

/-- A slot's full-empty access leaves: the slot waits out of the rotation until the owner has served it (R232). -/
def State.feIssue (s : State) (t k : Nat) (dst : List (BitVec 5)) (kind : PendKind) (va : Word) (loc : Nat) : State :=
  let p : Pend := ⟨s.seq, dst.map (s.slot t k).absReg, kind, va, loc, true, false⟩
  let s1 := s.stamp.modSlot t k fun sl => { sl with pend := sl.pend ++ [p], waiting := true }
  match p.pieces.findSome? fun x => (s.refusal x.loc).map fun r => (r.1, r.2, x.va) with
  | some (c, sub, v) => s1.modSlot t k fun sl => sl.feFail p.id c sub v
  | none => s1.feRequest (.needle t k p.id) (((s.firstEmpty p.feSpans)).getD (wordOf loc))

/-! ### Loads and atomic operations of a slot (R230, R231, R311-R313) -/

/-- The lanes of a vector load that a reply performs: one, or all that are left (R325). -/
def lanesOf (only : Option Nat) (l : List Lane) : List Lane :=
  match only with
  | none => l
  | some k => l.filter fun e => e.k == k

/-- The bytes that a reply performs (R325). -/
def Pend.spansOf (p : Pend) (only : Option Nat) : List (Nat × Nat) :=
  match p.kind with
  | .vec _ w _ l _ => (lanesOf only l).map fun e => (e.loc, (w + 7) / 8)
  | _ => p.spans

/-- A lane before lane `k` reads some of its bytes and is not performed: it goes first (R330). -/
def Pend.laneWaits (p : Pend) (k : Nat) : Bool :=
  match p.kind with
  | .vec _ w _ l _ => l.any fun e => decide (e.k < k) &&
      l.any fun x => x.k == k && overlaps e.loc ((w + 7) / 8) x.loc ((w + 7) / 8)
  | _ => false

/-- Lanes of an outstanding vector load are performed at their owners; the register is written when the last is, and not at
all where one is refused (R295-R297, R325, R480, R488). -/
def State.performLanes (s : State) (t k : Nat) (p : Pend) (only : Option Nat) : State :=
  match p.kind with
  | .vec v w z l got =>
    let now := lanesOf only l
    (match now.findSome? fun e => (s.refusal e.loc).map fun r => (r.1, r.2, e.va) with
    | some (c, sub, va) => s.modSlot t k fun sl => (sl.dropPend p.id).pushLate c sub va
    | none =>
      match now.find? fun e => s.marked e.loc ((w + 7) / 8) with
      | some e => s.modSlot t k fun sl => (sl.dropPend p.id).pushLate 0x0D 0 e.va
      | none =>
        let vals := got ++ now.map fun e => (e.k, s.laneAt w e.k e.loc)
        let rest := l.filter fun e => !(now.any fun x => x.k == e.k)
        if rest.isEmpty then s.modSlot t k fun sl => (sl.setLanes v w z vals).dropPend p.id
        else s.modSlot t k fun sl =>
          { sl with pend := sl.pend.map fun x => if x.id == p.id then { x with kind := .vec v w z rest vals } else x })
  | _ => s

/-- An outstanding load or AMO is performed at its owner and returns (R209, R231, R488). -/
def State.performPend (s : State) (t k : Nat) (p : Pend) : State :=
  match s.refusal p.loc with
  | some (c, sub) => s.modSlot t k fun sl => (sl.dropPend p.id).pushLate c sub p.va
  | none =>
    match p.kind with
    | .load n sgn =>
      if s.marked p.loc n then s.modSlot t k fun sl => (sl.dropPend p.id).pushLate 0x0D 0 p.va
      else s.modSlot t k fun sl => sl.complete p.id (loadWords sgn (s.bytes p.loc n))
    | .amo op n x e =>
      if s.marked p.loc n then s.modSlot t k fun sl => (sl.dropPend p.id).pushLate 0x0D 0 p.va
      else
        let r := s.amoBy p.id t k p.loc op n x.toNat e.toNat
        r.1.modSlot t k fun sl => sl.complete p.id (pairWords n r.2)
    | .vec _ _ _ _ _ => s.performLanes t k p none
    | _ => s

/-- A load or AMO of the running slot leaves; one to the tile's own store is performed at once (R209, log 11). -/
def State.pendIssue (s : State) (dst : List (BitVec 5)) (kind : PendKind) (va : Word) (p : Place) (acq : Bool) :
    State :=
  let e : Pend := ⟨s.seq, dst.map s.cur.absReg, kind, va, p.loc, false, acq⟩
  let s1 := s.stamp.modCur fun sl => { sl.advance with pend := sl.pend ++ [e] }
  match p with
  | .store t' _ => if t' = s.ft then s1.performPend s.ft s.fk e else s1
  | _ => s1

/-- A load of the running slot (R230-R232, R335). -/
def State.needleLoad (s : State) (i : Instr) (dst : List (BitVec 5)) (size : Nat) (sgn acq : Bool) (va : Word) : State :=
  match s.check s.ft s.fk i .load va size with
  | .wait s1 => s1
  | .trap s1 c sub v => s1.trap c sub v
  | .ok s1 p fe =>
    if !s1.mayAccess s1.ft s1.fk p.loc size then s1
    else if fe then s1.feIssue s1.ft s1.fk dst (.load size sgn) va p.loc
    else
      match p with
      | .control pa =>
        let vals := loadWords sgn (s1.ctlBytes pa size)
        s1.modCur fun sl => ((dst.zip vals).foldl (fun a rv => a.setSreg rv.1 rv.2) sl).advance
      | _ => s1.pendIssue dst (.load size sgn) va p acq

/-! ### Stores of a slot (R230, R329) -/

/-- An access of tile `t` to `n` bytes, a store where `st` is set, can come back with a cause: the location lies at or above its
tile's LSIZE, its wafer is out of reach, a link on its way has failed, or it meets marked data (R32, R40, R231, R488). -/
def State.causeHolds (s : State) (t loc n : Nat) (st : Bool) (c : LateCause) : Bool :=
  match c with
  | .elsize => s.lsizeRefused loc
  | .epeer => (s.refusal loc).any fun r => r.1 == 0x06
  | .epath => s.pathFailed t loc
  | .edata => if st then s.narrowMarked loc n else s.marked loc n

/-- Write bytes at their owner; on a full-empty page every word touched becomes full and its queue is served (R232,
R341). -/
def State.apply (s : State) (loc : Nat) (bs : List Byte) (fe : Bool) : State :=
  let s1 := s.write loc bs
  if fe then
    let ws := wordsOf loc bs.length
    (ws.foldl (fun a w => a.fill w) s1).serveAll ws
  else s1

/-- The entries that some accesses hold in the pending-store table (R329). -/
def entriesOf : List StoreEnt → Nat
  | [] => 0
  | e :: r => (if r.any fun x => x.entry == e.entry then 0 else 1) + entriesOf r

/-- Room for `n` more entries in the tile's pending-store table of 64 (R329). -/
def State.storeRoom (s : State) (t n : Nat) : Bool := decide (entriesOf (s.tile t).stores + n ≤ 64)

/-- A store of a slot enters its tile's pending-store table (R329). -/
def State.enterStore (s : State) (t k : Nat) (va : Word) (loc : Nat) (bs : List Byte) (fe rel : Bool) : State :=
  s.stamp.modTile t fun T => { T with stores := T.stores ++ [⟨s.seq, k, va, loc, bs, fe, .bytes, s.seq, false, rel || fe⟩] }

/-- An STE of a slot enters its tile's pending-store table (R308, R329). -/
def State.enterEmpty (s : State) (t k : Nat) (va : Word) (loc : Nat) (v : Word) : State :=
  s.stamp.modTile t fun T =>
    { T with stores := T.stores ++ [⟨s.seq, k, va, loc, natBytes 8 v.toNat, true, .empty, s.seq, false, false⟩] }

/-- A store of the running slot whose checks have passed leaves: to control space at once (R335), else through the
table. -/
def State.storeLeaves (s : State) (va : Word) (p : Place) (fe rel : Bool) (bs : List Byte) : State :=
  match p with
  | .control pa => (s.ctlStore pa bs).modCur Slot.advance
  | _ => if s.storeRoom s.ft 1 then (s.enterStore s.ft s.fk va p.loc bs fe rel).modCur Slot.advance else s

/-- A release of a slot to a location may leave, at the smallest scope that holds its owner (R331, R332), or with `sys` at system
scope. -/
def State.releasedTo (s : State) (t k loc : Nat) (sys : Bool) : Bool :=
  s.released t k && (!(sys || systemOwner loc) || s.systemDone)

/-- A store of the running slot to the places `allowed` (R230-R232, R331): a release, of system scope where `sys` is set, and any
store to a full-empty page, waits for what it orders. -/
def State.needleStore (s : State) (i : Instr) (allowed : Nat → Place → Bool) (va : Word) (bs : List Byte) (rel sys : Bool) :
    State :=
  match s.checkIn s.ft s.fk i .store allowed va bs.length with
  | .wait s1 => s1
  | .trap s1 c sub v => s1.trap c sub v
  | .ok s1 p fe =>
    if !s1.mayAccess s1.ft s1.fk p.loc bs.length || ((rel || fe) && !s1.releasedTo s1.ft s1.fk p.loc sys) then s1
    else s1.storeLeaves va p fe rel bs

/-- A word is written and left empty, at its owner (R308, R341). -/
def State.storeEmpty (s : State) (loc : Nat) (bs : List Byte) : State := ((s.write loc bs).drain loc).serve loc

/-- The bytes that a half of a byte becomes: the other half stays (R295). -/
def nibbleByte (old : Byte) (high : Bool) (v : Byte) : Byte :=
  if high then (old &&& 0x0F) ||| (v <<< 4) else (old &&& 0xF0) ||| (v &&& 0x0F)

/-- A store is applied at its owner (R295, R308, R341). -/
def State.applyStore (s : State) (e : StoreEnt) : State :=
  match e.how with
  | .bytes => s.apply e.loc e.bytes e.fe
  | .empty => s.storeEmpty e.loc e.bytes
  | .nibble h => s.apply e.loc (e.bytes.map (nibbleByte (s.byte e.loc) h)) e.fe

/-- A store of tile `t` leaves the table. -/
def State.dropStore (s : State) (t : Nat) (e : StoreEnt) : State :=
  s.modTile t fun T => { T with stores := T.stores.filter fun x => x.id != e.id }

/-- A store comes back refused (R231, R480): one late refusal for the lanes of one instruction (R297). -/
def State.refuseStore (s : State) (t : Nat) (e : StoreEnt) (cause sub : Nat) : State :=
  if e.quiet then s.dropStore t e
  else
    ((s.dropStore t e).modTile t fun T =>
      { T with stores := T.stores.map fun x => if x.entry == e.entry then { x with quiet := true } else x }).modSlot t e.slot
      fun sl => sl.pushLate cause sub e.va

/-- The owner acknowledges a store of tile `t` (R329): it is applied, or refused late (R40, R488). A store of 32 or 64 bytes through a
host window, which may tear between its 8-byte units (R326), is applied whole: DESIGN CHOICE (log 11). -/
def State.ackStore (s : State) (t : Nat) (e : StoreEnt) : State :=
  match s.refusal e.loc with
  | some (c, sub) => s.refuseStore t e c sub
  | none =>
    if s.narrowMarked e.loc e.bytes.length then s.refuseStore t e 0x0D 0
    else ((s.noteStore e.id t e.slot e.loc e.bytes.length e.rel).dropStore t e).applyStore e

/-- An acknowledgement of access `i` of tile `t` can arrive: no older request of the tile to its bytes is on its way, and nothing
holds it (R25, R31, R32, R39, R330). -/
def State.ackOne (s : State) (t i : Nat) : State :=
  match (s.tile t).stores.find? fun e => e.id == i with
  | none => s
  | some e => if s.mayPerform t e.id [(e.loc, e.bytes.length)] then s.ackStore t e else s

/-- Two stores of which the first was acknowledged first are performed at system scope in that order: where the second is a release
(R334), where they share bytes, where both go from one tile to host memory (R344), and where they are XSTs of one slot to one
wafer (R425). -/
def State.systemAfter (s : State) (x b : Behind) : Bool :=
  b.rel || overlaps x.loc x.old.length b.loc b.old.length
    || (decide (x.tile = b.tile) && (decide (2 ^ 64 ≤ x.loc ∧ 2 ^ 64 ≤ b.loc)
      || (s.isX x.tile x.id && s.isX b.tile b.id && decide (x.slot = b.slot ∧ x.loc / 2 ^ 54 = b.loc / 2 ^ 54))))

/-- A store of tile `t` that has been acknowledged is performed at system scope (R329). -/
def State.systemAck (s : State) (t i : Nat) : State :=
  match s.behind.find? fun b => b.id == i && b.tile == t with
  | none => s
  | some b =>
    if (s.behind.takeWhile fun x => x.id != b.id).any fun x => s.systemAfter x b then s
    else { s with behind := s.behind.filter fun x => x.id != b.id }

/-- A byte as agents see it that only system scope holds: the stream engines of a spool, and hosts (R328, R329). -/
def State.systemByte (s : State) (loc : Nat) : Byte :=
  match s.behind.find? fun b => decide (b.loc ≤ loc ∧ loc < b.loc + b.old.length) with
  | some b => b.old.getD (loc - b.loc) 0
  | none => s.byte loc

/-! ### Atomic operations of a slot (R311-R313) -/

/-- An AMO of the running slot to the places `allowed` (R311-R313, R423), of system scope where `sys` is set. -/
def State.needleAmo (s : State) (i : Instr) (allowed : Nat → Place → Bool) (dst : List (BitVec 5)) (op n : Nat)
    (va : Word) (x e : BitVec 128) (acq rel sys : Bool) : State :=
  match s.checkIn s.ft s.fk i .amo allowed va n with
  | .wait s1 => s1
  | .trap s1 c sub v => s1.trap c sub v
  | .ok s1 p fe =>
    if !s1.mayAccess s1.ft s1.fk p.loc n || ((rel || fe) && !s1.releasedTo s1.ft s1.fk p.loc sys) then s1
    else if fe then s1.feIssue s1.ft s1.fk dst (.amo op n x e) va p.loc
    else s1.pendIssue dst (.amo op n x e) va p acq

/-! ### Accesses of several pieces (R224, R297, R304, R408) -/

/-- What the checks of several pieces end in: every piece's place, or the first fault. -/
inductive AccAll where
  | ok (s : State) (ps : List (Word × Place × Bool))
  | trap (s : State) (cause sub : Nat) (val : Word)
  | wait (s : State)
  deriving DecidableEq, Repr

/-- The checks of pieces at some addresses, in order (R231, R297). -/
def State.checkAll (t k : Nat) (i : Instr) (kind : AccKind) (align : Nat) :
    List Word → State → List (Word × Place × Bool) → AccAll
  | [], s, acc => .ok s acc.reverse
  | va :: r, s, acc =>
    match s.check t k i kind va align with
    | .wait s1 => .wait s1
    | .trap s1 c sub v => .trap s1 c sub v
    | .ok s1 p fe => State.checkAll t k i kind align r s1 ((va, p, fe) :: acc)

/-- Bytes read at a place by a needle slot. -/
def State.placeBytes (s : State) (p : Place) (n : Nat) : List Byte :=
  match p with
  | .control pa => s.ctlBytes pa n
  | p => s.bytes p.loc n

/-! ### Register windows (R223-R225) -/

/-- What a spill or fill comes to: done, a wait, or a fault that traps at the CALL or RET. -/
inductive Win where
  | done (s : State)
  | wait (s : State)
  | trap (s : State) (cause sub : Nat) (val : Word)
  deriving DecidableEq, Repr

/-- The addresses of the four 32-byte pieces of a frame of 128 bytes. -/
def framePieces (va : Word) : List Word := [va, va + 32, va + 64, va + 96]

/-- The bytes of a frame, s8 at the lowest address (R224). -/
def frameBytes (f : Vector Word 16) : List Byte := f.toList.flatMap fun w => natBytes 8 w.toNat

/-- The frame that 128 bytes hold. -/
def frameOf (bs : List Byte) : Vector Word 16 :=
  Vector.ofFn fun i => BitVec.ofNat 64 (bytesNat ((bs.drop (8 * i.val)).take 8))

/-- A register of the oldest resident window waits for a completion (R307). -/
def Slot.oldestPends (sl : Slot) : Bool :=
  let base := 16 * (sl.depth.toNat - sl.frames.length) + 8
  sl.pend.any fun p => p.dst.any fun n => decide (base ≤ n) && decide (n < base + 16)

/-- A register of the oldest resident window holds an error of two bits, which a spill reads (R224, R488). -/
def Slot.oldestBad (sl : Slot) : Bool :=
  let base := 16 * (sl.depth.toNat - sl.frames.length) + 8
  sl.bad.any fun n => decide (base ≤ n) && decide (n < base + 16)

/-- The first piece of a list that its owner refuses (R40, R368), as a precise fault. -/
def State.refusedPiece (s : State) (ps : List (Word × Place × Bool)) : Option (Nat × Nat × Word) :=
  ps.findSome? fun x => match x.2.1 with
    | .control _ => none
    | p => (s.refusal p.loc).map fun r => (r.1, r.2, x.1)

/-- Store one piece of a spill. -/
def State.spillPiece (s : State) (t k : Nat) (x : Word × Place × Bool) (bs : List Byte) : State :=
  match x.2.1 with
  | .control pa => s.ctlStore pa bs
  | p => s.enterStore t k x.1 p.loc bs x.2.2 false

/-- Spill the oldest resident window of a slot to [WSP - 128, WSP) as plain stores, for instruction `i` (R224). -/
def State.spill (s : State) (t k : Nat) (i : Instr) : Win :=
  let sl := s.slot t k
  match sl.frames.getLast? with
  | none => .wait s
  | some f =>
    match State.checkAll t k i .store 1 (framePieces (sl.wsp - 128)) s [] with
    | .wait s1 => .wait s1
    | .trap s1 c sub v => .trap s1 c sub v
    | .ok s1 ps =>
      match s1.refusedPiece ps with
      | some (c, sub, v) => .trap s1 c sub v
      | none =>
        if sl.oldestBad then .trap s1 0x0D 1 0
        else if sl.oldestPends || !s1.storeRoom t 4 || (ps.any fun x => !s1.mayAccess t k x.2.1.loc 32)
            || (ps.any fun x => x.2.2 && !s1.releasedTo t k x.2.1.loc false) then .wait s1
        else
          let pieces := (List.range 4).map fun i => ((frameBytes f).drop (32 * i)).take 32
          let s2 := (ps.zip pieces).foldl (fun a x => a.spillPiece t k x.1 x.2) s1
          .done (s2.modSlot t k fun sl => { sl with frames := sl.frames.dropLast, wsp := sl.wsp - 128 })

/-- Fill the next older window of a slot from [WSP, WSP + 128) (R224), with a place in the queue of an empty word (R309); a marked
word is a fault of the fill (R488). -/
def State.fillWindow (s : State) (t k : Nat) (i : Instr) : Win :=
  let sl := s.slot t k
  match State.checkAll t k i .load 1 (framePieces sl.wsp) s [] with
  | .wait s1 => .wait s1
  | .trap s1 c sub v => .trap s1 c sub v
  | .ok s1 ps =>
    match s1.refusedPiece ps with
    | some (c, sub, v) => .trap s1 c sub v
    | none =>
      match s1.holdRead t k (ps.map fun x => x.2.1.loc) with
      | some (s2, true) => .trap s2 0x0E 0 (((ps.find? fun x => sl.held == some x.2.1.loc).map (·.1)).getD sl.wsp)
      | some (s2, false) => .wait s2
      | none =>
      if ps.any fun x => !s1.mayAccess t k x.2.1.loc 32 then .wait s1
      else
        match s1.pollBlock t (32 + k) ((ps.filter fun x => x.2.2).map fun x => (x.2.1.loc, 32)) with
        | some w => .wait (s1.pollWait t (32 + k) w)
        | none =>
          match ps.find? fun x => s1.marked x.2.1.loc 32 with
          | some x => .trap (s1.pollDone t (32 + k)) 0x0D 0 x.1
          | none =>
            let bs := ps.flatMap fun x => s1.placeBytes x.2.1 32
            .done ((s1.pollDone t (32 + k)).modSlot t k fun sl =>
              { sl with frames := sl.frames ++ [frameOf bs], wsp := sl.wsp + 128 })

/-- The window rotates forward by 16 (R223): s24-s31 become s8-s15 and s16-s31 read as zero. -/
def Slot.rotate (sl : Slot) : Slot :=
  { sl with
    frames := Vector.ofFn (fun i : Fin 16 => sl.file[i.val + 8]) :: sl.frames
    file := Vector.ofFn fun i : Fin 32 =>
      if i.val < 8 then sl.file[i] else if h : i.val < 16 then sl.file[i.val + 16] else 0
    bad := sl.bad.filter fun n => decide (n < 16 * sl.depth.toNat + 32)
    depth := sl.depth + 1 }

/-- The window rotates back (R223): s8-s23 come from the caller's frame, s24-s31 keep the callee's s8-s15. A result that
a register of the abandoned window awaited is dropped. -/
def Slot.rotateBack (sl : Slot) : Slot :=
  match sl.frames with
  | [] => sl
  | f :: r =>
    let gone := 16 * sl.depth.toNat + 16
    { sl with
      frames := r
      file := Vector.ofFn fun i : Fin 32 =>
        if i.val < 8 then sl.file[i]
        else if h : i.val < 24 then f[i.val - 8] else sl.file[i.val - 16]
      depth := sl.depth - 1
      bad := sl.bad.filter fun n => decide (n < gone)
      pend := sl.pend.map fun p => { p with dst := p.dst.map fun n => if gone ≤ n then 0 else n } }

end Sys2Proof.Machine
end

