-- ==== Sys2Proof/Machine/Scalar.lean ====
section
/-!
DEFINITION. Integer and address arithmetic, compares, predicate logic and selection of the needle core (R212-R217).
-/
namespace Sys2Proof.Machine

/-! ### The values of R212 -/

/-- DIV of R212: a zero divisor gives all ones. -/
def divS (a b : Word) : Word := if b = 0 then BitVec.allOnes 64 else a.sdiv b

/-- DIVU of R212. -/
def divU (a b : Word) : Word := if b = 0 then BitVec.allOnes 64 else a.udiv b

/-- REM of R212: the sign of `a`; a zero divisor gives `a`. -/
def remS (a b : Word) : Word := if b = 0 then a else a.srem b

/-- REMU of R212. -/
def remU (a b : Word) : Word := if b = 0 then a else a.umod b

/-- Bits [127:64] of the signed product. -/
def mulHigh (a b : Word) : Word := BitVec.ofInt 64 (a.toInt * b.toInt / 2 ^ 64)

/-- Bits [127:64] of the unsigned product. -/
def mulHighU (a b : Word) : Word := BitVec.ofNat 64 (a.toNat * b.toNat / 2 ^ 64)

/-- Shifts take b[5:0] (R212). -/
def shAmount (b : Word) : Nat := b.toNat % 64

/-- Leading zeros, from 0 to 64. -/
def clz (a : Word) : Word := BitVec.ofNat 64 (if a = 0 then 64 else 63 - Nat.log2 a.toNat)

/-- Trailing zeros, from 0 to 64. -/
def ctz (a : Word) : Word := BitVec.ofNat 64 (((List.range 64).find? fun i => a.getLsbD i).getD 64)

/-- Set bits. -/
def popc (a : Word) : Word := BitVec.ofNat 64 ((List.range 64).filter fun i => a.getLsbD i).length

def minS (a b : Word) : Word := if a.slt b then a else b
def maxS (a b : Word) : Word := if a.slt b then b else a
def minU (a b : Word) : Word := if a.ult b then a else b
def maxU (a b : Word) : Word := if a.ult b then b else a

/-! ### The ALU major (R212) -/

def execAdd (d a b : BitVec 5) (s : State) : Host.Outcome State Fault Refusal := .next (s.alu d a b (fun x y => x + y))
def execSub (d a b : BitVec 5) (s : State) : Host.Outcome State Fault Refusal := .next (s.alu d a b (fun x y => x - y))
def execMul (d a b : BitVec 5) (s : State) : Host.Outcome State Fault Refusal := .next (s.alu d a b (fun x y => x * y))
def execMulh (d a b : BitVec 5) (s : State) : Host.Outcome State Fault Refusal := .next (s.alu d a b mulHigh)
def execMulhu (d a b : BitVec 5) (s : State) : Host.Outcome State Fault Refusal := .next (s.alu d a b mulHighU)
def execDiv (d a b : BitVec 5) (s : State) : Host.Outcome State Fault Refusal := .next (s.alu d a b divS)
def execDivu (d a b : BitVec 5) (s : State) : Host.Outcome State Fault Refusal := .next (s.alu d a b divU)
def execRem (d a b : BitVec 5) (s : State) : Host.Outcome State Fault Refusal := .next (s.alu d a b remS)
def execRemu (d a b : BitVec 5) (s : State) : Host.Outcome State Fault Refusal := .next (s.alu d a b remU)
def execAnd (d a b : BitVec 5) (s : State) : Host.Outcome State Fault Refusal := .next (s.alu d a b (fun x y => x &&& y))
def execOr (d a b : BitVec 5) (s : State) : Host.Outcome State Fault Refusal := .next (s.alu d a b (fun x y => x ||| y))
def execXor (d a b : BitVec 5) (s : State) : Host.Outcome State Fault Refusal := .next (s.alu d a b (fun x y => x ^^^ y))
def execAndn (d a b : BitVec 5) (s : State) : Host.Outcome State Fault Refusal := .next (s.alu d a b (fun x y => x &&& ~~~y))
def execShl (d a b : BitVec 5) (s : State) : Host.Outcome State Fault Refusal := .next (s.alu d a b (fun x y => x <<< shAmount y))
def execShr (d a b : BitVec 5) (s : State) : Host.Outcome State Fault Refusal := .next (s.alu d a b (fun x y => x >>> shAmount y))
def execSra (d a b : BitVec 5) (s : State) : Host.Outcome State Fault Refusal := .next (s.alu d a b (fun x y => x.sshiftRight (shAmount y)))
def execMin (d a b : BitVec 5) (s : State) : Host.Outcome State Fault Refusal := .next (s.alu d a b minS)
def execMax (d a b : BitVec 5) (s : State) : Host.Outcome State Fault Refusal := .next (s.alu d a b maxS)
def execMinu (d a b : BitVec 5) (s : State) : Host.Outcome State Fault Refusal := .next (s.alu d a b minU)
def execMaxu (d a b : BitVec 5) (s : State) : Host.Outcome State Fault Refusal := .next (s.alu d a b maxU)
def execClz (d a : BitVec 5) (s : State) : Host.Outcome State Fault Refusal :=
  .next (s.onSlot [d, a] fun sl => sl.setSreg d (clz (sl.sreg a)))
def execCtz (d a : BitVec 5) (s : State) : Host.Outcome State Fault Refusal :=
  .next (s.onSlot [d, a] fun sl => sl.setSreg d (ctz (sl.sreg a)))
def execPopc (d a : BitVec 5) (s : State) : Host.Outcome State Fault Refusal :=
  .next (s.onSlot [d, a] fun sl => sl.setSreg d (popc (sl.sreg a)))

/-! ### The immediate majors (R213) and LEA (R214) -/
def execAddi (d a : BitVec 5) (i : BitVec 15) (s : State) : Host.Outcome State Fault Refusal :=
  .next (s.aluImm d a (fun sl => sl.immS i) (fun x y => x + y))
def execAndi (d a : BitVec 5) (i : BitVec 15) (s : State) : Host.Outcome State Fault Refusal :=
  .next (s.aluImm d a (fun sl => sl.immZ i) (fun x y => x &&& y))
def execOri (d a : BitVec 5) (i : BitVec 15) (s : State) : Host.Outcome State Fault Refusal :=
  .next (s.aluImm d a (fun sl => sl.immZ i) (fun x y => x ||| y))
def execXori (d a : BitVec 5) (i : BitVec 15) (s : State) : Host.Outcome State Fault Refusal :=
  .next (s.aluImm d a (fun sl => sl.immZ i) (fun x y => x ^^^ y))
def execMuli (d a : BitVec 5) (i : BitVec 15) (s : State) : Host.Outcome State Fault Refusal :=
  .next (s.aluImm d a (fun sl => sl.immS i) (fun x y => x * y))
def execShli (d a : BitVec 5) (i : BitVec 6) (s : State) : Host.Outcome State Fault Refusal :=
  .next (s.aluImm d a (fun _ => i.zeroExtend 64) (fun x y => x <<< y.toNat))
def execShri (d a : BitVec 5) (i : BitVec 6) (s : State) : Host.Outcome State Fault Refusal :=
  .next (s.aluImm d a (fun _ => i.zeroExtend 64) (fun x y => x >>> y.toNat))
def execSrai (d a : BitVec 5) (i : BitVec 6) (s : State) : Host.Outcome State Fault Refusal :=
  .next (s.aluImm d a (fun _ => i.zeroExtend 64) (fun x y => x.sshiftRight y.toNat))
def execLea (d a b : BitVec 5) (h : BitVec 3) (s : State) : Host.Outcome State Fault Refusal :=
  .next (s.alu d a b (fun x y => x + y <<< h.toNat))

/-! ### Compares, predicates and selection (R215-R217) -/

def execCmp (p : BitVec 3) (a b : BitVec 5) (c : BitVec 4) (s : State) : Host.Outcome State Fault Refusal :=
  .next (s.onSlot [a, b] fun sl => sl.setPred p (intCompare c.toNat (sl.sreg a) (sl.sreg b)))

def execCmpi (p : BitVec 3) (a : BitVec 5) (c : BitVec 4) (i : BitVec 11) (s : State) : Host.Outcome State Fault Refusal :=
  .next (s.onSlot [a] fun sl => sl.setPred p (intCompare c.toNat (sl.sreg a) (sl.immS i)))

/-- p[d] from two predicates (R216). -/
def State.plog (s : State) (d a b : BitVec 3) (f : Bool → Bool → Bool) : State :=
  s.onSlot [] fun sl => sl.setPred d (f (sl.pred a) (sl.pred b))

def execPand (d a b : BitVec 3) (s : State) : Host.Outcome State Fault Refusal := .next (s.plog d a b (fun x y => x && y))
def execPor (d a b : BitVec 3) (s : State) : Host.Outcome State Fault Refusal := .next (s.plog d a b (fun x y => x || y))
def execPxor (d a b : BitVec 3) (s : State) : Host.Outcome State Fault Refusal := .next (s.plog d a b (fun x y => x != y))
def execPandn (d a b : BitVec 3) (s : State) : Host.Outcome State Fault Refusal := .next (s.plog d a b (fun x y => x && !y))

/-- A predicate with a polarity bit (R217, R222). -/
def Slot.predX (sl : Slot) (p : BitVec 3) (n : BitVec 1) : Bool := sl.pred p != decide (n = 1)

def execSel (d a b : BitVec 5) (n : BitVec 1) (p : BitVec 3) (s : State) : Host.Outcome State Fault Refusal :=
  .next (s.onSlot [d, a, b] fun sl => sl.setSreg d (if sl.predX p n then sl.sreg a else sl.sreg b))

end Sys2Proof.Machine
end

