-- ==== Sys2Proof/Machine/Turn.lean ====
section
/-!
DEFINITION. Whose turn it is and what it runs: the agenda (log 1), an instruction boundary of a needle slot with its
fetch and decoding (R135, R137, R389, R479, R502), and the steps that happen when the agenda names none.
-/
namespace Sys2Proof.Machine

/-- What a turn comes to: nothing runs, an instruction (or step) runs on a state, or the unit does not exist. -/
inductive Pick where
  | pass (s : State)
  | run (i : Instr) (s : State)
  | absent

/-- A word that takes an EXT before it (R136). -/
def takesExt (i : Instr) : Bool :=
  match i with
  | .addi _ _ _ | .andi _ _ _ | .ori _ _ _ | .xori _ _ _ | .muli _ _ _ | .cmpi _ _ _ _ => true
  | .ld _ _ _ _ _ | .lds _ _ _ _ _ | .st _ _ _ _ _ | .ldf _ _ _ | .stf _ _ _ | .ste _ _ _ => true
  | .xst _ _ _ _ _ | .vld _ _ _ _ _ | .vst _ _ _ _ _ => true
  | .b _ | .bc _ _ _ | .call _ => true
  | _ => false

/-- The budget of a handler falls by one in each of `d` cycles (R391): not in a trap handler, and not where there is none. -/
def Slot.tick (d : Nat) (sl : Slot) : Slot :=
  match sl.run with
  | .handler _ =>
    if sl.inTrap || sl.budget == 0 then sl
    else { sl with budget := BitVec.ofNat 32 (sl.budget.toNat - d), budgetDue := sl.budgetDue || decide (sl.budget.toNat ≤ d) }
  | _ => sl

/-- A bucket gains RATE in each of `d` cycles, up to its depth (R498). -/
def Bucket.fill (d : Nat) (b : Bucket) : Bucket :=
  { b with count := min (b.count + d * b.rate.toNat) (b.depth.toNat * 256) }

/-- A bucket lets `n` tokens enter; a RATE of 256 or more never limits its port (R498). -/
def Bucket.ready (b : Bucket) (n : Nat) : Bool := decide (256 ≤ b.rate.toNat) || decide (256 * n ≤ b.count)

/-- The cycles from the present one of a tile to the next one of slot `k`, one to eight (R389; log 13). -/
def Tile.ahead (T : Tile) (k : Nat) : Nat := (k + 15 - T.cycles.toNat % 8) % 8 + 1

/-- The cycles of a tile pass up to the next one of slot `k`: CYCLES counts, budgets fall, buckets fill (R44, R391, R498; log 13), and
in a new window the panel's level holds (R502). -/
def Tile.tick (level k : Nat) (T : Tile) : Tile :=
  let d := T.ahead k
  let c := T.cycles + BitVec.ofNat 64 d
  { T with cycles := c, slots := T.slots.map (Slot.tick d), buckW := T.buckW.fill d, buckC0 := T.buckC0.fill d, buckC1 := T.buckC1.fill d
           level := if c.toNat / 8 = T.cycles.toNat / 8 then T.level else level }

/-- The cycle of slot `k` in the present window is withheld at the level that holds in it (R502). -/
def State.withheld (s : State) (t k : Nat) : Bool :=
  decide ((s.tile t).level ≤ (k + 8 - (s.tile t).cycles.toNat / 8 % 8) % 8)

/-- Nothing of the tile issues: its clock is gated, a clock switch holds issue, or it has no clock (R44, R91). -/
def State.stopped (s : State) (t : Nat) : Bool := (s.tile t).gated || (s.silicon t).hold || (s.silicon t).dark

/-- The slot has a handler. -/
def Slot.runs (sl : Slot) : Bool :=
  match sl.run with
  | .handler _ => true
  | _ => false

/-- The instruction at the pc, once fetched and decoded (R134, R135, R137): PSTAT's rows differ by s[a][63:62]
(R399, log 19); a word that cannot follow an EXT is reserved. -/
def Slot.decode (sl : Slot) (w : Nat) : Option Instr :=
  match decodeS w with
  | .error _ => none
  | .ok i =>
    if sl.ext.isSome && !takesExt i then none
    else
      match i with
      | .pstatPocket d a =>
        some (match get (sl.sreg a) 63 62 with
          | 1 => .pstatWaiting d a
          | 2 => .pstatAllocation d a
          | _ => .pstatPocket d a)
      | j => some j

/-- The vector registers an instruction reads or writes (R281-R296); an mx conversion also the next one (R291). -/
def vecRegs (i : Instr) : List (BitVec 3) :=
  match i with
  | .vadd d a b _ _ _ | .vsub d a b _ _ _ | .vmul d a b _ _ _ | .vmulh d a b _ _ _ | .vmulhu d a b _ _ _ => [d, a, b]
  | .vand d a b _ _ _ | .vor d a b _ _ _ | .vxor d a b _ _ _ | .vandn d a b _ _ _ | .vshl d a b _ _ _ => [d, a, b]
  | .vshr d a b _ _ _ | .vsra d a b _ _ _ | .vmin d a b _ _ _ | .vmax d a b _ _ _ | .vminu d a b _ _ _ => [d, a, b]
  | .vmaxu d a b _ _ _ | .vadds d a b _ _ _ | .vaddsu d a b _ _ _ | .vsubs d a b _ _ _ | .vsubsu d a b _ _ _ => [d, a, b]
  | .vabs d a _ _ _ | .vmov d a _ _ _ => [d, a]
  | .vmad d a b c _ _ _ | .vffma d a b c _ _ _ _ => [d, a, b, c]
  | .vsplat d _ _ _ _ => [d]
  | .vcmp _ a b _ _ _ _ | .vfcmp _ a b _ _ _ _ => [a, b]
  | .vfadd d a b _ _ _ _ | .vfsub d a b _ _ _ _ | .vfmul d a b _ _ _ _ | .vfdiv d a b _ _ _ _ => [d, a, b]
  | .vfsqrt d a _ _ _ _ | .vfabs d a _ _ _ | .vfneg d a _ _ _ => [d, a]
  | .vfmin d a b _ _ _ | .vfmax d a b _ _ _ => [d, a, b]
  | .vcvt d a f _ _ _ t =>
    [d, a] ++ (if 0x13 ≤ t.toNat then [d + 1] else []) ++ (if 0x13 ≤ f.toNat then [a + 1] else [])
  | .vradd d a _ _ | .vrmin d a _ _ | .vrmax d a _ _ | .vrminu d a _ _ | .vrmaxu d a _ _ | .vrand d a _ _ => [d, a]
  | .vror d a _ _ | .vrxor d a _ _ | .vrfadd d a _ _ _ | .vrfmin d a _ _ | .vrfmax d a _ _ => [d, a]
  | .vperm d a b _ _ _ | .vziplo d a b _ _ _ | .vziphi d a b _ _ _ | .vunzlo d a b _ _ _ | .vunzhi d a b _ _ _ => [d, a, b]
  | .vslup d a _ _ _ _ | .vsldn d a _ _ _ _ | .vcomp d a _ _ | .vexpd d a _ _ _ => [d, a]
  | .vget a _ _ _ => [a]
  | .vgather d a _ _ _ _ | .vscatter d a _ _ _ _ => [d, a]
  | .vld _ v _ _ _ | .vst _ v _ _ _ => [v]
  | _ => []

/-- `b`, and the register after it in a pair (R311). -/
def pairOf (b : BitVec 5) (w : BitVec 1) : List (BitVec 5) := if w = 0 then [b] else [b, b + 1]

/-- The scalar registers that an instruction reads. -/
def instrReads (i : Instr) : List (BitVec 5) :=
  match i with
  | .callr a | .br a | .loop a _ | .mts a _ | .clz _ a | .ctz _ a | .popc _ a | .addi _ a _ | .andi _ a _ | .ori _ a _ => [a]
  | .xori _ a _ | .shli _ a _ | .shri _ a _ | .srai _ a _ | .muli _ a _ | .cmpi _ a _ _ | .fsqrt _ a _ _ | .fabs _ a _ => [a]
  | .fneg _ a _ | .fcvt _ a _ _ _ | .copy _ a | .mres _ a _ | .pbind _ a | .pfree _ a | .pstatPocket _ a => [a]
  | .pstatWaiting _ a | .pstatAllocation _ a | .resume a | .leaveMatrix _ a _ | .leaveSwap _ a _ | .leaveStream _ a _ => [a]
  | .leaveSwatch _ a _ | .tlbinvAll a | .tlbinvAsid a | .asidret _ a | .darnPrep _ a | .darnBank _ a | .swatchRun _ a => [a]
  | .swatchStat _ a | .swatchStop _ a => [a]
  | .add _ a b | .sub _ a b | .mul _ a b | .mulh _ a b | .mulhu _ a b | .div _ a b | .divu _ a b | .rem _ a b => [a, b]
  | .remu _ a b | .and _ a b | .or _ a b | .xor _ a b | .andn _ a b | .shl _ a b | .shr _ a b | .sra _ a b => [a, b]
  | .min _ a b | .max _ a b | .minu _ a b | .maxu _ a b | .cmp _ a b _ | .sel _ a b _ _ | .lea _ a b _ => [a, b]
  | .fadd _ a b _ _ | .fsub _ a b _ _ | .fmul _ a b _ _ | .fdiv _ a b _ _ | .fmin _ a b _ | .fmax _ a b _ => [a, b]
  | .fcmp _ a b _ _ | .amoFadd _ a b _ _ | .send a b | .sendNr a b | .weft _ a b | .foldCfg a b _ | .mload _ a b _ _ => [a, b]
  | .mrow _ a b _ _ | .mdrain _ a b _ | .spawn _ a b | .steal _ a b | .snap _ a b | .tlbinvVa a b => [a, b]
  | .xamoFadd _ a b _ _ => [a, b]
  | .ffma d a b _ _ | .send2 d a b | .send2Nr d a b => [d, a, b]
  | .ld _ b _ _ _ | .lds _ b _ _ _ | .ldf _ b _ | .vld _ _ b _ _ | .vst _ _ b _ _ => [b]
  | .st d b z _ _ | .xst d b z _ _ => b :: sizeRegs d (sizeBytes z)
  | .stf d b _ | .ste d b _ => [d, b]
  | .amoAdd _ a b w _ _ | .amoMinI _ a b w _ _ | .amoMaxI _ a b w _ _ | .amoMinN _ a b w _ _ | .amoMaxN _ a b w _ _ => a :: pairOf b w
  | .amoAnd _ a b w _ _ | .amoOr _ a b w _ _ | .amoXor _ a b w _ _ | .amoSwap _ a b w _ _ | .xamoAdd _ a b w _ _ => a :: pairOf b w
  | .xamoMinI _ a b w _ _ | .xamoMaxI _ a b w _ _ | .xamoMinN _ a b w _ _ | .xamoMaxN _ a b w _ _ => a :: pairOf b w
  | .xamoAnd _ a b w _ _ | .xamoOr _ a b w _ _ | .xamoXor _ a b w _ _ | .xamoSwap _ a b w _ _ => a :: pairOf b w
  | .amoCas d a b w _ _ | .xamoCas d a b w _ _ => a :: (pairOf d w ++ pairOf b w)
  | .foldPut b _ => [b, b + 1, b + 2, b + 3]
  | .vsplat _ c _ _ _ | .vslup _ _ c _ _ _ | .vsldn _ _ c _ _ _ | .vgather _ _ c _ _ _ | .vscatter _ _ c _ _ _ => [global c]
  | .ret => [15]
  | _ => []

/-- A load into a vector register that the instruction names is outstanding: it stalls (R209). -/
def Slot.vecStalls (sl : Slot) (i : Instr) : Bool :=
  (vecRegs i).any fun v => sl.pend.any fun p => match p.kind with
    | .vec u _ _ _ _ => u == v
    | _ => false

/-- The descriptor of a test of tile `t`. -/
def descOf (t test unit sub : Nat) : Word :=
  put 60 4 test + put 24 5 unit + put 20 4 sub + put 8 8 (tileY t) + put 0 8 (tileX t)

/-- The machine with a tile's tests changed. -/
def State.modSwatch (s : State) (t : Nat) (f : Swatch → Swatch) : State :=
  s.modTile t fun T => { T with swatch := f T.swatch }

/-- A test starts on tile `t`. -/
def State.queueTest (s : State) (t : Nat) (x : Test) : State := s.modSwatch t fun w => { w with running := w.running ++ [x] }

/-- The hardware starts a test of its own on tile `t`: a targeted one (R489), or one of a round (R492). -/
def State.startTest (s : State) (t test unit sub : Nat) (targeted : Bool) : State :=
  s.queueTest t ⟨0, descOf t test unit sub, t, targeted, 0, false, false, none⟩

/-- The running slot's instruction reads a register with an error of two bits (R488, R489): it traps with EDATA and SUB 1, the error is
counted, and the router and every element are tested. Which unit it is counted under the spec does not say (a free value, log 15). -/
def State.registerTrap (s : State) (t : Nat) : State :=
  let s1 := (List.range 16 ++ [28]).foldl (fun (a : State) u => a.queueTest t ⟨0, descOf t 0 u 0, t, true, 0, false, true, none⟩) (s.useFree.care1 t 0x0002 (get s.freeVal 15 0))
  s1.trap 0x0D 1 0

/-- The issue of the instruction at the slot's pc: a fetch fault, a wait, a reserved word, or the instruction. -/
def State.issue (s : State) (t k : Nat) : Pick :=
  let sl := s.slot t k
  let s := if sl.held.isSome && !sl.cut then s.modSlot t k fun sl => { sl with held := none } else s
  match s.fetch t k sl.pc with
  | .wait s1 => .pass s1
  | .trap s1 c sub => .run .fetchFault { s1 with ev := { EvArgs.none with n := c, unit := sub, v := sl.pc.zeroExtend 128 } }
  | .word s1 w =>
    match sl.decode w with
    | some i =>
      if sl.vecStalls i then .pass s1
      else if (instrReads i).any fun r => r != 0 && sl.bad.contains (sl.absReg r) then
        .pass (s1.registerTrap t)
      else .run i s1
    | none => .run .reservedEncoding { s1 with ev := { EvArgs.none with v := BitVec.ofNat 128 w } }

/-- The turn of a needle slot: what is due at its instruction boundary, in the order of R479, and never between the two
words of an EXT pair, where a throttle step does not act either (R138). A slot that waits at a full-empty word issues nothing but takes what is due (R310). -/
def State.needleTurn (s0 : State) (t k : Nat) : Pick :=
  if tileCount ≤ t ∨ 8 ≤ k then .absent
  else if (s0.silicon t).dark then .pass s0
  else
    let s := { s0.modTile t (Tile.tick (s0.panel (s0.panelOf t)).level k) with focus := .needle t k }
    let sl := s.slot t k
    if s.stopped t || !sl.runs then .pass s
    else if sl.dying.isSome then .run .hend s
    else if sl.ext.isSome && !sl.waiting then s.issue t k
    else if s.withheld t k then .pass s
    else if !sl.inTrap && !sl.late.isEmpty then .run .lateRefusalTrap { s with ev := { EvArgs.none with tile := t, unit := k } }
    else if !sl.inTrap && sl.budgetDue then .run .budgetExpiry { s with ev := { EvArgs.none with tile := t, unit := k } }
    else if sl.waiting || sl.lateFull then .pass s
    else s.issue t k

end Sys2Proof.Machine
end

