-- ==== Sys2Proof/Machine/Control.lean ====
section
/-!
DEFINITION. Control flow of the needle core: the EXT prefix (R136-R138, R235), branches (R222), calls and returns
(R223, R224), hardware loops (R227), TRAP (R406), ERET (R407), HEND (R240), FENCE and IFENCE (R314, R315).
-/
namespace Sys2Proof.Machine

/-! ### EXT (R136-R138) -/

/-- EXT: the word after it must accept the payload, and no armed body may end here (R135, R137). R137 does not say at which depth and
mode the loop is armed: DESIGN CHOICE (log 17), the EXT traps at the end of the entry that R228 would step, the top one armed at the
present window depth and mode. -/
def execExt (p : BitVec 25) (s : State) : Host.Outcome State Fault Refusal :=
  let sl := s.cur
  .next (match s.fetch s.ft s.fk (sl.pc + 4) with
    | .wait s1 => s1
    | .trap s1 c sub => s1.trap c sub (sl.pc + 4)
    | .word s1 w =>
      let follows := match decodeS w with
        | .ok i => takesExt i
        | .error _ => false
      if !follows || (sl.loopHere && decide (sl.pc = sl.top.stop)) then s1.trapIllegal (.ext p)
      else s1.modCur fun sl => { sl with ext := some p, pc := sl.pc + 4 })

/-! ### Branches (R222) -/

/-- B. -/
def execB (o : BitVec 21) (s : State) : Host.Outcome State Fault Refusal :=
  .next (s.modCur fun sl => sl.goto (sl.branchTo o) true)

/-- BC: taken when p[N] XOR polarity is 1. -/
def execBc (p : BitVec 3) (n : BitVec 1) (o : BitVec 21) (s : State) : Host.Outcome State Fault Refusal :=
  .next (s.modCur fun sl => if sl.predX p n then sl.goto (sl.branchTo o) true else sl.advance)

/-- BR: a target that is not a multiple of 4 traps with EALIGN (R131). -/
def execBr (a : BitVec 5) (s : State) : Host.Outcome State Fault Refusal :=
  .next (if s.cur.pendsOn [a] then s
    else if (s.cur.sreg a).toNat % 4 ≠ 0 then s.trap 0x02 0 (s.cur.sreg a)
    else s.modCur fun sl => sl.goto (sl.sreg a) true)

/-! ### Calls and returns (R223, R224) -/

/-- call of R223 for instruction `i`. R223 gives the EALIGN of R131 no place: DESIGN CHOICE (log 64), it comes after the depth and before
the spill. -/
def State.callTo (s : State) (i : Instr) (target : Word) : State :=
  let sl := s.cur
  if sl.depth = 65535 then s.trapIllegal i
  else if target.toNat % 4 ≠ 0 then s.trap 0x02 0 target
  else
    match (if sl.frames.length < 5 then Win.done s else s.spill s.ft s.fk i) with
    | .wait s1 => s1
    | .trap s1 c sub v => s1.trap c sub v
    | .done s1 =>
      s1.modCur fun sl =>
        let r := sl.loopStep (sl.pc + 4) false
        { r.1.rotate.setSreg 15 r.2 with pc := target, ext := none }

/-- CALL; it waits for the caller's s31, which it writes (R209). -/
def execCall (o : BitVec 21) (s : State) : Host.Outcome State Fault Refusal :=
  .next (if s.cur.pendsOn [31] then s else s.callTo (.call o) (s.cur.branchTo o))

/-- CALLR. -/
def execCallr (a : BitVec 5) (s : State) : Host.Outcome State Fault Refusal :=
  .next (if s.cur.pendsOn [a, 31] then s else s.callTo (.callr a) (s.cur.sreg a))

/-- Every loop entry of the depth that a RET leaves is disarmed (R223). -/
def Slot.disarmDepth (sl : Slot) : Slot :=
  let a := if sl.below.armed && decide (sl.below.depth = sl.depth) then
    { sl with below := { sl.below with armed := false } } else sl
  if a.top.armed && decide (a.top.depth = a.depth) then a.dropTop else a

/-- RET: ret of R223. -/
def execRet (s : State) : Host.Outcome State Fault Refusal :=
  let sl := s.cur
  .next (if sl.pendsOn [15] then s
    else if sl.depth = 0 then s.trapIllegal .ret
    else if (sl.sreg 15).toNat % 4 ≠ 0 then s.trap 0x02 0 (sl.sreg 15)
    else
      match (if sl.frames.isEmpty then s.fillWindow s.ft s.fk .ret else Win.done s) with
      | .wait s1 => s1
      | .trap s1 c sub v => s1.trap c sub v
      | .done s1 => s1.modCur fun sl => { sl.disarmDepth.rotateBack with pc := sl.sreg 15, ext := none })

/-! ### Loops, traps, the end of a handler -/

/-- loop of R227 for the slot, once its EILLEGAL checks have passed. -/
def Slot.armLoop (sl : Slot) (count : Word) (o : BitVec 15) : Slot :=
  let stop := sl.pc + 4 * o.zeroExtend 64
  if count = 0 then { sl with pc := stop }.goto (stop + 4) false
  else
    { sl with
      below := if sl.top.armed then sl.top else sl.below
      top := ⟨sl.pc + 4, stop, count, sl.depth, decide (sl.mode = Mode.system), true⟩
      pc := sl.pc + 4
      ext := none }

/-- LOOP. -/
def execLoop (a : BitVec 5) (o : BitVec 15) (s : State) : Host.Outcome State Fault Refusal :=
  let sl := s.cur
  .next (if sl.pendsOn [a] then s
    else if (sl.top.armed && sl.below.armed)
        || (sl.loopHere && decide (sl.top.stop < sl.pc + 4 * o.zeroExtend 64)) then s.trapIllegal (.loop a o)
    else s.modCur fun sl => sl.armLoop (sl.sreg a) o)

/-- TRAP completes, then traps with ETRAP (R406). -/
def execTrap (c : BitVec 15) (s : State) : Host.Outcome State Fault Refusal :=
  let s1 := s.modCur Slot.advance
  .next (s1.takeTrap s.ft s.fk (trapWord 0x0C 0 false) s1.cur.pc s.cur.instrPc (c.zeroExtend 64))

/-- ERET (R407). -/
def execEret (s : State) : Host.Outcome State Fault Refusal :=
  let sl := s.cur
  .next (if sl.mode = .user then s.trapPriv .eret
    else if !sl.inTrap then s.trapIllegal .eret
    else if sl.trapPc.toNat % 4 ≠ 0 then s.trap 0x02 0 sl.trapPc
    else s.modCur Slot.returned)

/-- FENCE: a scope of panel or wider also waits for the slot's entries of the pending-store table, and system scope until its
stores beyond the local stores are performed there (R314, R329). -/
def execFence (c : BitVec 3) (s : State) : Host.Outcome State Fault Refusal :=
  .next (if s.cur.accesses.isEmpty &&
        (decide (c.toNat < 2) || !((s.tile s.ft).stores.any fun e => e.slot == s.fk % 8)) &&
        (decide (c.toNat ≠ 4) || !(s.behind.any fun b => b.tile == s.ft && b.slot == s.fk % 8)) then s.modCur Slot.advance
    else s)

/-- IFENCE: the model holds no fetched words, and earlier stores are at tile scope already (R315, log 12). -/
def execIfence (s : State) : Host.Outcome State Fault Refusal := .next (s.modCur Slot.advance)

end Sys2Proof.Machine
end

