-- ==== Sys2Proof/Machine/Pockets.lean ====
section
/-!
DEFINITION. Pockets and handlers (R210, R211, R373-R391): what a handler finds at its entry, where an arriving stitch
is placed, binding a pocket, and the picker with its placement log (R394, R395).
-/
namespace Sys2Proof.Machine

/-! ### Entering a handler (R210, R211, R367, R388) -/

/-- The stitch descriptor of R211 for a stitch of a pocket, relative to the origin of allocation `a`. -/
def descriptor (a : Alloc) (p : Pocket) (label : Nat) (st : Stitch) : Word :=
  let back := st.status = 1 ∨ st.status = 2
  let t := if back then st.dst else st.src
  put 60 4 st.status.toNat + put 40 8 ((tileY t + 256 - a.y) % 256) + put 32 8 ((tileX t + 256 - a.x) % 256)
    + put 24 7 (if back then st.label else label) + put 23 1 (bit st.srcElem) + put 16 4 st.srcUnit
    + put 4 1 (bit p.two) + put 2 2 p.tag1.toNat + put 0 2 p.tag0.toNat

/-- Word 1 as a pocket delivers it: 0 of a one-word stitch, and none in a one-word pocket (R210, R238). -/
def Pocket.word1 (p : Pocket) (st : Stitch) : Word := if p.two && st.two then st.w1 else 0

/-- An address whose bits [47:6] a register holds, sign-extended from bit 47 (R372, R408). -/
def sext48 (w : Word) : Word := (w.setWidth 48).signExtend 64

/-- The state a slot holds at the entry of a handler (R210). -/
def handlerSlot (o : Owner) (mode : Mode) (entry sbase ssize w0 w1 desc : Word) (asid : BitVec 12) (gen : BitVec 4)
    (budget : BitVec 32) : Slot :=
  { Slot.reset with
    run := .handler o
    mode := mode
    pc := pcOf entry
    file := Vector.ofFn fun i : Fin 32 =>
      if i.val = 1 then sbase else if i.val = 8 then w0 else if i.val = 9 then w1 else if i.val = 10 then desc else 0
    wsp := sbase + ssize
    asid := asid
    gen := gen
    budget := budget }

/-- The ASID and generation of a handler of an actor (R367): those of a pattern actor's launch; for the system actor those of the
launch that its tile accepted last, or ASID 0 with GEN[0] before any launch. -/
def State.actorAsid (s : State) (A : Actor) (sys : Bool) : BitVec 12 × BitVec 4 :=
  if sys && A.launch.isSome then (A.savedAsid, A.savedGen)
  else
    match A.launch.bind s.launch? with
    | some l => (l.asid, l.gen)
    | none => (0, (s.asid 0).gen)

/-- The allocation that the handlers of a pocket see: their launch's, or the whole mesh for the system actor (R236). -/
def State.pocketAlloc (s : State) (t : Nat) (p : Pocket) : Alloc :=
  if p.sys then wholeMesh else s.allocOf ((s.tile t).router.actor p.owner).launch

/-- Start the handler of pocket `l` of tile `t` on slot `k` with a stitch that has left the pocket (R210, R388). The
trap registers, TSCR and TVEC keep their values. A stitch of label 125 names its handler in word 0 (R261, R508). -/
def State.startHandler (s : State) (t k l : Nat) (st : Stitch) : State :=
  let r := (s.tile t).router
  let p := r.pocket l
  let A := if p.sys then r.sysActor else r.actor p.owner
  let ag := s.actorAsid A p.sys
  let o := if p.sys then Owner.sys else Owner.actor p.owner
  let fresh := handlerSlot o (if p.sys then .system else .user) (if l = 125 then st.w0 else p.entry) A.sbase A.ssize st.w0 (p.word1 st)
    (descriptor (s.pocketAlloc t p) p l st) ag.1 ag.2 (if p.sys then 0 else r.hbdef)
  (s.modSlot t k fun sl =>
    { fresh with trapCause := sl.trapCause, trapPc := sl.trapPc, trapVal := sl.trapVal, tscr := sl.tscr }).modRouter t
      fun r =>
        if p.sys then { r with sysActor := { r.sysActor with state := .running, slot := k } }
        else r.modActor p.owner fun a => { a with state := .running, slot := k }

/-! ### Placing an arriving stitch (R29, R376-R385, R512) -/

/-- Put a stitch into the hold queue; at its last entry FULL is set (R384). An orphan keeps how many orphans stood in overflow entries
before it (R385). -/
def Router.hold (r : Router) (label : Nat) (orphan : Bool) (st : Stitch) : Router :=
  let q := r.holdq ++ [⟨label, orphan, st, if orphan then r.orphans.length else 0⟩]
  let full := decide (q.length = 2 ^ r.hqLog.toNat)
  let r1 := { r with holdq := q, hqFull := r.hqFull || full }
  if orphan then r1 else r1.modPocket label fun p => { p with held := true }.settle

/-- Answer an accepted stitch (R380). An accepted launch stitch gives the system actor its launch (R367, R396). -/
def State.answer (s : State) (t : Nat) (st : Stitch) : State :=
  let s1 := match st.launch.bind s.launch? with
    | some l => if st.label = 125 then
        s.modRouter t fun r => { r with sysActor :=
          { r.sysActor with launch := st.launch, savedAsid := l.asid, savedGen := l.gen } }
      else s
    | none => s
  if st.src < tileCount then s1.post (.answer st) t st.src false else s1

/-- Put a stitch into the hold queue and answer it; without a hold queue it goes back with STATUS 1 and is counted
(R377). -/
def State.holdOrReturn (s : State) (t label : Nat) (orphan : Bool) (st : Stitch) : State :=
  if (s.tile t).router.hqLog = 0 then (s.care1 t 0x000A 1).giveBack t st 1 true
  else
    let s1 := (s.modRouter t fun r => r.hold label orphan st).answer t st
    if (s1.tile t).router.holdStall then s1.care1 t 0x000A 0 else s1

/-- The pocket as the stitch finds it: a handle that names another owner finds it unbound (R378). -/
def Router.pocketFor (r : Router) (st : Stitch) : Pocket :=
  let p := r.pocket st.label
  match st.handle with
  | some h => if p.sys || p.owner != h.toNat / 2 ^ 10 % 32 then { p with state := .unbound } else p
  | none => p

/-- A record is bound: BOUND, RUNNING or AWAY (R373). -/
def Actor.isBound (a : Actor) : Bool := decide (a.state = .bound ∨ a.state = .running ∨ a.state = .away)

/-- The record that a handle names is bound with its incarnation (R378). -/
def Router.handleBound (r : Router) (h : BitVec 32) : Bool :=
  let a := r.actor (h.toNat / 2 ^ 10 % 32)
  a.isBound && decide (a.inc.toNat = h.toNat % 2 ^ 10)

/-- A stitch for a live pocket that no table refuses is placed (R378). -/
def State.placeLive (s : State) (t : Nat) (st : Stitch) : State :=
  let r := (s.tile t).router
  let p := r.pocket st.label
  if p.held then s.holdOrReturn t st.label false st
  else if decide (p.store.length ≤ p.depthM1) && p.ovf.isEmpty && decide (r.storeUsed < 256) then
    (s.modRouter t fun r => r.modPocket st.label fun p => { p with store := p.store ++ [st] }.settle).answer t st
  else if r.ovfFree then
    (s.modRouter t fun r => r.modPocket st.label fun p => { p with ovf := p.ovf ++ [st] }.settle).answer t st
  else if r.refusal.length < 64 then
    (s.modRouter t fun r => { r with refusal := r.refusal ++ [(st.src, st.label)] }).giveBack t st 1 true
  else s.holdOrReturn t st.label false st

/-- A steal request that names no target is dropped when it arrives (R401). -/
def State.badSteal (s : State) (st : Stitch) : Bool :=
  st.label == 126 && ((s.allocOf st.launch).target st.w0).isNone

/-- arrive of R378 at a tile that delivers normally. -/
def State.arrive (s : State) (t : Nat) (st : Stitch) : State :=
  let r := (s.tile t).router
  let p := r.pocketFor st
  if st.handle.any fun h => !r.handleBound h then s.giveBack t st 2 true
  else
    match p.state with
    | .freed => s.giveBack t st 2 true
    | .away => s.holdOrReturn t st.label false st
    | .unbound =>
      if r.ovfFree then (s.modRouter t fun r => { r with orphans := r.orphans ++ [st] }).answer t st
      else s.holdOrReturn t st.label true st
    | _ =>
      if s.badSteal st then s.answer t st
      else if r.refusal.contains (st.src, st.label) then s.giveBack t st 1 true
      else s.placeLive t st

/-! ### Binding and leaving (R373, R375, R384, R385) -/

/-- Orphans in arrival order: those in overflow entries merged with those in the hold queue, each of which knows how many of the
former came before it (R385). -/
def mergeOrphans (taken : Nat) (ovf : List Stitch) : List HoldEnt → List Stitch
  | [] => ovf.drop taken
  | h :: r => (ovf.drop taken).take (h.seen - taken) ++ h.st :: mergeOrphans (max taken h.seen) ovf r

/-- The orphans of the tile in arrival order (R385). -/
def Router.orphanList (r : Router) : List Stitch := mergeOrphans 0 r.orphans (r.holdq.filter fun h => h.orphan)

/-- The hold-queue entries that `mine` names hold the stitches `l` of pocket `label` in ring order; those left over are free. -/
def putHeld (mine : HoldEnt → Bool) (label : Nat) : List HoldEnt → List Stitch → List HoldEnt
  | [], _ => []
  | h :: r, l =>
    if mine h then
      match l with
      | [] => putHeld mine label r []
      | st :: l' => ⟨label, false, st, 0⟩ :: putHeld mine label r l'
    else h :: putHeld mine label r l

/-- The router without the orphans of `label` that stand in overflow entries; the orphans in the hold queue keep their places among
the others. -/
def Router.dropOrphans (r : Router) (label : Nat) : Router :=
  { r with
    orphans := r.orphans.filter fun st => st.label != label
    holdq := r.holdq.map fun (h : HoldEnt) =>
      { h with seen := ((r.orphans.take h.seen).filter fun st => st.label != label).length } }

/-- Bind pocket `l` to an owner; orphans of the label move in, in arrival order, as many as stood in overflow entries into the
pocket's entries there, and the others set HELD; then they move up as R378 says, or, where the owner is AWAY, to the hold queue
(R384, R385). -/
def Router.bindPocket (r : Router) (l : Nat) (sys : Bool) (owner : Nat) (two : Bool) (tag0 tag1 : BitVec 2)
    (prio depthM1 : Nat) (entry : Word) (away : Bool) : Router :=
  let isMine := fun (h : HoldEnt) => h.orphan && h.label == l
  let mine := r.orphanList.filter fun st => st.label == l
  let n := (r.orphans.filter fun st => st.label == l).length
  let now := if away then mine.drop (mine.length - n) else mine.take n
  let later := if away then mine.take (mine.length - n) else mine.drop n
  let p : Pocket := ⟨if away then .away else .idle, sys, owner, two, tag0, tag1, prio, depthM1, !later.isEmpty, entry, [], now⟩
  let r1 := r.dropOrphans l
  ({ r1 with holdq := putHeld isMine l r1.holdq later, pockets := r.pockets.put l p.settle }).refill

/-- Bind record `n` (R373): INC advances. -/
def Router.bindActor (r : Router) (n : Nat) (sbase ssize : Word) (launch : Option Nat) : Router :=
  r.modActor n fun a => { Actor.reset with state := .bound, inc := a.inc + 1, sbase := sbase, ssize := ssize, launch := launch }

/-- A pocket of an actor that goes AWAY: its stitches move to the hold queue, oldest first, as entries there are free; the entries it
has there hold its oldest stitches, so that ring order stays its order (R375, R384). -/
def Router.pocketAway (r : Router) (l : Nat) : Router :=
  let p := r.pocket l
  let isMine := fun (h : HoldEnt) => h.label == l && !h.orphan
  let all := r.held l
  let k := (r.inHold l).length
  let rest := all.drop k
  ({ r with
    holdq := putHeld isMine l r.holdq (all.take k)
    pockets := r.pockets.put l
      { p with state := .away, store := rest.take p.store.length, ovf := rest.drop p.store.length, held := decide (k ≠ 0) } }).refill

/-- The pocket of a restored actor takes its stitches back out of the hold queue, in ring order, and after them those that had not
moved there yet: into the store, then overflow entries; those that find neither keep the pocket's last entries there (R384). -/
def Router.pocketBack (r : Router) (l : Nat) : Router :=
  let isMine := fun (h : HoldEnt) => h.label == l && !h.orphan
  let p := r.pocket l
  let all := r.held l
  let fits := min (p.depthM1 + 1) (256 + p.store.length - r.storeUsed)
  let ovfRoom := r.ovfcfg.toNat % 4096 + p.ovf.length - r.ovfUsed
  let rest := (all.drop fits).drop ovfRoom
  { r with
    holdq := putHeld isMine l r.holdq rest
    pockets := r.pockets.put l
      ({ p with state := .idle, store := all.take fits, ovf := (all.drop fits).take ovfRoom, held := !rest.isEmpty } : Pocket).settle }

/-- A move into the hold queue that fills it begins a stall, which is counted (R384, R493). -/
def State.stallCount (s old : State) (t : Nat) : State :=
  if (s.tile t).router.holdStall && !(old.tile t).router.holdStall then s.care1 t 0x000A 0 else s

/-! ### The picker (R387, R388, R394, R395) -/

/-- A slot is free. -/
def Tile.slotFree (T : Tile) (k : Nat) : Bool := decide ((T.slot k).run = .free)

/-- The free slots of a tile, lowest first. -/
def Tile.freeSlots (T : Tile) : List Nat := (List.range 8).filter T.slotFree

/-- A pattern actor may take a slot only if another stays free or runs the system actor (R387). -/
def Tile.reserved (T : Tile) : Bool :=
  decide (2 ≤ T.freeSlots.length) || (List.range 8).any fun k => decide ((T.slot k).run = .handler .sys)

/-- Pocket `l` is ready for a pick (R387). Labels 126 and 127 have no handler (R375). -/
def Tile.ready (T : Tile) (l : Nat) : Bool :=
  let p := T.router.pocket l
  decide (p.state = .ready) && !p.store.isEmpty && l != 126 && l != 127 &&
    (if p.sys then decide (T.router.sysActor.state = .bound)
     else decide ((T.router.actor p.owner).state = .bound) && T.reserved)

/-- The labels ready for a pick, ascending. -/
def Tile.readyLabels (T : Tile) : List Nat := (T.router.pockets.map (·.1)).filter T.ready

/-- The least or greatest priority of some labels. -/
def Tile.levelOf (T : Tile) (lowest : Bool) (ls : List Nat) : Nat :=
  ls.foldl (fun a l =>
    let p := (T.router.pocket l).prio
    if lowest then min a p else max a p) (if lowest then 63 else 0)

/-- The label that pick n of R387 chooses, if any pocket is ready. -/
def Tile.choose (T : Tile) : Option Nat :=
  let ls := T.readyLabels
  if ls.isEmpty || T.freeSlots.isEmpty then none
  else
    let lvl := T.levelOf (T.router.pickN % 1024 == 1023) ls
    let here := ls.filter fun l => (T.router.pocket l).prio == lvl
    let last := T.router.lastPick.get 0 lvl
    match here.find? fun l => decide (last < l) with
    | some l => some l
    | none => here.head?

/-- The own-tile offset of entry `i` of the placement log. -/
def Router.plogAt (r : Router) (i : Nat) : Nat := get r.ploga 51 32 + 8 * (i % 2 ^ get r.ploga 4 0)

/-- The entry that records a pick (R394). -/
def pickEntry (k l owner : Nat) (sys : Bool) (n : Nat) : Word :=
  put 60 4 1 + put 57 3 k + put 50 7 l + put 45 5 owner + put 44 1 (bit sys) + put 0 32 n

/-- Write an entry of the placement log in log mode (R395). -/
def State.plogWrite (s : State) (t : Nat) (e : Word) : State :=
  let r := (s.tile t).router
  if r.plogMode = 1 then
    (s.write (localLoc t (r.plogAt (get r.plogb 31 0))) (natBytes 8 e.toNat)).modRouter t fun r =>
      { r with plogb := put 32 32 (get r.plogb 63 32) + put 0 32 (get r.plogb 31 0 + 1) }
  else s

/-- RIDX of the placement log advances; replay ends when it meets WIDX (R395). -/
def Router.plogNext (r : Router) : Router :=
  { r with plogb := put 32 32 ((get r.plogb 63 32 + 1) % 2 ^ 32) + put 0 32 (get r.plogb 31 0) }.plogEnd

/-- The slot and label that a pick takes, none while a RESTORE waits for a slot (R408): the log's entry in replay mode, else the choice of R387 and the lowest free
slot (R387, R395). -/
def State.pickNow (s : State) (t : Nat) : Option (Nat × Nat) :=
  let T := s.tile t
  if T.actWait.any fun w => decide (get w.cmd 63 60 = 2) && !w.done then none
  else if T.router.plogMode = 2 then
    let e := s.read64 (localLoc t (T.router.plogAt (get T.router.plogb 63 32)))
    let k := get e 59 57
    let l := get e 56 50
    if get e 63 60 = 1 ∧ T.ready l = true ∧ T.slotFree k = true then some (k, l) else none
  else
    match T.choose, T.freeSlots.head? with
    | some l, some k => some (k, l)
    | _, _ => none

/-- One pick (R387, R388): nothing where none can be made. -/
def State.pickOne (s : State) (t : Nat) : State :=
  let T := s.tile t
  match s.pickNow t with
  | none => s
  | some (k, l) =>
    match (T.router.pocket l).store.head? with
    | none => s
    | some st0 =>
      let p := T.router.pocket l
      let st := s.unload t st0
      let s1 := (s.startHandler t k l st).modRouter t fun r =>
        { r.takeStitch l 0 with pickN := r.pickN + 1, lastPick := r.lastPick.put p.prio l }
      if T.router.plogMode = 2 then s1.modRouter t Router.plogNext
      else s1.plogWrite t (pickEntry k l p.owner p.sys T.router.pickN)

end Sys2Proof.Machine
end

