-- ==== Sys2Proof/Machine/Actors.lean ====
section
/-!
DEFINITION. Stitches, pockets, tasks and handlers as instructions and steps: SEND (R237), RESUME (R400), PBIND, PFREE
and PSTAT (R397-R399), SPAWN and STEAL (R401, R402), the journey of a stitch (R238, R378-R386), and the picker (R387).
-/
namespace Sys2Proof.Machine

/-! ### SEND and RESUME (R237-R239, R381, R400) -/

/-- The target checks of R237 for code of a slot: nothing where SEND traps with ESTITCH. -/
def State.sendTarget (s : State) (t k : Nat) (w : Word) : Option (Nat × Nat × Option (BitVec 32)) :=
  match (s.allocOf (s.launchOf t k)).target w with
  | some (dst, l, h) => if (s.slot t k).mode = .user ∧ reservedLabel l = true then none else some (dst, l, h)
  | none => none

/-- A stitch of a launch has been accepted or has come back (R262). -/
def State.countReceived (s : State) (l : Option Nat) : State :=
  match l with
  | some n => s.modLaunch n fun x => { x with received := x.received + 1 }
  | none => s

/-- The in-flight counter of a pair reads zero (R381). -/
def Router.counterZero (r : Router) (dst label : Nat) : Bool := r.inFlight.get 0 (flightCounter dst label) == 0

/-- The return pocket can take a stitch that comes back: by itself, in the overflow area or in the hold queue (R384). -/
def Router.returnFits (r : Router) : Bool :=
  (!(r.pocket 0).held && (r.returnRoom || r.ovfFree)) || r.holdFree

/-- A SEND can complete now (R237, R239): the injection queue of 16 has room, or, where the pair is refused locally,
an overflow entry is free or the stitch can enter the return pocket at once. -/
def Router.sendFits (r : Router) (dst label : Nat) : Bool :=
  if r.refusedHere dst label then
    r.ovfFree || (r.counterZero dst label && r.returnRoom && !(r.pocket 0).held
      && !(r.localRef.any fun st => st.dst == dst && st.label == label))
  else decide (r.inj.length < 16)

/-- A stitch refused locally whose turn has come enters the return pocket (R381). -/
def Router.returnLocal (r : Router) : Router :=
  match r.localRef.findIdx? fun st => r.counterZero st.dst st.label with
  | none => r
  | some i =>
    match r.localRef[i]? with
    | none => r
    | some st =>
      let r1 := { r with localRef := dropAt r.localRef i }
      if r1.returnFits then (r1.placeReturn st).refill else r

/-- SEND from a slot where it can complete; nothing where it stalls (R237, R239). -/
def State.trySend (s : State) (t k dst label : Nat) (h : Option (BitVec 32)) (two : Bool) (w0 w1 : Word) (rel : Bool) :
    Option State :=
  let r := (s.tile t).router
  if !r.sendFits dst label then none
  else
    let s1 := s.sendFrom t k dst label h two w0 w1 rel
    if r.refusedHere dst label then some (if r.ovfFree then s1 else ((s1.modRouter t Router.returnLocal).syncOvf t))
    else some s1

/-- HEND cannot serve the thief that waits (R237, R239, R393): its SEND would stall, or the task's words still stand in the tile's
pending-store table. -/
def State.stealStalls (s : State) (t k : Nat) : Bool :=
  match (s.slot t k).run with
  | .handler (.actor n) =>
    let r := (s.tile t).router
    let a := r.actor n
    (match (r.pocket 126).store.find? (stealNames (handleOf t n a.inc)) with
    | none => false
    | some q0 =>
      let q := s.unload t q0
      a.dqOk && decide (a.tasks ≠ 0) && (s.covered t (localLoc t (a.dqAt a.head.toNat)) 16
        || (match (s.allocOf q.launch).target q.w0 with
          | some (dst, label, _) => !r.sendFits dst label
          | none => false)))
  | _ => false

/-- HEND waits for the slot's loads and AMOs; stores are performed at tile scope once they are in the table (R240, R329). It also ends
the handler of a double trap, with its report (R481). -/
def execHend (s : State) : Host.Outcome State Fault Refusal :=
  .next (match s.cur.run with
    | .handler _ =>
      if s.cur.accesses.isEmpty && !s.stealStalls s.ft s.fk then
        (match s.cur.dying with
        | some (c, r) => s.endDying s.ft s.fk c r
        | none => s.endHandler s.ft s.fk)
      else s
    | _ => s.trapIllegal .hend)

/-- send of R237 for the running slot. -/
def State.send (s : State) (rs : List (BitVec 5)) (target w0 w1 : Word) (two rel : Bool) : State :=
  if s.cur.pendsOn rs then s
  else
    match s.sendTarget s.ft s.fk target with
    | none => s.trap 0x09 0 target
    | some (dst, l, h) =>
      match s.trySend s.ft s.fk dst l h two w0 w1 rel with
      | none => s
      | some s1 => s1.modCur Slot.advance

def execSend (a b : BitVec 5) (s : State) : Host.Outcome State Fault Refusal :=
  .next (s.send [a, b] (s.cur.sreg a) (s.cur.sreg b) 0 false true)

def execSendNr (a b : BitVec 5) (s : State) : Host.Outcome State Fault Refusal :=
  .next (s.send [a, b] (s.cur.sreg a) (s.cur.sreg b) 0 false false)

def execSend2 (d a b : BitVec 5) (s : State) : Host.Outcome State Fault Refusal :=
  .next (s.send [d, a, b] (s.cur.sreg a) (s.cur.sreg b) (s.cur.sreg d) true true)

def execSend2Nr (d a b : BitVec 5) (s : State) : Host.Outcome State Fault Refusal :=
  .next (s.send [d, a, b] (s.cur.sreg a) (s.cur.sreg b) (s.cur.sreg d) true false)

/-- RESUME of R381 once its wait is over: the entry clears, WIDE clears where the table has room, a marker leaves. -/
def State.resumePair (s : State) (t dst label : Nat) : State :=
  (s.modRouter t fun r =>
    let tab := r.sender.filter fun p => p != (dst, label)
    { r with sender := tab, wide := r.wide && decide (64 ≤ tab.length) }).post (.marker label) t dst false

/-- RESUME (R400): it waits until every stitch of the pair has been answered and every refused one is in the return
pocket (R381, R383). -/
def execResume (a : BitVec 5) (s : State) : Host.Outcome State Fault Refusal :=
  .next (if s.cur.pendsOn [a] then s
    else
      match s.sendTarget s.ft s.fk (s.cur.sreg a) with
      | none => s.trap 0x09 0 (s.cur.sreg a)
      | some (dst, l, _) =>
        let r := (s.tile s.ft).router
        if !r.counterZero dst l || (r.localRef.any fun st => st.dst == dst && st.label == l) then s
        else (s.resumePair s.ft dst l).modCur Slot.advance)

/-! ### Parameter blocks (R396) -/

/-- What reading a parameter block comes to. -/
inductive Blk where
  | got (s : State) (bs : List Byte)
  | wait (s : State)
  | trap (s : State) (cause sub : Nat) (val : Word)
  deriving DecidableEq, Repr

/-- Read a block of `n` bytes once, at issue (R396), with a place in the queue of an empty word (R309); a marked word ends it with
EDATA (R488). -/
def State.readBlock (s : State) (i : Instr) (va : Word) (align n : Nat) : Blk :=
  if va.toNat % align ≠ 0 then .trap s 0x02 0 va
  else
    match State.checkAll s.ft s.fk i .load 1 ((List.range ((n + 15) / 16)).map fun j => va + BitVec.ofNat 64 (16 * j)) s []
      with
    | .wait s1 => .wait s1
    | .trap s1 c sub _ => .trap s1 c sub va
    | .ok s1 ps =>
      match s1.refusedPiece ps with
      | some (c, sub, _) => .trap s1 c sub va
      | none =>
        match s1.holdRead s1.ft s1.fk (ps.map fun x => x.2.1.loc) with
        | some (s2, true) => .trap s2 0x0E 0 va
        | some (s2, false) => .wait s2
        | none =>
        if ps.any fun x => !s1.mayAccess s1.ft s1.fk x.2.1.loc 16 then .wait s1
        else
          match s1.pollBlock s1.ft (32 + s1.fk) ((ps.filter fun x => x.2.2).map fun x => (x.2.1.loc, 16)) with
          | some w => .wait (s1.pollWait s1.ft (32 + s1.fk) w)
          | none =>
            let s2 := s1.pollDone s1.ft (32 + s1.fk)
            if ps.any fun x => s1.marked x.2.1.loc 16 then .trap s2 0x0D 0 va
            else .got s2 ((ps.flatMap fun x => s1.placeBytes x.2.1 16).take n)

/-- Field of `n` bytes at an offset of a block. -/
def blkField (bs : List Byte) (off n : Nat) : Nat := bytesNat ((bs.drop off).take n)

/-! ### PBIND, PFREE, PSTAT (R397-R399) -/

/-- The launch of the running handler's actor; for the system actor, the tile's most recently accepted one (R396). -/
def State.callerLaunch (s : State) : Option Nat :=
  match s.cur.run with
  | .handler (.actor n) => ((s.tile s.ft).router.actor n).launch
  | _ => (s.tile s.ft).router.sysActor.launch

/-- The fields of a bind block lie in their ranges (R397). -/
def bindOk (bs : List Byte) : Bool :=
  let f := blkField bs
  decide (f 0 1 ≤ 1) && decide (f 1 1 ≤ 124) && decide (f 2 1 = 1 ∨ f 2 1 = 2) && decide (f 3 1 < 16)
    && decide (f 4 1 ≤ 63) && decide (f 5 1 = 0) && decide (1 ≤ f 6 2 ∧ f 6 2 ≤ 256) && decide (f 12 4 = 0)
    && canonical (BitVec.ofNat 64 (f 0x10 8)) && decide (f 0x10 8 % 4 = 0) && decide (f 0x28 24 = 0)
    && (decide (f 0 1 = 1) || (canonical (BitVec.ofNat 64 (f 0x18 8)) && decide (f 0x18 8 % 64 = 0)
        && decide (f 0x20 8 % 64 = 0) && decide (f 0x20 8 < 2 ^ 32)))

/-- The record that pbind uses, or its status (R397). -/
def State.bindRecord (s : State) (bs : List Byte) : Nat ⊕ Nat :=
  let r := (s.tile s.ft).router
  let h : BitVec 32 := BitVec.ofNat 32 (blkField bs 8 4)
  let n := h.toNat / 2 ^ 10 % 32
  if blkField bs 0 1 = 0 then
    match (List.range 32).find? fun n => decide ((r.actor n).state = .free) with
    | some n => .inr n
    | none => .inl 2
  else if r.handleBound h = true ∧ handleOf s.ft n (r.actor n).inc = h ∧ (r.actor n).launch = s.callerLaunch then .inr n
  else .inl 4

/-- The label that pbind takes, or its status (R397). -/
def Router.bindLabel (r : Router) (l : Nat) : Nat ⊕ Nat :=
  if l = 0 then
    match (List.range 125).find? fun l => decide (l ≠ 0) && decide ((r.pocket l).state = .unbound) with
    | some l => .inr l
    | none => .inl 5
  else if (r.pocket l).state = .unbound then .inr l
  else .inl 3

/-- Bind what a block names to a record and a label (R373, R375, R397). -/
def Router.bindBlock (r : Router) (bs : List Byte) (n l : Nat) (launch : Option Nat) : Router :=
  let f := blkField bs
  let r1 := if f 0 1 = 0 then r.bindActor n (BitVec.ofNat 64 (f 0x18 8)) (BitVec.ofNat 64 (f 0x20 8)) launch else r
  r1.bindPocket l false n (decide (f 2 1 = 2)) (BitVec.ofNat 2 (f 3 1)) (BitVec.ofNat 2 (f 3 1 / 4)) (f 4 1) (f 6 2 - 1)
    (BitVec.ofNat 64 (f 0x10 8)) (decide ((r1.actor n).state = .away))

/-- pbind of R397: the machine after it and its status word. -/
def State.pbind (s : State) (bs : List Byte) : State × Word :=
  if !bindOk bs then (s, put 56 8 1)
  else
    match s.bindRecord bs with
    | .inl c => (s, put 56 8 c)
    | .inr n =>
      match (s.tile s.ft).router.bindLabel (blkField bs 1 1) with
      | .inl c => (s, put 56 8 c)
      | .inr l =>
        let s1 := ((s.modRouter s.ft fun r => r.bindBlock bs n l s.callerLaunch).stallCount s s.ft).syncOvf s.ft
        (s1, put 32 7 l + put 0 32 (handleOf s.ft n ((s1.tile s.ft).router.actor n).inc).toNat)

/-- sD ← a value, and on to the next word. -/
def State.finish (s : State) (d : BitVec 5) (v : Word) : State := s.modCur fun sl => (sl.setSreg d v).advance

/-- PBIND. -/
def execPbind (d a : BitVec 5) (s : State) : Host.Outcome State Fault Refusal :=
  .next (if s.cur.pendsOn [d, a] then s
    else
      match s.readBlock (.pbind d a) (s.cur.sreg a) 64 64 with
      | .trap s1 c sub v => s1.trap c sub v
      | .wait s1 => s1
      | .got s1 bs => (s1.pbind bs).1.finish d (s1.pbind bs).2)

/-- A bound pocket that an actor of a launch owns (R398, R399). -/
def Router.ownedBy (r : Router) (l : Nat) (launch : Option Nat) : Bool :=
  let p := r.pocket l
  decide (p.state ≠ .unbound) && !p.sys && decide ((r.actor p.owner).launch = launch)

/-- PFREE of a pocket that its checks allow: FREED, and the actor exits with its last pocket (R373, R375, R398). -/
def State.pfree (s : State) (t l : Nat) : State :=
  let n := ((s.tile t).router.pocket l).owner
  let s1 := s.freePocket t l
  if ((s1.tile t).router.pocketsOf n).isEmpty then s1.exitActor t n else s1

/-- The status of PFREE (R398). -/
def State.pfreeStatus (s : State) (w : Word) : Nat :=
  let r := (s.tile s.ft).router
  let l := get w 6 0
  if get w 63 7 ≠ 0 ∨ reservedLabel l = true then 1
  else if r.ownedBy l s.callerLaunch = false then 2
  else if (r.pocket l).state = .freed then 3
  else 0

/-- PFREE. -/
def execPfree (d a : BitVec 5) (s : State) : Host.Outcome State Fault Refusal :=
  .next (if s.cur.pendsOn [d, a] then s
    else
      let c := s.pfreeStatus (s.cur.sreg a)
      (if c = 0 then s.pfree s.ft (get (s.cur.sreg a) 6 0) else s).finish d (BitVec.ofNat 64 c))

/-- PSTAT of a pocket's state, form 00 (R399). -/
def execPstatPocket (d a : BitVec 5) (s : State) : Host.Outcome State Fault Refusal :=
  .next (if s.cur.pendsOn [d, a] then s
    else if get (s.cur.sreg a) 63 7 ≠ 0 then s.trapIllegal (.pstatPocket d a)
    else
      let r := (s.tile s.ft).router
      let l := get (s.cur.sreg a) 6 0
      s.finish d (if s.cur.mode = .user ∧ r.ownedBy l s.callerLaunch = false then 0 else (if l = 127 then r.orphanWord else (r.pocket l).wordA)))

/-- The stitches of a pocket as PSTAT counts them; for label 127 the orphans (R385, R399). -/
def Router.waiting (r : Router) (l : Nat) : List Stitch :=
  if l = 127 then r.orphans ++ (r.holdq.filter fun h => h.orphan).map (fun h => h.st) else r.held l

/-- The words PSTAT returns for a waiting stitch (R399). -/
def State.waitingWords (s : State) (t l : Nat) (st : Stitch) : List Word :=
  let p := (s.tile t).router.pocket l
  let st1 := s.unload t st
  [descriptor (s.pocketAlloc t p) p (if l = 127 then st1.label else l) st1, st1.w0, p.word1 st1, 0]

/-- PSTAT of a waiting stitch, form 01 (R399). -/
def execPstatWaiting (d a : BitVec 5) (s : State) : Host.Outcome State Fault Refusal :=
  let w := s.cur.sreg a
  .next (if s.cur.pendsOn (a :: regGroup d 4) then s
    else if get w 63 62 ≠ 1 ∨ get w 61 48 ≠ 0 ∨ get w 31 7 ≠ 0 ∨ d.toNat % 4 ≠ 0 then
      s.trapIllegal (.pstatWaiting d a)
    else if s.cur.mode = .user then s.trapPriv (.pstatWaiting d a)
    else
      let vals := match ((s.tile s.ft).router.waiting (get w 6 0))[get w 47 32]? with
        | some st => s.waitingWords s.ft (get w 6 0) st
        | none => [0, 0, 0, 0]
      s.modCur fun sl => (((regGroup d 4).zip vals).foldl (fun x rv => x.setSreg rv.1 rv.2) sl).advance)

/-- PSTAT of the allocation, form 10 (R399): the answer comes back from the named tile. -/
def execPstatAllocation (d a : BitVec 5) (s : State) : Host.Outcome State Fault Refusal :=
  let w := s.cur.sreg a
  .next (if s.cur.pendsOn [d, a] then s
    else if get w 63 62 ≠ 2 ∨ get w 61 21 ≠ 0 then s.trapIllegal (.pstatAllocation d a)
    else
      let p : Pend := ⟨s.seq, [s.cur.absReg d], .result, 0, 0, false, false⟩
      { s.stamp.modCur fun sl => { sl.advance with pend := sl.pend ++ [p] } with
        queries := s.queries ++ [⟨s.ft, s.fk, s.seq, w, 0, s.callerLaunch, s.launchOf s.ft s.fk, true⟩] })

/-! ### SPAWN and STEAL (R401, R402) -/

/-- The record whose handler the running slot runs, if it is a pattern actor's. -/
def State.curActor (s : State) : Option Nat :=
  match s.cur.run with
  | .handler (.actor n) => some n
  | _ => none

/-- A task goes into the deque as plain stores (R401). -/
def State.pushTask (s : State) (n : Nat) (d : BitVec 5) (w0 w1 : Word) : State :=
  let A := (s.tile s.ft).router.actor n
  let off := A.dqAt A.tail.toNat
  let loc := localLoc s.ft off
  if s.lsize s.ft < off + 16 then s.trap 0x05 0 (BitVec.ofNat 64 off)
  else if !s.mayAccess s.ft s.fk loc 16 || !s.storeRoom s.ft 1 then s
  else
    ((s.enterStore s.ft s.fk (BitVec.ofNat 64 off) loc (natBytes 8 w0.toNat ++ natBytes 8 w1.toNat) false false).modRouter s.ft
      fun r => r.modActor n fun a => { a with tail := a.tail + 1 }).finish d 0

/-- spawn of R401 for record `n`. -/
def State.spawn (s : State) (n : Nat) (d : BitVec 5) (w0 w1 : Word) : State :=
  let r := (s.tile s.ft).router
  let A := r.actor n
  match (r.pocket 126).store.findIdx? (stealNames (handleOf s.ft n A.inc)) with
  | some i =>
    (match (r.pocket 126).store[i]? with
    | none => s
    | some q0 =>
      let q := s.unload s.ft q0
      match (s.allocOf q.launch).target q.w0 with
      | none => s
      | some (dst, l, h) =>
        match s.trySend s.ft s.fk dst l h true w0 w1 true with
        | none => s
        | some s1 => ((s1.modRouter s.ft fun r => r.takeStitch 126 i).syncOvf s.ft).finish d 1)
  | none => if A.tasks = 2 ^ A.dqLog.toNat then s.finish d 2 else s.pushTask n d w0 w1

/-- SPAWN. -/
def execSpawn (d a b : BitVec 5) (s : State) : Host.Outcome State Fault Refusal :=
  .next (if s.cur.pendsOn [d, a, b] then s
    else
      match s.curActor with
      | none => s.trapIllegal (.spawn d a b)
      | some n =>
        if ((s.tile s.ft).router.actor n).dqOk then s.spawn n d (s.cur.sreg a) (s.cur.sreg b)
        else s.trapIllegal (.spawn d a b))

/-- The task at TAIL − 1 of the running actor's own deque (R402). -/
def State.selfSteal (s : State) (i : Instr) (n : Nat) (d : BitVec 5) : State :=
  let A := (s.tile s.ft).router.actor n
  if !A.dqOk then s.trapIllegal i
  else if A.tasks = 0 then s.modCur fun sl => ((sl.setSreg d 0).setSreg (d + 1) 0).advance
  else
    let off := A.dqAt (A.tail - 1).toNat
    let loc := localLoc s.ft off
    if s.lsize s.ft < off + 16 then s.trap 0x05 0 (BitVec.ofNat 64 off)
    else if !s.mayAccess s.ft s.fk loc 16 then s
    else
      let s1 := s.modRouter s.ft fun r => r.modActor n fun a => { a with tail := a.tail - 1 }
      if s.marked loc 16 then s1.modCur fun sl => sl.advance.pushLate 0x0D 0 (BitVec.ofNat 64 off)
      else s1.modCur fun sl => ((sl.setSreg d (s.read64 loc)).setSreg (d + 1) (s.read64 (loc + 8))).advance

/-- A steal request leaves as a SEND2.NR to label 126 (R393, R402). -/
def State.remoteSteal (s : State) (d : BitVec 5) (dst : Nat) (h : Option (BitVec 32)) (target : Word) : State :=
  match s.sendTarget s.ft s.fk target with
  | none => s.trap 0x09 0 target
  | some _ =>
    match s.trySend s.ft s.fk dst 126 none true target ((h.getD 0).zeroExtend 64) false with
    | none => s
    | some s1 => s1.modCur fun sl => ((sl.setSreg d 0).setSreg (d + 1) 0).advance

/-- STEAL. A victim's target with a LABEL other than 0 fails its check; sA is checked before sB, and both before the deque, in a
self-steal too (R402). -/
def execSteal (d a b : BitVec 5) (s : State) : Host.Outcome State Fault Refusal :=
  let w := s.cur.sreg a
  .next (if s.cur.pendsOn [d, d + 1, a, b] then s
    else
      match (s.allocOf (s.launchOf s.ft s.fk)).target w with
      | none => s.trap 0x09 0 w
      | some (dst, l, h) =>
        if l ≠ 0 then s.trap 0x09 0 w
        else
          match s.curActor with
          | none => s.remoteSteal d dst h (s.cur.sreg b)
          | some n =>
            if h = some (handleOf s.ft n ((s.tile s.ft).router.actor n).inc) then
              (if (s.sendTarget s.ft s.fk (s.cur.sreg b)).isNone then s.trap 0x09 0 (s.cur.sreg b)
                else s.selfSteal (.steal d a b) n d)
            else s.remoteSteal d dst h (s.cur.sreg b))

/-! ### The journey of a stitch (R238, R378-R386) -/

/-- A release in the injection queue may leave: nothing that precedes it in its slot or its tile's table is
outstanding (R238, R332). -/
def State.injReady (s : State) (t : Nat) (e : InjEnt) : Bool :=
  !e.rel || (!((s.slot t e.slot).accesses.any fun p => decide (p.id < e.before))
    && !((s.tile t).stores.any fun x => decide (x.id < e.before)))

/-- The first entry of the injection queue that may leave and that no earlier entry of its pair holds back (R238). -/
def State.injNext (s : State) (t : Nat) : Option Nat :=
  let q := (s.tile t).router.inj
  (List.range q.length).find? fun i =>
    match q[i]? with
    | none => false
    | some e => s.injReady t e && !((q.take i).any fun x => x.st.dst == e.st.dst && x.st.label == e.st.label)

/-- STITCH_INJECT: a stitch leaves its tile's injection queue (R237, R238). -/
def execStitchInject (s : State) : Host.Outcome State Fault Refusal :=
  let t := s.ev.tile
  .next (match (if (s.silicon t).dark then none else s.injNext t) with
    | none => s
    | some i =>
      match (s.tile t).router.inj[i]? with
      | none => s
      | some e => (s.modRouter t fun r => { r with inj := dropAt r.inj i }).post (.stitch e.st) t e.st.dst false)

/-- The copies of a launch stitch that a router sends to its children in the tree (R260); a tile that takes part starts to
configure load 0, or the present load where it has joined the tree since (R130), and one that only forwards is settled (R261,
R276). -/
def State.forwardLaunch (s : State) (t : Nat) (st : Stitch) : State :=
  if st.label ≠ 125 then s
  else
    match (st.launch.bind s.launch?).bind fun l => (l.tree.find? fun e => e.1 == t).map fun e => (l, e) with
    | none => s
    | some (l, _, mask, takes) =>
      let P : Part := { Part.reset with
        launch := st.launch, load := l.load
        state := if l.fault.isSome then .idle else if takes then .config else .settled
        rootCycles := (s.tile t).cycles }
      ((List.range 4).filter fun d => mask / 2 ^ d % 2 == 1).foldl (fun a d =>
        a.post (.stitch { st with dst := neighbour t d }) t (neighbour t d) false) (s.modFabric t fun F => { F with part := P })

/-- STITCH_ARRIVAL: a stitch is placed at its destination (R29, R378). A tile in DRAIN, without a clock, or whose hold queue is
full, accepts none yet; in AWAY it goes to the hold queue, as an orphan where its label is unbound (R385). -/
def execStitchArrival (s : State) : Host.Outcome State Fault Refusal :=
  .next (match s.flight? s.ev.n with
    | some f =>
      (match f.msg with
      | .stitch st =>
        let st' := (s.silicon f.dst).state
        if !s.arrived f || decide (tileCount ≤ f.dst) || st' == 3 || (s.silicon f.dst).dark
            || (s.tile f.dst).router.holdStall then s
        else
          let s1 := (((s.dropFlight f.id).countReceived (if st.label = 125 then none else st.launch)).forwardLaunch f.dst st).modTile f.dst fun T =>
            { T with gated := false }
          let lone := decide (((s.tile f.dst).router.pocketFor st).state = .unbound)
          (if st' = 2 then s1.holdOrReturn f.dst st.label lone st else s1.arrive f.dst st).syncOvf f.dst
      | _ => s)
    | none => s)

/-- STITCH_ANSWER_ARRIVAL: an answer lowers its counter at the sender (R380). -/
def execStitchAnswerArrival (s : State) : Host.Outcome State Fault Refusal :=
  .next (match s.flight? s.ev.n with
    | some f =>
      (match f.msg with
      | .answer st =>
        if !s.arrived f then s
        else if tileCount ≤ f.dst then s.dropFlight f.id
        else (s.dropFlight f.id).modRouter f.dst fun r => r.countDown st.dst st.label
      | _ => s)
    | none => s)

/-- A return with STATUS 1 refuses its pair at the sender; where the table is full, WIDE is set (R381). -/
def Router.refusePair (r : Router) (dst label : Nat) : Router :=
  if r.sender.contains (dst, label) then r
  else if r.sender.length < 64 then { r with sender := r.sender ++ [(dst, label)] }
  else { r with wide := true }

/-- STITCH_RETURN_ARRIVAL: a stitch comes back to its sender's return pocket (R380, R381, R384). -/
def execStitchReturnArrival (s : State) : Host.Outcome State Fault Refusal :=
  .next (match s.flight? s.ev.n with
    | some f =>
      (match f.msg with
      | .returned st counts =>
        if !s.arrived f then s
        else if tileCount ≤ f.dst then s.dropFlight f.id
        else if !(s.tile f.dst).router.returnFits then s
        else
          (((s.dropFlight f.id).modRouter f.dst fun r =>
            let r1 := if counts then r.countDown st.dst st.label else r
            (if st.status = 1 then r1.refusePair st.dst st.label else r1).placeReturn st).stallCount s f.dst).syncOvf f.dst
      | _ => s)
    | none => s)

/-- LOCAL_REFUSAL_RETURN: a stitch refused locally enters the return pocket once its pair's counter reads zero (R381). -/
def execLocalRefusalReturn (s : State) : Host.Outcome State Fault Refusal :=
  .next (((s.modRouter s.ev.tile Router.returnLocal).stallCount s s.ev.tile).syncOvf s.ev.tile)

/-- RESUME_MARKER_ARRIVAL: the pair's entry leaves the refusal table (R379, R381). -/
def execResumeMarkerArrival (s : State) : Host.Outcome State Fault Refusal :=
  .next (match s.flight? s.ev.n with
    | some f =>
      (match f.msg with
      | .marker l =>
        if s.arrived f then
          (s.dropFlight f.id).modRouter f.dst fun r => { r with refusal := r.refusal.filter fun p => p != (f.src, l) }
        else s
      | _ => s)
    | none => s)

/-! ### The picker and the steal pocket (R387, R393, R395) -/

/-- PICK: one pick of the tile's picker; what moves up into the entries it frees leaves its overflow entries. -/
def execPick (s : State) : Host.Outcome State Fault Refusal := .next ((s.pickOne s.ev.tile).syncOvf s.ev.tile)

/-- A steal request names a handle that is not bound (R393). -/
def Router.stealDead (r : Router) (st : Stitch) : Bool := st.w1 != 0 && !r.handleBound (st.w1.setWidth 32)

/-- STEAL_REQUEST_TIMEOUT: a request that names no bound handle, else the oldest, is answered with (0, 0) (R393). -/
def execStealRequestTimeout (s : State) : Host.Outcome State Fault Refusal :=
  let t := s.ev.tile
  let r := (s.tile t).router
  let i := ((r.pocket 126).store.findIdx? r.stealDead).getD 0
  .next (match (r.pocket 126).store[i]? with
    | none => s
    | some q0 =>
      let q := s.unload t q0
      let s1 := (s.modRouter t fun r => r.takeStitch 126 i).syncOvf t
      match (s.allocOf q.launch).target q.w0 with
      | some (dst, l, h) => s1.hwStitch t dst l false 0 4 0 0 h
      | none => s1)

end Sys2Proof.Machine
end

