-- ==== Sys2Proof/Machine/Image.lean ====
section
/-!
DEFINITION. The slot image of R482 and the commands of ACTCMD (R408): evicting a pattern actor to its save area and
restoring it, with completions that arrive in between (R307).
-/
namespace Sys2Proof.Machine

/-! ### Special registers that are made of fields (R225, R226, R371, R403) -/

/-- WDEPTH (R225). -/
def Slot.wdepth (sl : Slot) : Word := put 16 3 (sl.frames.length + 1) + put 0 16 sl.depth.toNat

/-- LSTAT (R226). -/
def Slot.lstat (sl : Slot) : Word :=
  put 24 16 sl.below.depth.toNat + put 8 16 sl.top.depth.toNat + put 3 1 (bit sl.below.sysMode)
    + put 2 1 (bit sl.top.sysMode) + put 1 1 (bit sl.below.armed) + put 0 1 (bit sl.top.armed)

/-- The slot with LSTAT written as it is (R226). Where that leaves OA = 1 with LA = 0 the spec calls the results unpredictable: it
is the model's choice that every loop rule then acts on the bits as they stand (log 56). -/
def Slot.setLstat (sl : Slot) (v : Word) : Slot :=
  { sl with
    below := { sl.below with depth := BitVec.ofNat 16 (get v 39 24), sysMode := v.getLsbD 3, armed := v.getLsbD 1 }
    top := { sl.top with depth := BitVec.ofNat 16 (get v 23 8), sysMode := v.getLsbD 2, armed := v.getLsbD 0 } }

/-- ASID with its generation (R367). -/
def Slot.asidWord (sl : Slot) : Word := put 12 4 sl.gen.toNat + put 0 12 sl.asid.toNat

/-- ACTOR: the handle of the running pattern actor, else 0 (R234). -/
def State.actorWord (s : State) (t k : Nat) : Word :=
  match (s.slot t k).run with
  | .handler (.actor n) => (handleOf t n ((s.tile t).router.actor n).inc).zeroExtend 64
  | _ => 0

/-- FPCS from a word (R56). -/
def fpcsOf (v : Word) : Fpcs := ⟨BitVec.ofNat 5 (get v 12 8), BitVec.ofNat 3 (get v 7 5), BitVec.ofNat 5 (get v 4 0)⟩

/-- The mode a bit stands for: 1 is system (R226, R482). -/
def modeOf (b : Bool) : Mode := if b then .system else .user

/-! ### The image (R482) -/

/-- A byte list followed by zeros up to a length. -/
def padTo (n : Nat) (l : List Byte) : List Byte := l ++ List.replicate (n - l.length) 0

/-- Words as bytes. -/
def wordBytes8 (ws : List Word) : List Byte := ws.flatMap fun w => natBytes 8 w.toNat

/-- FLAGS of an image. -/
def imageFlags (mode inTrap pMode run : Bool) : Word :=
  put 63 1 1 + put 3 1 (bit run) + put 2 1 (bit pMode) + put 1 1 (bit inTrap) + put 0 1 (bit mode)

/-- The entry of the image's register file that holds a register of absolute number `n`. -/
def Slot.imageEntry (sl : Slot) (n : Nat) : Nat := if n < 8 then n else n - 16 * (sl.depth.toNat - sl.frames.length)

/-- The absolute number of the register in an entry of the image's register file. -/
def Slot.entryReg (sl : Slot) (n : Nat) : Nat := if n < 8 then n else n + 16 * (sl.depth.toNat - sl.frames.length)

/-- The completions that a saved slot awaits, their registers named by entries of its image (R307). -/
def Slot.pendSaved (sl : Slot) : List Pend := sl.pend.map fun p => { p with dst := p.dst.map sl.imageEntry }

/-- The slot with the completions it awaited when it was saved (R307). -/
def Slot.loadPend (sl : Slot) (pend : List Pend) : Slot :=
  { sl with pend := pend.map fun p => { p with dst := p.dst.map sl.entryReg } }

/-- TRAPCAUSE without its reserved bits (R478). -/
def causeMask : Word := 0x00000000FF0080FF

/-- The register file of an image: s0-s7, the resident windows oldest first, then s24-s31 (R482). -/
def Slot.imageRegs (sl : Slot) : List Word :=
  ((List.range 8).map fun i => sl.sreg (BitVec.ofNat 5 i)) ++ (sl.frames.reverse.flatMap fun f => f.toList)
    ++ (List.range 24).map fun i => sl.sreg (BitVec.ofNat 5 (i + 8))

/-- PEND of an image (R307). -/
def Slot.imagePend (sl : Slot) : Nat :=
  lanesNat 1 (fun n => bit (sl.pend.any fun p => p.dst.any fun r => decide (r ≠ 0) && sl.imageEntry r == n)) 128

/-- The registers of an image from FPCS to TSCR, 8 bytes each from 0x040. -/
def Slot.imageWords (sl : Slot) : List Word :=
  [sl.fpcs.word, sl.rseed, sl.rctr, sl.top.start, sl.top.stop, sl.top.count, sl.lstat, sl.below.start, sl.below.stop,
   sl.below.count, sl.wsp, sl.wdepth, sl.budget.zeroExtend 64, sl.bal[3] ++ sl.bal[2] ++ sl.bal[1] ++ sl.bal[0],
   sl.trapCause, sl.trapPc, sl.trapVal, sl.tscr]

/-- The slot image of a running handler. -/
def Slot.image (sl : Slot) (actor : Word) : List Byte :=
  let head := wordBytes8 [sl.pc,
    imageFlags (decide (sl.mode = .system)) sl.inTrap (decide (sl.pMode = .system)) true, actor, sl.asidWord]
  let a := padTo 0x040 head ++ wordBytes8 sl.imageWords ++ natBytes 8 (sl.preds ||| 1).toNat ++ natBytes 16 sl.imagePend
  let b := padTo 0x100 a ++ padTo 0x380 (wordBytes8 sl.imageRegs)
  let late := sl.late.take 8 |>.flatMap fun x => wordBytes8 [x.cause ||| (1 <<< 63), x.val]
  let c := padTo 0x800 (b ++ late)
    ++ ((List.range 4).flatMap fun i => natBytes 128 (sl.mreg (BitVec.ofNat 2 i)).toNat)
  padTo 0x1000 c ++ (List.range 8).flatMap fun i => natBytes 512 (sl.vreg (BitVec.ofNat 3 i)).toNat

/-- The header of an actor that is not running: V = 1 and RUN = 0 (R482). -/
def idleImage : List Byte := padTo 0x040 (wordBytes8 [0, imageFlags false false false false])

/-- Word `i` of an image, by byte offset. -/
def imgWord (bs : List Byte) (off : Nat) : Word := BitVec.ofNat 64 (blkField bs off 8)

/-- The held refusals of an image. -/
def imageLate (bs : List Byte) : List Late :=
  ((List.range 8).map fun i => (Late.mk (imgWord bs (0x480 + 16 * i)) (imgWord bs (0x488 + 16 * i)))).filterMap fun x =>
    if x.cause.getLsbD 63 then some { x with cause := x.cause &&& causeMask } else none

/-- The resident windows, depth and registers of an image put into a slot. -/
def Slot.loadRegs (sl : Slot) (bs : List Byte) : Slot :=
  let w := imgWord bs 0x98
  let res := min 6 (max 1 (get w 18 16))
  let ent := fun n => imgWord bs (0x100 + 8 * n)
  { sl with
    depth := BitVec.ofNat 16 (get w 15 0)
    frames := ((List.range (res - 1)).map fun j => Vector.ofFn fun i : Fin 16 => ent (8 + 16 * j + i.val)).reverse
    file := Vector.ofFn fun i : Fin 32 =>
      if i.val = 0 then 0 else if i.val < 8 then ent i.val else ent (16 * (res - 1) + i.val) }

/-- The slot that an image restores (R482), for the handler of record `n` with the completions it still awaits. -/
def slotOfImage (bs : List Byte) (n : Nat) (pend : List Pend) : Slot :=
  let f := imgWord bs 0x008
  let a := imgWord bs 0x018
  let b := imgWord bs 0x0A8
  let base : Slot :=
    { Slot.reset with
      run := .handler (.actor n)
      pc := pcOf (imgWord bs 0)
      mode := modeOf (f.getLsbD 0)
      inTrap := f.getLsbD 1
      pMode := modeOf (f.getLsbD 2)
      asid := BitVec.ofNat 12 (get a 11 0)
      gen := BitVec.ofNat 4 (get a 15 12)
      fpcs := fpcsOf (imgWord bs 0x040)
      rseed := imgWord bs 0x048
      rctr := imgWord bs 0x050
      top := { Loop.off with start := imgWord bs 0x058, stop := imgWord bs 0x060, count := imgWord bs 0x068 }
      below := { Loop.off with start := imgWord bs 0x078, stop := imgWord bs 0x080, count := imgWord bs 0x088 }
      wsp := imgWord bs 0x090
      budget := (imgWord bs 0x0A0).setWidth 32
      bal := #v[b.setWidth 16, (b >>> 16).setWidth 16, (b >>> 32).setWidth 16, (b >>> 48).setWidth 16]
      trapCause := imgWord bs 0x0B0 &&& causeMask
      trapPc := imgWord bs 0x0B8
      trapVal := imgWord bs 0x0C0
      tscr := imgWord bs 0x0C8
      preds := (imgWord bs 0x0D0).setWidth 8
      m := Vector.ofFn fun i : Fin 4 => BitVec.ofNat 1024 (blkField bs (0x800 + 128 * i.val) 128)
      v := Vector.ofFn fun i : Fin 8 => BitVec.ofNat 4096 (blkField bs (0x1000 + 512 * i.val) 512)
      late := imageLate bs }
  ((base.setLstat (imgWord bs 0x070)).loadRegs bs).loadPend pend

/-! ### The save area (R408) -/

/-- What checking a save area comes to: its places, STATUS 2, or a wait for a pending store. -/
inductive Area where
  | places (s : State) (ps : List Nat)
  | unreachable (s : State)
  | wait (s : State)
  deriving DecidableEq, Repr

/-- Check all 8 KiB of a save area for slot `k` of tile `t` (R408). -/
def State.area (s : State) (t k : Nat) (kind : AccKind) (base : Word) : Area :=
  match State.checkAll t k .ret kind 1 ((List.range 128).map fun i => base + BitVec.ofNat 64 (64 * i)) s [] with
  | .wait s1 => .wait s1
  | .trap s1 _ _ _ => .unreachable s1
  | .ok s1 ps =>
    let ctl := ps.any fun x => match x.2.1 with
      | .control _ => true
      | _ => false
    if ctl || (s1.refusedPiece ps).isSome then .unreachable s1
    else if ps.any fun x => s1.covered t x.2.1.loc 64 || !s1.pathOpen t x.2.1.loc then .wait s1
    else .places s1 (ps.map fun x => x.2.1.loc)

/-- Write an image into its area, 64 bytes to each place; bytes beyond the image are left. -/
def State.writeArea (s : State) (ps : List Nat) (img : List Byte) : State :=
  ps.zipIdx.foldl (fun a x =>
    let piece := (img.drop (64 * x.2)).take 64
    if piece.isEmpty then a else (a.expose x.1 piece).write x.1 piece) s

/-! ### Away and back (R373, R375, R384) -/

/-- An actor's pockets go AWAY; without a hold queue their stitches go back with STATUS 1 and are counted (R377). -/
def State.pocketsAway (s : State) (t n : Nat) : State :=
  (((s.tile t).router.pocketsOf n).foldl (fun a l =>
    if (a.tile t).router.hqLog = 0 then
      let sts := ((a.tile t).router.held l).map (a.unload t)
      let a1 := a.modRouter t fun r =>
        (r.modPocket l fun p => { p with state := .away, store := [], ovf := [], held := false }).refill
      sts.foldl (fun b st => (b.care1 t 0x000A 1).giveBack t st 1 false) a1
    else (a.modRouter t fun r => r.pocketAway l).stallCount a t) s).syncOvf t

/-- The labels of an actor's AWAY pockets. -/
def Router.awayOf (r : Router) (n : Nat) : List Nat :=
  (r.pockets.filter fun e => !e.2.sys && e.2.owner == n && e.2.state == .away).map (·.1)

/-- An actor's pockets come back (R384). -/
def State.pocketsBack (s : State) (t n : Nat) : State :=
  (s.modRouter t fun r => ((r.awayOf n).foldl Router.pocketBack r).refill).syncOvf t

/-- What is due at a slot's boundary is taken before the slot is saved (R479): a held refusal, else EBUDGET, else a fault of the next
instruction's fetch or word (R135). -/
def State.takeDue (s : State) (t k : Nat) : State :=
  let sl := s.slot t k
  if sl.inTrap then s
  else
    match sl.late with
    | x :: r => (s.modSlot t k fun sl => { sl with late := r }).takeTrap t k x.cause sl.instrPc sl.instrPc x.val
    | [] =>
      if sl.budgetDue then
        (s.modSlot t k fun sl => { sl with budgetDue := false }).takeTrap t k (trapWord 0x08 0 false) sl.instrPc
          sl.instrPc 0
      else
        match s.fetch t k sl.pc with
        | .trap s1 c sub => s1.takeTrap t k (trapWord c sub false) sl.instrPc sl.instrPc sl.pc
        | .wait _ => s
        | .word s1 w =>
          if (sl.decode w).isSome then s1 else s1.takeTrap t k (trapWord 0x01 0 false) sl.instrPc sl.instrPc (BitVec.ofNat 64 w)

/-- A slot whose instruction waits is withdrawn and stands before that instruction again (R310, R419). -/
def State.withdrawAll (s : State) (t k : Nat) : State :=
  let s1 := (s.withdrawFe t k).withdrawLeave t k
  if (s.slot t k).waiting then s1.modSlot t k fun sl => { sl with pc := sl.instrPc, ext := none } else s1

/-- Set STATUS of ACTCMD. -/
def State.actStatus (s : State) (t : Nat) (st : BitVec 8) : State := s.modTile t fun T => { T with actcmd := st }

/-- The record is AWAY with its image at `base`, the pending completions `pend` moved to it (R307, R373). -/
def Router.actorAway (r : Router) (n : Nat) (base : Word) (run : Bool) (pend : List Pend) (sl victim : Slot) : Router :=
  r.modActor n fun a =>
    { a with state := .away, saved := some base, savedRun := run, savedPend := pend, savedLate := victim.late.drop 8,
             savedBad := victim.bad, savedAsid := sl.asid,
             savedGen := sl.gen }

/-- EVICT of a record that is BOUND (R408): only the header is written. -/
def State.evictBound (s : State) (t k n : Nat) (base : Word) : Option State :=
  match s.area t k .store base with
  | .unreachable s1 => some (s1.actStatus t 2)
  | .wait _ => none
  | .places s1 ps =>
    some (((s1.writeArea ps idleImage).pocketsAway t n).modRouter t (fun r =>
      r.actorAway n base false [] (s.slot t k) Slot.reset) |>.actStatus t 0)

/-- EVICT of record `n` by slot `k` (R408): nothing where the command cannot take effect yet. A handler is saved after the trap that is
due at its boundary; where that trap ends it, its record is evicted as a BOUND one (R479, R481). -/
def State.evict (s : State) (t k n : Nat) (base : Word) : Option State :=
  let a := (s.tile t).router.actor n
  match a.state with
  | .bound => s.evictBound t k n base
  | .running =>
    let v := s.slot t a.slot
    if (v.ext.isSome && !v.waiting) || v.dying.isSome || !(v.accesses.filter fun p => !p.holds).isEmpty then none
    else
      (match s.area t k .store base with
      | .unreachable s1 => some (s1.actStatus t 2)
      | .wait _ => none
      | .places s1 ps =>
        let s2 := (s1.withdrawAll t a.slot).takeDue t a.slot
        let w := s2.slot t a.slot
        match ((s2.tile t).router.actor n).state with
        | .running =>
          if w.dying.isSome then none
          else some ((((s2.writeArea ps (w.image (s2.actorWord t a.slot))).pocketsAway t n).modRouter t fun r =>
            r.actorAway n base true w.pendSaved (s.slot t k) w).modSlot t a.slot Slot.ended |>.actStatus t 0)
        | .bound => s2.evictBound t k n base
        | _ => some (s2.actStatus t 1))
  | _ => some (s.actStatus t 1)

/-- RESTORE of record `n` by slot `k` (R408): on the lowest free slot, where a handler was saved. -/
def State.restore (s : State) (t k n : Nat) (base : Word) : Option State :=
  let a := (s.tile t).router.actor n
  if a.state ≠ .away then some (s.actStatus t 1)
  else
    match s.area t k .load base with
    | .unreachable s1 => some (s1.actStatus t 2)
    | .wait _ => none
    | .places s1 ps =>
      let bs := ps.flatMap fun loc => s1.bytes loc 64
      let back := fun (x : State) (st : ActorState) (j : Nat) =>
        ((x.modRouter t fun r => r.modActor n fun a =>
          { a with state := st, slot := j, saved := none, savedRun := false, savedPend := [], savedLate := [], savedBad := [] }).pocketsBack t n).actStatus
            t 0
      if (imgWord bs 0x008).getLsbD 3 then
        match (s1.tile t).freeSlots.head? with
        | none => none
        | some j => some (back (s1.modSlot t j fun _ =>
            let x := slotOfImage bs n a.savedPend
            { x with late := x.late ++ a.savedLate, bad := a.savedBad }) .running j)
      else some (back s1 .bound a.slot)

/-- The command fields of ACTCMD: OP, the save area and the record (R408). -/
def actSave (v : Word) : Word := sext48 (v &&& 0x0000FFFFFFFFFFC0)

/-- A command word of ACTCMD is well-formed (R408). -/
def actOk (v : Word) : Bool := decide (get v 63 60 = 1 ∨ get v 63 60 = 2) && decide (get v 59 48 = 0) && decide (get v 5 5 = 0)

/-- A pocket of record `n` has a stitch that its EVICT has not moved yet (R384). -/
def Router.ringFull (r : Router) (n : Nat) : Bool :=
  r.pockets.any fun e => e.2.leaving && !e.2.sys && e.2.owner == n

/-- Slot `k` evicts the actor whose handler it runs itself. -/
def State.actSelf (s : State) (t k : Nat) (v : Word) : Bool :=
  decide (get v 63 60 = 1) && decide ((s.slot t k).run = .handler (.actor (get v 4 0)))

/-- Set the command that waits. -/
def State.setWait (s : State) (t : Nat) (w : Option ActWait) : State := s.modTile t fun T => { T with actWait := w }

/-- A command of ACTCMD from slot `k` of tile `t` is tried (R408): the machine after it, and whether it has taken
effect. A slot that evicts itself is saved after its MTS. -/
def State.actTry (s : State) (t k : Nat) (v : Word) : State × Bool :=
  if (s.tile t).actWait.any fun w => w.slot == k && w.cmd == v && w.moving then
    (if (s.tile t).router.ringFull (get v 4 0) then (s, false) else (s.setWait t none, true))
  else
    match (if get v 63 60 = 1 then
        (if s.actSelf t k v then s.modSlot t k Slot.advance else s).evict t k (get v 4 0) (actSave v)
      else s.restore t k (get v 4 0) (actSave v)) with
    | none => (s.setWait t (some ⟨k, v, false, false⟩), false)
    | some s1 =>
      if decide (get v 63 60 = 1) && !s.actSelf t k v && (s1.tile t).router.ringFull (get v 4 0) then
        (s1.setWait t (some ⟨k, v, true, false⟩), false)
      else (s1.setWait t none, true)

/-! ### Completions (R307) -/

/-- Write a completion into the image of an AWAY actor, at the entries its registers have there, and clear their PEND bits. -/
def State.completeImage (s : State) (t n : Nat) (a : Actor) (p : Pend) (vals : List Word) : State :=
  let base := a.saved.getD 0
  let one := fun (x : State) (va : Word) (bs : List Byte) =>
    match x.translate t a.savedAsid a.savedGen .store false va with
    | .ok pl _ _ => x.write pl.loc bs
    | _ => x
  let rd := fun (x : State) (va : Word) =>
    match x.translate t a.savedAsid a.savedGen .load false va with
    | .ok pl _ _ => x.readNat pl.loc 1
    | _ => 0
  let s1 := (p.dst.zip vals).foldl (fun x rv =>
    if rv.1 = 0 then x
    else
      let x1 := one x (base + BitVec.ofNat 64 (0x100 + 8 * rv.1)) (natBytes 8 rv.2.toNat)
      let at_ := base + BitVec.ofNat 64 (0x0D8 + rv.1 / 8)
      one x1 at_ [BitVec.ofNat 8 (rd x1 at_) &&& ~~~(1#8 <<< (rv.1 % 8))]) s
  s1.modRouter t fun r => r.modActor n fun a => { a with savedPend := a.savedPend.filter fun q => q.id != p.id }

/-- Deliver the values of completion `i` of tile `t`: to the slot that awaits it, or to the image of an AWAY actor; to
nobody where the handler has ended (R240, R307). -/
def State.deliver (s : State) (t i : Nat) (vals : List Word) : State :=
  match (List.range 8).find? fun k => ((s.slot t k).pend? i).isSome with
  | some k => s.modSlot t k fun sl => sl.complete i vals
  | none =>
    match (s.tile t).router.actors.find? fun e => e.2.savedPend.any fun p => p.id == i with
    | none => s
    | some (n, a) =>
      match a.savedPend.find? fun p => p.id == i with
      | none => s
      | some p => s.completeImage t n a p vals

/-! ### Allocation queries (R399) -/

/-- The answer to an allocation query (R399). -/
def State.queryAnswer (s : State) (q : Ask) : Word :=
  let al := s.allocOf q.alloc
  let x := get q.a 7 0
  let y := get q.a 15 8
  let n := get q.a 20 16
  if x < al.w ∧ y < al.h then
    let t := tileKey (al.x + x) (al.y + y)
    let A := (s.tile t).router.actor n
    if A.isBound = true ∧ A.launch = q.launch then (handleOf t n A.inc).zeroExtend 64 else 0
  else 0

/-- ALLOCATION_QUERY_ANSWER: the oldest query of the slot is answered, and the value reaches its handler, an evicted one too (R307). -/
def execAllocationQueryAnswer (s : State) : Host.Outcome State Fault Refusal :=
  .next (match s.queries.find? fun q => q.tile == s.ev.tile && q.slot == s.ev.unit with
    | none => s
    | some q =>
      { s with queries := s.queries.filter fun x => x.pend != q.pend }.deliver q.tile q.pend [s.queryAnswer q])

end Sys2Proof.Machine
end

