-- ==== Sys2Proof/Machine/System.lean ====
section
/-!
DEFINITION. System instructions: special registers (R234, R403, R408), invalidations and generations (R409, R410), leave
(R419, R495) and swatch tests (R420-R422, R469, R489-R492).
-/
namespace Sys2Proof.Machine

/-! ### Special registers (R225, R226, R234, R371, R403) -/

/-- What the handler of a slot counts its coordinates from (R234). -/
def State.slotAlloc (s : State) (t k : Nat) : Alloc := s.allocOf (s.launchOf t k)

/-- MFS of special register `n` on slot `k` of tile `t` (R234, R403). -/
def State.sprRead (s : State) (t k n : Nat) : Word :=
  let T := s.tile t
  let sl := s.slot t k
  let a := s.slotAlloc t k
  match n with
  | 0x000 => put 0 8 (tileX t + 256 - a.x)
  | 0x001 => put 0 8 (tileY t + 256 - a.y)
  | 0x002 => BitVec.ofNat 64 (s.panelOf t)
  | 0x003 => BitVec.ofNat 64 (s.lsize t)
  | 0x004 => 0x1020
  | 0x005 => BitVec.ofNat 64 (k % 8)
  | 0x006 => T.cycles
  | 0x007 => sl.asidWord
  | 0x008 => s.actorWord t k
  | 0x009 => sl.budget.zeroExtend 64
  | 0x00A => sl.fpcs.word
  | 0x00B => sl.rseed
  | 0x00C => sl.rctr
  | 0x010 => sl.top.start
  | 0x011 => sl.top.stop
  | 0x012 => sl.top.count
  | 0x013 => sl.lstat
  | 0x014 => sl.below.start
  | 0x015 => sl.below.stop
  | 0x016 => sl.below.count
  | 0x018 => sl.wsp
  | 0x019 => sl.wdepth
  | 0x020 => sl.trapCause
  | 0x021 => sl.trapPc
  | 0x022 => sl.trapVal
  | 0x030 => put 8 8 (tileY t) + put 0 8 (tileX t)
  | 0x100 => T.tvec
  | 0x101 => put 1 1 (bit sl.inTrap) + put 0 1 (bit (decide (sl.pMode = Mode.system)))
  | 0x102 => sl.tscr
  | _ => T.actcmd.zeroExtend 64

/-- The registers of a slot that MTS writes whole (R234, R403). -/
def Slot.sprWrite (sl : Slot) (n : Nat) (v : Word) : Slot :=
  match n with
  | 0x007 => { sl with asid := BitVec.ofNat 12 (get v 11 0), gen := BitVec.ofNat 4 (get v 15 12) }
  | 0x009 => { sl with budget := v.setWidth 32 }
  | 0x00A => { sl with fpcs := fpcsOf v }
  | 0x00B => { sl with rseed := v }
  | 0x00C => { sl with rctr := v }
  | 0x010 => { sl with top := { sl.top with start := v } }
  | 0x011 => { sl with top := { sl.top with stop := v } }
  | 0x012 => { sl with top := { sl.top with count := v } }
  | 0x013 => sl.setLstat v
  | 0x014 => { sl with below := { sl.below with start := v } }
  | 0x015 => { sl with below := { sl.below with stop := v } }
  | 0x016 => { sl with below := { sl.below with count := v } }
  | 0x018 => { sl with wsp := v }
  | 0x020 => { sl with trapCause := v &&& causeMask }
  | 0x021 => { sl with trapPc := v }
  | 0x022 => { sl with trapVal := v }
  | 0x101 => { sl with inTrap := v.getLsbD 1, pMode := modeOf (v.getLsbD 0) }
  | 0x102 => { sl with tscr := v }
  | _ => sl

/-- Registers that user mode may neither read nor write (R234, R403). -/
def sprPriv (n : Nat) : Bool := decide ((0x020 ≤ n ∧ n ≤ 0x022) ∨ n = 0x030 ∨ 0x100 ≤ n)

/-- Registers that MTS may not write in a mode (R234). -/
def sprReadOnly (n : Nat) (user : Bool) : Bool :=
  decide (n ≤ 0x006 ∨ n = 0x008 ∨ n = 0x019 ∨ n = 0x030) || (user && decide (n = 0x007 ∨ n = 0x009))

/-- MFS. -/
def execMfs (d : BitVec 5) (n : BitVec 10) (s : State) : Host.Outcome State Fault Refusal :=
  .next (if s.cur.pendsOn [d] then s
    else if s.cur.mode = .user ∧ sprPriv n.toNat = true then s.trapPriv (.mfs d n)
    else s.finish d (s.sprRead s.ft s.fk n.toNat))

/-- MTS to ACTCMD: the slot stalls until its command has taken effect (R408). -/
def State.mtsActcmd (s : State) (v : Word) : State :=
  let t := s.ft
  let k := s.fk
  let go := fun (x : State) => if s.actSelf t k v then x else x.modSlot t k Slot.advance
  match (s.tile t).actWait with
  | some w =>
    if w.slot = k ∧ w.cmd = v ∧ w.done = true then (s.setWait t none).modSlot t k Slot.advance
    else if w.slot ≠ k then s
    else if (s.actTry t k v).2 then go (s.actTry t k v).1 else (s.actTry t k v).1
  | none => if (s.actTry t k v).2 then go (s.actTry t k v).1 else (s.actTry t k v).1

/-- What MTS checks in the value it writes: a cause and TRAPVAL (R56, R225, R403, R408). -/
def mtsFault (n : Nat) (v : Word) : Option Nat :=
  if n = 0x00A ∧ 4 < get v 7 5 then some 0x01
  else if n = 0x110 ∧ actOk v = false then some 0x01
  else if (n = 0x018 ∧ get v 4 0 ≠ 0) ∨ (n = 0x100 ∧ get v 1 0 ≠ 0) then some 0x02
  else none

/-- MTS: its write takes effect for the next instruction of the slot. -/
def execMts (a : BitVec 5) (n : BitVec 10) (s : State) : Host.Outcome State Fault Refusal :=
  let v := s.cur.sreg a
  let r := n.toNat
  .next (if s.cur.pendsOn [a] then s
    else if s.cur.mode = .user ∧ sprPriv r = true then s.trapPriv (.mts a n)
    else if sprReadOnly r (decide (s.cur.mode = Mode.user)) then s.trapIllegal (.mts a n)
    else
      match mtsFault r v with
      | some 0x01 => s.trapIllegal (.mts a n)
      | some c => s.trap c 0 v
      | none =>
        if r = 0x110 then s.mtsActcmd v
        else if r = 0x100 then (s.modCur Slot.advance).modTile s.ft fun T => { T with tvec := v }
        else s.modCur fun sl => sl.advance.sprWrite r v)

/-- A command that waits is tried again by the hardware (R408). -/
def State.actEvent (s : State) (t op : Nat) : State :=
  match (s.tile t).actWait with
  | none => s
  | some w =>
    if get w.cmd 63 60 ≠ op ∨ w.done = true then s
    else
      let r := s.actTry t w.slot w.cmd
      if !r.2 then r.1
      else if s.actSelf t w.slot w.cmd then r.1
      else r.1.setWait t (some { w with moving := false, done := true })

/-- ACTCMD_EVICT. -/
def execActcmdEvict (s : State) : Host.Outcome State Fault Refusal := .next (s.actEvent s.ev.tile 1)

/-- ACTCMD_RESTORE. -/
def execActcmdRestore (s : State) : Host.Outcome State Fault Refusal := .next (s.actEvent s.ev.tile 2)

/-! ### Invalidations and generations (R359, R364, R365, R409, R410) -/

/-- The code of an invalidation in its message. -/
def InvKind.code (i : InvKind) : Nat × BitVec 12 × Word :=
  match i with
  | .all => (0, 0, 0)
  | .asid a => (1, a, 0)
  | .page a va => (2, a, va)

/-- The invalidation of a code. -/
def invOf (k : Nat) (a : BitVec 12) (va : Word) : InvKind :=
  match k with
  | 0 => .all
  | 1 => .asid a
  | _ => .page a va

/-- TLBINV of the running slot (R359, R409): after the slot's earlier stores, the walk caches of the scope drop what
matches and a message goes to every tile of the scope that holds any state. The slot waits until the last has arrived. -/
def State.tlbinv (s : State) (i : InvKind) (wafer : Bool) : State :=
  let c := i.code
  let panel := if wafer then none else some (s.panelOf s.ft)
  let id := s.seq
  let p : Pend := ⟨id, [], .result, 0, 0, true, false⟩
  let s1 := (s.stamp.modCur fun sl => { sl with pend := sl.pend ++ [p], waiting := true }).dropWalks i panel
  (s1.tilesIn panel).foldl (fun a t => a.post (.inval c.1 c.2.1 c.2.2 wafer id) s.ft t false) s1

/-- The checks of TLBINV, then the invalidation (R409). -/
def State.tlbinvCheck (s : State) (i : Instr) (rs : List (BitVec 5)) (a : Word) (k : InvKind) (all : Bool) : State :=
  if s.cur.pendsOn rs then s
  else if s.cur.mode = .user then s.trapPriv i
  else if get a 63 19 ≠ 0 ∨ get a 15 12 ≠ 0 ∨ (get a 18 16 ≠ 2 ∧ get a 18 16 ≠ 3) ∨ (all = true ∧ get a 11 0 ≠ 0) then
    s.trapIllegal i
  else if (s.tile s.ft).stores.any fun e => e.slot == s.fk % 8 then s
  else s.tlbinv k (decide (get a 18 16 = 3))

/-- The ASID of an operand. -/
def asidOf (a : Word) : BitVec 12 := BitVec.ofNat 12 (get a 11 0)

/-- TLBINV.ALL. -/
def execTlbinvAll (a : BitVec 5) (s : State) : Host.Outcome State Fault Refusal :=
  .next (s.tlbinvCheck (.tlbinvAll a) [a] (s.cur.sreg a) .all true)

/-- TLBINV.ASID. -/
def execTlbinvAsid (a : BitVec 5) (s : State) : Host.Outcome State Fault Refusal :=
  .next (s.tlbinvCheck (.tlbinvAsid a) [a] (s.cur.sreg a) (.asid (asidOf (s.cur.sreg a))) false)

/-- TLBINV.VA. -/
def execTlbinvVa (a b : BitVec 5) (s : State) : Host.Outcome State Fault Refusal :=
  .next (s.tlbinvCheck (.tlbinvVa a b) [a, b] (s.cur.sreg a) (.page (asidOf (s.cur.sreg a)) (s.cur.sreg b)) false)

/-- A copy stream of a tile has a read in flight, which waits at a full-empty word (R309). -/
def State.streamWaits (s : State) (t g : Nat) : Bool := s.feWait.any fun q => q.who == FeWho.poll t g

/-- An access that a generator of a tile made under an extent the invalidation matches is not performed: the generator completes it
before it pauses (R359, R364). One of the element path that came back refused is made again at its address (R362). -/
def State.invBusy (s : State) (t : Nat) (i : InvKind) : Bool :=
  let F := (s.tile t).fabric
  (F.path.ext.any i.hitsExtent && F.ops.any fun o => o.got.isNone && !o.refused)
    || (List.range 8).any fun g => (F.gen g).ext.any i.hitsExtent && s.streamWaits t g

/-- What an invalidation names has left every cache of its scope once it is performed, with what was put there after its message had
passed the tile; extents of a generation that was retired meanwhile are patched again (R358, R359, R365). -/
def State.invSweep (s : State) (i : InvKind) (panel : Option Nat) : State :=
  let old := fun (e : Extent) => i.hitsExtent e && e.gen != (s.asid e.asid).gen
  let late := fun (g : Stream) => if g.ext.any old then
    { g with ext := g.ext.map fun e => if old e then { e with stale := true } else e } else g
  (s.tilesIn panel).foldl (fun a t => a.modTile t fun T =>
    { T with
      tlb := T.tlb.filter fun e => !i.hits e.asid e.level e.page
      fabric := { T.fabric with path := late T.fabric.path, streams := T.fabric.streams.map fun e => (e.1, late e.2) } })
    (s.dropWalks i panel)

/-- Nothing of invalidation `who` is on its way any more: LOW follows at wafer scope, and the slot goes on (R359,
R365). -/
def State.invDone (s : State) (src who : Nat) (i : InvKind) (wafer : Bool) : State :=
  let left := s.flights.any fun f => match f.msg with
    | .inval _ _ _ _ w => w == who
    | _ => false
  if left then s
  else
    let s0 := s.invSweep i (if wafer then none else some (s.panelOf src))
    let s1 := if wafer then s0.raiseLow i else s0
    match (List.range 8).find? fun k => ((s1.slot src k).pend? who).isSome with
    | some k => s1.modSlot src k fun sl => sl.feDone who []
    | none => s1

/-- INVALIDATION_ARRIVAL: TLB entries, the walk cache of its panel and affected generators of a tile (R359, R364). -/
def execInvalidationArrival (s : State) : Host.Outcome State Fault Refusal :=
  .next (match s.flight? s.ev.n with
    | some f =>
      (match f.msg with
      | .inval k a va wafer who =>
        let i := invOf k a va
        if !s.arrived f || s.invBusy f.dst i then s
        else
          let s1 := (((s.dropFlight f.id).dropWalkers i (· == f.dst)).dropWalks i (some (s.panelOf f.dst))).modTile f.dst
            fun T => T.invalidate i
          s1.invDone f.src who i wafer
      | _ => s)
    | none => s)

/-- ASIDRET (R365, R410). -/
def execAsidret (d a : BitVec 5) (s : State) : Host.Outcome State Fault Refusal :=
  let x := asidOf (s.cur.sreg a)
  .next (if s.cur.pendsOn [d, a] then s
    else if s.cur.mode = .user then s.trapPriv (.asidret d a)
    else if get (s.cur.sreg a) 63 12 ≠ 0 ∨ s.sweepRequired x = true then s.trapIllegal (.asidret d a)
    else
      let A := { s.asid x with gen := (s.asid x).gen + 1 }
      { s with asids := s.asids.put x.toNat A }.finish d (put 4 4 A.low.toNat + put 0 4 A.gen.toNat))

/-! ### Leave (R419, R495) -/

/-- The oldest request of a panel can be granted (R495). -/
def Panel.fits (p : Panel) (mw : Nat) : Bool :=
  decide (p.booked + mw ≤ p.budget.toNat) || (decide (p.budget.toNat < mw) && decide (p.booked = 0))

/-- A slot asks for leave: the machine, and whether the balance has been raised (R419, R495). -/
def State.takeLeave (s : State) (t k : Nat) (cls : BitVec 2) (n : Nat) : State × Bool :=
  let q : LeaveReq := ⟨t, some k, cls, n⟩
  let sl := s.slot t k
  let gain := fun (x : Slot) =>
    { x with bal := x.bal.set cls.toNat (x.bal[cls.toNat]'cls.isLt + BitVec.ofNat 16 n) cls.isLt,
             asked := none, granted := false }
  if sl.asked = some q then (if sl.granted then (s.modSlot t k gain, true) else (s, false))
  else
    let p := s.panel (s.panelOf t)
    if p.reqs.isEmpty && p.fits q.cost then ((s.book t q.cost).modSlot t k gain, true)
    else
      ((s.modPanel (s.panelOf t) fun p => { p with reqs := p.reqs ++ [q] }).modSlot t k fun sl =>
        { sl with asked := some q }, false)

/-- A balance of the running slot. -/
def Slot.balance (sl : Slot) (cls : BitVec 2) : BitVec 16 := sl.bal[cls.toNat]'cls.isLt

/-- A unit leaves a slot's balance; it stays booked (R419). -/
def Slot.spend (sl : Slot) (cls : BitVec 2) : Slot :=
  { sl with bal := sl.bal.set cls.toNat (sl.balance cls - 1) cls.isLt }

/-- The result word of LEAVE. -/
def leaveWord (bal : BitVec 16) (status : Nat) : Word := put 48 16 bal.toNat + put 0 8 status

/-- leave of R419 for the running slot. -/
def State.leave (s : State) (cls : BitVec 2) (d a : BitVec 5) (y : BitVec 1) : State :=
  let n := (s.cur.sreg a).toNat
  let b := s.cur.balance cls
  if s.cur.pendsOn [d, a] then s
  else if 65535 < n then s.finish d (leaveWord b 2)
  else if n = 0 then s.finish d (leaveWord b 0)
  else if 65535 < b.toNat + n then s.finish d (leaveWord b 3)
  else
    let p := s.panel (s.panelOf s.ft)
    if decide (y = 1) && !(p.reqs.isEmpty && p.fits (leaveCost cls * n)) then s.finish d (leaveWord b 1)
    else
      let r := s.takeLeave s.ft s.fk cls n
      if r.2 then r.1.finish d (leaveWord (r.1.cur.balance cls) 0) else r.1

/-- LEAVE.MATRIX. -/
def execLeaveMatrix (d a : BitVec 5) (y : BitVec 1) (s : State) : Host.Outcome State Fault Refusal := .next (s.leave 0 d a y)

/-- LEAVE.SWAP. -/
def execLeaveSwap (d a : BitVec 5) (y : BitVec 1) (s : State) : Host.Outcome State Fault Refusal := .next (s.leave 1 d a y)

/-- LEAVE.STREAM. -/
def execLeaveStream (d a : BitVec 5) (y : BitVec 1) (s : State) : Host.Outcome State Fault Refusal := .next (s.leave 2 d a y)

/-- LEAVE.SWATCH. -/
def execLeaveSwatch (d a : BitVec 5) (y : BitVec 1) (s : State) : Host.Outcome State Fault Refusal := .next (s.leave 3 d a y)

/-- The configuration loader of a tile asks for leave (R279, R497). -/
def State.loaderAsk (s : State) (t : Nat) (qs : List LeaveReq) : State :=
  (s.modPanel (s.panelOf t) fun p => { p with reqs := p.reqs ++ qs }).modFabric t fun F =>
    { F with part := { F.part with wanted := F.part.wanted ++ qs } }

/-- The loader gives back those of the units it holds that `which` picks. -/
def State.loaderGive (s : State) (t : Nat) (which : LeaveReq → Bool) : State :=
  let held := (s.tile t).fabric.part.leave
  (s.unbook t (((held.filter which).map LeaveReq.cost).sum)).modFabric t fun F =>
    { F with part := { F.part with leave := held.filter fun q => !which q } }

/-- A request for the unit of SWAP that a boundary takes (R279). -/
def LeaveReq.swap (q : LeaveReq) : Bool := q.cls == 1

/-- The loader gives back all it holds, and withdraws what it has asked for (R497). -/
def State.loaderReturn (s : State) (t : Nat) : State :=
  ((s.loaderGive t fun _ => true).modPanel (s.panelOf t) fun p =>
    { p with reqs := p.reqs.filter fun q => !(q.tile == t && q.slot.isNone) }).modFabric t fun F =>
      { F with part := { F.part with wanted := [] } }

/-- LEAVE_GRANT: the oldest request of panel `ev.tile` is granted once it fits (R495). -/
def execLeaveGrant (s : State) : Host.Outcome State Fault Refusal :=
  let n := s.ev.tile
  .next (match (s.panel n).reqs with
    | [] => s
    | q :: r =>
      if !(s.panel n).fits q.cost then s
      else
        let s1 := s.modPanel n fun p => { p with reqs := r, booked := p.booked + q.cost }
        match q.slot with
        | some k => s1.modSlot q.tile k fun sl => { sl with granted := true }
        | none =>
          s1.modFabric q.tile fun F =>
            { F with part := { F.part with wanted := F.part.wanted.erase q, leave := F.part.leave ++ [q] } })

/-! ### Swatch tests (R420-R422, R490) -/

/-- Fields of a test descriptor (R420). -/
def descTest (d : Word) : Nat := get d 63 60
def descUnit (d : Word) : Nat := get d 28 24
def descSub (d : Word) : Nat := get d 23 20
def descTile (d : Word) : Nat := tileKey (get d 7 0) (get d 15 8)

/-- A descriptor's reserved bits are zero and its tile exists (R420). -/
def descOk (d : Word) : Bool :=
  decide (get d 59 48 = 0 ∧ get d 31 29 = 0 ∧ get d 19 16 = 0 ∧ get d 7 0 ≤ 135 ∧ get d 15 8 ≤ 187)

/-- TEST, UNIT and SUB of a row of R420's table. -/
def State.descValid (s : State) (d : Word) : Bool :=
  let u := descUnit d
  let b := descSub d
  match descTest d with
  | 0 => decide ((u ≤ 26 ∨ u = 28) ∧ b = 0)
  | 1 => decide (u = 27) && ((s.silicon (descTile d)).banks.getLsbD b || (s.tile (descTile d)).marked.contains b)
  | 2 => decide (16 ≤ u ∧ u ≤ 19 ∧ b = 0)
  | 3 => decide ((u = 23 ∧ b ≤ 7) ∨ (u = 28 ∧ b ≤ 3))
  | _ => false

/-- The unit that a descriptor names is cordoned (R490): a receiver or an island by itself, an element also once it is in EMAP. -/
def State.cordoned (s : State) (t : Nat) (d : Word) : Bool :=
  let u := descUnit d
  let F := (s.tile t).fabric
  if u = 27 then false
  else if u = 23 ∧ descTest d = 3 then (F.rings.get Ring.reset (descSub d)).cordoned
  else (s.tile t).swatch.cordoned.contains u

/-- The status of SWATCH.RUN (R421). -/
def State.swatchStatus (s : State) (d : Word) : Nat :=
  if !descOk d || decide (get d 47 32 ≠ 0) then 1
  else if !s.descValid d then 4
  else if s.cordoned (descTile d) d then 2
  else if 4 ≤ (s.tile (descTile d)).swatch.running.length then 3
  else 0

/-- SWATCH.RUN: it takes a unit of leave where the slot holds none (R419, R421). -/
def execSwatchRun (d a : BitVec 5) (s : State) : Host.Outcome State Fault Refusal :=
  let x := s.cur.sreg a
  let go := fun (s : State) =>
    let c := s.swatchStatus x
    let t := descTile x
    if c ≠ 0 then s.finish d (BitVec.ofNat 64 c)
    else
      let n := (s.tile t).swatch.next
      ((s.modSwatch t fun w =>
          { w with next := n + 1, running := w.running ++ [⟨n, x ||| put 32 16 n.toNat, s.ft, false, 0, true, false, none⟩] }).modCur
            fun sl => sl.spend 3).finish d (put 8 16 n.toNat)
  .next (if s.cur.pendsOn [d, a] then s
    else if s.cur.mode = .user then s.trapPriv (.swatchRun d a)
    else if s.cur.balance 3 ≠ 0 then go s
    else
      let r := s.takeLeave s.ft s.fk 3 1
      if r.2 then go r.1 else r.1)

/-- A result word (R421). -/
def resultWord (fails cycles result : Nat) : Word := put 48 16 (min fails 65535) + put 16 32 cycles + put 0 8 result

/-- What SWATCH.STAT reads for a tile and ticket (R421). -/
def State.testWord (s : State) (d : Word) : Word :=
  let w := (s.tile (descTile d)).swatch
  let k := BitVec.ofNat 16 (get d 47 32)
  if !descOk d then resultWord 0 0 0xFE
  else if w.running.any fun x => x.booked && x.ticket == k then resultWord 0 0 0xFF
  else
    match w.reports.find? fun r => r.1 == k with
    | some r => r.2.2
    | none => resultWord 0 0 0xFE

/-- SWATCH.STAT. -/
def execSwatchStat (d a : BitVec 5) (s : State) : Host.Outcome State Fault Refusal :=
  .next (if s.cur.pendsOn [d, a] then s
    else if s.cur.mode = .user then s.trapPriv (.swatchStat d a)
    else s.finish d (s.testWord (s.cur.sreg a)))

/-- The advisory of R469 to the tile's system actor, where RELADV is armed and the tile LIVE: a result, the banks of the errors and the
bank of the latest. -/
def State.advise (s : State) (t result emask bank : Nat) : State :=
  let R := (s.tile t).reliab
  if R.reladv.getLsbD 0 && decide ((s.silicon t).state = 1) then
    (s.modTile t fun T => { T with reliab := { T.reliab with reladv := T.reliab.reladv &&& ~~~3 } }).hwStitch t t 0 false
      0 4 (R.reladv &&& ~~~3)
      (put 48 8 result + put 32 16 emask + put 16 4 bank + put 8 8 (tileY t) + put 0 8 (tileX t)) none
  else s

/-- The banks of the last three corrected errors (R469). -/
def Reliab.emask (R : Reliab) : Nat := lanesNat 1 (fun b => bit ((R.stamps.take 3).any fun x => x.2 == b)) 16

/-- The bank of the latest corrected error. -/
def Reliab.bank (R : Reliab) : Nat := (R.stamps.head?.map (·.2)).getD 0

/-- System software is advised that a tile should be retired (R490, by R469's advisory). -/
def State.adviseTile (s : State) (t : Nat) : State := s.advise t 1 (s.tile t).reliab.emask (s.tile t).reliab.bank

/-- Three corrected errors lie within an hour (R469). -/
def Reliab.thrice (R : Reliab) : Bool :=
  match R.stamps with
  | a :: _ :: c :: _ => decide ((a.1 - c.1).toNat ≤ 4320000000000)
  | _ => false

/-- A lane of a mesh link in direction `d` is fenced; fewer than four lanes are a failed link (R33). -/
def State.fenceHop (s : State) (t d : Nat) : State :=
  let p := s.physOf t
  (s.care1 t 0x0007 d).modPhy p fun P =>
    let n := P.lanes.get 8 d - 1
    { P with lanes := P.lanes.put d n, badLinks := if n < 4 then natInsert (d + 4) (natInsert d P.badLinks) else P.badLinks }

/-- A test has failed: its error is lasting, and the containment unit is cordoned (R489, R490). A bank is marked for retirement; the tile
as a whole is advised to system software. -/
def State.cordon (s : State) (t : Nat) (x : Test) : State :=
  let d := x.desc
  let u := descUnit d
  let b := descSub d
  let s1 := s.modSwatch t fun w => { w with cordoned := natInsert u w.cordoned }
  if x.wide then s.adviseTile t
  else if u < 16 then s1
  else if u < 20 then
    (s1.modFabric t fun F =>
      { F with islands := F.islands.put (u - 16) { F.islands.get Island.reset (u - 16) with
          cordoned := true, valid := false, loading := false, elems := [], scales := [] } }).care1 t 0x000D u
  else if u = 23 ∧ descTest d = 3 then
    ((s.modFabric t fun F =>
      { F with rings := F.rings.put b { F.rings.get Ring.reset b with cordoned := true, st := 0 } }).care1 t 0x000D (u + b * 256))
  else if u = 27 then s.modTile t fun T => { T with marked := natInsert b T.marked }
  else if u = 28 ∧ descTest d = 3 then s.fenceHop t b
  else s1.adviseTile t

/-- At a load boundary a cordoned element is entered into EMAP (R36, R490): the tile's spare takes its place; a second dead
element is the tile's retirement, which system software is told of. -/
def State.enterEmap (s : State) (t : Nat) : State :=
  match (s.tile t).swatch.cordoned.find? fun u => decide (u < 16) with
  | none => s
  | some u =>
    if (s.silicon t).emap = 17 then
      ((s.modPhy (s.physOf t) fun P => { P with emap := BitVec.ofNat 5 u }).modSwatch t fun w =>
        { w with cordoned := natErase u w.cordoned }).care1 t 0x000D u
    else s.adviseTile t

/-- A test of tile `t` ends with a result: the report of a test of SWATCH.RUN, its count, and what it classifies (R421,
R469, R490). -/
def State.endTest (s : State) (t i : Nat) (fails cycles result : Nat) : State :=
  match (s.tile t).swatch.running[i]? with
  | none => s
  | some x =>
    let w := resultWord fails cycles result
    let s1 := (s.modSwatch t fun y =>
      { y with running := dropAt y.running i,
               reports := if x.booked then ((x.ticket, x.desc, w) :: y.reports).take 16 else y.reports }).care1 t 0x000C
        (descTest x.desc * 4096 + result)
    let s2 := if x.booked then (s1.unbook x.issuer 40).hwStitch t x.issuer 0 false 0 4 x.desc w none else s1
    let s3 := if result = 1 then s2.cordon t x else s2
    match x.corrected with
    | some (emask, bank, true) => s3.advise t result emask bank
    | _ => s3

/-- Tests of a tile whose unit is retired are abandoned (R422, R490): how long each ran and how often it failed is not the model's to say
(log 15). -/
def State.abandon (s : State) (t : Nat) (gone : Test → Bool) : State :=
  (s.tile t).swatch.running.foldl (fun a _ =>
    match (a.tile t).swatch.running.findIdx? gone with
    | some i => a.useFree.endTest t i (get a.freeVal 63 48) (get a.freeVal 47 16) 3
    | none => a) s

/-- SWATCH.STOP: how long the test ran and how often it failed is not the model's to say (log 15). -/
def execSwatchStop (d a : BitVec 5) (s : State) : Host.Outcome State Fault Refusal :=
  let x := s.cur.sreg a
  let t := descTile x
  .next (if s.cur.pendsOn [d, a] then s
    else if s.cur.mode = .user then s.trapPriv (.swatchStop d a)
    else
      match (if descOk x then (s.tile t).swatch.running.findIdx? fun y => y.booked && y.ticket.toNat == get x 47 32
        else none) with
      | none => s.finish d (s.testWord x)
      | some i =>
        let f := s.freeVal
        let s1 := s.useFree.endTest t i (get f 63 48) (get f 47 16) 2
        s1.finish d (resultWord (get f 63 48) (get f 47 16) 2))

/-- A test of tile `t` may not run now (R422): RESIDUE of an island that holds a valid block and is not cordoned, LOOP of a ring
that is bound to a group in a state other than idle. -/
def State.unitBusy (s : State) (t : Nat) (d : Word) : Bool :=
  let F := (s.tile t).fabric
  match descTest d with
  | 2 =>
    let I := F.islands.get Island.reset (descUnit d - 16)
    I.valid && !I.cordoned
  | 3 =>
    let r := F.rings.get Ring.reset (descSub d)
    decide (descUnit d = 23 ∧ r.st ≠ 0 ∧ (s.group r.group).state ≠ .idle)
  | _ => false

/-- SWATCH_TEST_END: test `ev.n` of a tile ends with `ev.unit` fails after `ev.v` cycles; a test whose unit is busy goes on. -/
def execSwatchTestEnd (s : State) : Host.Outcome State Fault Refusal :=
  let t := s.ev.tile
  .next (if ((s.tile t).swatch.running[s.ev.n]?).any fun x => s.unitBusy t x.desc then s
    else s.endTest t s.ev.n s.ev.unit s.ev.v.toNat (if s.ev.unit = 0 then 0 else 1))

/-- SWATCH_ROUND: STRUCT of every element, copy island, fold unit and router, RESIDUE of every island that holds no
valid block (R492). -/
def execSwatchRound (s : State) : Host.Outcome State Fault Refusal :=
  let t := s.ev.tile
  let s1 := (List.range 16 ++ [20, 21, 22, 28]).foldl (fun a u => a.startTest t 0 u 0 false) s
  .next (((List.range 4).filter fun i => !((s.tile t).fabric.islands.get Island.reset i).valid).foldl
    (fun a i => a.startTest t 2 (16 + i) 0 false) s1)

/-! ### Errors of memory words (R469, R488) -/

/-- A location of a memory that carries check bits: a local store of the mesh, or one of the 48 spools (R1, R323, R488). -/
def memWord (loc : Nat) : Bool :=
  (decide (loc / 2 ^ 56 = 1) && (storePlace (loc % 2 ^ 36)).isSome)
    || (decide (0x10 ≤ loc / 2 ^ 56 ∧ loc / 2 ^ 56 ≤ 0x15) && (spoolPlace (loc / 2 ^ 53 % 64) (loc % 2 ^ 53)).isSome)

/-- An access finds an error in the word at a location: a single-bit error is corrected, counted and followed by a MARCH of
its bank (R469, R489); a word that cannot be corrected is marked. -/
def State.memError (s : State) (loc : Nat) (double : Bool) : State :=
  let w := wordOf loc
  match storeTile w with
  | some (t, off) =>
    let live := (List.range 16).filter fun i => (s.silicon t).banks.getLsbD i
    let bank := (live[off / 64 % live.length]?).getD 0
    if !memWord w || decide (s.lsize t ≤ off) then s
    else
      let s1 := s.care1 t (if double then 0x0002 else 0x0001) (27 + bank * 256)
      if double then { s1 with marks := natInsert w s1.marks }.startTest t 1 27 bank true
      else
        let s2 := s1.modTile t fun T =>
          { T with reliab := { T.reliab with stamps := ((T.cycles, bank) :: T.reliab.stamps).take 3 } }
        let R := (s2.tile t).reliab
        s2.queueTest t ⟨0, descOf t 1 27 bank, t, true, 0, false, false, some (R.emask, R.bank, R.thrice)⟩
  | none =>
    if memWord w then
      let word1 := w / 2 ^ 53 % 64 * 2 ^ 40 + 0xFF * 2 ^ 32 + 29 * 65536 + (if double then 2 else 1)
      { s.useFree with
        marks := if double then natInsert w s.marks else s.marks
        care := { s.care with
          buf := s.care.buf ++ [⟨s.freeVal, BitVec.ofNat 64 word1⟩]
          ctr := s.care.ctr.put word1 (min (2 ^ 64 - 1) (s.care.ctr.get 0 word1 + 1)) } }
    else s

end Sys2Proof.Machine
end

