-- ==== Sys2Proof/Machine/Fabric.lean ====
section
/-!
DEFINITION. What the units of a tile's fabric share: poison reports (R176-R179), the tokens a row or a fold value is made
of (R81, R93, R429, R448), wires and the room at their ends (R111, R267), and the counts of the drain wave (R278).
-/
namespace Sys2Proof.Machine

/-! ### Parts of a fabric -/

/-- Element `e`. -/
def Fabric.elem (f : Fabric) (e : Nat) : Elem := f.elems.get Elem.reset e

/-- The fabric with element `e` changed. -/
def Fabric.modElem (f : Fabric) (e : Nat) (g : Elem → Elem) : Fabric := { f with elems := f.elems.put e (g (f.elem e)) }

/-- Island `i`. -/
def Fabric.island (f : Fabric) (i : Nat) : Island := f.islands.get Island.reset i

/-- The fabric with island `i` changed. -/
def Fabric.modIsland (f : Fabric) (i : Nat) (g : Island → Island) : Fabric :=
  { f with islands := f.islands.put i (g (f.island i)) }

/-- Fold slot `t`. -/
def Fabric.fold (f : Fabric) (t : Nat) : FoldSlot := f.folds.get FoldSlot.reset t

/-- The fabric with fold slot `t` changed. -/
def Fabric.modFold (f : Fabric) (t : Nat) (g : FoldSlot → FoldSlot) : Fabric := { f with folds := f.folds.put t (g (f.fold t)) }

/-- The weft port's state for group `g`. -/
def Fabric.portGroup (f : Fabric) (g : Nat) : PortGroup := f.groups.get PortGroup.reset g

/-- The fabric with the weft port's state for a group changed. -/
def Fabric.modPort (f : Fabric) (g : Nat) (h : PortGroup → PortGroup) : Fabric :=
  { f with groups := f.groups.put g (h (f.portGroup g)) }

/-- The machine with element `e` of a tile changed. -/
def State.modElem (s : State) (t e : Nat) (g : Elem → Elem) : State := s.modFabric t fun F => F.modElem e g

/-- The machine with island `i` of a tile changed. -/
def State.modIsland (s : State) (t i : Nat) (g : Island → Island) : State := s.modFabric t fun F => F.modIsland i g

/-- The machine with fold slot `n` of a tile changed. -/
def State.modFold (s : State) (t n : Nat) (g : FoldSlot → FoldSlot) : State := s.modFabric t fun F => F.modFold n g

/-- The machine with a tile's part in its launch changed. -/
def State.modPart (s : State) (t : Nat) (g : Part → Part) : State := s.modFabric t fun F => { F with part := g F.part }

/-- The part of a tile in its launch. -/
def State.part (s : State) (t : Nat) : Part := (s.tile t).fabric.part

/-! ### Poison reports (R178, R179) -/

/-- The stop wave of a pre-emption has reached the tile (R484). -/
def State.stops (s : State) (t : Nat) : Bool := (s.part t).stopping

/-- Word 1 of a report. -/
def reportWord (count unit what : Nat) : Word := put 48 16 count + put 8 5 unit + put 0 5 what

/-- A sink unit receives a poisoned token (R179): the first in a load is reported at once, later ones are counted. -/
def State.sinkReport (s : State) (t unit what : Nat) (origin : Word) : State :=
  let r := (s.tile t).fabric.sinks.get SinkRep.reset unit
  let upd := fun (x : SinkRep) => s.modFabric t fun F => { F with sinks := F.sinks.put unit x }
  if !r.first then (upd ⟨true, 0, 0, 0⟩).report t unit 3 origin (reportWord 1 unit what)
  else if r.count = 0 then upd ⟨true, origin, what, 1⟩
  else upd { r with count := if r.count = 65535 then 65535 else r.count + 1 }

/-- The reports of a load boundary (R179). -/
def State.boundaryReports (s : State) (t : Nat) : State :=
  ((s.tile t).fabric.sinks.foldl (fun a e =>
    if e.2.count = 0 then a else a.report t e.1 3 e.2.origin (reportWord e.2.count.toNat e.1 e.2.what)) s).modFabric t
      fun F => { F with sinks := [] }

/-- A token is a gap: a plain token of TAG 7 (R169). -/
def Token.gap (k : Token) : Bool := !k.poison && k.tag == 7

/-! ### Fold values (R93, R96, R97, R429) -/

/-- Values in a flit of an operation. -/
def foldPer (op : BitVec 3) : Nat :=
  match op.toNat with
  | 0 | 2 | 3 => 8
  | 6 => 2
  | _ => 4

/-- An f32 form. -/
def foldF32 (op : BitVec 3) : Bool := op == 0 || op == 2 || op == 3

/-- The identity of an operation, as a gap stands for it (R429). -/
def foldIdentity (op : BitVec 3) : Int :=
  match op.toNat with
  | 0 => 0x80000000
  | 2 => 0xFF800000
  | 3 => 0x7F800000
  | 4 => -(2 ^ 63 : Nat)
  | 5 => (2 ^ 63 - 1 : Nat)
  | _ => 0

/-- The value of a token under an f32 or i64 form (R429). -/
def foldToken (op : BitVec 3) (k : Token) : FoldVal :=
  if k.poison then ⟨0, some k.data⟩
  else if k.gap then ⟨foldIdentity op, none⟩
  else if foldF32 op then ⟨(get k.data 31 0 : Nat), none⟩
  else ⟨k.data.toInt, none⟩

/-- The value of two tokens under add.l128, low first (R429). -/
def foldPair (lo hi : Token) : FoldVal :=
  if lo.poison then ⟨0, some lo.data⟩
  else if hi.poison then ⟨0, some hi.data⟩
  else ⟨((if lo.gap then 0 else lo.data.toNat) + (if hi.gap then 0 else hi.data.toNat) * 2 ^ 64 : Nat), none⟩

/-- Flits in a row of a tree (R93). -/
def FoldSlot.flits (f : FoldSlot) : Nat := (f.len + foldPer f.op) / foldPer f.op

/-- Where the first local source of a slot stands in slice order, and how many local sources stand before source `k` of
SRC order (R94, R95). -/
def FoldSlot.sliceOf (f : FoldSlot) (k : Nat) : Nat :=
  f.slice + ((List.range k).filter fun j => f.srcs.getLsbD (5 - j)).length

/-- Local source `k` (0-3 islands, 4 element, 5 needle) pushes the next flit of its rows. -/
def FoldSlot.pushLocal (f : FoldSlot) (k : Nat) (vals : List FoldVal) : FoldSlot :=
  let n := f.pushed.get 0 k
  let fl : FoldFlit := ⟨n / f.flits, n % f.flits, vals, f.sliceOf k, f.sliceOf k⟩
  { f with inq := f.inq.put (8 + k) (f.inq.get [] (8 + k) ++ [fl]), pushed := f.pushed.put k (n + 1) }

/-- Room for one more flit at the local input of source `k` (R98). -/
def FoldSlot.roomLocal (f : FoldSlot) (k : Nat) : Bool := decide ((f.inq.get [] (8 + k)).length < 4)

/-- An element's token enters a fold slot (R429). -/
def FoldSlot.pushToken (f : FoldSlot) (k : Token) : FoldSlot :=
  if f.op = 6 then
    match f.half with
    | none => { f with half := some k }
    | some lo => { f with half := none }.pushLocal 4 [foldPair lo k]
  else f.pushLocal 4 [foldToken f.op k]

/-! ### The ends of wires (R111, R267, R439, R448) -/

/-- Tokens of a streamed row of a format (R81, R448): the elements, then the scales. -/
def rowTokens (fmt : BitVec 3) : Nat :=
  match fmt.toNat with
  | 0 => 9
  | 1 | 2 => 17
  | _ => 33

/-- Replies that an input channel of an element still awaits (R198). -/
def Elem.reserved (e : Elem) (k : Nat) : Nat := (e.replies.get [] k).length

/-- A token channel of a link port is joined (R439); that the far end names this port back is what its credits say. -/
def Port.joined? (p : Port) (k : Nat) (recv : Bool) : Bool :=
  let w := p.lpch.get 0 k
  w.getLsbD 63 && decide (w.getLsbD 62 = recv) && decide (p.state = 2) && p.farV && p.joined.contains k
    && decide (get w 61 54 = p.farWid.toNat ∧ get w 53 47 = p.farPort.toNat)

/-- A sending channel takes a token: joined, not quiescing, with a credit (R439, R440). -/
def Port.sendRoom (p : Port) (k n : Nat) : Bool :=
  p.joined? k false && !(p.pendCh.any fun e => e.1 == k) && decide ((p.sent.get [] k).length + n ≤ 256)

/-- Tokens on their way over the data mesh to an end of a wire (R267). -/
def State.onWay (s : State) (d : Nat × Sink) : Nat :=
  (s.flights.map fun f => match f.msg with
    | .tokens k ks => if f.dst = d.1 ∧ k = d.2 then ks.length else 0
    | _ => 0).sum

/-- Flits that `n` tokens make at the element source of a fold slot (R429). -/
def FoldSlot.flitsOf (f : FoldSlot) (n : Nat) : Nat := if f.op = 6 then (n + bit f.half.isSome) / 2 else n

/-- Room for `n` tokens at a wire's fold slot (R98, R172). -/
def FoldSlot.roomToken (f : FoldSlot) (n : Nat) : Bool := decide ((f.inq.get [] 12).length + f.flitsOf n ≤ 4)

/-- An end of a wire has room for `n` tokens beside those on their way to it: the sender counts its free slots (R267). What one firing
pushes may complete an island's row and begin the next, while the row buffer has room for the one it completes (R68, R448). -/
def State.sinkRoom (s : State) (t : Nat) (d : Nat × Sink) (count : Nat) : Bool :=
  let n := count + s.onWay d
  let F := (s.tile d.1).fabric
  let P := F.part
  let here := (s.part t)
  let ready := decide (d.1 = t) ||
    (decide (P.launch = here.launch ∧ P.load = here.load) && decide (P.state = .running ∨ P.state = .settled))
  ready && match d.2 with
    | .elem e k => decide (((F.elem e).chans.get [] k).length + n ≤ 4)
    | .island i =>
      let I := F.island i
      decide (I.parts.length + n ≤ rowTokens I.rowFmt) || decide (I.parts.length < rowTokens I.rowFmt ∧ I.rows.length < 16)
    | .stream g => decide ((F.streams.get Stream.reset g).inq.length + n ≤ 4)
    | .ct => decide (F.ct.inq.length + n ≤ 4)
    | .cmp => decide (F.cmp.inq.length + n ≤ 4)
    | .mrg 0 => decide (F.mrg.in0.length + n ≤ 4)
    | .mrg _ => decide (F.mrg.in1.length + n ≤ 4)
    | .fold f => (F.fold f).roomToken n
    | .link p k => (s.port p).sendRoom k n && !s.stops t

/-- A tile that has settled runs again (R281). -/
def State.wakePart (s : State) (t : Nat) : State :=
  s.modPart t fun p => if p.state = .settled then { p with state := .running, dirty := true } else p

/-- A token reaches an end of a wire. -/
def State.sinkPut (s : State) (d : Nat × Sink) (k : Token) : State :=
  match d.2 with
  | .elem e c => s.modElem d.1 e fun E => { E with chans := E.chans.put c (E.chans.get [] c ++ [k]) }
  | .island i => s.modIsland d.1 i fun I => { I with parts := I.parts ++ [k] }
  | .stream g => s.modFabric d.1 fun F =>
      let G := F.streams.get Stream.reset g
      { F with streams := F.streams.put g { G with inq := G.inq ++ [k] } }
  | .ct => s.modFabric d.1 fun F => { F with ct := { F.ct with inq := F.ct.inq ++ [k] } }
  | .cmp => s.modFabric d.1 fun F => { F with cmp := { F.cmp with inq := F.cmp.inq ++ [k] } }
  | .mrg 0 => s.modFabric d.1 fun F => { F with mrg := { F.mrg with in0 := F.mrg.in0 ++ [k] } }
  | .mrg _ => s.modFabric d.1 fun F => { F with mrg := { F.mrg with in1 := F.mrg.in1 ++ [k] } }
  | .fold f => s.modFold d.1 f fun x => x.pushToken k
  | .link p c => (s.modPort p fun P => { P with sent := P.sent.put c (P.sent.get [] c ++ [k]) }).modPart d.1 fun q => { q with s := q.s + 1 }

/-- The flit of tile `t` that has room for one more token of a wire to another tile (R267): the last it sent there, still at its
own router, with tokens of that wire. -/
def State.openFlit (s : State) (t : Nat) (d : Nat × Sink) : Option (Nat × List Token) :=
  match (s.flights.filter fun f => f.src == t && f.dst == d.1 && f.data).getLast? with
  | none => none
  | some f =>
    match f.msg with
    | .tokens k ks =>
      if k = d.2 ∧ ks.length < 4 ∧ f.at_ = s.physOf t ∧ f.hops = [] then some (f.id, ks) else none
    | _ => none

/-- A token is sent from tile `t` to an end of a wire: on one tile at once, to another tile over the data mesh, counted as sent
(R267, R278). -/
def State.sendToken (s : State) (t : Nat) (d : Nat × Sink) (k : Token) : State :=
  if d.1 = t then (s.sinkPut d k).wakePart t
  else
    let s1 := s.modPart t fun p => { p with s := p.s + 1 }
    match s1.openFlit t d with
    | some (i, ks) =>
      { s1 with flights := s1.flights.map fun x => if x.id == i then { x with msg := .tokens d.2 (ks ++ [k]) } else x }
    | none => s1.post (.tokens d.2 [k]) t d.1 true

/-- A flit's tokens arrive at an end of a wire, and are counted as received (R267, R278). -/
def State.tokensArrive (s : State) (d : Nat × Sink) (ks : List Token) : State :=
  ((ks.foldl (fun a k => a.sinkPut d k) s).wakePart d.1).modPart d.1 fun p => { p with a := p.a + ks.length }

/-- A message that belongs to the configuration of the tile it goes to: tokens of a wire, or a fold flit. -/
def Msg.ofFabric (m : Msg) : Bool :=
  match m with
  | .tokens _ _ | .fold _ _ _ => true
  | _ => false

/-- A weft frame, which reaches a receiver only while it is tuned for its load (R13, R77). -/
def Msg.isFrame (m : Msg) : Bool :=
  match m with
  | .frame _ _ => true
  | _ => false

/-- What is on its way between the fabrics of some tiles goes with their configurations (R261, R279): tokens, fold flits, the frames in
their light, and what stands in the token channels of the ports they are the homes of (R439). -/
def State.dropTokens (s : State) (tiles : List Nat) : State :=
  { s with
    flights := s.flights.filter fun f => !((f.msg.ofFabric || f.msg.isFrame) && tiles.contains f.dst)
    ports := s.ports.map fun (e : Nat × Port) => if tiles.contains (portHome e.1) then (e.1, { e.2 with rq := [], sent := [] }) else e }

/-- The wire that begins at a source, if one does. -/
def Fabric.wire? (f : Fabric) (src : Source) : Option Wire := f.wires.find? fun w => w.src == src

/-- The ends that a wire's tokens reach: of several islands the first gathers the row (R73). -/
def Wire.ends (w : Wire) : List (Nat × Sink) :=
  let isl := w.dsts.filter fun d => match d.2 with
    | .island _ => true
    | _ => false
  (w.dsts.filter fun d => match d.2 with
    | .island _ => false
    | _ => true) ++ isl.take 1

/-- Every end of the wire from a source has room for `n` tokens; a source without a wire never lacks room. -/
def State.wireRoom (s : State) (t : Nat) (src : Source) (n : Nat) : Bool :=
  match (s.tile t).fabric.wire? src with
  | some w => w.ends.all fun d => s.sinkRoom t d n
  | none => true

/-- A token leaves a source of tile `t` along its wire. -/
def State.wirePush (s : State) (t : Nat) (src : Source) (k : Token) : State :=
  match (s.tile t).fabric.wire? src with
  | some w => w.ends.foldl (fun a d => a.sendToken t d k) s
  | none => s

/-- Tokens of a raw row move from the raw buffer of a channel into it as it has free slots (R81). -/
def Fabric.feedRaw (f : Fabric) (e k : Nat) : Fabric :=
  let b := f.raw.get [] (4 * e + k)
  let room := 4 - ((f.elem e).chans.get [] k).length
  if b.isEmpty ∨ room = 0 then f
  else { f.modElem e (fun E => { E with chans := E.chans.put k (E.chans.get [] k ++ b.take room) }) with
    raw := f.raw.put (4 * e + k) (b.drop room) }

/-- The head of an input channel is popped. -/
def State.popChan (s : State) (t e k : Nat) : State :=
  s.modFabric t fun F => (F.modElem e fun E => { E with chans := E.chans.put k ((E.chans.get [] k).drop 1) }).feedRaw e k

/-- The origin of a tile's coordinates in the load that is resident there: the origin of the placement that holds it (R116, R127,
R193). -/
def State.loadOrigin (s : State) (t : Nat) : Nat × Nat :=
  let p := s.part t
  match p.launch.bind s.launch? with
  | some l =>
    (match l.pat.loads[p.load]? with
    | some ld =>
      if ld.red ∧ l.ax + ld.ox2 ≤ tileX t ∧ tileX t < l.ax + ld.ox2 + ld.width ∧ l.ay + ld.oy2 ≤ tileY t
          ∧ tileY t < l.ay + ld.oy2 + ld.height then (l.ax + ld.ox2, l.ay + ld.oy2)
      else (l.ax + ld.ox, l.ay + ld.oy)
    | none => (l.ax, l.ay))
  | none => (0, 0)

end Sys2Proof.Machine
end

