-- ==== Sys2Proof/Machine/Element.lean ====
section
/-!
DEFINITION. Firing of the fabric's elements: guards (R172, R263), operands and results (R170, R171), bursts (R173), the
integer, data, floating-point and random instructions (R180-R195), STEER, MSEL, SIG, SIG2 and HALT (R202-R206), and the
choice of a slot (R264).
-/
namespace Sys2Proof.Machine

/-! ### Operands and guards (R170, R172, R173, R263) -/

/-- The token that a source code names: a data register, or the head of a channel. -/
def Elem.src (E : Elem) (c : BitVec 4) : Option Token :=
  if h : c.toNat < 8 then some (E.d[c.toNat]) else (E.chans.get [] (c.toNat % 4)).head?

/-- The token of a field that is an operand; a field that is none reads as data 0. -/
def Elem.opnd (E : Elem) (c : Option (BitVec 4)) : Token := (c.bind E.src).getD Token.zero

/-- Data registers that an element's memory operations will write (R172). -/
def Fabric.awaits (f : Fabric) (e r : Nat) : Bool :=
  f.ops.any fun o => o.elem == e && !o.told && o.dest.toNat == r

/-- Output channels that a destination code names. -/
def destChans (d : BitVec 4) : List Nat :=
  match d.toNat with
  | 8 => [0]
  | 9 => [1]
  | 10 => [2]
  | 11 => [3]
  | 12 => [0, 1]
  | 15 => [0, 1, 2, 3]
  | _ => []

/-- Completions of memory operations that will still be pushed to an output channel. -/
def Fabric.owed (f : Fabric) (e k : Nat) : Nat :=
  (f.ops.filter fun o => o.elem == e && !o.told && (destChans o.dest).contains k).length

/-- Free slots for `n` tokens in every output channel of a destination. -/
def State.destRoom (s : State) (t e : Nat) (d : BitVec 4) (n : Nat) : Bool :=
  (destChans d).all fun k => s.wireRoom t (.elem e k) (n + (s.tile t).fabric.owed e k)

/-- The trigger of a slot holds (R161, R263). -/
def Elem.triggered (E : Elem) (f : TForm) : Bool :=
  match f.g.toNat with
  | 0 => true
  | 1 => E.q.getLsbD f.x.toNat
  | 2 => !E.q.getLsbD f.x.toNat
  | _ => (f.a.bind E.src).any fun k => k.tag == f.x

/-- A source operand is present: a channel holds what it takes; `n` is 1, or min(BURST, 4) where a burst pops it. -/
def Elem.present (E : Elem) (c : Option (BitVec 4)) (n : Nat) : Bool :=
  match TForm.chan c with
  | none => true
  | some k => decide ((if TForm.pops c then n else 1) ≤ (E.chans.get [] k).length)

/-- Tokens that the first beat of a slot needs in the channels it pops (R173). -/
def Elem.need (E : Elem) (f : TForm) : Nat := if f.u = 1 then min E.burst 4 else 1

/-- The parts of a guard that do not belong to one instruction: operands, destination, pending registers; `n` tokens are
needed in a popped channel, `c` are pushed. -/
def State.operandsOk (s : State) (t e : Nat) (f : TForm) (addend : Option (BitVec 3)) (n c : Nat) : Bool :=
  let F := (s.tile t).fabric
  let E := F.elem e
  let reg := fun (x : Option (BitVec 4)) => x.any fun v => decide (v.toNat < 8) && F.awaits e v.toNat
  E.present f.a n && E.present f.b n && f.tok.all (fun k => !(E.chans.get [] k.toNat).isEmpty)
    && s.destRoom t e f.dest c && !(reg f.a || reg f.b || reg (some f.dest))
    && !(addend.any fun k => F.awaits e k.toNat)

/-- The guard of a slot that starts to fire (R263), but for what its instruction adds. -/
def State.guardOk (s : State) (t e : Nat) (f : TForm) (addend : Option (BitVec 3)) (c : Nat) : Bool :=
  let E := (s.tile t).fabric.elem e
  !E.halted && !E.stopped && E.beat.isNone && E.triggered f && s.operandsOk t e f addend (E.need f) c

/-- Pop the channels that a firing's source fields and its ordering-token channel name. -/
def State.popAll (s : State) (t e : Nat) (f : TForm) : State :=
  let one := fun (x : State) (c : Option (BitVec 4)) =>
    match TForm.chan c with
    | some k => if TForm.pops c then x.popChan t e k else x
    | none => x
  let s1 := one (one s f.a) f.b
  match f.tok with
  | some k => s1.popChan t e k.toNat
  | none => s1

/-- Count a firing or a beat (R266). -/
def Elem.fired (E : Elem) : Elem := { E with fires := if E.fires = BitVec.allOnes 32 then E.fires else E.fires + 1 }

/-! ### Results (R171, R172) -/

/-- The cause of an exception that poisons (R59, R177). -/
def poisonCause (x : Exc) : Nat := if x.getLsbD 4 then 1 else if x.getLsbD 3 then 2 else 3

/-- An exception that poisons: NV, DZ or OF. -/
def poisons (x : Exc) : Bool := x.getLsbD 4 || x.getLsbD 3 || x.getLsbD 2

/-- result_token of R171 for unit `unit` of tile `t`: operands in order, the exceptions raised, the value. -/
def resultToken (t unit : Nat) (ops : List Token) (x : Exc) (v : Word) : Token :=
  let tag := (ops.head?.getD Token.zero).tag
  match ops.find? fun k => k.poison with
  | some p => ⟨true, tag, p.data⟩
  | none =>
    if ops.any Token.gap then ⟨false, 7, 0⟩
    else if poisons x then ⟨true, tag, originWord t unit (poisonCause x)⟩
    else ⟨false, tag, v⟩

/-- Write q[k] of an element; a write of another value than the bit had may have been predicted wrongly (R265). -/
def Elem.setQ (E : Elem) (k : BitVec 3) (b : Bool) : Elem :=
  { E with
    q := if b then E.q ||| (1#8 <<< k.toNat) else E.q &&& ~~~(1#8 <<< k.toNat)
    resolved := E.resolved || E.q.getLsbD k.toNat != b }

/-- Write q[k] from a token (R178, R181, R182): a gap leaves it, a poisoned token clears it and is reported. -/
def State.putPred (s : State) (t e : Nat) (k : BitVec 3) (v : Token) : State :=
  let set := fun (x : State) (b : Bool) => x.modElem t e fun E => E.setQ k b
  if v.poison then (set s false).sinkReport t e 0 v.data
  else if v.gap then s
  else set s (decide (v.data ≠ 0))

/-- Write a data register of an element. -/
def Elem.setD (E : Elem) (r : Nat) (v : Token) : Elem := { E with d := if h : r < 8 then E.d.set r v h else E.d }

/-- `c` copies of a token go to a destination (R172, R185). -/
def State.putDest (s : State) (t e : Nat) (d : BitVec 4) (q : BitVec 3) (c : Nat) (v : Token) : State :=
  if d.toNat < 8 then s.modElem t e fun E => E.setD d.toNat v
  else if d = 13 then s.putPred t e q v
  else (destChans d).foldl (fun a k => (List.replicate c v).foldl (fun b x => b.wirePush t (.elem e k) x) a) s

/-! ### Stochastic draws of an element (R193) -/

/-- Draw `i` after those an element has used. -/
def State.elemDraw (s : State) (t e i : Nat) : Nat :=
  let E := (s.tile t).fabric.elem e
  let o := s.loadOrigin t
  let n := E.drawIx + i
  let hi := put 56 8 (tileY t - o.2) + put 48 8 (tileX t - o.1) + put 44 4 e
  drawOf (crng E.seed (hi + (E.ctr + BitVec.ofNat 64 (n / 5)))) (n % 5)

/-- An element after `n` draws. -/
def Elem.useDraws (E : Elem) (n : Nat) : Elem :=
  { E with ctr := E.ctr + BitVec.ofNat 64 ((E.drawIx + n) / 5), drawIx := (E.drawIx + n) % 5 }

/-! ### What a value-producing instruction computes -/

/-- A value-producing instruction: its form, the copies it pushes, the predicate bit of DEST 13, the register it adds, the
draws of its lanes, and its token from the predicate bits, draws and operands. -/
structure ValOp where
  form : TForm
  copies : Nat
  q : BitVec 3
  addend : Option (BitVec 3)
  draws : Nat
  tok : Nat → Nat → BitVec 8 → (Nat → Nat) → Token → Token → Token → Token

/-- Lanes of `w` bits of a word combined one by one. -/
def laneMap (w n : Nat) (f : Nat → Nat → Nat) (a b : Word) : Word :=
  BitVec.ofNat 64 (lanesNat w (fun k => f (a.toNat / 2 ^ (w * k) % 2 ^ w) (b.toNat / 2 ^ (w * k) % 2 ^ w)) n)

/-- An integer instruction (R180) on 64 bits, or on eight lanes of 8 bits. -/
def intOp (f : TForm) (l : BitVec 1) (g : Nat → Nat → Nat → Nat) : ValOp :=
  ⟨f, 1, 0, none, 0, fun t e _ _ a b _ => resultToken t e [a, b] 0
    (if l = 1 then laneMap 8 8 (g 8) a.data b.data else laneMap 64 1 (g 64) a.data b.data)⟩

/-- A two-operand instruction on 64-bit words (R180, R192). -/
def wordOp (f : TForm) (g : Word → Word → Word) : ValOp :=
  ⟨f, 1, 0, none, 0, fun t e _ _ a b _ => resultToken t e [a, b] 0 (g a.data b.data)⟩

/-- Lane width, number of lanes and format of a floating-point form (R164). -/
def formLanes (f : BitVec 2) : Nat × Nat × FFmt :=
  match f.toNat with
  | 0 => (64, 1, f64)
  | 1 => (32, 1, f32)
  | 2 => (32, 2, f32)
  | _ => (16, 4, bf16)

/-- Results of lanes gathered into one word, with the exceptions of all lanes. -/
def gather (w n : Nat) (f : Nat → FRes) : Exc × Word :=
  ((List.range n).foldl (fun x k => x ||| (f k).exc) 0, BitVec.ofNat 64 (lanesNat w (fun k => (f k).bits) n))

/-- Lane `k` of `w` bits of a word. -/
def wlane (w : Nat) (x : Word) (k : Nat) : Nat := x.toNat / 2 ^ (w * k) % 2 ^ w

/-- FADD, FSUB, FMUL and FFMA (R186, R187): `g` gets the format, the rounding mode, the draw and the lanes. -/
def roundOp (f : TForm) (fm : BitVec 2) (rm : BitVec 3) (add : Option (BitVec 3))
    (g : FFmt → Nat → Nat → Nat → Nat → Nat → FRes) : ValOp :=
  let L := formLanes fm
  ⟨f, 1, 0, add, if rm = 4 then L.2.1 else 0, fun t e _ dr a b c =>
    let r := gather L.1 L.2.1 fun k =>
      g L.2.2 rm.toNat (dr k) (wlane L.1 a.data k) (wlane L.1 b.data k) (wlane L.1 c.data k)
    resultToken t e (if add.isSome then [a, b, c] else [a, b]) r.1 r.2⟩

/-- FMIN and FMAX (R188). -/
def minmaxOp (f : TForm) (fm : BitVec 2) (isMax : Bool) : ValOp :=
  let L := formLanes fm
  ⟨f, 1, 0, none, 0, fun t e _ _ a b _ =>
    let r := gather L.1 L.2.1 fun k => L.2.2.minmax isMax (wlane L.1 a.data k) (wlane L.1 b.data k)
    resultToken t e [a, b] r.1 r.2⟩

/-- FCMP (R189). -/
def fcmpOp (f : TForm) (q : BitVec 3) (F : FFmt) (c : BitVec 4) : ValOp :=
  ⟨f, 1, q, none, 0, fun t e _ _ a b _ =>
    let r := F.compare c.toNat a.data.toNat b.data.toNat
    resultToken t e [a, b] r.2 (BitVec.ofNat 64 (bit r.1))⟩

/-- A conversion of R166: lanes converted, and the destination's and source's lane widths and types. -/
def convCode (c : BitVec 7) : Nat × Nat × Nat × EType × EType :=
  match c.toNat with
  | 0x00 => (1, 32, 64, .flt f32, .flt f64)
  | 0x01 => (1, 64, 32, .flt f64, .flt f32)
  | 0x02 => (1, 64, 64, .int true 64, .flt f64)
  | 0x03 => (1, 64, 64, .flt f64, .int true 64)
  | 0x04 => (1, 32, 32, .int true 32, .flt f32)
  | 0x05 => (1, 32, 32, .flt f32, .int true 32)
  | 0x06 => (2, 16, 32, .flt bf16, .flt f32)
  | 0x07 => (2, 32, 16, .flt f32, .flt bf16)
  | 0x08 => (2, 16, 32, .flt f16, .flt f32)
  | 0x09 => (2, 32, 16, .flt f32, .flt f16)
  | 0x0A => (4, 8, 16, .flt e4m3, .flt bf16)
  | 0x0B => (4, 8, 16, .flt e5m2, .flt bf16)
  | 0x0C => (4, 16, 8, .flt bf16, .flt e4m3)
  | 0x0D => (4, 16, 8, .flt bf16, .flt e5m2)
  | 0x0E => (8, 8, 8, .int true 8, .flt e4m3)
  | _ => (8, 8, 8, .flt e4m3, .int true 8)

/-- FCVT (R190). -/
def fcvtOp (f : TForm) (rm : BitVec 3) (c : BitVec 7) : ValOp :=
  let (n, wd, ws, dst, frm) := convCode c
  ⟨f, 1, 0, none, if rm = 4 then n else 0, fun t e _ dr a _ _ =>
    let r := gather wd n fun k => convert dst frm rm.toNat (dr k) (wlane ws a.data k)
    resultToken t e [a] r.1 r.2⟩

/-- The value of MASKB (R195). -/
def maskbVal (w : BitVec 2) (nz : BitVec 1) (a b : Word) : Word :=
  let lw := 8 * 2 ^ w.toNat
  let n := 64 / lw
  let pick := fun k =>
    let l := wlane lw a k
    bit (if nz = 0 then decide (l / 2 ^ (lw - 1) % 2 = 1) else decide (l ≠ 0))
  (b >>> n) ||| BitVec.ofNat 64 (lanesNat 1 pick n * 2 ^ (64 - n))


/-- The least or greatest of two lane values, signed or not. -/
def laneMin (sgn isMax : Bool) (w a b : Nat) : Nat :=
  let lt := if sgn then decide (signed w a < signed w b) else decide (a < b)
  if lt != isMax then a else b

/-- What a triggered instruction that produces a value computes; none for the others. -/
def valOp (i : Instr) : Option ValOp :=
  match i.tform with
  | none => none
  | some f =>
    match i with
    | .tAdd _ _ _ _ _ _ l => some (intOp f l fun w a b => (a + b) % 2 ^ w)
    | .tSub _ _ _ _ _ _ l => some (intOp f l fun w a b => (a + 2 ^ w - b) % 2 ^ w)
    | .tMul _ _ _ _ _ _ l => some (intOp f l fun w a b => a * b % 2 ^ w)
    | .tMin _ _ _ _ _ _ l => some (intOp f l (laneMin true false))
    | .tMax _ _ _ _ _ _ l => some (intOp f l (laneMin true true))
    | .tMinu _ _ _ _ _ _ l => some (intOp f l (laneMin false false))
    | .tMaxu _ _ _ _ _ _ l => some (intOp f l (laneMin false true))
    | .tMulh .. => some (wordOp f mulHigh)
    | .tAnd .. => some (wordOp f fun a b => a &&& b)
    | .tOr .. => some (wordOp f fun a b => a ||| b)
    | .tXor .. => some (wordOp f fun a b => a ^^^ b)
    | .tShl .. => some (wordOp f fun a b => a <<< (b.toNat % 64))
    | .tShr .. => some (wordOp f fun a b => a >>> (b.toNat % 64))
    | .tSra .. => some (wordOp f fun a b => a.sshiftRight (b.toNat % 64))
    | .tCrng .. => some (wordOp f fun a b => (crng a b).2)
    | .tMaskb _ _ _ _ _ _ w z => some (wordOp f (maskbVal w z))
    | .tCmp _ _ _ _ _ _ c q =>
      some ⟨f, 1, q, none, 0, fun t e _ _ a b _ =>
        resultToken t e [a, b] 0 (BitVec.ofNat 64 (bit (intCompare c.toNat a.data b.data)))⟩
    | .tMov _ _ _ _ _ q => some ⟨f, 1, q, none, 0, fun t e _ _ a _ _ => resultToken t e [a] 0 a.data⟩
    | .tSel _ _ _ _ _ _ n q =>
      some ⟨f, 1, 0, none, 0, fun _ _ p _ a b _ => if p.getLsbD q.toNat != decide (n = 1) then a else b⟩
    | .tTag _ _ _ _ _ k => some ⟨f, 1, 0, none, 0, fun _ _ _ _ a _ _ =>
        { a with tag := k, data := if a.gap then 0 else a.data }⟩
    | .tDup _ _ _ _ _ n => some ⟨f, n.toNat + 1, 0, none, 0, fun t e _ _ a _ _ => resultToken t e [a] 0 a.data⟩
    | .tFadd _ _ _ fm _ _ _ r => some (roundOp f fm r none fun F rm dr a b _ => F.add rm dr a b)
    | .tFsub _ _ _ fm _ _ _ r => some (roundOp f fm r none fun F rm dr a b _ => F.sub rm dr a b)
    | .tFmul _ _ _ fm _ _ _ r => some (roundOp f fm r none fun F rm dr a b _ => F.mul rm dr a b)
    | .tFfma _ _ _ fm _ _ _ r k => some (roundOp f fm r (some k) fun F rm dr a b c => F.fma rm dr a b c)
    | .tFmin _ _ _ fm _ _ _ => some (minmaxOp f fm false)
    | .tFmax _ _ _ fm _ _ _ => some (minmaxOp f fm true)
    | .tFcmpF64 _ _ _ _ _ _ c q => some (fcmpOp f q f64 c)
    | .tFcmpF32 _ _ _ _ _ _ c q => some (fcmpOp f q f32 c)
    | .tFcvt _ _ _ _ _ r c => some (fcvtOp f r c)
    | _ => none

/-- The effect of one firing or beat: operands are read, popped channels pop, the result goes to its destination. -/
def State.valFire (s : State) (t e : Nat) (v : ValOp) : State :=
  let E := (s.tile t).fabric.elem e
  let a := E.opnd v.form.a
  let b := E.opnd v.form.b
  let c := match v.addend with
    | some k => E.d[k.toNat]'k.isLt
    | none => Token.zero
  let clean := !([a, b, c].any fun k => k.poison || k.gap)
  let tok := v.tok t e E.q (s.elemDraw t e) a b c
  ((s.popAll t e v.form).modElem t e fun E => (if clean then E.useDraws v.draws else E).fired).putDest t e v.form.dest v.q
    v.copies tok

/-- The number of copies that the room of a destination must hold. -/
def ValOp.pushes (v : ValOp) : Nat := v.copies

/-- A burst goes on from a firing of slot `k` (R173). -/
def Elem.startBurst (E : Elem) (k : Nat) (f : TForm) : Elem :=
  if f.u = 1 ∧ 1 < E.burst then { E with beat := some (k, 1) } else E

/-- The running element fires instruction `i`, where its guard holds. -/
def State.fireVal (s : State) (i : Instr) : State :=
  let t := s.ft
  let e := s.fk
  match valOp i with
  | none => s
  | some v =>
    if s.guardOk t e v.form v.addend v.pushes then
      (s.valFire t e v).modElem t e fun E => E.startBurst (match s.focus with
        | .elem _ _ k => k
        | .needle _ k => k) v.form
    else s

/-! ### The value instructions -/

def execTAdd (g : BitVec 2) (x : BitVec 3) (u : BitVec 1) (d a b : BitVec 4) (l : BitVec 1) (s : State) :
    Host.Outcome State Fault Refusal := .next (s.fireVal (.tAdd g x u d a b l))

def execTSub (g : BitVec 2) (x : BitVec 3) (u : BitVec 1) (d a b : BitVec 4) (l : BitVec 1) (s : State) :
    Host.Outcome State Fault Refusal := .next (s.fireVal (.tSub g x u d a b l))

def execTMul (g : BitVec 2) (x : BitVec 3) (u : BitVec 1) (d a b : BitVec 4) (l : BitVec 1) (s : State) :
    Host.Outcome State Fault Refusal := .next (s.fireVal (.tMul g x u d a b l))

def execTMulh (g : BitVec 2) (x : BitVec 3) (u : BitVec 1) (d a b : BitVec 4) (s : State) :
    Host.Outcome State Fault Refusal := .next (s.fireVal (.tMulh g x u d a b))

def execTAnd (g : BitVec 2) (x : BitVec 3) (u : BitVec 1) (d a b : BitVec 4) (s : State) :
    Host.Outcome State Fault Refusal := .next (s.fireVal (.tAnd g x u d a b))

def execTOr (g : BitVec 2) (x : BitVec 3) (u : BitVec 1) (d a b : BitVec 4) (s : State) :
    Host.Outcome State Fault Refusal := .next (s.fireVal (.tOr g x u d a b))

def execTXor (g : BitVec 2) (x : BitVec 3) (u : BitVec 1) (d a b : BitVec 4) (s : State) :
    Host.Outcome State Fault Refusal := .next (s.fireVal (.tXor g x u d a b))

def execTShl (g : BitVec 2) (x : BitVec 3) (u : BitVec 1) (d a b : BitVec 4) (s : State) :
    Host.Outcome State Fault Refusal := .next (s.fireVal (.tShl g x u d a b))

def execTShr (g : BitVec 2) (x : BitVec 3) (u : BitVec 1) (d a b : BitVec 4) (s : State) :
    Host.Outcome State Fault Refusal := .next (s.fireVal (.tShr g x u d a b))

def execTSra (g : BitVec 2) (x : BitVec 3) (u : BitVec 1) (d a b : BitVec 4) (s : State) :
    Host.Outcome State Fault Refusal := .next (s.fireVal (.tSra g x u d a b))

def execTMin (g : BitVec 2) (x : BitVec 3) (u : BitVec 1) (d a b : BitVec 4) (l : BitVec 1) (s : State) :
    Host.Outcome State Fault Refusal := .next (s.fireVal (.tMin g x u d a b l))

def execTMax (g : BitVec 2) (x : BitVec 3) (u : BitVec 1) (d a b : BitVec 4) (l : BitVec 1) (s : State) :
    Host.Outcome State Fault Refusal := .next (s.fireVal (.tMax g x u d a b l))

def execTMinu (g : BitVec 2) (x : BitVec 3) (u : BitVec 1) (d a b : BitVec 4) (l : BitVec 1) (s : State) :
    Host.Outcome State Fault Refusal := .next (s.fireVal (.tMinu g x u d a b l))

def execTMaxu (g : BitVec 2) (x : BitVec 3) (u : BitVec 1) (d a b : BitVec 4) (l : BitVec 1) (s : State) :
    Host.Outcome State Fault Refusal := .next (s.fireVal (.tMaxu g x u d a b l))

def execTCmp (g : BitVec 2) (x : BitVec 3) (u : BitVec 1) (d a b c : BitVec 4) (q : BitVec 3) (s : State) :
    Host.Outcome State Fault Refusal := .next (s.fireVal (.tCmp g x u d a b c q))

def execTMov (g : BitVec 2) (x : BitVec 3) (u : BitVec 1) (d a : BitVec 4) (q : BitVec 3) (s : State) :
    Host.Outcome State Fault Refusal := .next (s.fireVal (.tMov g x u d a q))

def execTSel (g : BitVec 2) (x : BitVec 3) (u : BitVec 1) (d a b : BitVec 4) (n : BitVec 1) (q : BitVec 3) (s : State) :
    Host.Outcome State Fault Refusal := .next (s.fireVal (.tSel g x u d a b n q))

def execTTag (g : BitVec 2) (x : BitVec 3) (u : BitVec 1) (d a : BitVec 4) (k : BitVec 3) (s : State) :
    Host.Outcome State Fault Refusal := .next (s.fireVal (.tTag g x u d a k))

def execTDup (g : BitVec 2) (x : BitVec 3) (u : BitVec 1) (d a : BitVec 4) (n : BitVec 2) (s : State) :
    Host.Outcome State Fault Refusal := .next (s.fireVal (.tDup g x u d a n))

def execTMaskb (g : BitVec 2) (x : BitVec 3) (u : BitVec 1) (d a b : BitVec 4) (w : BitVec 2) (z : BitVec 1) (s : State) :
    Host.Outcome State Fault Refusal := .next (s.fireVal (.tMaskb g x u d a b w z))

def execTCrng (g : BitVec 2) (x : BitVec 3) (u : BitVec 1) (d a b : BitVec 4) (s : State) :
    Host.Outcome State Fault Refusal := .next (s.fireVal (.tCrng g x u d a b))

def execTFadd (g : BitVec 2) (x : BitVec 3) (u : BitVec 1) (f : BitVec 2) (d a b : BitVec 4) (r : BitVec 3) (s : State) :
    Host.Outcome State Fault Refusal := .next (s.fireVal (.tFadd g x u f d a b r))

def execTFsub (g : BitVec 2) (x : BitVec 3) (u : BitVec 1) (f : BitVec 2) (d a b : BitVec 4) (r : BitVec 3) (s : State) :
    Host.Outcome State Fault Refusal := .next (s.fireVal (.tFsub g x u f d a b r))

def execTFmul (g : BitVec 2) (x : BitVec 3) (u : BitVec 1) (f : BitVec 2) (d a b : BitVec 4) (r : BitVec 3) (s : State) :
    Host.Outcome State Fault Refusal := .next (s.fireVal (.tFmul g x u f d a b r))

def execTFfma (g : BitVec 2) (x : BitVec 3) (u : BitVec 1) (f : BitVec 2) (d a b : BitVec 4) (r k : BitVec 3) (s : State) :
    Host.Outcome State Fault Refusal := .next (s.fireVal (.tFfma g x u f d a b r k))

def execTFmin (g : BitVec 2) (x : BitVec 3) (u : BitVec 1) (f : BitVec 2) (d a b : BitVec 4) (s : State) :
    Host.Outcome State Fault Refusal := .next (s.fireVal (.tFmin g x u f d a b))

def execTFmax (g : BitVec 2) (x : BitVec 3) (u : BitVec 1) (f : BitVec 2) (d a b : BitVec 4) (s : State) :
    Host.Outcome State Fault Refusal := .next (s.fireVal (.tFmax g x u f d a b))

def execTFcmpF64 (g : BitVec 2) (x : BitVec 3) (u : BitVec 1) (d a b c : BitVec 4) (q : BitVec 3) (s : State) :
    Host.Outcome State Fault Refusal := .next (s.fireVal (.tFcmpF64 g x u d a b c q))

def execTFcmpF32 (g : BitVec 2) (x : BitVec 3) (u : BitVec 1) (d a b c : BitVec 4) (q : BitVec 3) (s : State) :
    Host.Outcome State Fault Refusal := .next (s.fireVal (.tFcmpF32 g x u d a b c q))

def execTFcvt (g : BitVec 2) (x : BitVec 3) (u : BitVec 1) (d a : BitVec 4) (r : BitVec 3) (c : BitVec 7) (s : State) :
    Host.Outcome State Fault Refusal := .next (s.fireVal (.tFcvt g x u d a r c))

/-! ### Bursts and speculation (R173, R265) -/

/-- The next beat of an element's burst, once its tokens and slots are present. -/
def State.beat (s : State) (t e : Nat) : State :=
  let E := (s.tile t).fabric.elem e
  match E.beat with
  | none => s
  | some (k, n) =>
    match decodeT (E.slots.get 0 k).toNat with
    | .error _ => s
    | .ok i =>
      match valOp i with
      | none => s
      | some v =>
        if s.operandsOk t e v.form v.addend 1 v.pushes then
          (s.valFire t e v).modElem t e fun E => { E with beat := if n + 1 < E.burst then some (k, n + 1) else none }
        else s

/-- BURST_BEAT. -/
def execBurstBeat (s : State) : Host.Outcome State Fault Refusal := .next (s.beat s.ev.tile s.ev.unit)

/-- Speculative firings after a q bit has come to another value leave no trace but their count (R174, R265, R266): at most one for
each cycle of the longest latency of an instruction that writes a q bit, which is FCMP's (R175; log 18). -/
def Elem.squashed (E : Elem) (n : Nat) : Elem :=
  if E.resolved then
    { E with
      resolved := false
      squash := if 2 ^ 32 - 1 ≤ E.squash.toNat + min n 2 then BitVec.allOnes 32 else E.squash + BitVec.ofNat 32 (min n 2) }
  else E

/-- PREDICATE_SQUASH: a write of a q bit of element `ev.unit` resolves to another value, after `ev.n` firings that did not see it. -/
def execPredicateSquash (s : State) : Host.Outcome State Fault Refusal :=
  .next (s.modElem s.ev.tile s.ev.unit fun E => E.squashed s.ev.n)

/-! ### Steering, selection, stitches, HALT (R202-R206) -/

/-- A queue token of STEER or MSEL (R202-R204). -/
def queueToken (bits : Nat) (a : Token) : QTok :=
  if a.poison then ⟨0, 0, some a.data⟩ else ⟨get a.data (15 + bits) 16, get a.data 15 0, none⟩

/-- The form of an instruction whose DEST is 14. -/
def fixedForm (g : BitVec 2) (x : BitVec 3) (u : BitVec 1) (a b : Option (BitVec 4)) : TForm :=
  ⟨g, x, u, 14, a, b, none, false, true, false⟩

/-- A firing that produces no value: its guard with what it adds, its pops, its effect on the operands. -/
def State.fireFixed (s : State) (f : TForm) (ok : Bool) (go : State → Token → Token → State) : State :=
  let t := s.ft
  let e := s.fk
  let E := (s.tile t).fabric.elem e
  if ok && s.guardOk t e f none 0 then
    go ((s.popAll t e f).modElem t e Elem.fired) (E.opnd f.a) (E.opnd f.b)
  else s

/-- The steer queue of island `n` takes a token: not once the stop wave is there (R202, R484). -/
def State.steerRoom (s : State) (t n : Nat) : Bool :=
  decide (((s.tile t).fabric.island n).steer.length < 4) && !s.stops t

/-- Select queue `n` takes a token: not once the stop wave is there (R203, R484). -/
def State.mselRoom (s : State) (t n : Nat) : Bool := decide (((s.tile t).fabric.selq.get [] n).length < 4) && !s.stops t

/-- STEER (R202). -/
def execTSteer (g : BitVec 2) (x : BitVec 3) (u : BitVec 1) (a : BitVec 4) (i : BitVec 2) (s : State) :
    Host.Outcome State Fault Refusal :=
  let n := i.toNat
  .next (s.fireFixed (fixedForm g x u (some a) none) (s.steerRoom s.ft n)
    fun s1 k _ =>
      if k.gap then s1
      else
        let s2 := s1.modIsland s.ft n fun I => { I with steer := I.steer ++ [queueToken 2 k] }
        if k.poison then s2.sinkReport s.ft s.fk 4 k.data else s2)

/-- MSEL (R203). -/
def execTMsel (g : BitVec 2) (x : BitVec 3) (u : BitVec 1) (a : BitVec 4) (q : BitVec 2) (s : State) :
    Host.Outcome State Fault Refusal :=
  let n := q.toNat
  .next (s.fireFixed (fixedForm g x u (some a) none) (s.mselRoom s.ft n)
    fun s1 k _ =>
      if k.gap then s1
      else
        let s2 := s1.modFabric s.ft fun F => { F with selq := F.selq.put n (F.selq.get [] n ++ [queueToken 4 k]) }
        if k.poison then s2.sinkReport s.ft s.fk 4 k.data else s2)

/-- A stitch from the running element to a pocket of its own tile (R205); the element's stitches carry no release. -/
def State.elemSend (s : State) (label : Nat) (two : Bool) (w0 w1 : Word) : State :=
  let l := (s.part s.ft).launch
  let st : Stitch := ⟨s.ft, true, s.fk, s.ft, label, none, two, w0, w1, 0, l, none⟩
  (s.stamp.modRouter s.ft fun r => { r.countUp s.ft label with inj := r.inj ++ [⟨st, false, 8, s.seq⟩] }).countSent l

/-- The router takes a stitch of an element to a pocket (R205, R237): not once the stop wave is there (R484). -/
def State.sigFits (s : State) (label : Nat) : Bool :=
  let r := (s.tile s.ft).router
  !r.refusedHere s.ft label && decide (r.inj.length < 16) && !s.stops s.ft

/-- The effect of SIG and SIG2 on their operands: a gap sends nothing, a poisoned operand is reported (R178, R205). Where both
operands of SIG2 are poisoned one report is made, of the first (DESIGN CHOICE, log 57: the spec does not say). -/
def State.sig (s : State) (label : Nat) (two : Bool) (a b : Token) : State :=
  if a.poison then s.sinkReport s.ft s.fk 3 a.data
  else if two && b.poison then s.sinkReport s.ft s.fk 3 b.data
  else if a.gap || (two && b.gap) then s
  else s.elemSend label two a.data b.data

/-- SIG. -/
def execTSig (g : BitVec 2) (x : BitVec 3) (u : BitVec 1) (a : BitVec 4) (l : BitVec 7) (s : State) :
    Host.Outcome State Fault Refusal :=
  .next (s.fireFixed (fixedForm g x u (some a) none) (s.sigFits l.toNat) fun s1 p _ => s1.sig l.toNat false p Token.zero)

/-- SIG2. -/
def execTSig2 (g : BitVec 2) (x : BitVec 3) (u : BitVec 1) (a b : BitVec 4) (l : BitVec 7) (s : State) :
    Host.Outcome State Fault Refusal :=
  .next (s.fireFixed (fixedForm g x u (some a) (some b)) (s.sigFits l.toNat) fun s1 p q => s1.sig l.toNat true p q)

/-- HALT (R206). -/
def execTHalt (g : BitVec 2) (x : BitVec 3) (u : BitVec 1) (s : State) : Host.Outcome State Fault Refusal :=
  .next (s.fireFixed (fixedForm g x u none none) true fun s1 _ _ => s1.modElem s.ft s.fk fun E => { E with halted := true })

end Sys2Proof.Machine
end

