-- ==== Sys2Proof/Machine/ElemMem.lean ====
section
/-!
DEFINITION. Memory operations of elements and the generators' extents: LDR, STR and AMO (R196-R201), their completions and
replies, patching of extents and stopped generators (R360-R364), and which slot of an element fires (R264).
-/
namespace Sys2Proof.Machine

/-! ### Stopped generators and extents (R360-R364) -/

/-- Generator `g` of a tile stops, and the loader reports its GSTAT and GFVA to the tile's system actor (R362). -/
def State.stopGen (s : State) (t g reason kind : Nat) (va : Word) : State :=
  let s1 := s.modFabric t fun F => F.modGen g fun x =>
    { x with reason := BitVec.ofNat 3 reason, kind := BitVec.ofNat 3 (if reason = 2 then kind else 0), gfva := va }
  s1.hwStitch t t 0 false 0 4 (((s1.tile t).fabric.gen g).stat) va none

/-- The elements that a stopped element path held may fire again (R196, R362). -/
def Fabric.freeElems (f : Fabric) : Fabric :=
  { f with elems := f.elems.map fun e =>
      (e.1, { e.2 with stopped := f.ops.any fun o => o.refused && o.elem == e.1, off := false }) }

/-- The elements whose access the loader could not translate stop with the element path (R196, R207, R362). -/
def Fabric.stopElems (f : Fabric) : Fabric :=
  { f with elems := f.elems.map fun e => (e.1, { e.2 with stopped := e.2.stopped || e.2.off, off := false }) }

/-- A generator meets a fault of REASON 010, 011 or 100: it stops, or, as a COPY, ends with status 4 or 5 (R306, R362). A place
of its at a full-empty word it gives up. -/
def State.genFault (s0 : State) (t g reason kind : Nat) (va : Word) : State :=
  let s := s0.pollDone t g
  match ((s.tile t).fabric.gen g).job with
  | none => (if g = 8 then s.modFabric t Fabric.stopElems else s).stopGen t g reason kind va
  | some j => s.modFabric t fun F => F.modGen g fun x =>
      { x with reason := 0, kind := 0, gfva := va, job := some { j with ended := some (if reason = 4 then 5 else 4) } }

/-- What stands for a fault kind of R353 where a walk of the loader cannot read on, as the read of a table is held on its way (R31). -/
def heldKind : Nat := 8

/-- The leaf's page as an extent, or the fault kind of a walk (R360, R362): extents carry the permissions of user mode. -/
def runOf (w : Walk) (a : BitVec 12) (g : BitVec 4) (va : Word) : Except Nat Extent :=
  match w with
  | .held _ => .error heldKind
  | .fault k => .error k
  | .leaf e l _ => if leafU e then .ok (leafExtent e l a g va) else .error 4

/-- The page that the loader patches for an address at tile `t` (R360). -/
def State.patchRun (s : State) (t : Nat) (a : BitVec 12) (g : BitVec 4) (va : Word) : Except Nat Extent :=
  runOf (s.walk (some t) (s.panelOf t) a g va) a g va

/-- The runs that addresses touch, in order, at most `cap` of them (R360); one whose walk faults ends them. -/
def runsFrom (page : Word → Except Nat Extent) (cap : Nat) : List Word → List Extent → List Extent
  | [], acc => acc
  | va :: r, acc =>
    if acc.any fun x => x.covers va then runsFrom page cap r acc
    else
      match page va with
      | .error _ => acc
      | .ok x => if (runAppend acc x).length ≤ cap then runsFrom page cap r (runAppend acc x) else acc

/-- The pages of a data region. -/
def DataRec.pages (d : DataRec) : List Word :=
  (List.range ((d.vaddr.toNat % 65536 + d.size + 65535) / 65536)).map fun k =>
    BitVec.ofNat 64 ((d.vaddr.toNat / 65536 + k) * 65536)

/-- Extents of a generator: 4 of a stream, 16 of the element path (R361). -/
def extentCap (g : Nat) : Nat := if g = 8 then 16 else 4

/-- The addresses that a stream, or the box of a COPY that holds `va`, touches from its next position on. -/
def Stream.ahead (G : Stream) (va : Word) : List Word :=
  let b := match G.job with
    | some j => if G.next = va then G.box else j.dst
    | none => G.box
  (List.range (G.box.size - G.pos)).map fun k => b.addr (G.pos + k)

/-- The addresses whose pages may belong to the run of `va` for generator `g` of a tile (R360): those ahead of a stream, the
pages of the pattern's regions from that of `va` on for the element path. -/
def State.ahead (s : State) (t g : Nat) (va : Word) : List Word :=
  if g = 8 then
    let l := ((s.tile t).fabric.part.launch.bind s.launch?).map fun l => l.pat.data.flatMap DataRec.pages
    (l.getD []).dropWhile fun p => p.toNat / 65536 != va.toNat / 65536
  else ((s.tile t).fabric.gen g).ahead va

/-- The run that the loader patches for an address of generator `g` (R362): of the generator's own walk (R358). -/
def State.genRun (s : State) (t g : Nat) (a : BitVec 12) (n : BitVec 4) (va : Word) (more : List Word) :
    Except Nat Extent :=
  (runOf (s.walkOf t (8 + g) a n va) a n va).map fun x => ((runsFrom (s.patchRun t a n) 1 more [x]).head?).getD x

/-- The generator runs again. -/
def State.genGo (s : State) (t g : Nat) : State :=
  s.modFabric t fun F =>
    let F1 := F.modGen g fun x => { x with reason := 0, kind := 0 }
    if g = 8 then F1.freeElems else F1

/-- The pages of an extent. -/
def Extent.pages (x : Extent) : List Word := (List.range (x.npages + 1)).map fun k => BitVec.ofNat 64 ((x.vbase + k) * 65536)

/-- Every extent of a paused generator that the invalidation affected is patched again in place, or the first fault with its
address (R364). R361 does not say which access stopped the generator then: DESIGN CHOICE (log 11), GFVA takes the base of the
extent that faults. -/
def State.repatch (s : State) (t g : Nat) : List Extent → Except (Nat × Word) (List Extent)
  | [] => .ok []
  | x :: r =>
    let va := BitVec.ofNat 64 (x.vbase * 65536)
    match (if x.stale then (s.genRun t g x.asid x.gen va x.pages).map fun y => { y with used := x.used } else .ok x),
      s.repatch t g r with
    | .error k, _ => .error (k, va)
    | .ok _, .error e => .error e
    | .ok y, .ok l => .ok (y :: l)

/-- The address that the loader walks for a generator next. -/
def Stream.walks (G : Stream) : Word :=
  if G.reason = 5 then BitVec.ofNat 64 ((((G.ext.find? fun x => x.stale).map Extent.vbase).getD 0) * 65536) else G.gfva

/-- The loader serves a generator that is off its extents or paused (R362, R364). -/
def State.extentPatch (s : State) (t g : Nat) : State :=
  let G := (s.tile t).fabric.gen g
  let s1 := s.walkEnd t (8 + g)
  if G.reason = 1 then
    match s.genRun t g G.asid G.gen G.gfva (s.ahead t g G.gfva) with
    | .error k => if k = heldKind then s else s1.genFault t g 2 k G.gfva
    | .ok x =>
      (s1.modFabric t fun F => F.modGen g fun y => { y with ext := extentPut y.ext (extentCap g) { x with used := s.turns } }).genGo t g
  else if G.reason = 5 then
    match s.repatch t g G.ext with
    | .error e => if e.1 = heldKind then s else s1.genFault t g 2 e.1 e.2
    | .ok l => (s1.modFabric t fun F => F.modGen g fun y => { y with ext := l }).genGo t g
  else s

/-- EXTENT_PATCH: the loader patches generator `ev.unit` of a tile; with `ev.flag` its walk reads one level (R358). -/
def execExtentPatch (s : State) : Host.Outcome State Fault Refusal :=
  let t := s.ev.tile
  let g := s.ev.unit % 9
  let G := (s.tile t).fabric.gen g
  .next (if s.ev.flag then (if G.reason = 1 ∨ G.reason = 5 then s.walkOn t (8 + g) G.asid G.gen G.walks else s)
    else s.extentPatch t g)

/-! ### Where an access goes (R196, R273, R311, R362, R365) -/

/-- What the checks of a generator's access make of it: an address outside the extents, a stop with its REASON and KIND, or an
access to a location. -/
inductive PathUse where
  | off
  | stop (reason kind : Nat)
  | ok (loc : Nat) (fe : Bool)
  deriving DecidableEq, Repr

/-- Where a generator's access goes under its extents, where they permit it (R355): an extent of a retired generation faults
(R365), and control space no generator reaches, which user mode may not name (R28). -/
def State.extentUse (s : State) (t : Nat) (l : List Extent) (permits : Extent → Bool) (va : Word) : PathUse :=
  match extentFor l va with
  | none => .off
  | some x =>
    if x.gen ≠ (s.asid x.asid).gen then .stop 2 6
    else if !permits x then .stop 2 4
    else
      match s.place t (x.pa va) with
      | none => .stop 2 3
      | some (.control _) => .stop 2 Config.regionKind.toNat
      | some p =>
        match s.refusal p.loc with
        | some (0x06, _) => .stop 4 0
        | some _ => .stop 3 0
        | none => .ok p.loc x.fe

/-- The checks of a stream's access, a write or a read (R273, R306, R362). -/
def State.streamUse (s : State) (t g : Nat) (write : Bool) (va : Word) : PathUse :=
  s.extentUse t ((s.tile t).fabric.gen g).ext (fun x => if write then x.w else x.r) va

/-- The extents let the kind of access pass (R355). -/
def ElemOpKind.permits (k : ElemOpKind) (x : Extent) : Bool :=
  match k with
  | .ldr _ _ => x.r
  | .str => x.w
  | .amo _ => x.r && x.w

/-- An AMO. -/
def ElemOpKind.isAmo (k : ElemOpKind) : Bool :=
  match k with
  | .amo _ => true
  | _ => false

/-- Where an element's access goes: an AMO reaches local stores and spool only (R196, R311). -/
def State.pathUse (s : State) (t : Nat) (k : ElemOpKind) (va : Word) : PathUse :=
  match s.extentUse t (s.tile t).fabric.path.ext k.permits va with
  | .ok loc fe => if k.isAmo && systemOwner loc then .stop 2 Config.regionKind.toNat else .ok loc fe
  | .stop 4 d => if k.isAmo then .stop 2 Config.regionKind.toNat else .stop 4 d
  | u => u

/-- A generator makes no access and waits for its loader (R362). -/
def State.offExtents (s : State) (t g : Nat) (va : Word) : State :=
  s.modFabric t fun F => F.modGen g fun x => { x with reason := 1, gfva := va }

/-- The extent of a generator that an address goes through has been used. -/
def State.useExtent (s : State) (t g : Nat) (va : Word) : State :=
  s.modFabric t fun F => F.modGen g fun x => { x with ext := extentUsed x.ext va s.turns }

/-- The element path takes an access: it runs, and no refused access waits to be made again before any other (R196, R362); the
stop wave of a pre-emption has not reached the tile (R484). -/
def State.pathFree (s : State) (t : Nat) : Bool :=
  let F := (s.tile t).fabric
  decide (F.path.reason = 0) && !(F.ops.any fun o => o.refused) && !s.stops t

/-- WHAT of a report about an element access (R196). -/
def ElemOpKind.what (k : ElemOpKind) : Nat :=
  match k with
  | .ldr _ _ => 2
  | _ => 1

/-- An LDR has a reply slot that is neither full nor reserved (R198). -/
def Fabric.replyRoom (f : Fabric) (k : ElemOpKind) : Bool :=
  match k with
  | .ldr e c => decide (((f.elem e).chans.get [] c).length + (f.elem e).reserved c < 4)
  | _ => true

/-- The guard of a memory operation (R196, R198, R263). A path that is being patched or is paused does not change it. -/
def State.memReady (s : State) (t e : Nat) (f : TForm) (k : ElemOpKind) : Bool :=
  let F := (s.tile t).fabric
  s.guardOk t e f none 1 && decide (F.ops.length < 64) && F.replyRoom k

/-- An operation that has been told, and whose reply has been delivered where it has one, is over. -/
def ElemOp.over (o : ElemOp) : Bool :=
  o.told && match o.kind with
    | .ldr _ _ => o.replied
    | _ => true

/-- Operations that are over leave the path. -/
def Fabric.sweepOps (f : Fabric) : Fabric := { f with ops := f.ops.filter fun o => !o.over }

/-- The completion of an operation that has been performed goes to DEST: the old value of an AMO, else a plain token
(R197, R200). -/
def State.tellOp (s : State) (t : Nat) (o : ElemOp) : State :=
  match o.got with
  | none => s
  | some v =>
    if o.told then s
    else
      let c := match o.kind with
        | .amo _ => v
        | _ => Token.zero
      ((s.modFabric t fun F => F.modOp o.id fun x => { x with told := true }).putDest t o.elem o.dest 0 1 c).modFabric t
        Fabric.sweepOps

/-- The head of a reply channel's reservations is delivered once it has been read (R198). -/
def State.ldrReply (s : State) (t e k : Nat) : State :=
  let F := (s.tile t).fabric
  match ((F.elem e).replies.get [] k).head? with
  | none => s
  | some id =>
    match F.op? id with
    | none => s
    | some o =>
      match o.got with
      | none => s
      | some v =>
        (s.modFabric t fun F =>
          ((F.modElem e fun E =>
            { E with
              replies := E.replies.put k ((E.replies.get [] k).drop 1)
              chans := E.chans.put k (E.chans.get [] k ++ [v]) }).modOp id fun x => { x with replied := true }).sweepOps).wakePart t

/-- A fired operation enters the path; an LDR reserves its reply slot (R198). -/
def State.enterOp (s : State) (t : Nat) (o : ElemOp) : State :=
  s.stamp.modFabric t fun F =>
    let F1 := { F with ops := F.ops ++ [o] }
    match o.kind with
    | .ldr e c => F1.modElem e fun E => { E with replies := E.replies.put c (E.replies.get [] c ++ [o.id]) }
    | _ => F1

/-- An operation that makes no access delivers what R196 gives at once. -/
def State.atOnce (s : State) (t : Nat) (o : ElemOp) (v : Token) : State :=
  let s1 := (s.enterOp t { o with got := some v }).tellOp t { o with got := some v }
  match o.kind with
  | .ldr e c => s1.ldrReply t e c
  | _ => s1

/-- The running element fires a memory operation, where its guard holds; the cases are those of R196, in its order. Where both
operands of STR or AMO are poisoned one report is made, of A; the DATA of a poisoned or gap DEST is what AMO.CAS compares with
(DESIGN CHOICE, log 57: the spec says neither). -/
def State.fireMem (s : State) (f : TForm) (k : ElemOpKind) : State :=
  let t := s.ft
  let e := s.fk
  if !s.memReady t e f k || s.stops t then s
  else
    let E := (s.tile t).fabric.elem e
    let a := E.opnd f.a
    let b := E.opnd f.b
    let exp := (E.src f.dest).getD Token.zero
    let o : ElemOp := ⟨s.seq, e, k, a.data, 0, false, b.data, exp.data, f.dest, a.tag, false, none, false, false⟩
    let go := (s.popAll t e f).modElem t e Elem.fired
    match [a, b].find? fun x => x.poison with
    | some p => (go.sinkReport t e k.what p.data).atOnce t o ⟨true, a.tag, p.data⟩
    | none =>
      if a.gap || b.gap then go.atOnce t o ⟨false, 7, 0⟩
      else if a.data.toNat % k.size ≠ 0 then
        (go.sinkReport t e k.what (originWord t e 4)).atOnce t o ⟨true, a.tag, originWord t e 4⟩
      else
        if !s.pathFree t then s
        else
          match s.pathUse t k a.data with
          | .off => (s.modElem t e fun E => { E with off := true }).offExtents t 8 a.data
          | .stop r kind => (s.modElem t e fun E => { E with stopped := true }).stopGen t 8 r kind a.data
          | .ok loc fe => (go.useExtent t 8 a.data).enterOp t { o with loc := loc, fe := fe }

/-- LDR (R198). -/
def execTLdr (g : BitVec 2) (x : BitVec 3) (u : BitVec 1) (d a e : BitVec 4) (t : BitVec 1) (k c : BitVec 2) (s : State) :
    Host.Outcome State Fault Refusal :=
  .next (s.fireMem ⟨g, x, u, d, some a, none, if t = 1 then some k else none, true, false, false⟩ (.ldr e.toNat c.toNat))

/-- The form of STR and AMO. -/
def memForm (g : BitVec 2) (x : BitVec 3) (u : BitVec 1) (d a b : BitVec 4) (t : BitVec 1) (k : BitVec 2) : TForm :=
  ⟨g, x, u, d, some a, some b, if t = 1 then some k else none, true, false, false⟩

/-- STR (R199). -/
def execTStr (g : BitVec 2) (x : BitVec 3) (u : BitVec 1) (d a b : BitVec 4) (t : BitVec 1) (k : BitVec 2) (s : State) :
    Host.Outcome State Fault Refusal := .next (s.fireMem (memForm g x u d a b t k) .str)

def execTAmoAdd (g : BitVec 2) (x : BitVec 3) (u : BitVec 1) (d a b : BitVec 4) (t : BitVec 1) (k : BitVec 2) (s : State) :
    Host.Outcome State Fault Refusal := .next (s.fireMem (memForm g x u d a b t k) (.amo 0))

def execTAmoMinI (g : BitVec 2) (x : BitVec 3) (u : BitVec 1) (d a b : BitVec 4) (t : BitVec 1) (k : BitVec 2) (s : State) :
    Host.Outcome State Fault Refusal := .next (s.fireMem (memForm g x u d a b t k) (.amo 1))

def execTAmoMaxI (g : BitVec 2) (x : BitVec 3) (u : BitVec 1) (d a b : BitVec 4) (t : BitVec 1) (k : BitVec 2) (s : State) :
    Host.Outcome State Fault Refusal := .next (s.fireMem (memForm g x u d a b t k) (.amo 2))

def execTAmoMinN (g : BitVec 2) (x : BitVec 3) (u : BitVec 1) (d a b : BitVec 4) (t : BitVec 1) (k : BitVec 2) (s : State) :
    Host.Outcome State Fault Refusal := .next (s.fireMem (memForm g x u d a b t k) (.amo 3))

def execTAmoMaxN (g : BitVec 2) (x : BitVec 3) (u : BitVec 1) (d a b : BitVec 4) (t : BitVec 1) (k : BitVec 2) (s : State) :
    Host.Outcome State Fault Refusal := .next (s.fireMem (memForm g x u d a b t k) (.amo 4))

def execTAmoAnd (g : BitVec 2) (x : BitVec 3) (u : BitVec 1) (d a b : BitVec 4) (t : BitVec 1) (k : BitVec 2) (s : State) :
    Host.Outcome State Fault Refusal := .next (s.fireMem (memForm g x u d a b t k) (.amo 5))

def execTAmoOr (g : BitVec 2) (x : BitVec 3) (u : BitVec 1) (d a b : BitVec 4) (t : BitVec 1) (k : BitVec 2) (s : State) :
    Host.Outcome State Fault Refusal := .next (s.fireMem (memForm g x u d a b t k) (.amo 6))

def execTAmoXor (g : BitVec 2) (x : BitVec 3) (u : BitVec 1) (d a b : BitVec 4) (t : BitVec 1) (k : BitVec 2) (s : State) :
    Host.Outcome State Fault Refusal := .next (s.fireMem (memForm g x u d a b t k) (.amo 7))

def execTAmoSwap (g : BitVec 2) (x : BitVec 3) (u : BitVec 1) (d a b : BitVec 4) (t : BitVec 1) (k : BitVec 2) (s : State) :
    Host.Outcome State Fault Refusal := .next (s.fireMem (memForm g x u d a b t k) (.amo 8))

def execTAmoCas (g : BitVec 2) (x : BitVec 3) (u : BitVec 1) (d a b : BitVec 4) (t : BitVec 1) (k : BitVec 2) (s : State) :
    Host.Outcome State Fault Refusal := .next (s.fireMem (memForm g x u d a b t k) (.amo 9))

def execTAmoFadd (g : BitVec 2) (x : BitVec 3) (u : BitVec 1) (d a b : BitVec 4) (t : BitVec 1) (k : BitVec 2) (s : State) :
    Host.Outcome State Fault Refusal := .next (s.fireMem (memForm g x u d a b t k) (.amo 10))

/-! ### Completions, replies and refusals -/

/-- An element operation is turned back (R196): it stays outstanding, the path stops, unless it is stopped already, and its
element fires no further. -/
def State.refuseOp (s : State) (t : Nat) (o : ElemOp) (reason : Nat) : State :=
  let s1 := (s.modFabric t fun F => F.modOp o.id fun x => { x with refused := true }).modElem t o.elem fun E =>
    { E with stopped := true }
  if 2 ≤ ((s.tile t).fabric.path.reason).toNat ∧ ((s.tile t).fabric.path.reason).toNat ≤ 4 then s1
  else s1.stopGen t 8 reason 0 o.va

/-- Older stores of a tile hold back a release that one of its units makes to a full-empty page of another owner (R332). -/
def State.olderStores (s : State) (t loc id : Nat) : Bool :=
  (storeTile loc).map (·.1) != some t && (s.tile t).stores.any fun e => decide (e.id < id)

/-- An outstanding operation is performed at its owner (R196-R200): not before older accesses of the tile's slots to its bytes (R25,
R329), in no order with other operations of elements (R197), not over a way that holds it, and on a full-empty page in the queue of its word (R309), a store or AMO after the tile's
older stores (R332). -/
def State.memPerform (s : State) (t : Nat) (o : ElemOp) : State :=
  if s.olderNeedle t o.id [(o.loc, o.kind.size)] || !s.pathOpen t o.loc || (s.feWait.any fun q => q.who == .elem t o.id) then s
  else
    match s.refusal o.loc with
    | some (0x06, _) => s.refuseOp t o 4
    | some _ => s.refuseOp t o 3
    | none =>
      if !o.fe then s.performElem t o
      else
        match o.kind with
        | .ldr _ _ => s.feRequest (.elem t o.id) (wordOf o.loc)
        | .str => if s.olderStores t o.loc o.id || (systemOwner o.loc && !s.systemDone) then s else (s.performElem t o).serve (wordOf o.loc)
        | .amo _ => if s.olderStores t o.loc o.id || (systemOwner o.loc && !s.systemDone) then s else s.feRequest (.elem t o.id) (wordOf o.loc)

/-- A refused operation is made again at its address once the path runs, the oldest first (R196, R362). -/
def State.reissue (s : State) (t : Nat) (o : ElemOp) : State :=
  let F := (s.tile t).fabric
  if F.path.reason ≠ 0 ∨ (F.ops.any fun x => x.refused && decide (x.id < o.id)) = true ∨ s.stops t = true then s
  else
    match s.pathUse t o.kind o.va with
    | .off => s.offExtents t 8 o.va
    | .stop r kind => s.stopGen t 8 r kind o.va
    | .ok loc fe =>
      (s.useExtent t 8 o.va).modFabric t fun F =>
        (F.modOp o.id fun x => { x with refused := false, loc := loc, fe := fe }).freeElems

/-- ELEMENT_MEM_COMPLETION: operation `ev.n` of tile `ev.tile` is performed, and its completion delivered; one that came back
refused is made again. -/
def execElementMemCompletion (s : State) : Host.Outcome State Fault Refusal :=
  let t := s.ev.tile
  .next (match (s.tile t).fabric.op? s.ev.n with
  | none => s
  | some o =>
    if o.told then s
    else if o.refused then s.reissue t o
    else
      let s1 := if o.got.isSome then s else s.memPerform t o
      match (s1.tile t).fabric.op? o.id with
      | some o1 => s1.tellOp t o1
      | none => s1)

/-- LDR_REPLY: the next reply of input channel `ev.n` of element `ev.unit`. -/
def execLdrReply (s : State) : Host.Outcome State Fault Refusal := .next (s.ldrReply s.ev.tile s.ev.unit s.ev.n)

/-- An uncorrectable path error returns to an element operation (R196): LDR and AMO deliver poison of cause 0x6, which arose
at the router of tile `u` (R176, log 52), an STR its completion with a report. -/
def State.opPathError (s : State) (t u : Nat) (o : ElemOp) : State :=
  let v : Token := ⟨true, o.tag, originWord u 28 6⟩
  let s1 := if o.kind = .str then s.sinkReport t o.elem 1 v.data else s
  let s2 := s1.modFabric t fun F => F.modOp o.id fun x => { x with got := some v }
  match (s2.tile t).fabric.op? o.id with
  | some o1 => s2.tellOp t o1
  | none => s2

/-- The next accesses of a stream: their addresses, and whether they write. -/
def Stream.accesses (G : Stream) : List (Word × Bool) :=
  match G.job with
  | none => [(G.next, G.isDst)]
  | some j => [(G.box.addr (G.pos + j.buf.length), false), (j.dst.addr G.pos, true)]

/-- A stream's next access comes back refused with a REASON that holds of it (R40, R362, R368). -/
def State.refuseStream (s : State) (t g reason : Nat) : State :=
  match ((s.tile t).fabric.gen g).accesses.find? fun x => s.streamUse t g x.2 x.1 == .stop reason 0 with
  | some x => s.genFault t g reason 0 x.1
  | none => s

/-- ELEMENT_PARITY_ERROR: element `ev.unit` of a tile halts as under R206, reports to label 0 and is tested (R489). What the
report's words are the spec does not say: two free values (log 15). -/
def execElementParityError (s : State) : Host.Outcome State Fault Refusal :=
  let t := s.ev.tile
  let e := s.ev.unit % 16
  let s1 := (s.modElem t e fun E => { E with halted := true }).hwStitch t t 0 true e 4 s.freeVal s.useFree.freeVal none
  .next (s1.useFree.useFree.startTest t 0 e 0 true)

/-! ### Which slot of an element fires (R264) -/

/-- The guard of a decoded slot holds. -/
def State.slotReady (s : State) (t e : Nat) (i : Instr) : Bool :=
  match i.tform with
  | none => false
  | some f =>
    match i with
    | .tLdr _ _ _ _ _ n _ _ c => s.memReady t e f (.ldr n.toNat c.toNat)
    | .tStr .. => s.memReady t e f .str
    | .tSteer _ _ _ _ n => s.guardOk t e f none 0 && s.steerRoom t n.toNat
    | .tMsel _ _ _ _ q => s.guardOk t e f none 0 && s.mselRoom t q.toNat
    | .tSig _ _ _ _ l => s.guardOk t e f none 0 && { s with focus := .elem t e 0 }.sigFits l.toNat
    | .tSig2 _ _ _ _ _ l => s.guardOk t e f none 0 && { s with focus := .elem t e 0 }.sigFits l.toNat
    | .tHalt .. => s.guardOk t e f none 0
    | j =>
      match valOp j with
      | some v => s.guardOk t e v.form v.addend v.pushes
      | none => s.memReady t e f (.amo 0)

/-- The lowest slot whose guard holds, with its instruction. -/
def State.pickSlot (s : State) (t e : Nat) : Option (Nat × Instr) :=
  ((s.tile t).fabric.elem e).slots.findSome? fun k =>
    match decodeT k.2.toNat with
    | .ok i => if s.slotReady t e i then some (k.1, i) else none
    | .error _ => none

/-- Whether no element of the tile goes on: its clock is gated, or no load runs on the tile. -/
def State.elemStopped (s : State) (t : Nat) : Bool :=
  s.stopped t || !(decide ((s.part t).state = .running ∨ (s.part t).state = .settled))

end Sys2Proof.Machine
end

