-- ==== Sys2Proof/Machine/Islands.lean ====
section
/-!
DEFINITION. Matrix islands: MLOAD, MROW, MDRAIN and MRES (R298-R302, R496), rows and their delivery (R68, R73, R448),
firing with its residue check (R63, R69-R72), and the result port (R74, R247).
-/
namespace Sys2Proof.Machine

/-! ### Blocks and rows (R50, R66, R81) -/

/-- Columns of a resident format (R66). -/
def mxColumns (fmt : BitVec 3) : Nat :=
  match fmt.toNat with
  | 0 => 512
  | 1 | 2 => 256
  | _ => 128

/-- Bytes of a streamed row of a format in memory (R300). -/
def rowBytes (fmt : BitVec 3) : Nat := 8 * rowTokens fmt

/-- Element `k` of packed elements of a format (R50). -/
def mxElem (fmt : BitVec 3) (bs : List Byte) (k : Nat) : Int :=
  let b := fun i => (bs[i]?.getD 0).toNat
  match fmt.toNat with
  | 0 => signed 4 (b (k / 2) / 16 ^ (k % 2))
  | 1 => signed 6 (b k)
  | 2 => signed 8 (b k)
  | _ => signed 16 (b (2 * k) + 256 * b (2 * k + 1))

/-- A streamed row from the bytes of its payload (R81): elements, then four scales. -/
def rowOf (fmt : BitVec 3) (bs : List Byte) (poison : Option Word) : Row :=
  let n := rowBytes fmt - 8
  ⟨fmt, bs.take n, (bs.drop n).take 4, poison⟩

/-- A streamed row from its tokens (R177, R448): a gap reads as zero, the first poisoned token poisons the row. -/
def rowOfTokens (fmt : BitVec 3) (ks : List Token) : Row :=
  rowOf fmt (ks.flatMap fun k => natBytes 8 (if k.gap then 0 else k.data.toNat))
    ((ks.find? fun k => k.poison).map fun k => k.data)

/-! ### One firing (R63, R71) -/

/-- Scale `b` of column `c` of a block. -/
def Island.scale (I : Island) (c b : Nat) : Nat := (I.scales[4 * c + b]?.getD 0).toNat

/-- Scale `b` of a row. -/
def Row.scale (r : Row) (b : Nat) : Nat := (r.scales[b]?.getD 0).toNat

/-- The least of a list of numbers above zero elements; 0 for an empty list. -/
def leastOf (l : List Nat) : Nat := l.foldl min (l.head?.getD 0)

/-- A column whose scales are all numbers. -/
def Island.columnOk (I : Island) (c : Nat) : Bool := (List.range 4).all fun b => I.scale c b != 0xFF

/-- A row whose scales are all numbers. -/
def Row.scalesOk (r : Row) : Bool := (List.range 4).all fun b => r.scale b != 0xFF

/-- base of R71: the least sum of a streamed and a resident scale. -/
def Island.base (I : Island) (r : Row) : Nat :=
  let cols := (List.range (mxColumns I.fmt)).filter I.columnOk
  leastOf ((List.range 4).map fun b => r.scale b + leastOf (cols.map fun c => I.scale c b))

/-- The exact product sum of block `b` at column `c`. -/
def Island.block (I : Island) (r : Row) (c b : Nat) : Int :=
  ((List.range 32).map fun k =>
    mxElem r.fmt r.elems (32 * b + k) * mxElem I.fmt ((I.elems.drop (256 * (32 * b + k))).take 256) c).sum

/-- S of R71 at column `c`: the exact sum in units of 2^(base - 254). -/
def Island.sum (I : Island) (r : Row) (base c : Nat) : Int :=
  ((List.range 4).map fun b => I.block r c b * (2 ^ (r.scale b + I.scale c b - base) : Nat)).sum

/-- A value of a result row: f32 bits in DATA, or the origin word of a poisoned value. -/
def resultValue (x : Int) (e : Int) (origin : Nat → Word) : Token :=
  let f := f32.round 0 0 ⟨decide (x < 0), x.natAbs, e, false⟩
  if f.exc.getLsbD 2 then ⟨true, 0, origin 3⟩ else ⟨false, 0, BitVec.ofNat 64 f.bits⟩

/-- Errors of the array in one firing: what each adds to the exact sum of a column. -/
abbrev Upset := List (Nat × Int)

/-- The error of a column. -/
def upsetAt (u : Upset) (c : Nat) : Int := ((u.filter fun e => e.1 == c).map fun e => e.2).sum

/-- The residue checks pass (R71): modulo 3 and 7, over the columns that take part; an entry past the last column stands
for a difference between the two rounders. -/
def residueOk (I : Island) (r : Row) (u : Upset) : Bool :=
  let n := mxColumns I.fmt
  let d : Int := ((u.filter fun e => decide (e.1 < n) && I.columnOk e.1).map fun e => e.2).sum
  r.poison.isSome || !r.scalesOk || (decide (d % 3 = 0 ∧ d % 7 = 0) && u.all fun e => decide (e.1 < n))

/-- The result row of a firing of island `i` of tile `t` (R63, R177): `u` are the array's errors. -/
def islandRow (t i : Nat) (I : Island) (r : Row) (u : Upset) : List Token :=
  let base := I.base r
  (List.range (mxColumns I.fmt)).map fun c =>
    match r.poison with
    | some w => ⟨true, 0, w⟩
    | none =>
      if !r.scalesOk || !I.columnOk c then ⟨true, 0, originWord t (16 + i) 1⟩
      else resultValue (I.sum r base c + upsetAt u c) ((base : Int) - 254) fun cause => originWord t (16 + i) cause

/-! ### Firing (R69, R70, R72, R74) -/

/-- The cycle withholds firings from the fabric (R502). -/
def State.fabricHeld (s : State) (t : Nat) : Bool := s.withheld t ((s.tile t).cycles.toNat % 8)

/-- An island may fire: block, row, free result slot (R69, R70); one of several routes without a steer token only while it holds no
result, which then waits for one (R74, R251; log 33). -/
def State.mayFire (s : State) (t i : Nat) : Bool :=
  let I := (s.tile t).fabric.island i
  I.valid && !I.loading && !I.cordoned && !I.rows.isEmpty && decide (I.results.length < 2)
    && (decide (I.routes ≤ 1) || !I.steer.isEmpty || I.results.isEmpty) && !s.stopped t && !s.fabricHeld t
    && (I.refire || !s.stops t)

/-- A firing's row leaves the buffer and its results take a slot. -/
def Island.done (I : Island) (vals : List Token) : Island :=
  { I with rows := I.rows.drop 1, results := I.results ++ [vals], refire := false }

/-- ISLAND_FIRE: island `ev.unit` of tile `ev.tile` fires on its oldest row; a failed check keeps the row (R72). -/
def execIslandFire (s : State) : Host.Outcome State Fault Refusal :=
  let t := s.ev.tile
  let i := s.ev.unit
  let I := (s.tile t).fabric.island i
  .next (if !s.mayFire t i || I.refire then s
    else
      match I.rows with
      | [] => s
      | r :: _ =>
        if residueOk I r s.ev.upset then s.modIsland t i fun J => J.done (islandRow t i J r s.ev.upset)
        else s.modIsland t i fun J => { J with refire := true })

/-- ISLAND_REFIRE: the second firing of a row whose check failed (R72, R489, R491). -/
def execIslandRefire (s : State) : Host.Outcome State Fault Refusal :=
  let t := s.ev.tile
  let i := s.ev.unit
  let I := (s.tile t).fabric.island i
  .next (if !s.mayFire t i || !I.refire then s
    else
      match I.rows with
      | [] => s
      | r :: _ =>
        let count := fun (x : State) => (x.modIsland t i fun J =>
          { J with mism := if J.mism = BitVec.allOnes 16 then J.mism else J.mism + 1 }).startTest t 2 (16 + i) 0 true
        if residueOk I r s.ev.upset then
          count ((s.care1 t 0x0003 i).modIsland t i fun J => J.done (islandRow t i J r s.ev.upset))
        else
          let w := originWord t (16 + i) 8
          count ((s.modIsland t i fun J => J.done (List.replicate (mxColumns J.fmt) ⟨true, 0, w⟩)).sinkReport t (16 + i) 7 w))

/-! ### Rows from elements and the weft (R68, R73, R204, R448) -/

/-- The islands that a wire's next row is for: all it names, or those of its select queue's head; none where the queue
is empty. -/
def Fabric.rowTargets (F : Fabric) (w : Wire) : Option (List Nat) :=
  let isl := w.dsts.filterMap fun d => match d.2 with
    | .island i => some i
    | _ => none
  match w.sel with
  | none => some isl
  | some q => (F.selq.get [] q).head?.map fun k => isl.filter fun i => k.sel / 2 ^ i % 2 == 1

/-- Every island of a row has a free entry (R73). -/
def Fabric.rowRoom (F : Fabric) (w : Wire) : Bool :=
  match F.rowTargets w with
  | some l => l.all fun i => decide ((F.island i).rows.length < 16)
  | none => false

/-- A select queue after one row: COUNT 0 covers every further row. -/
def useQueue (l : List QTok) : List QTok :=
  match l with
  | [] => []
  | k :: r => if k.count = 0 then k :: r else if k.count = 1 then r else { k with count := k.count - 1 } :: r

/-- A row is delivered along a wire that has room for it; every row that a poisoned select token discards is a poisoned value of
cause 0xA for the wire's source (R179, R204). -/
def State.deliverRow (s : State) (t unit : Nat) (w : Wire) (r : Row) : State :=
  let F := (s.tile t).fabric
  let s1 := ((F.rowTargets w).getD []).foldl (fun a i => a.modIsland t i fun I => { I with rows := I.rows ++ [r] }) s
  match w.sel with
  | none => s1
  | some q =>
    let s2 := match (F.selq.get [] q).head?.bind fun k => k.poisoned with
      | some _ => s1.sinkReport t unit 4 (originWord t unit 0xA)
      | none => s1
    s2.modFabric t fun F => { F with selq := F.selq.put q (useQueue (F.selq.get [] q)) }

/-- The wire that gathers rows at island `i`, with the element it comes from. -/
def Fabric.elemRowWire (F : Fabric) (t i : Nat) : Option (Nat × Wire) :=
  F.wires.findSome? fun w => match w.src with
    | .elem e _ => if w.ends.contains (t, .island i) then some (e, w) else none
    | _ => none

/-! ### MAT jobs (R300-R302) -/

/-- Position of the next job of a kind that may run: no MLOAD is queued before it. -/
def Island.next (I : Island) (k : MatKind) : Option Nat :=
  match I.jobs.findIdx? fun j => decide (j.kind = k) with
  | some n => if k != .load && (I.jobs.take n).any fun j => decide (j.kind = MatKind.load) then none else some n
  | none => none

/-- The island with job `n` changed. -/
def Island.modJob (I : Island) (n : Nat) (f : MatJob → MatJob) : Island :=
  { I with jobs := match I.jobs[n]? with
      | some j => setAt I.jobs n (f j)
      | none => I.jobs }

/-- The status word of R299. -/
def matWord (count status : Nat) : Word := put 8 32 count + put 0 8 status

/-- MATRIX units whose return waited for the MROWs of slot `k` go back once none is left (R494). -/
def State.matReturn (s : State) (t k : Nat) : State :=
  if (s.tile t).fabric.rowsOf k = 0 ∧ (s.tile t).matDue.get 0 k ≠ 0 then
    (s.unbook t (125 * (s.tile t).matDue.get 0 k)).modTile t fun T => { T with matDue := T.matDue.put k 0 }
  else s

/-- Job `n` of an island ends with a status: its word is delivered (R299, R302). -/
def State.endJob (s : State) (t i n : Nat) (status : Nat) : State :=
  match ((s.tile t).fabric.island i).jobs[n]? with
  | none => s
  | some j =>
    ((s.modIsland t i fun I => { I with jobs := dropAt I.jobs n }).deliver t j.pend
      [matWord (if j.kind = .load then 0 else j.done) status]).matReturn t j.slot

/-- Bytes of the tile's own store at offset `a` are free of older stores of the tile, and it is not being re-woven. -/
def State.storeQuiet (s : State) (t a n : Nat) : Bool :=
  !s.covered t (localLoc t a) n && !s.reweavingAt (localLoc t a)

/-- Island `i` reads bytes of the tile's own store now: no older store holds them, and no word of them is empty or asked for before
(R309, R329, R341). -/
def State.storeReads (s : State) (t i : Nat) (l : List (Nat × Nat)) : Bool :=
  (l.all fun x => s.storeQuiet t x.1 x.2) && (s.pollBlock t (16 + i) (l.map fun x => (localLoc t x.1, x.2))).isNone

/-- Island `i` waits for its place at the first empty word of some bytes (R309, R341). -/
def State.storeWaits (s : State) (t i : Nat) (l : List (Nat × Nat)) : State :=
  match s.pollBlock t (16 + i) (l.map fun x => (localLoc t x.1, x.2)) with
  | some w => s.pollWait t (16 + i) w
  | none => s

/-- The bytes of a resident block: elements and scales (R66). -/
def blockSpans (fmt : BitVec 3) (eb sb : Nat) : List (Nat × Nat) := [(eb, 32768), (sb, 4 * mxColumns fmt)]

/-- The block of an island is read from its bases (R66, R67): a snapshot. -/
def State.snapBlock (s : State) (t i : Nat) (fmt : BitVec 3) (eb sb : Nat) : State :=
  let es := s.bytes (localLoc t eb) 32768
  let ss := s.bytes (localLoc t sb) (4 * mxColumns fmt)
  (s.pollDone t (16 + i)).modIsland t i fun I =>
    { I with fmt := fmt, ebase := eb, sbase := sb, elems := es, scales := ss, loading := true, valid := false }

/-- The block is in place (R67): MISM starts again (R301). -/
def Island.loaded (I : Island) : Island := { I with loading := false, valid := !I.cordoned, mism := 0 }

/-- RESIDENT_LOAD_COMPLETE: a load in progress completes; else the MLOAD at the head of the queue starts, once no firing is
in progress and, under a valid block, the row buffer is empty (R67, R300, R302). -/
def execResidentLoadComplete (s : State) : Host.Outcome State Fault Refusal :=
  let t := s.ev.tile
  let i := s.ev.unit
  let I := (s.tile t).fabric.island i
  .next (if I.loading then
      let s1 := s.modIsland t i Island.loaded
      match I.jobs with
      | j :: _ => if j.kind = .load ∧ j.started then s1.endJob t i 0 0 else s1
      | [] => s1
    else
      match I.jobs with
      | j :: _ =>
        if j.kind = .load ∧ !s.stops t ∧ !I.refire ∧ (!I.valid ∨ I.rows.isEmpty) then
          (if s.storeReads t i (blockSpans j.fmt j.a j.b) then
            (s.snapBlock t i j.fmt j.a j.b).modIsland t i fun J => J.modJob 0 fun x => { x with started := true }
          else s.storeWaits t i (blockSpans j.fmt j.a j.b))
        else s
      | [] => s)

/-- ROW_DELIVER: a row enters the buffer of island `ev.unit`: the next of its MROW, or the one that an element has sent
whole (R68, R300, R448). A row read from marked words is poisoned (R488). -/
def execRowDeliver (s : State) : Host.Outcome State Fault Refusal :=
  let t := s.ev.tile
  let i := s.ev.unit
  let F := (s.tile t).fabric
  let I := F.island i
  .next (match F.elemRowWire t i with
  | some (e, w) =>
    if rowTokens I.rowFmt ≤ I.parts.length ∧ F.rowRoom w then
      (s.deliverRow t e w (rowOfTokens I.rowFmt (I.parts.take (rowTokens I.rowFmt)))).modIsland t i fun J =>
        { J with parts := J.parts.drop (rowTokens I.rowFmt) }
    else s
  | none =>
    match I.next .row with
    | none => s
    | some n =>
      match I.jobs[n]? with
      | none => s
      | some j =>
        let at_ := j.a + j.done * rowBytes j.fmt
        if j.count ≤ j.done ∨ 16 ≤ I.rows.length then s
        else if !s.storeReads t i [(at_, rowBytes j.fmt)] then s.storeWaits t i [(at_, rowBytes j.fmt)]
        else
          let loc := localLoc t at_
          let bad := if s.marked loc (rowBytes j.fmt - 4) then some (originWord t 27 5) else none
          (s.pollDone t (16 + i)).modIsland t i fun J =>
            { J.modJob n (fun x => { x with done := x.done + 1, started := true }) with
              rows := J.rows ++ [rowOf j.fmt (s.bytes loc (rowBytes j.fmt)) bad], rowFmt := j.fmt, src := 0 })

/-! ### The result port (R70, R74, R204, R247, R300) -/

/-- The fold slots that name an island as a source: those of the load's trees, or those that FOLD.CFG has written (R92,
R244). -/
def Fabric.foldsOf (F : Fabric) (i : Nat) (pattern : Bool) : List Nat :=
  (F.folds.filter fun f => f.2.v && f.2.pattern == pattern && f.2.srcs.getLsbD (5 - i)).map (·.1)

/-- The wires of an island's results. -/
def Fabric.resultWires (F : Fabric) (i : Nat) : List Wire := F.wires.filter fun w => w.src == .island i

/-- The ends of an island's results, route by route: its wires in order, then the load's trees (R74, R92). -/
def Fabric.routesOf (F : Fabric) (i : Nat) : List (List (Nat × Sink)) :=
  (F.resultWires i).map (·.dsts) ++ (F.foldsOf i true).map fun _ => []

/-- The token of two values `2k` and `2k + 1` of a row of `n` values (R247): TAG 1 on the row's last token, 2 on the
last of every other block of 64 values. -/
def pairToken (vals : List Token) (n k : Nat) : Token :=
  let a := vals[2 * k]?.getD Token.zero
  let b := vals[2 * k + 1]?.getD Token.zero
  let tag : BitVec 3 := if n ≤ 2 * k + 2 then 1 else if (2 * k + 2) % 64 = 0 then 2 else 0
  if a.poison then ⟨true, tag, a.data⟩
  else if b.poison then ⟨true, tag, b.data⟩
  else ⟨false, tag, put 0 32 a.data.toNat + put 32 32 b.data.toNat⟩

/-- The oldest result row has left (R70, R74). -/
def Island.rowSent (I : Island) : Island :=
  { I with results := I.results.drop 1, sent := 0, steer := if I.routes ≤ 1 then I.steer else useQueue I.steer }

/-- A value of a result row as a fold value. -/
def foldResult (k : Token) : FoldVal := if k.poison then ⟨0, some k.data⟩ else ⟨(k.data.toNat : Int), none⟩

/-- One flit of the oldest result row enters fold slot `n`, whose rows are as long as the island's (R92-R94). -/
def State.feedFold (s : State) (t i : Nat) (vals : List Token) (n : Nat) : State :=
  let f := (s.tile t).fabric.fold n
  let I := (s.tile t).fabric.island i
  let per := foldPer f.op
  if f.len + 1 ≠ vals.length ∨ !f.roomLocal i then s
  else
    let s1 := s.modFold t n fun x => x.pushLocal i (((vals.drop (per * I.sent)).take per).map foldResult)
    if vals.length ≤ per * I.sent + per then s1.modIsland t i Island.rowSent
    else s1.modIsland t i fun J => { J with sent := J.sent + 1 }

/-- A result row that its steer token discards is a poisoned value of cause 0xA for the island (R179, R204). -/
def State.discardResult (s : State) (t i : Nat) : State :=
  (s.sinkReport t (16 + i) 4 (originWord t (16 + i) 0xA)).modIsland t i Island.rowSent

/-- One token, or one fold flit, of the oldest result row goes down its route. -/
def State.sendResult (s : State) (t i : Nat) (vals : List Token) (route : Nat) : State :=
  let F := (s.tile t).fabric
  let I := F.island i
  match (F.routesOf i)[route]? with
  | none => s.discardResult t i
  | some [] =>
    (match (F.foldsOf i true)[route - (F.resultWires i).length]? with
    | none => s
    | some n => s.feedFold t i vals n)
  | some ds =>
    if ds.all fun d => s.sinkRoom t d 1 then
      let s1 := ds.foldl (fun a d => a.sendToken t d (pairToken vals vals.length I.sent)) s
      if vals.length ≤ 2 * I.sent + 2 then s1.modIsland t i Island.rowSent
      else s1.modIsland t i fun J => { J with sent := J.sent + 1 }
    else s

/-- The bytes that MDRAIN writes for a result row (R300). -/
def drainBytes (vals : List Token) : List Byte :=
  vals.flatMap fun k => natBytes 4 (if k.poison then 0x7FC00000 else k.data.toNat)

/-- A result row goes to the MDRAIN at the head of the island's queue; a poisoned value is reported (R178, R300). Of a row that
reaches LSIZE nothing is written: the block has another format than the one it was issued for (log 58). -/
def State.drainRow (s : State) (t i : Nat) (vals : List Token) : State :=
  let I := (s.tile t).fabric.island i
  match I.next .drain with
  | none => s
  | some n =>
    match I.jobs[n]? with
    | none => s
    | some j =>
      let at_ := j.a + j.done * (4 * vals.length)
      if j.done < j.count ∧ s.storeQuiet t at_ (4 * vals.length) then
        let s1 := (vals.filter fun k => k.poison).foldl (fun a k => a.sinkReport t (16 + i) 6 k.data)
          (if s.lsize t < at_ + 4 * vals.length then s else s.write (localLoc t at_) (drainBytes vals))
        s1.modIsland t i fun J => (J.modJob n fun x =>
          { x with done := x.done + 1, started := true, poisoned := x.poisoned || vals.any fun k => k.poison }).rowSent
      else s

/-- Results that no load claims: a MDRAIN takes whole rows; where none waits, a slot of FOLD.CFG that names the island does
(R92, R244, R298, log 50). -/
def State.ownResult (s : State) (t i : Nat) (vals : List Token) : State :=
  let F := (s.tile t).fabric
  let I := F.island i
  match (F.foldsOf i false).head? with
  | some n => if I.sent = 0 ∧ (I.next .drain).isSome then s.drainRow t i vals else s.feedFold t i vals n
  | none => s.drainRow t i vals

/-- RESULT_PORT_SEND: island `ev.unit` sends of its oldest result row what its route takes next. -/
def execResultPortSend (s : State) : Host.Outcome State Fault Refusal :=
  let t := s.ev.tile
  let i := s.ev.unit
  let I := (s.tile t).fabric.island i
  .next (match I.results with
  | [] => s
  | vals :: _ =>
    if !I.claimResults then s.ownResult t i vals
    else if I.routes ≤ 1 then s.sendResult t i vals 0
    else
      match I.steer with
      | [] => s
      | k :: _ => if k.poisoned.isSome then s.discardResult t i else s.sendResult t i vals k.sel)

/-- MAT_COMPLETE: the MROW or MDRAIN job `ev.n` of an island has taken or written its last row (R299, R302). -/
def execMatComplete (s : State) : Host.Outcome State Fault Refusal :=
  let t := s.ev.tile
  let i := s.ev.unit
  .next (match ((s.tile t).fabric.island i).jobs[s.ev.n]? with
  | none => s
  | some j =>
    if j.kind ≠ .load ∧ j.done = j.count then s.endJob t i s.ev.n (if j.poisoned then 2 else 0) else s)

/-! ### MLOAD, MROW, MDRAIN, MRES -/

/-- A MAT instruction is refused under R298. -/
def State.matRefused (s : State) (d : BitVec 5) : State := s.finish d (matWord 0 1)

/-- A MAT instruction enters its island's queue; its status register waits (R209, R302). -/
def State.matQueue (s : State) (d : BitVec 5) (i : Nat) (k : MatKind) (fmt : BitVec 3) (a b count : Nat) : State :=
  let o := match s.cur.run with
    | .handler x => x
    | _ => .sys
  let j : MatJob := ⟨k, fmt, a, b, count, 0, false, false, s.seq, s.fk, o, s.cur.asid⟩
  let p : Pend := ⟨s.seq, [s.cur.absReg d], .result, 0, 0, false, false⟩
  (s.stamp.modIsland s.ft i fun I => { I with jobs := I.jobs ++ [j] }).modCur fun sl =>
    { sl.advance with pend := sl.pend ++ [p] }

/-- MLOAD (R300). A trap of a MAT instruction comes before the STATUS 1 of a claimed role (R298): DESIGN CHOICE (log 64). -/
def execMload (d a b : BitVec 5) (f : BitVec 3) (i : BitVec 2) (s : State) : Host.Outcome State Fault Refusal :=
  let x := (s.cur.sreg a).toNat
  let y := (s.cur.sreg b).toNat
  .next (if s.cur.pendsOn [d, a, b] then s
    else if 4 ≤ f.toNat then s.trapIllegal (.mload d a b f i)
    else if x % 64 ≠ 0 then s.trap 0x02 0 (s.cur.sreg a)
    else if y % 64 ≠ 0 then s.trap 0x02 0 (s.cur.sreg b)
    else if s.lsize s.ft < x + 32768 then s.trap 0x05 0 (s.cur.sreg a)
    else if s.lsize s.ft < y + 4 * mxColumns f then s.trap 0x05 0 (s.cur.sreg b)
    else if ((s.tile s.ft).fabric.island i.toNat).claimBlock then s.matRefused d
    else s.matQueue d i.toNat .load f x y 0)

/-- The bytes per row of an MROW or MDRAIN and its count are within their limits (R300). -/
def matCount (n : Nat) : Bool := decide (1 ≤ n ∧ n ≤ 65535)

/-- MROW (R300, R496): with no MATRIX balance it asks for one unit and stalls. A trap comes before STATUS 1, as for MLOAD (log 64). -/
def execMrow (d a b : BitVec 5) (f : BitVec 3) (i : BitVec 2) (s : State) : Host.Outcome State Fault Refusal :=
  let x := (s.cur.sreg a).toNat
  let n := (s.cur.sreg b).toNat
  .next (if s.cur.pendsOn [d, a, b] then s
    else if 4 ≤ f.toNat then s.trapIllegal (.mrow d a b f i)
    else if x % 8 ≠ 0 then s.trap 0x02 0 (s.cur.sreg a)
    else if !matCount n then s.trapIllegal (.mrow d a b f i)
    else if s.lsize s.ft < x + n * rowBytes f then s.trap 0x05 0 (s.cur.sreg a)
    else if ((s.tile s.ft).fabric.island i.toNat).claimRows then s.matRefused d
    else if s.cur.balance 0 ≠ 0 then s.matQueue d i.toNat .row f x 0 n
    else
      let r := s.takeLeave s.ft s.fk 0 1
      if r.2 then r.1.matQueue d i.toNat .row f x 0 n else r.1)

/-- The format of the block that an instruction queued now will find: that of the last MLOAD queued, else of the block held (R300,
R302). -/
def Island.fmtAhead (I : Island) : BitVec 3 :=
  (((I.jobs.filter fun j => decide (j.kind = MatKind.load)).getLast?).map MatJob.fmt).getD I.fmt

/-- MDRAIN (R300): its range is that of the columns of the block the island will hold when it is carried out. A trap
comes before STATUS 1, as for MLOAD (log 64). -/
def execMdrain (d a b : BitVec 5) (i : BitVec 2) (s : State) : Host.Outcome State Fault Refusal :=
  let x := (s.cur.sreg a).toNat
  let n := (s.cur.sreg b).toNat
  let I := (s.tile s.ft).fabric.island i.toNat
  .next (if s.cur.pendsOn [d, a, b] then s
    else if x % 32 ≠ 0 then s.trap 0x02 0 (s.cur.sreg a)
    else if !matCount n then s.trapIllegal (.mdrain d a b i)
    else if s.lsize s.ft < x + n * (4 * mxColumns I.fmtAhead) then s.trap 0x05 0 (s.cur.sreg a)
    else if I.claimResults then s.matRefused d
    else s.matQueue d i.toNat .drain 0 x 0 n)

/-- The map of R301. -/
def Island.map (I : Island) : Word :=
  put 48 16 I.mism.toNat + put 16 5 I.rows.length + put 14 2 I.results.length + put 11 3 I.rowFmt.toNat
    + put 8 3 I.fmt.toNat + put 1 2 I.src.toNat + put 0 1 (bit I.valid)

/-- A release (R300, R302): the queued MROWs and MDRAINs end with STATUS 3. -/
def State.matRelease (s : State) (t i : Nat) : State :=
  let I := (s.tile t).fabric.island i
  let gone := I.jobs.filter fun j => j.kind != .load
  let s1 := s.modIsland t i fun J =>
    { J with valid := false, rows := [], results := [], sent := 0, refire := false,
             jobs := J.jobs.filter fun j => decide (j.kind = MatKind.load) }
  gone.foldl (fun a j => (a.deliver t j.pend [matWord j.done 3]).matReturn t j.slot) (s1.pollDone t (16 + i))

/-- MRES (R300, R301). -/
def execMres (d a : BitVec 5) (i : BitVec 2) (s : State) : Host.Outcome State Fault Refusal :=
  let I := (s.tile s.ft).fabric.island i.toNat
  .next (if s.cur.pendsOn [d, a] then s
    else
      let s1 := s.finish d I.map
      if (s.cur.sreg a).getLsbD 0 && !(I.claimBlock || I.claimRows || I.claimResults) then s1.matRelease s.ft i.toNat
      else s1)

end Sys2Proof.Machine
end

