-- ==== Sys2Proof/Machine/Fold.lean ====
section
/-!
DEFINITION. The fold: FOLD.PUT, FOLD.CFG and FOLD.STAT (R243-R245), the combining of rows in a router (R93-R98), what a root
delivers (R244, R429), and rows that stay incomplete at a drain (R99).
-/
namespace Sys2Proof.Machine

/-! ### Shape (R92) -/

/-- Bytes of a value (R93). -/
def foldSize (op : BitVec 3) : Nat := 32 / foldPer op

/-- The tile has a logical neighbour in hop direction `d` (R30, R92). -/
def hasNeighbour (t d : Nat) : Bool :=
  match d with
  | 0 => decide (tileX t < 135)
  | 1 => decide (tileY t < 187)
  | 2 => decide (0 < tileX t)
  | _ => decide (0 < tileY t)

/-- The bit of IN for the input from hop direction `d`: west 3, north 2, east 1, south 0. -/
def inBit (d : Nat) : Nat :=
  match d with
  | 0 => 1
  | 1 => 0
  | 2 => 3
  | _ => 2

/-- The directions of the inputs that a slot has, in the order west, north, east, south of R94. -/
def FoldSlot.inDirs (f : FoldSlot) : List Nat := [2, 3, 0, 1].filter fun d => f.ins.getLsbD (inBit d)

/-- The local sources of a slot in SRC order. -/
def FoldSlot.locals (f : FoldSlot) : List Nat := (List.range 6).filter fun k => f.srcs.getLsbD (5 - k)

/-- The keys of the inputs of a slot in the order of R94. -/
def FoldSlot.inputs (f : FoldSlot) : List Nat :=
  (if f.ins.getLsbD 4 then f.locals.map (8 + ·) else []) ++ f.inDirs

/-- The slot holds no row and no part of one. -/
def FoldSlot.empty (f : FoldSlot) : Bool :=
  (f.inq.all fun e => e.2.isEmpty) && f.parts.isEmpty && f.outq.isEmpty && f.half.isNone

/-- A slot read from a value of FOLDT (R92). -/
def foldOfWord (v : Word) (rootOff : Option Nat) : FoldSlot :=
  { FoldSlot.reset with
    v := v.getLsbD 63
    op := BitVec.ofNat 3 (get v 62 60)
    idx := v.getLsbD 59
    ins := BitVec.ofNat 5 (get v 58 54)
    out := BitVec.ofNat 3 (get v 53 51)
    srcs := BitVec.ofNat 6 (get v 50 45)
    len := get v 44 36
    slice := get v 35 28
    rootOff := rootOff }

/-! ### FOLD.PUT, FOLD.CFG, FOLD.STAT -/

/-- The values of a flit of four registers (R243). -/
def flitValues (op : BitVec 3) (ws : List Word) : List FoldVal :=
  let w := fun i => (ws[i]?.getD 0)
  if foldF32 op then
    (List.range 8).map fun k => ⟨(get (w (k / 2)) (32 * (k % 2) + 31) (32 * (k % 2)) : Nat), none⟩
  else if op = 6 then (List.range 2).map fun k => ⟨((w (2 * k)).toNat + (w (2 * k + 1)).toNat * 2 ^ 64 : Nat), none⟩
  else (List.range 4).map fun k => ⟨(w k).toInt, none⟩

/-- FOLD.PUT (R243). The PUTs of two slots into one tree, whose results R10 leaves open, enter the tree in the order in which they
issue (DESIGN CHOICE, log 57). -/
def execFoldPut (b : BitVec 5) (t : BitVec 4) (s : State) : Host.Outcome State Fault Refusal :=
  let rs := [b, b + 1, b + 2, b + 3]
  let f := (s.tile s.ft).fabric.fold t.toNat
  .next (if b.toNat % 4 ≠ 0 ∨ !f.v ∨ !f.srcs.getLsbD 0 then s.trapIllegal (.foldPut b t)
    else if s.cur.pendsOn rs then s
    else if !f.roomLocal 5 then s
    else ((s.modFold s.ft t.toNat fun x => x.pushLocal 5 (flitValues x.op (rs.map s.cur.sreg))).wakePart s.ft).modCur Slot.advance)

/-- The EILLEGAL checks of a value for FOLDT on tile `t` (R92, R244). -/
def foldValueOk (t : Nat) (v : Word) : Bool :=
  let f := foldOfWord v none
  decide (get v 26 0 = 0) && f.op != 7 && decide (f.out.toNat ≤ 4) && !v.getLsbD 27
    && (decide (f.out = 4) || hasNeighbour t f.out.toNat) && f.inDirs.all (hasNeighbour t)

/-- Fold flits on their way to input `i` of slot `n` of a tile (R98). -/
def State.foldsOnWay (s : State) (u n i : Nat) : Nat :=
  (s.flights.filter fun f => match f.msg with
    | .fold m j _ => f.dst == u && m == n && j == i
    | _ => false).length

/-- FOLD.CFG (R244). A slot that a flit is on its way to holds its row. -/
def execFoldCfg (a b : BitVec 5) (t : BitVec 4) (s : State) : Host.Outcome State Fault Refusal :=
  let v := s.cur.sreg a
  let o := (s.cur.sreg b).toNat
  let root := decide (get v 53 51 = 4)
  let f := (s.tile s.ft).fabric.fold t.toNat
  .next (if s.cur.pendsOn [a, b] then s
    else if f.v && f.pattern || !foldValueOk s.ft v || (!root && decide (o ≠ 0)) then s.trapIllegal (.foldCfg a b t)
    else if root && decide (o % 32 ≠ 0) then s.trap 0x02 0 (s.cur.sreg b)
    else if root && decide (s.lsize s.ft ≤ o) then s.trap 0x05 0 (s.cur.sreg b)
    else if f.v && (!f.empty || f.inDirs.any fun d => s.foldsOnWay s.ft t.toNat d != 0) then s
    else (s.modFold s.ft t.toNat fun _ => foldOfWord v (if root then some o else none)).modCur Slot.advance)

/-- FOLD.STAT (R245). -/
def execFoldStat (d : BitVec 5) (t : BitVec 4) (s : State) : Host.Outcome State Fault Refusal :=
  let f := (s.tile s.ft).fabric.fold t.toNat
  .next (if s.cur.pendsOn [d] then s
    else s.finish d (put 32 32 f.rows.toNat + put 1 1 (bit f.ovf) + put 0 1 (bit f.v)))

/-! ### Combining (R93-R97) -/

/-- An f32 result of a combine: NV and OF poison it at the fold unit of tile `t` (R62, R97, log 48). -/
def foldFloat (t : Nat) (r : FRes) : FoldVal :=
  if r.exc.getLsbD 4 then ⟨0, some (originWord t 22 1)⟩
  else if r.exc.getLsbD 2 then ⟨0, some (originWord t 22 3)⟩
  else ⟨(r.bits : Int), none⟩

/-- Two values combined at the fold unit of tile `t` (R62, R93, R97). -/
def foldCombine2 (t : Nat) (op : BitVec 3) (a b : FoldVal) : FoldVal :=
  match a.poison, b.poison with
  | some w, _ => ⟨0, some w⟩
  | none, some w => ⟨0, some w⟩
  | none, none =>
    match op.toNat with
    | 0 => foldFloat t (f32.add 0 0 a.x.toNat b.x.toNat)
    | 1 => ⟨a.x + b.x, none⟩
    | 2 => foldFloat t (f32.minmax true a.x.toNat b.x.toNat)
    | 3 => foldFloat t (f32.minmax false a.x.toNat b.x.toNat)
    | 4 => ⟨max a.x b.x, none⟩
    | 5 => ⟨min a.x b.x, none⟩
    | _ => ⟨(a.x + b.x) % (2 ^ 128 : Nat), none⟩

/-- Flits combined value by value, in order. -/
def foldFlits (t : Nat) (op : BitVec 3) : List FoldFlit → Option FoldFlit
  | [] => none
  | x :: r => some (r.foldl (fun a y =>
      { a with vals := (a.vals.zip y.vals).map fun p => foldCombine2 t op p.1 p.2, lo := min a.lo y.lo, hi := max a.hi y.hi }) x)

/-- The slot with the head of input `k` removed. -/
def FoldSlot.pop (f : FoldSlot) (k : Nat) : FoldSlot := { f with inq := f.inq.put k ((f.inq.get [] k).drop 1) }

/-- The next flit of the slot's row order has been handed on. -/
def FoldSlot.stepOn (f : FoldSlot) : FoldSlot :=
  if f.nextK + 1 < f.flits then { f with nextK := f.nextK + 1 } else { f with nextK := 0, rows := f.rows + 1 }

/-- The flit whose inputs are all present under order=ports (R94): local sources first, then west, north, east, south. -/
def FoldSlot.ready (f : FoldSlot) (t : Nat) : Option FoldFlit :=
  let ks := f.inputs
  let heads := ks.filterMap fun k => (f.inq.get [] k).head?
  if ks.isEmpty ∨ heads.length ≠ ks.length then none
  else
    let l := foldFlits t f.op ((f.locals.filter fun _ => f.ins.getLsbD 4).filterMap fun k => (f.inq.get [] (8 + k)).head?)
    let rest := f.inDirs.filterMap fun d => (f.inq.get [] d).head?
    foldFlits t f.op (l.toList ++ rest)

/-- A flit leaves over the data mesh for the parent's slot of the same number, and is counted as sent (R98, R484): none where that
slot is not valid, has no input there or belongs to another load, or where its buffer is full (R10, R92). -/
def State.foldSend (s : State) (t n : Nat) (f : FoldSlot) (fl : FoldFlit) : Option State :=
  let d := f.out.toNat
  let u := neighbour t d
  let i := opposite d
  let g := (s.tile u).fabric.fold n
  if hasNeighbour t d && g.v && g.ins.getLsbD (inBit i)
      && decide ((s.part u).launch = (s.part t).launch ∧ (s.part u).load = (s.part t).load)
      && decide ((g.inq.get [] i).length + s.foldsOnWay u n i < 4) then
    some ((s.modPart t fun p => { p with s := p.s + 1 }).post (.fold n i fl) t u true)
  else none

/-- A fold flit arrives at its input, and is counted as received; nothing of it stays where the slot has no such input any more
(R10, R98, R484). -/
def State.foldArrive (s : State) (u n i : Nat) (fl : FoldFlit) : State :=
  let g := (s.tile u).fabric.fold n
  let s1 := if g.v && g.ins.getLsbD (inBit i) then
      s.modFold u n fun x => { x with inq := x.inq.put i (x.inq.get [] i ++ [fl]) }
    else s
  (s1.wakePart u).modPart u fun p => { p with a := p.a + 1 }

/-! ### What a root delivers (R96, R244, R429) -/

/-- Values of flit `k` of a row that lie within LEN. -/
def FoldSlot.cut (f : FoldSlot) (fl : FoldFlit) : List FoldVal := fl.vals.take (f.len + 1 - foldPer f.op * fl.k)

/-- The true sum of an add.i64 value lies outside the i64 range (R96). -/
def FoldSlot.overflows (f : FoldSlot) (fl : FoldFlit) : Bool :=
  decide (f.op = 1) && (f.cut fl).any fun v =>
    v.poison.isNone && (decide (v.x < -((2 ^ 63 : Nat) : Int)) || decide (((2 ^ 63 : Nat) : Int) ≤ v.x))

/-- The tokens of a flit at a root wired to a channel or a copy stream (R429). -/
def FoldSlot.tokens (f : FoldSlot) (fl : FoldFlit) : List Token :=
  let vs := f.cut fl
  let lastFlit := decide (fl.k + 1 = f.flits)
  if foldF32 f.op then
    let ts := vs.map fun v => match v.poison with
      | some w => (⟨true, 0, w⟩ : Token)
      | none => ⟨false, 0, BitVec.ofInt 64 v.x⟩
    (List.range ((vs.length + 1) / 2)).map fun k =>
      let tok := pairToken ts ts.length k
      { tok with tag := if lastFlit && decide (vs.length ≤ 2 * k + 2) then 1
                        else if (8 * fl.k + 2 * k + 2) % 64 = 0 then 2 else 0 }
  else if f.op = 6 then
    (List.range vs.length).flatMap fun j =>
      let v := vs[j]?.getD ⟨0, none⟩
      let tag : BitVec 3 := if lastFlit && decide (j + 1 = vs.length) then 1 else 0
      match v.poison with
      | some w => [⟨true, 0, w⟩, ⟨true, tag, w⟩]
      | none => [⟨false, 0, BitVec.ofInt 64 v.x⟩, ⟨false, tag, BitVec.ofInt 64 (v.x / (2 ^ 64 : Nat))⟩]
  else
    (List.range vs.length).map fun j =>
      let v := vs[j]?.getD ⟨0, none⟩
      let tag : BitVec 3 := if lastFlit && decide (j + 1 = vs.length) then 1 else 0
      match v.poison with
      | some w => ⟨true, tag, w⟩
      | none => ⟨false, tag, BitVec.ofInt 64 v.x⟩

/-- The bytes of a value that a root of FOLD.CFG writes (R244). -/
def foldBytes (op : BitVec 3) (v : FoldVal) : List Byte :=
  let n := foldSize op
  match v.poison with
  | some _ => natBytes n (if foldF32 op then 0x7FC00000 else if op = 6 then 2 ^ 127 else 2 ^ 63)
  | none => natBytes n (v.x % (2 ^ 128 : Nat)).toNat

/-- Bytes written but for those of marked words they cover only in part (R488). -/
def State.writeKeep (s : State) (loc : Nat) (bs : List Byte) : State :=
  let n := bs.length
  (List.range n).foldl (fun a i =>
    let w := wordOf (loc + i)
    if s.isMarked w && !(decide (loc ≤ w) && decide (w + 8 ≤ loc + n)) then a
    else { a with mem := cellPut a.mem (loc + i) (bs[i]?.getD 0) }) (s.clearMarks loc n)

/-- A root of FOLD.CFG writes a flit (R244), once no older store of the tile holds its bytes (R329); a full-empty word becomes full
and its queue is served (R341). What lies at or above LSIZE is dropped (log 15). -/
def State.foldWrite (s : State) (t n off : Nat) (f : FoldSlot) (fl : FoldFlit) : Option State :=
  let vs := f.cut fl
  let at_ := off + fl.row * (f.len + 1) * foldSize f.op + 32 * fl.k
  let bs := (vs.flatMap (foldBytes f.op)).take (s.lsize t - at_)
  let ws := wordsOf (localLoc t at_) bs.length
  let s1 := (ws.foldl (fun a w => a.fill w) (s.writeKeep (localLoc t at_) bs)).serveAll (ws.filter s.isEmpty)
  if !s.storeQuiet t at_ bs.length then none
  else some (((vs.filterMap fun v => v.poison).foldl (fun a w => a.sinkReport t 22 10 w) s1).modFold t n FoldSlot.stepOn)

/-- A root delivers a flit: to local store, or as tokens that its wire takes one by one; a row counts as delivered with its last
token (R244, R245, R429). -/
def State.foldDeliver (s : State) (t n : Nat) (fl : FoldFlit) : Option State :=
  let f := (s.tile t).fabric.fold n
  let s1 := if f.overflows fl then s.modFold t n fun x => { x with ovf := true } else s
  match f.rootOff with
  | some off => s1.foldWrite t n off f fl
  | none => some (s1.modFold t n fun x => { x with outq := f.tokens fl })

/-- A flit leaves the router: delivered at the root, or sent toward it. -/
def State.foldOut (s : State) (t n : Nat) (fl : FoldFlit) : Option State :=
  let f := (s.tile t).fabric.fold n
  if f.out = 4 then s.foldDeliver t n fl else (s.foldSend t n f fl).map fun x => x.modFold t n FoldSlot.stepOn

/-! ### order=index (R95) -/

/-- Slices that the subtree of a slot covers. -/
def foldSlices (s : State) (n : Nat) : Nat → Nat → Nat
  | 0, _ => 0
  | fuel + 1, t =>
    let f := (s.tile t).fabric.fold n
    (if f.ins.getLsbD 4 then f.locals.length else 0) + (f.inDirs.map fun d => foldSlices s n fuel (neighbour t d)).sum

/-- A pair of flits, by their places in a list, that R95 lets the router combine. -/
def joinable (l : List FoldFlit) : Option (Nat × Nat) :=
  (List.range l.length).findSome? fun i => (List.range l.length).findSome? fun j =>
    match l[i]?, l[j]? with
    | some p, some q => if i ≠ j ∧ p.row = q.row ∧ p.k = q.k ∧ p.lo = 0 ∧ q.lo = p.hi + 1 then some (i, j) else none
    | _, _ => none

/-- The head of some input joins the partials the router holds. -/
def FoldSlot.takeHead (f : FoldSlot) : Option FoldSlot :=
  (f.inputs.find? fun k => !(f.inq.get [] k).isEmpty).map fun k =>
    { f.pop k with parts := f.parts ++ (f.inq.get [] k).take 1 }

/-- The last flit of some slices of a row has left a router under order=index: ROWS counts the rows whose slices have all left, of
`all` slices below it (R245). -/
def FoldSlot.sent (f : FoldSlot) (p : FoldFlit) (all : Nat) : FoldSlot :=
  if p.k + 1 ≠ f.flits then f
  else
    let g := f.gone.put p.row (Tab.get 0 f.gone p.row + (p.hi + 1 - p.lo))
    if all ≤ Tab.get 0 g f.rows.toNat then { f with gone := g.del f.rows.toNat, rows := f.rows + 1 } else { f with gone := g }

/-- The root delivers the next flit of its row order, where it holds all slices of it (R95). -/
def State.indexDeliver (s : State) (t n : Nat) : Option State :=
  let f := (s.tile t).fabric.fold n
  (f.parts.find? fun p => p.row == f.rows.toNat && p.k == f.nextK && p.lo == 0 && p.hi + 1 == foldSlices s n 324 t).bind fun p =>
    (s.modFold t n fun x => { x with parts := x.parts.filter fun y => y != p }).foldDeliver t n p

/-- One step of a slot under order=index (R95): two partials that follow one another from slice 0 are combined; else the root
delivers a flit or takes one in, and another router sends its oldest partial on, or takes a further one in (`more`). R95 does not say
how many partials a router holds beside its input buffers: DESIGN CHOICE (log 72), the root as many as come, another router as many
as it has inputs. -/
def State.foldIndex (s : State) (t n : Nat) (more : Bool) : State :=
  let f := (s.tile t).fabric.fold n
  let take := match f.takeHead with
    | some g => s.modFold t n fun _ => g
    | none => s
  match joinable f.parts with
  | some (i, j) =>
    (match f.parts[i]?, f.parts[j]? with
    | some p, some q =>
      s.modFold t n fun x =>
        { x with parts := (x.parts.filter fun y => y != p && y != q) ++ (foldFlits t f.op [p, q]).toList }
    | _, _ => s)
  | none =>
    if f.out = 4 then (s.indexDeliver t n).getD take
    else
      match f.parts with
      | [] => take
      | p :: r =>
        if more && decide (f.parts.length < f.inputs.length) then take
        else
          match s.foldSend t n f p with
          | some s1 => s1.modFold t n fun x => { x with parts := r }.sent p (foldSlices s n 324 t)
          | none => s

/-- A token of a flit at a wired root leaves; the last one hands the flit on (R245, R429). -/
def FoldSlot.tokenOut (f : FoldSlot) (r : List Token) : FoldSlot :=
  if r.isEmpty then { f with outq := r }.stepOn else { f with outq := r }

/-- FOLD_COMBINE: slot `ev.unit` of tile `ev.tile` hands on its next flit, or the next token of a flit at a root. -/
def execFoldCombine (s : State) : Host.Outcome State Fault Refusal :=
  let t := s.ev.tile
  let n := s.ev.unit
  let f := (s.tile t).fabric.fold n
  .next (if !f.v || s.stopped t then s
    else
      match f.outq with
      | k :: r => if s.wireRoom t (.fold n) 1 then (s.wirePush t (.fold n) k).modFold t n fun x => x.tokenOut r else s
      | [] =>
        if f.idx then s.foldIndex t n s.ev.flag
        else
          match f.ready t with
          | none => s
          | some fl =>
            match s.foldOut t n fl with
            | none => s
            | some s1 => s1.modFold t n fun x => f.inputs.foldl FoldSlot.pop x)

/-- No slot of an element's guard holds and nothing it asked for is on its way. -/
def State.elemQuiet (s : State) (t e : Nat) : Bool :=
  let E := (s.tile t).fabric.elem e
  (s.pickSlot t e).isNone && E.beat.isNone && (E.replies.all fun r => r.2.isEmpty)
    && !((s.tile t).fabric.ops.any fun o => o.elem == e)

end Sys2Proof.Machine
end

