-- ==== Sys2Proof/Machine/Streams.lean ====
section
/-!
DEFINITION. Copy islands (R272-R275, R303-R307, R498), the compaction and merge units (R269-R271) and the corner-turn buffer
(R455-R460).
-/
namespace Sys2Proof.Machine

/-! ### Boxes and buckets (R272, R498) -/

/-- Position `n` ends a run. -/
def Box.runEnd (b : Box) (n : Nat) : Bool := decide (n % b.per + 1 = b.per)

/-- Positions of one run from `n` on that lie in the aligned 32-byte unit of the first (R273). -/
def Box.segment (b : Box) (n : Nat) : Nat := min (b.per - n % b.per) ((32 - (b.addr n).toNat % 32) / 8)

/-- Positions from `n` on in unit `u` that are written in one piece: whole segments of runs, up to one that comes back to an address
of the piece, as such accesses happen in box order (R272, R273). -/
def Box.unitRun (b : Box) (u : Nat) : Nat → Nat → List Nat → Nat
  | 0, _, _ => 0
  | fuel + 1, n, seen =>
    let l := (List.range (b.segment n)).map fun i => (b.addr (n + i)).toNat
    if n < b.size ∧ (b.addr n).toNat / 32 = u ∧ (l.any fun a => seen.contains a) = false then
      b.unitRun u fuel (n + l.length) (seen ++ l) + l.length
    else 0

/-- Consecutive positions from `n` on that are written in one piece: those in its aligned 32-byte unit (R273). -/
def Box.unitLen (b : Box) (n : Nat) : Nat := b.unitRun ((b.addr n).toNat / 32) 4 n []

/-- The location of another position in the 32-byte unit of an address that lies at `loc`. -/
def unitLoc (loc : Nat) (va other : Word) : Nat := loc - va.toNat % 32 + other.toNat % 32

/-- The bucket of the copy island of stream `g`. -/
def Tile.copyBucket (T : Tile) (g : Nat) : Bucket := if g < 4 then T.buckC0 else T.buckC1

/-- `n` tokens leave the bucket of stream `g` (R498). -/
def Tile.spendBucket (T : Tile) (g n : Nat) : Tile :=
  if g < 4 then { T with buckC0 := { T.buckC0 with count := T.buckC0.count - 256 * n } }
  else { T with buckC1 := { T.buckC1 with count := T.buckC1.count - 256 * n } }

/-- A generator changed. -/
def State.modGen (s : State) (t g : Nat) (f : Stream → Stream) : State := s.modFabric t fun F => F.modGen g f

/-- A copy stream of the load may move: its tile's part runs and has a clock (R44), and its generator is not stopped; what a COPY has
read it writes also after a stop wave (R484). -/
def State.streamRuns (s : State) (t g : Nat) : Bool :=
  let G := (s.tile t).fabric.gen g
  G.used && decide (G.reason = 0) && decide (G.pos < G.box.size) && decide (g < 8) &&
    (!s.stops t || (G.job.map CopyJob.buf).any fun b => !b.isEmpty) && !(s.silicon t).dark && (G.job.isSome || decide ((s.part t).state = .running ∨ (s.part t).state = .settled))

/-! ### Moving on (R273, R305, R306) -/

/-- Bytes may be accessed by a unit of the tile now: no older store of the tile holds them, and nothing holds the way (R31, R32,
R39, R329). -/
def State.unitAccess (s : State) (t loc n : Nat) : Bool := !s.covered t loc n && s.pathOpen t loc && !s.routeHeld s.seq loc

/-- A unit of the tile may write 8 bytes now; on a full-empty page of another owner after the tile's older stores (R332). -/
def State.unitWrite (s : State) (t loc : Nat) (fe : Bool) : Bool :=
  s.unitAccess t loc 8 && !(fe && (s.olderStores t loc s.seq || (systemOwner loc && !s.systemDone)))

/-- A `src=` stream reads its next position and pushes one token (R273). -/
def State.srcStep (s : State) (t g : Nat) : State :=
  let G := (s.tile t).fabric.gen g
  let va := G.next
  match s.streamUse t g false va with
  | .off => s.offExtents t g va
  | .stop r k => s.genFault t g r k va
  | .ok loc fe =>
    if !s.unitAccess t loc 8 || !s.wireRoom t (.stream g) 1 then s
    else
      match s.pollBlock t g (if fe then [(loc, 8)] else []) with
      | some w => s.pollWait t g w
      | none =>
        let tag := if G.box.runEnd G.pos then 1 else 0
        let k : Token := if s.isMarked loc then ⟨true, tag, markOrigin t loc⟩ else ⟨false, tag, s.read64 loc⟩
        (((((s.pollDone t g).useExtent t g va).wirePush t (.stream g) k).modTile t fun T => T.spendBucket g 1)).modGen t g fun x =>
          { x with pos := x.pos + 1 }

/-- One position of a COPY: where it reads and writes, each with its FE bit, or how it ends there, with the address that faults: both
addresses are checked before the source is read (R306). -/
inductive CopyPos where
  | move (a : Nat) (fa : Bool) (b : Nat) (fb : Bool)
  | ends (u : PathUse) (va : Word)
  deriving DecidableEq, Repr

/-- Position `n` of a COPY, of destination `dst`. -/
def State.copyPos (s : State) (t g : Nat) (dst : Box) (n : Nat) : CopyPos :=
  let src := ((s.tile t).fabric.gen g).box.addr n
  match s.streamUse t g false src, s.streamUse t g true (dst.addr n) with
  | .ok a fa, .ok b fb => .move a fa b fb
  | .ok _ _, u => .ends u (dst.addr n)
  | u, _ => .ends u src

/-- A copy stream writes bytes at their owner (R273, R305, R329). -/
def State.streamWrite (s : State) (t g loc : Nat) (bs : List Byte) (fe : Bool) : State :=
  (s.stamp.noteStore s.seq t (8 + g) loc bs.length fe).apply loc bs fe

/-- A COPY writes the positions that it has read, in one piece (R273, R305). -/
def State.copyFlush (s : State) (t g : Nat) (j : CopyJob) : State :=
  let G := (s.tile t).fabric.gen g
  let va := j.dst.addr G.pos
  let n := j.buf.length
  match s.streamUse t g true va with
  | .off => s.offExtents t g va
  | .stop c k => s.genFault t g c k va
  | .ok loc fe =>
    if s.covered t (loc / 32 * 32) 32 || !s.unitWrite t loc fe || !((s.tile t).copyBucket g).ready n then s
    else
      let s1 := ((List.range n).zip j.buf).foldl (fun a p =>
        a.streamWrite t g (unitLoc loc va (j.dst.addr (G.pos + p.1))) (natBytes 8 p.2.toNat) fe) s
      ((s1.useExtent t g va).modTile t fun T => T.spendBucket g n).modGen t g fun x =>
        { x with pos := x.pos + n, job := some { j with buf := [] } }

/-- A COPY reads its next position, once both its addresses have been checked (R306), each word when its turn comes (R232, R309). What
it has read is written before it ends at a position that faults or holds uncorrectable data. -/
def State.copyRead (s : State) (t g : Nat) (j : CopyJob) : State :=
  let G := (s.tile t).fabric.gen g
  let n := G.pos + j.buf.length
  match s.copyPos t g j.dst n with
  | .ends .off va => s.offExtents t g va
  | .ends (.stop c k) va => if j.buf.isEmpty then s.genFault t g c k va else s.copyFlush t g j
  | .ends (.ok _ _) _ => s
  | .move a fa _ _ =>
    if !s.unitAccess t a 8 then s
    else
      match s.pollBlock t g (if fa then [(a, 8)] else []) with
      | some w => s.pollWait t g w
      | none =>
        if s.isMarked a then
          (if j.buf.isEmpty then (s.pollDone t g).modGen t g fun x =>
              { x with gfva := G.box.addr n, job := some { j with ended := some 6 } }
            else s.copyFlush t g j)
        else (((s.pollDone t g).useExtent t g (G.box.addr n)).useExtent t g (j.dst.addr n)).modGen t g fun x =>
          { x with job := some { j with buf := j.buf ++ [s.read64 a] } }

/-- A COPY reads the positions of its next destination unit one after another and writes them in one piece (R273, R305). -/
def State.copyStep (s : State) (t g : Nat) (j : CopyJob) : State :=
  if j.buf.length < j.dst.unitLen ((s.tile t).fabric.gen g).pos then s.copyRead t g j else s.copyFlush t g j

/-- COPY_SRC_READ: stream `ev.unit` of tile `ev.tile` reads on: a `src=` stream pushes a token, a COPY reads a position or writes a unit. -/
def execCopySrcRead (s : State) : Host.Outcome State Fault Refusal :=
  let t := s.ev.tile
  let g := s.ev.unit
  let G := (s.tile t).fabric.gen g
  .next (if !s.streamRuns t g || !((s.tile t).copyBucket g).ready 1 then s
    else
      match G.job with
      | some j => if j.ended.isSome then s else s.copyStep t g j
      | none => if G.isDst then s else s.srcStep t g)

/-- A `dst=` stream of a load has the tokens of its next unit (R273). -/
def State.dstReady (s : State) (t g : Nat) : Bool :=
  let G := (s.tile t).fabric.gen g
  s.streamRuns t g && G.isDst && G.job.isNone && decide (G.box.unitLen G.pos ≤ G.inq.length)

/-- A `dst=` stream takes the tokens of its next unit and, with `write`, writes them (R273): a gap or a poisoned token leaves
its 8 bytes, and the latter is reported (R178). -/
def State.dstStep (s : State) (t g : Nat) (write : Bool) : State :=
  let G := (s.tile t).fabric.gen g
  let n := G.box.unitLen G.pos
  let va := G.next
  if !s.dstReady t g then s
  else
    let one := fun (loc : Nat) (fe : Bool) (a : State) (p : Nat × Token) =>
      if p.2.poison then a.sinkReport t (20 + g / 4) 5 p.2.data
      else if p.2.gap || !write then a
      else a.streamWrite t g (unitLoc loc va (G.box.addr (G.pos + p.1))) (natBytes 8 p.2.data.toNat) fe
    let take := fun (loc : Nat) (fe : Bool) => (((List.range n).zip (G.inq.take n)).foldl (one loc fe) s).modGen t g fun x =>
      { x with pos := x.pos + n, inq := x.inq.drop n }
    if !write then take 0 false
    else
      match s.streamUse t g true va with
      | .off => s.offExtents t g va
      | .stop r k => s.genFault t g r k va
      | .ok loc fe =>
        if s.covered t (loc / 32 * 32) 32 || !s.unitWrite t loc fe then s
        else (take loc fe).useExtent t g va

/-- The next access of a stream is lost to the path error of R32, at the router of tile `u` (log 52): a `src=` stream pushes its token
poisoned with cause 0x6, a `dst=` stream reports the tokens that it could not write, and a COPY writes what it has read and ends with
status 6. -/
def State.streamPathError (s : State) (t g u : Nat) : State :=
  let G := (s.tile t).fabric.gen g
  let lost := fun (x : Word × Bool) => match s.streamUse t g x.2 x.1 with
    | .ok loc _ => s.pathFailed t loc
    | _ => false
  match G.accesses.find? lost with
  | none => s
  | some x =>
    match G.job with
    | some j =>
      if !x.2 && !j.buf.isEmpty then s.copyFlush t g j
      else (s.pollDone t g).modGen t g fun y => { y with gfva := x.1, job := some { j with ended := some 6 } }
    | none =>
      if G.isDst then (if s.dstReady t g then (s.dstStep t g false).sinkReport t (20 + g / 4) 5 (originWord u 28 6) else s)
      else if !s.streamRuns t g || !s.wireRoom t (.stream g) 1 then s
      else (((s.pollDone t g).wirePush t (.stream g) ⟨true, if G.box.runEnd G.pos then 1 else 0, originWord u 28 6⟩).modTile t
        fun T => T.spendBucket g 1).modGen t g fun y => { y with pos := y.pos + 1 }

/-- GENERATOR_ACCESS_REFUSED: an access that has left comes back for a cause that holds of it (R40, R196, R362): operation `ev.n`
of the element path where `ev.unit` is 8, else the access of a copy stream; after a path error `ev.v` is the tile whose router
discarded it. -/
def execGeneratorAccessRefused (s : State) : Host.Outcome State Fault Refusal :=
  let t := s.ev.tile
  let g := s.ev.unit
  .next (if g = 8 then
      (match (s.tile t).fabric.op? s.ev.n with
      | none => s
      | some o =>
        if o.told || o.refused || o.got.isSome || !s.causeHolds t o.loc o.kind.size (!o.kind.isAmo) s.ev.cause then s
        else
          match s.ev.cause with
          | .elsize => s.refuseOp t o 3
          | .epeer => s.refuseOp t o 4
          | .epath => s.opPathError t (s.ev.v.toNat % tileCount) o
          | .edata => s)
    else if 7 < g ∨ ((s.tile t).fabric.gen g).used = false ∨ ((s.tile t).fabric.gen g).reason ≠ 0 then s
    else
      match s.ev.cause with
      | .elsize => s.refuseStream t g 3
      | .epeer => s.refuseStream t g 4
      | .epath => s.streamPathError t g (s.ev.v.toNat % tileCount)
      | .edata => s)

/-! ### COPY (R303-R307) -/

/-- Both boxes of a parameter block (R303). -/
def copyBoxes (bs : List Byte) : Box × Box :=
  let w := fun off => (BitVec.ofNat 64 (blkField bs off 8) : Word)
  let n := fun off => blkField bs off 8
  (⟨w 0x00, n 0x10, n 0x18, n 0x20, n 0x28, w 0x30, w 0x38, w 0x40⟩,
   ⟨w 0x08, n 0x10, n 0x18, n 0x20, n 0x28, w 0x48, w 0x50, w 0x58⟩)

/-- A base or pitch is a multiple of 8, and a pitch's magnitude below 2^40. -/
def pitchOk (w : Word) : Bool := decide (w.toNat % 8 = 0) && decide (w.toInt.natAbs < 2 ^ 40)

/-- The fields of a box lie within their limits (R303). -/
def Box.ok (b : Box) : Bool :=
  decide (b.base.toNat % 8 = 0) && decide (b.run % 8 = 0 ∧ b.run ≤ 2 ^ 24) && decide (b.rows ≤ 2 ^ 20 ∧ b.planes ≤ 2 ^ 20 ∧ b.cubes ≤ 2 ^ 20)
    && pitchOk b.pitch && pitchOk b.ppitch && pitchOk b.cpitch && decide (b.size ≤ 2 ^ 40)

/-- The completion word of R304. -/
def copyWord (count status : Nat) : Word := put 16 48 count + put 0 8 status

/-- The free stream that COPY takes (R275, R303). -/
def Fabric.freeStream (F : Fabric) : Option Nat := (List.range 8).find? fun g => !(F.gen g).used

/-- The allocation of the running slot. -/
def State.curAlloc (s : State) : Alloc := s.slotAlloc s.ft s.fk

/-- NOTIFY is KIND 11 or a target that SEND would accept (R304). -/
def State.notifyOk (s : State) (w : Word) : Bool := decide (get w 63 62 = 3) || (s.sendTarget s.ft s.fk w).isSome

/-- COPY of a block that has been read: a stream takes it, patched with the first four runs that its boxes touch (R360). Of a bad field
(R304) and an extent of 0 (R307) the bad field is judged first: DESIGN CHOICE (log 64). -/
def State.copyIssue (s : State) (d : BitVec 5) (param : Word) (bs : List Byte) : State :=
  let b := copyBoxes bs
  let notify := BitVec.ofNat 64 (blkField bs 0x60 8)
  let cookie := BitVec.ofNat 64 (blkField bs 0x68 8)
  if !b.1.ok || !b.2.ok || decide (blkField bs 0x78 8 ≠ 0) || !s.notifyOk notify then s.finish d (copyWord 0 3)
  else if b.1.size = 0 then
    (s.finish d (copyWord 0 2)).notify s.ft s.fk s.curAlloc notify (copyWord 0 2) cookie
  else
    match (s.tile s.ft).fabric.freeStream with
    | none => s
    | some g =>
      let o := match s.cur.run with
        | .handler x => x
        | _ => .sys
      let j : CopyJob := ⟨b.2, notify, cookie, param, s.seq, s.fk, o, s.launchOf s.ft s.fk, none, []⟩
      let p : Pend := ⟨s.seq, [s.cur.absReg d], .result, 0, 0, false, false⟩
      let touched := (List.range b.1.size).flatMap fun n => [b.1.addr n, b.2.addr n]
      let G : Stream := { Stream.reset with
        used := true, box := b.1, job := some j, asid := s.cur.asid, gen := s.cur.gen
        ext := runsFrom (s.patchRun s.ft s.cur.asid s.cur.gen) 4 touched [] }
      (s.stamp.modGen s.ft g fun _ => G).modCur fun sl => { sl.advance with pend := sl.pend ++ [p] }

/-- The block of a COPY can be written under the slot's ASID, or the cause for which it cannot (R304); nothing is read. -/
def State.blockWritable (s : State) (i : Instr) (va : Word) : Blk :=
  match State.checkAll s.ft s.fk i .store 1 ((List.range 8).map fun j => va + BitVec.ofNat 64 (16 * j)) s [] with
  | .wait s1 => .wait s1
  | .ok s1 _ => .got s1 []
  | .trap s1 c sub v => .trap s1 c sub v

/-- The KIND of the EPAGE with which a COPY traps whose block cannot be read and written: that of a translation fault, else the one of
a place that may not be named (R304; log 12). -/
def blockKind (cause sub : Nat) : Nat := if cause = 0x04 then sub else Config.regionKind.toNat

/-- COPY: it issues once every access that happens-before it is performed (R305, R340), so that no position is read before
them. -/
def execCopy (d a : BitVec 5) (s : State) : Host.Outcome State Fault Refusal :=
  let va := s.cur.sreg a
  .next (if s.cur.pendsOn [d, a] then s
    else
      match s.readBlock (.copy d a) va 64 128 with
      | .trap s1 c sub v => if c = 0x02 ∨ c = 0x0D ∨ c = 0x0E then s1.trap c sub v else s1.trap 0x04 (blockKind c sub) va
      | .wait s1 => s1
      | .got s1 bs =>
        match s1.blockWritable (.copy d a) va with
        | .wait s2 => s2
        | .trap s2 c sub v => if c = 0x0E then s2.trap c sub v else s2.trap 0x04 (blockKind c sub) va
        | .got s2 _ => if s2.released s2.ft s2.fk then s2.copyIssue d va bs else s2)

/-- A store of the tile in its pending-store table covers the word of a COPY's block that takes a faulting address (R329). -/
def State.faultCovered (s : State) (t : Nat) (G : Stream) (j : CopyJob) : Bool :=
  j.ended.isSome && match s.translate t G.asid G.gen .store false (j.param + 0x70) with
    | .ok p _ _ => s.covered t p.loc 8
    | _ => false

/-- COPY_COMPLETE: a COPY that has moved its last position, or has ended early, writes FAULTVA, its completion word and its
stitch, and frees its stream (R305, R306). -/
def execCopyComplete (s : State) : Host.Outcome State Fault Refusal :=
  let t := s.ev.tile
  let g := s.ev.unit
  let G := (s.tile t).fabric.gen g
  .next (match G.job with
  | none => s
  | some j =>
    if (j.ended.isNone ∧ G.pos < G.box.size) ∨ (s.behind.any fun b => b.tile == t && b.slot == 8 + g) = true
        ∨ s.faultCovered t G j = true then s
    else
      let w := copyWord G.pos (j.ended.getD 1).toNat
      let s1 := match j.ended with
        | none => s
        | some _ =>
          match s.translate t G.asid G.gen .store false (j.param + 0x70) with
          | .ok p fe _ => (s.expose p.loc (natBytes 8 G.gfva.toNat)).apply p.loc (natBytes 8 G.gfva.toNat) fe
          | _ => s
      (((s1.pollDone t g).modGen t g fun _ => Stream.reset).deliver t j.pend [w]).notify t j.slot (s1.allocOf j.launch) j.notify w j.cookie)

/-! ### The compaction unit (R269) -/

/-- A unit of the tile's resident load works while the load runs. -/
def State.unitRuns (s : State) (t : Nat) : Bool :=
  decide ((s.part t).state = .running ∨ (s.part t).state = .settled) && !(s.tile t).gated && !(s.silicon t).dark

/-- COMPACT_STEP: at most one token in and one out. -/
def execCompactStep (s : State) : Host.Outcome State Fault Refusal :=
  let t := s.ev.tile
  let C := (s.tile t).fabric.cmp
  let set := fun (x : State) (c : Compact) => x.modFabric t fun F => { F with cmp := c }
  let took := fun (n : Nat) => { C with inq := C.inq.drop 1, seen := C.seen + 1, passed := C.passed + n, due := C.seen + 1 == C.width }
  .next (if C.width = 0 ∨ !s.unitRuns t then s
    else if C.due then
      if s.wireRoom t .cmp 1 then
        (set s { C with due := false, seen := 0, passed := 0 }).wirePush t .cmp ⟨false, 6, BitVec.ofNat 64 C.passed⟩
      else s
    else
      match C.inq with
      | [] => s
      | k :: _ =>
        if k.gap then set s (took 0)
        else if s.wireRoom t .cmp 1 then (set s (took 1)).wirePush t .cmp k
        else s)

/-! ### The merge unit (R270, R271) -/

/-- An entry of the merge unit is occupied. -/
def Merge.holds (m : Merge) (i : Nat) : Bool := m.entries.any fun e => e.1 == i

/-- The unit goes on to the next index. -/
def Merge.advance (m : Merge) : Merge := { m with n := (m.n + 1) % m.keys }

/-- One input of the merge unit is served: its head may be placed, discarded under a spent index, or, poisoned, retired at
once; `out` says that a token may still leave in this cycle. -/
def State.mergeIn (s : State) (t : Nat) (second out : Bool) : State × Bool :=
  let M := (s.tile t).fabric.mrg
  let set := fun (x : State) (m : Merge) => x.modFabric t fun F => { F with mrg := m }
  let popped := fun (m : Merge) => if second then { m with in1 := m.in1.drop 1 } else { m with in0 := m.in0.drop 1 }
  match (if second then M.in1 else M.in0).head? with
  | none => (s, out)
  | some k =>
    let i := get k.data 63 54 % M.keys
    if k.poison then
      if out && !M.holds M.n && s.wireRoom t .mrg 1 then
        ((set s (popped { M with spent := natInsert M.n M.spent }).advance).wirePush t .mrg k, false)
      else (s, out)
    else if M.spent.contains i then
      ((set s (popped { M with spent := natErase i M.spent })).sinkReport t 26 8 (originWord t 26 0xA), out)
    else if M.holds i then (s, out)
    else (set s (popped { M with entries := M.entries.put i k }), out)

/-- The merge unit retires entry n where it was filled in an earlier cycle; whether a token may still leave. -/
def State.mergeOut (s : State) (t : Nat) : State × Bool :=
  let M := (s.tile t).fabric.mrg
  let m1 := { M with entries := M.entries.del M.n }.advance
  let set := fun (x : State) => x.modFabric t fun F => { F with mrg := m1 }
  match M.entries.find? fun e => e.1 == M.n with
  | none => (s, true)
  | some (_, k) =>
    if k.gap then (set s, true)
    else if s.wireRoom t .mrg 1 then ((set s).wirePush t .mrg k, false)
    else (s, false)

/-- MERGE_STEP: one cycle of the merge unit. -/
def execMergeStep (s : State) : Host.Outcome State Fault Refusal :=
  let t := s.ev.tile
  .next (if (s.tile t).fabric.mrg.keys = 0 ∨ !s.unitRuns t then s
    else
      let a := s.mergeOut t
      let b := a.1.mergeIn t false a.2
      (b.1.mergeIn t true b.2).1)

/-! ### The corner-turn buffer (R455-R460) -/

/-- The buffer turns mx rows. -/
def Corner.mx (c : Corner) : Bool := c.reblock != 0x1F

/-- Format code 0-3 of an mx element-type code (R144). -/
def mxFormat (e : BitVec 5) : BitVec 3 := BitVec.ofNat 3 (e.toNat - 0x13)

/-- Lane width of a plain type (R290). -/
def laneWidth (e : BitVec 5) : Nat :=
  let w := (etype e.toNat).width
  if w ≤ 4 then 4 else if w ≤ 8 then 8 else w

/-- Tokens of one row that enters. -/
def Corner.rowIn (c : Corner) : Nat := if c.mx then rowTokens (mxFormat c.fmt) else 16

/-- Rows of a half. -/
def Corner.rows (c : Corner) : Nat := if c.mx then 32 else 64

/-- Element tokens of a re-blocked column. -/
def Corner.elemTokens (c : Corner) : Nat :=
  match (mxFormat c.reblock).toNat with
  | 0 => 2
  | 1 | 2 => 4
  | _ => 8

/-- Columns of a half, and tokens of one column that leave. -/
def Corner.columns (c : Corner) : Nat := if c.mx then 128 else 1024 / laneWidth c.fmt
def Corner.perColumn (c : Corner) : Nat := if c.mx then c.elemTokens + 1 else laneWidth c.fmt

/-- Token `k` of row `r` of a half, where it was received. -/
def Half.tok (h : Half) (per r k : Nat) : Option Token := h.toks[per * r + k]?

/-- DATA of a placed token: a gap, or one that never came, is zero (R457, R459). -/
def placed (k : Option Token) : Nat :=
  match k with
  | some k => if k.gap then 0 else k.data.toNat
  | none => 0

/-- The origin of the first poisoned token of some. -/
def firstPoison (l : List (Option Token)) : Option Word := l.findSome? fun k => k.bind fun k => if k.poison then some k.data else none

/-- Output token `q` of column `c` of a plain half: its DATA and its poison (R455, R459). -/
def Corner.plainOut (C : Corner) (h : Half) (c q : Nat) : Option Word × Word :=
  let e := laneWidth C.fmt
  let per := 64 / e
  let row := fun j => per * q + j
  (firstPoison ((List.range per).map fun j => h.tok 16 (row j) (c / per)),
   BitVec.ofNat 64 (lanesNat e (fun j => placed (h.tok 16 (row j) (c / per)) / 2 ^ (e * (c % per)) % 2 ^ e) per))

/-- The element token of an mx row that holds column `c`. -/
def mxTokenOf (fmt : BitVec 3) (c : Nat) : Nat :=
  match fmt.toNat with
  | 0 => c / 16
  | 1 | 2 => c / 8
  | _ => c / 4

/-- The exact value at row `r` and column `c` of an mx half (R458): 0 in a row whose scales never came or came as a gap. -/
def Corner.mxAt (C : Corner) (h : Half) (r c : Nat) : FVal :=
  let f := mxFormat C.fmt
  let n := rowTokens f - 1
  match h.tok (n + 1) r n with
  | none => .fin false 0 0
  | some sc =>
    if sc.gap then .fin false 0 0
    else
      let bs := (List.range n).flatMap fun k => natBytes 8 (placed (h.tok (n + 1) r k))
      match mxValue (get sc.data (8 * (c / 32) + 7) (8 * (c / 32))) (mxElem f bs c) with
      | some x => .fin x.neg x.m x.e
      | none => .nan false

/-- The poison of column `c` of an mx half: of the lowest row that has a poisoned part. -/
def Corner.mxPoison (C : Corner) (h : Half) (c : Nat) : Option Word :=
  let f := mxFormat C.fmt
  let n := rowTokens f - 1
  firstPoison ((List.range 32).flatMap fun r => [h.tok (n + 1) r (mxTokenOf f c), h.tok (n + 1) r n])

/-- The bytes of re-blocked elements, in the packing of R50. -/
def packElems (f : BitVec 3) (xs : List Int) : List Byte :=
  match f.toNat with
  | 0 => (List.range (xs.length / 2)).map fun i =>
      BitVec.ofNat 8 (intBits 4 (xs[2 * i]?.getD 0) + 16 * intBits 4 (xs[2 * i + 1]?.getD 0))
  | 1 | 2 => xs.map fun x => BitVec.ofInt 8 x
  | _ => xs.flatMap fun x => natBytes 2 (intBits 16 x)

/-- Output token `q` of column `c` of an mx half (R458). -/
def Corner.mxOut (C : Corner) (h : Half) (c q : Nat) : Option Word × Word :=
  let f := mxFormat C.reblock
  let b := mxEncode (mxWidth f.toNat) 0 ((List.range 32).map fun r => (C.mxAt h r c, 0))
  (C.mxPoison h c,
   if q = C.elemTokens then BitVec.ofNat 64 b.scale
   else BitVec.ofNat 64 (bytesNat (((packElems f b.elems).drop (8 * q)).take 8)))

/-- Output token number `p` of a half, with its tag (R457). -/
def Corner.out (C : Corner) (h : Half) (p : Nat) : Token :=
  let c := p / C.perColumn
  let q := p % C.perColumn
  let v := if C.mx then C.mxOut h c q else C.plainOut h c q
  let r := (h.toks.length + C.rowIn - 1) / C.rowIn
  let last := decide (q + 1 = C.perColumn)
  let ends := h.ended && decide (c + 1 = C.columns)
  let mark := if C.mx then mxTokenOf (mxFormat C.reblock) (r - 1) else (r - 1) / (64 / laneWidth C.fmt)
  let tag : BitVec 3 :=
    if last then (if ends then 1 else 2) else if ends && decide (r < C.rows) && decide (q = mark) then 3 else 0
  match v.1 with
  | some w => ⟨true, tag, w⟩
  | none => ⟨false, tag, v.2⟩

/-- The half that the writer fills. -/
def Corner.writing (C : Corner) : Half := if C.wr then C.h1 else C.h0

/-- A half of the buffer changed. -/
def Corner.setHalf (C : Corner) (second : Bool) (h : Half) : Corner := if second then { C with h1 := h } else { C with h0 := h }

/-- CT_TOKEN_IN: the writer places one token (R456, R457). -/
def execCtTokenIn (s : State) : Host.Outcome State Fault Refusal :=
  let t := s.ev.tile
  let C := (s.tile t).fabric.ct
  let h := C.writing
  .next (match C.inq with
  | [] => s
  | k :: r =>
    if !s.unitRuns t || !(decide (h.state = .empty ∨ h.state = .filling)) then s
    else
      let ended := decide (k.tag = 1)
      let full := ended || decide (h.toks.length + 1 = C.rows * C.rowIn)
      let h1 : Half := ⟨if full then .full else .filling, h.toks ++ [k], ended, 0, s.seq⟩
      let C1 := { C with inq := r }.setHalf C.wr h1
      s.stamp.modFabric t fun F => { F with ct := { C1 with wr := if full then !C1.wr else C1.wr } })

/-- The half that the reader drains, or the older full one it turns to. -/
def Corner.reading (C : Corner) : Option (Bool × Half) :=
  if C.h0.state = .draining then some (false, C.h0)
  else if C.h1.state = .draining then some (true, C.h1)
  else if C.h0.state = .full ∧ (C.h1.state ≠ .full ∨ C.h0.age < C.h1.age) then some (false, C.h0)
  else if C.h1.state = .full then some (true, C.h1)
  else none

/-- CT_TOKEN_OUT: the reader turns to the older full half, or pushes one token (R456). -/
def execCtTokenOut (s : State) : Host.Outcome State Fault Refusal :=
  let t := s.ev.tile
  let C := (s.tile t).fabric.ct
  let set := fun (x : State) (b : Bool) (h : Half) => x.modFabric t fun F => { F with ct := F.ct.setHalf b h }
  .next (if !s.unitRuns t then s
    else
      match C.reading with
      | none => s
      | some (b, h) =>
        if h.state = .full then set s b { h with state := .draining }
        else if !s.wireRoom t .ct 1 then s
        else
          let s1 := s.wirePush t .ct (C.out h h.pos)
          if h.pos + 1 = C.columns * C.perColumn then set s1 b Half.reset else set s1 b { h with pos := h.pos + 1 })

end Sys2Proof.Machine
end

