-- ==== Sys2Proof/Machine/Weft.lean ====
section
/-!
DEFINITION. The weft: WEFT and the states of multicast groups (R78-R80, R241, R242), frames and their reception (R81-R88),
ring receivers (R77, R89), and streams that end as failed (R511).
-/
namespace Sys2Proof.Machine

/-! ### Groups (R78-R83) -/

/-- Lanes of a group. -/
def Group.lanes (g : Group) : Nat := if g.w2 then 2 else 1

/-- Payload units of a row of a group (R81). -/
def Group.len (g : Group) : Nat := if g.fmt = 4 then g.units else rowTokens g.fmt

/-- The minimum PACE of R82: the frame bytes at 11 2/3 bytes per cycle, over the lanes, rounded up. -/
def Group.minPace (g : Group) : Nat := ((16 + 8 * g.len) * 3 + 35 * g.lanes - 1) / (35 * g.lanes)

/-- A stream is started: idle becomes armed (R80). -/
def Group.arm (g : Group) : Group :=
  { g with state := .armed, epoch := g.epoch + 1, seq := 0, completed := [], overruns := 0, basePace := g.pace, rowAsked := [],
           ended := false }

/-- Rows that every member has had delivered in the group's epoch. -/
def State.rowsAtAll (s : State) (n : Nat) : Nat :=
  let g := s.group n
  leastOf (g.members.map fun t =>
    let p := (s.tile t).fabric.portGroup n
    if p.e = g.epoch then p.n.toNat else 0)

/-- A stream ends (R80, R242, R494, R511): the group is idle, its pace what it was (R87), and its completion is told. The stitch
of a failed stream that the loader started names the member tile itself as its sender, element 0: the spec says only that the
selvedge sends it (log 36). -/
def State.endStream (s : State) (n outcome : Nat) : State :=
  let g := s.group n
  let w0 := put 0 10 g.patIndex + put 16 8 g.epoch.toNat + put 24 8 outcome
  let w1 : Word := BitVec.ofNat 64 (if outcome = 0 then g.last.toNat + 1 else s.rowsAtAll n)
  let s1 := s.modGroup n fun g => { g with state := .idle, ended := true, pace := g.basePace, starter := none }
  match g.starter with
  | some (t, k, target, l) => (s1.unbook t 360).notify t k (s1.allocOf l) target w0 w1
  | none => if outcome = 0 then s1 else g.members.foldl (fun a m => a.hwStitch m m 0 true 0 4 w0 w1 none) s1

/-- A closing group of which every member has reported completion returns to idle (R80). -/
def State.groupCheck (s : State) (n : Nat) : State :=
  let g := s.group n
  if g.state = .closing ∧ g.members.all fun m => g.completed.contains m then s.endStream n 0 else s

/-- The group of a launch that a group index names (R241). -/
def State.groupNamed (s : State) (l : Option Nat) (i : Word) : Option Nat :=
  (s.groups.find? fun e => e.2.v && l.isSome && decide (e.2.launch = l) && decide (e.2.patIndex = i.toNat)).map (·.1)

/-- A tile's part in a launch runs load `n`. -/
def State.resident (s : State) (t : Nat) (l : Option Nat) (n : Nat) : Bool :=
  let p := s.part t
  decide (p.launch = l) && decide (p.load = n) && decide (p.state = .running ∨ p.state = .settled)

/-! ### WEFT (R241, R242) -/

/-- The value of a parameter that is the same on every tile. -/
def Param.value (p : Param) : Nat :=
  match p with
  | .const v => v.toNat
  | .perTile vs => (vs.head?.getD 0).toNat

/-- A parameter of a node, by number. -/
def Node.par (n : Node) (j : Nat) : Param := n.p[j]?.getD (.const 0)

/-- The load of a launch's pattern declares `start=weft` for a group index, though it may not be resident (R241). -/
def State.declaresWeft (s : State) (l : Option Nat) (i : Word) : Bool :=
  (l.bind s.launch?).any fun x => x.pat.loads.any fun L => L.nodes.any fun n =>
    n.kind == 9 && n.flags / 16 % 2 == 1 && decide ((n.par 5).value = i.toNat)

/-- The request of a WEFT leaves once the slot's earlier stores are performed at system scope and its acquires have returned (R241, R467); its stitch target is read under the allocation of
the handler that issues it (R236). -/
def State.weftAsk (s : State) (d : BitVec 5) (x y : Word) : State :=
  if ((s.tile s.ft).stores.any fun e => e.slot == s.fk % 8) || (s.behind.any fun b => b.tile == s.ft && b.slot == s.fk % 8)
      || s.cur.pend.any fun p => p.acq then s
  else
    let q : Ask := ⟨s.ft, s.fk, s.seq, x, y, s.callerLaunch, s.launchOf s.ft s.fk,
      decide (get y 63 62 = 3) || (s.sendTarget s.ft s.fk y).isSome⟩
    let p : Pend := ⟨s.seq, [s.cur.absReg d], .result, 0, 0, false, false⟩
    { s.stamp with wefts := s.wefts ++ [q] }.modCur fun sl => { sl.advance with pend := sl.pend ++ [p] }

/-- WEFT: it takes leave as LEAVE.STREAM of 1 would where the slot holds no unit that another WEFT of it does not use. -/
def execWeft (d a b : BitVec 5) (s : State) : Host.Outcome State Fault Refusal :=
  let x := s.cur.sreg a
  let y := s.cur.sreg b
  .next (if s.cur.pendsOn [d, a, b] then s
    else if s.weftsOf s.ft s.fk < (s.cur.balance 2).toNat then s.weftAsk d x y
    else
      let r := s.takeLeave s.ft s.fk 2 1
      if r.2 then r.1.weftAsk d x y else r.1)

/-- The load has drained: its launch's root has begun the boundary of R279. -/
def State.loadOver (s : State) (l : Option Nat) (n : Nat) : Bool :=
  (l.bind s.launch?).any fun L => !s.resident L.root l n || (s.part L.root).tokenHere

/-- The STATUS that the selvedge answers, with the group (R241). R241 does not order its refusals: DESIGN CHOICE (log 64), the lowest that
applies. -/
def State.weftStatus (s : State) (q : Ask) : Nat × Nat :=
  match (if q.a.toNat < 1024 then s.groupNamed q.launch q.a else none) with
  | none => (if s.declaresWeft q.launch q.a then 2 else 1, 0)
  | some n =>
    let g := s.group n
    if !g.byWeft then (1, n)
    else if !s.resident q.tile g.launch g.load || s.loadOver g.launch g.load then (2, n)
    else if g.state ≠ .idle then (3, n)
    else if !q.targetOk then (4, n)
    else if g.pace < g.minPace then (5, n)
    else (0, n)

/-- A unit of stream leave leaves the balance in the image of an AWAY actor (R241, R482). -/
def State.spendImage (s : State) (t : Nat) (a : Actor) : State :=
  let va := a.saved.getD 0 + 0xAC
  match s.translate t a.savedAsid a.savedGen .load false va, s.translate t a.savedAsid a.savedGen .store false va with
  | .ok p _ _, .ok q _ _ => s.write q.loc (natBytes 2 (s.readNat p.loc 2 - 1))
  | _, _ => s

/-- The stream unit of a WEFT leaves the balance that holds it, of a slot or of an AWAY actor; of a handler that is over it has
stayed booked (R241). -/
def State.spendWeft (s : State) (t i : Nat) : State :=
  match (List.range 8).find? fun j => ((s.slot t j).pend? i).isSome with
  | some j => s.modSlot t j fun sl => sl.spend 2
  | none =>
    match (s.tile t).router.actors.find? fun e => e.2.savedPend.any fun p => p.id == i with
    | some (_, a) => s.spendImage t a
    | none => s

/-- The stream unit of a WEFT that starts no stream goes back where its handler is over (R241). -/
def State.keepWeft (s : State) (t i : Nat) : State :=
  if ((List.range 8).any fun j => ((s.slot t j).pend? i).isSome)
      || ((s.tile t).router.actors.any fun e => e.2.savedPend.any fun p => p.id == i) then s
  else s.unbook t 360

/-- WEFT_STATUS_RETURN: the answer to the oldest WEFT of slot `ev.unit` of tile `ev.tile` arrives; a unit of leave is spent
under STATUS 0 only, and goes back under another once the slot's handler is over. -/
def execWeftStatusReturn (s : State) : Host.Outcome State Fault Refusal :=
  let t := s.ev.tile
  let k := s.ev.unit
  .next (match s.wefts.find? fun q => q.tile == t && q.slot == k with
  | none => s
  | some q =>
    let s0 := { s with wefts := s.wefts.filter fun x => x != q }
    let r := s.weftStatus q
    if r.1 ≠ 0 then (s0.keepWeft t q.pend).deliver t q.pend [put 0 8 r.1]
    else
      let s2 := (s0.spendWeft t q.pend).modGroup r.2 fun g => { g.arm with starter := some (t, k, q.b, q.alloc) }
      s2.deliver t q.pend [put 8 8 (s2.group r.2).epoch.toNat])

/-! ### Starting a stream (R13, R80) -/

/-- The launch of a group goes on, neither stopped nor saved. -/
def State.launchRuns (s : State) (l : Option Nat) : Bool := (l.bind s.launch?).all fun x => decide (x.state = .running)

/-- A member's receivers are locked and the consumers of its wires ready: their islands hold valid blocks (R13, R80). -/
def State.memberReady (s : State) (n t : Nat) : Bool :=
  let F := (s.tile t).fabric
  let g := s.group n
  s.resident t g.launch g.load
    && (List.range g.lanes).all (fun l => F.rings.any fun r => decide (r.2.st = 2) && r.2.group == n && r.2.lane == l)
    && F.wires.all fun w => w.src != .weft n || w.dsts.all fun d => match d.2 with
      | .island i => (F.island i).valid
      | _ => true

/-- The stores of a launch's tiles are performed at system scope (R339). -/
def State.launchStored (s : State) (l : Option Nat) : Bool :=
  s.behind.all fun b => l.isNone || decide ((s.part b.tile).launch ≠ l)

/-- GROUP_START_BY_LOADER: the loader starts a group declared `start=load` once every member has tuned its port and every island
wired to it holds its block, with the leave of the tile that starts it held (R13, R497). -/
def execGroupStartByLoader (s : State) : Host.Outcome State Fault Refusal :=
  let n := s.ev.n
  let g := s.group n
  .next (if g.v && decide (g.state = .idle) && !g.byWeft && !g.ended && g.members.all (s.memberReady n)
      && (s.part (g.members.head?.getD 0)).wanted.isEmpty && decide (g.minPace ≤ g.pace) && s.launchRuns g.launch
      && s.launchStored g.launch then
      s.modGroup n Group.arm
    else s)

/-- GROUP_STREAMING_START: sending begins once every member is ready. -/
def execGroupStreamingStart (s : State) : Host.Outcome State Fault Refusal :=
  let n := s.ev.n
  let g := s.group n
  .next (if g.state = .armed ∧ g.members.all (s.memberReady n) ∧ s.launchRuns g.launch then
      s.modGroup n fun g => { g with state := .streaming }
    else s)

/-- RECEIVER_LOCK: receiver `ev.unit` of tile `ev.tile` locks. -/
def execReceiverLock (s : State) : Host.Outcome State Fault Refusal :=
  .next (s.modFabric s.ev.tile fun F =>
    let r := F.rings.get Ring.reset s.ev.unit
    if r.st = 1 ∧ !r.cordoned then { F with rings := F.rings.put s.ev.unit { r with st := 2 } } else F)

/-! ### Sending (R81, R82, R511) -/

/-- Bytes of a source row: they lie in spool and are readable in user mode, or the read cannot be made. -/
def State.weftRead (s : State) (g : Group) (va : Word) (n : Nat) : Option (List Byte × Bool) :=
  let (a, e) := match g.launch.bind s.launch? with
    | some l => (l.asid, l.gen)
    | none => (0, 0)
  (List.range n).foldl (fun acc i => acc.bind fun r =>
    match s.translate (g.members.head?.getD 0) a e .load true (va + BitVec.ofNat 64 i) with
    | .ok (.spool loc) _ _ => some (r.1 ++ [s.systemByte loc], r.2 || s.isMarked (wordOf loc))
    | _ => none) (some ([], false))

/-- The payload of row `n` of a group's stream, and whether it meets marked data (R81, R109, R488). -/
def State.weftRow (s : State) (g : Group) (n : Nat) : Option (List Byte × Bool) :=
  let off : Word := BitVec.ofNat 64 n * g.stride
  if g.fmt = 4 then s.weftRead g (g.elemsAt + off) (8 * g.units)
  else
    (s.weftRead g (g.elemsAt + off) (8 * rowTokens g.fmt - 8)).bind fun a =>
      (s.weftRead g (g.scalesAt + off) 4).map fun b => (a.1 ++ b.1 ++ List.replicate 4 0, a.2 || b.2)

/-- The receiver of a member tile for a lane of a group. -/
def Fabric.rxOf (F : Fabric) (n lane : Nat) : Option Nat :=
  (F.rings.find? fun r => r.2.st != 0 && r.2.group == n && r.2.lane == lane).map (·.1)

/-- CRC-32C of some bytes (R81): reflected, from 0xFFFFFFFF, with a final exclusive-or of 0xFFFFFFFF. -/
def crc32c (bs : List Byte) : Nat :=
  let one := fun (c : Nat) => if c % 2 = 1 then Nat.xor (c / 2) 0x82F63B78 else c / 2
  Nat.xor (bs.foldl (fun c b => one (one (one (one (one (one (one (one (Nat.xor c b.toNat))))))))) 0xFFFFFFFF) 0xFFFFFFFF

/-- The header word of a frame (R81). -/
def Frame.header (f : Frame) : Word :=
  put 54 10 f.group + put 51 3 f.fmt.toNat + put 50 1 (bit f.last) + put 40 8 f.epoch.toNat + put 32 8 f.len
    + put 0 32 f.seq.toNat

/-- The bytes of a frame on its fibre (R81): header, payload, CRC and sync word, each least significant byte first; with `bad` the
CRC is one that cannot match (R488). -/
def Frame.wire (f : Frame) (bad : Bool) : List Byte :=
  let body := natBytes 8 f.header.toNat ++ f.payload
  body ++ natBytes 4 (Nat.xor (crc32c body) (if bad then 0xFFFFFFFF else 0)) ++ natBytes 4 0xB7C35A1E

/-- The frame that bytes from a fibre hold; none where the CRC or the sync word does not match. -/
def readFrame (bs : List Byte) : Option Frame :=
  let body := bs.take (bs.length - 8)
  let tail := bs.drop (bs.length - 8)
  let h : Word := BitVec.ofNat 64 (bytesNat (body.take 8))
  if bs.length < 16 ∨ bytesNat (tail.take 4) ≠ crc32c body ∨ bytesNat (tail.drop 4) ≠ 0xB7C35A1E then none
  else some ⟨get h 63 54, BitVec.ofNat 3 (get h 53 51), h.getLsbD 50, BitVec.ofNat 8 (get h 47 40), get h 39 32,
    BitVec.ofNat 32 (get h 31 0), body.drop 8⟩

/-- Bits of a frame that flip on the way: those of `m` from byte `i` upward. -/
def flipBytes (bs : List Byte) (i m : Nat) : List Byte :=
  bs.zipIdx.map fun x => if i ≤ x.2 then x.1 ^^^ BitVec.ofNat 8 (m / 256 ^ (x.2 - i)) else x.1

/-- A member's physical row is among those that the split mask of the group's fibre lights (R75). -/
def State.lit (s : State) (g : Group) (m : Nat) : Bool :=
  let row := s.physOf m / 140
  decide (row / 8 = g.fibre / 32) && (s.splitMask g.fibre).getLsbD (row % 8)

/-- Every row of the stream up to LAST has been sent: SEQ has passed LAST (R80). -/
def Group.sentAll (g : Group) : Bool := decide (g.last.toNat < g.seq.toNat)

/-- The spool that holds the row a group sends next (R109, R394). -/
def State.spoolOf (s : State) (g : Group) : Nat :=
  let (a, e) := match g.launch.bind s.launch? with
    | some l => (l.asid, l.gen)
    | none => (0, 0)
  match s.translate (g.members.head?.getD 0) a e .load true (g.elemsAt + BitVec.ofNat 64 g.seq.toNat * g.stride) with
  | .ok p _ _ => p.loc / 2 ^ 53 % 64
  | _ => 0

/-- The entry that records a spool arbitration (R394). -/
def spoolEntry (n spool pick : Nat) : Word := put 60 4 2 + put 50 10 n + put 44 6 spool + put 0 32 pick

/-- One spool arbitration for group `n` under the placement log of tile `t`: written in log mode; in replay mode none but the one
that the log names, and RIDX advances (R394, R395). DESIGN CHOICE (log 61): the tile is the step's own. -/
def State.arbitrate (s : State) (t n : Nat) : Option State :=
  let r := (s.tile t).router
  if r.plogMode = 2 then
    let e := s.read64 (localLoc t (r.plogAt (get r.plogb 63 32)))
    if get e 63 60 = 2 ∧ get e 59 50 = n then some (s.modRouter t Router.plogNext) else none
  else some (s.plogWrite t (spoolEntry n (s.spoolOf (s.group n)) r.pickN))

/-- The condition of the placement log's entry at RIDX holds (R395): its pocket is ready and its slot free, or its group may be served. -/
def State.plogHolds (s : State) (t : Nat) : Bool :=
  let T := s.tile t
  let e := s.read64 (localLoc t (T.router.plogAt (get T.router.plogb 63 32)))
  let g := s.group (get e 59 50)
  match get e 63 60 with
  | 1 => T.ready (get e 56 50) && T.slotFree (get e 59 57)
  | 2 => decide (g.state = .streaming) && s.launchRuns g.launch && !g.sentAll
  | _ => false

/-- PLOG_REPLAY_TIMEOUT: where the entry's condition has not held, replay ends with MODE 00 and DIV 1 (R395). -/
def execPlogReplayTimeout (s : State) : Host.Outcome State Fault Refusal :=
  let t := s.ev.tile
  .next (if (s.tile t).router.plogMode = 2 ∧ s.plogHolds t = false then
      s.modRouter t fun r => { r with ploga := (r.ploga &&& 0x3FFFFFFFFFFFFFFF) ||| 0x2000000000000000 }
    else s)

/-- WEFT_FRAME_SEND: the selvedge sends the next row of group `ev.n` to every member that its light reaches; once SEQ passes
LAST the group closes (R80). -/
def execWeftFrameSend (s : State) : Host.Outcome State Fault Refusal :=
  let n := s.ev.n
  let g := s.group n
  .next (if g.state ≠ .streaming ∨ !s.launchRuns g.launch then s
    else if g.sentAll then (s.modGroup n fun g => { g with state := .closing }).groupCheck n
    else
      match s.weftRow g g.seq.toNat, s.arbitrate s.ev.tile n with
      | none, _ => s.endStream n 1
      | some _, none => s
      | some (bs, bad), some s0 =>
        let f : Frame := ⟨n, g.fmt, g.seq == g.last, g.epoch, bs.length / 8, g.seq, bs⟩
        let s1 := (g.members.filter (s.lit g)).foldl (fun a m =>
          match (a.tile m).fabric.rxOf n (g.seq.toNat % g.lanes) with
          | some r => a.post (.frame (f.wire bad) r) selvedge m true
          | none => a) s0
        (s1.modGroup n fun g =>
          { g with seq := g.seq + 1, state := if g.seq = g.last then .closing else .streaming }).groupCheck n)

/-! ### Reception (R84-R86) -/

/-- Why a member asks for a replay. -/
inductive Cause where
  | corrupt | overrun | gap | watchdog | relock
  deriving DecidableEq, Repr

/-- request(n, cause) of R84; one request stands until a row is delivered, unless it is `free` of that (R86, R89). -/
def State.request (s : State) (t n : Nat) (c : Cause) (free : Bool) : State :=
  let p := (s.tile t).fabric.portGroup n
  if p.asked.isSome && !free then s
  else (s.post (.replay n p.e p.n (decide (c = .overrun))) t selvedge false).modFabric t fun F =>
    F.modPort n fun q => { q with asked := some q.n }

/-- The element channels that a raw group's rows reach. -/
def Fabric.rawEnds (F : Fabric) (n : Nat) : List (Nat × Nat) :=
  (F.wires.filter fun w => w.src == .weft n).flatMap fun w => w.dsts.filterMap fun d => match d.2 with
    | .elem e k => some (e, k)
    | _ => none

/-- The wires of a group to islands. -/
def Fabric.rowWires (F : Fabric) (n : Nat) : List Wire := F.wires.filter fun w => w.src == .weft n

/-- room() of R84, with the bucket of R498, R499. -/
def State.weftRoom (s : State) (t n : Nat) : Bool :=
  let T := s.tile t
  let p := T.fabric.portGroup n
  T.buckW.ready p.units &&
    if p.fmt = 4 then (T.fabric.rawEnds n).all fun c => decide ((T.fabric.raw.get [] (4 * c.1 + c.2)).length + p.units ≤ 32)
    else (T.fabric.rowWires n).all T.fabric.rowRoom

/-- The tokens of a raw row: TAG 1 on the last (R81). -/
def rawTokens (bs : List Byte) : List Token :=
  let n := bs.length / 8
  (List.range n).map fun i => ⟨false, if i + 1 = n then 1 else 0, BitVec.ofNat 64 (bytesNat ((bs.drop (8 * i)).take 8))⟩

/-- deliver(): the row enters its consumers. -/
def State.weftDeliver (s : State) (t : Nat) (f : Frame) : State :=
  let F := (s.tile t).fabric
  let s1 := if f.fmt = 4 then
      (F.rawEnds f.group).foldl (fun a c => a.modFabric t fun G =>
        { G with raw := G.raw.put (4 * c.1 + c.2) (G.raw.get [] (4 * c.1 + c.2) ++ rawTokens f.payload) }.feedRaw c.1 c.2) s
    else (F.rowWires f.group).foldl (fun a w => a.deliverRow t 23 w (rowOf f.fmt f.payload none)) s
  let s2 := (s1.modTile t fun T =>
    { T with buckW := { T.buckW with count := T.buckW.count - 32 * f.payload.length } }).modFabric t fun G =>
      G.modPort f.group fun p => { p with n := p.n + 1, done := f.last, asked := none }
  if f.last then (s2.post (.report f.group f.epoch) t selvedge false).wakePart t else s2.wakePart t

/-- drain_held() of R84: at most one round for each lane. -/
def State.drainHeld (s : State) (t n : Nat) : State :=
  let one := fun (a : State) =>
    let p := (a.tile t).fabric.portGroup n
    let l := p.n.toNat % p.lanes
    match p.held.find? fun e => e.1 == l with
    | some (_, f) =>
      if f.seq = p.n ∧ a.weftRoom t n then
        (a.modFabric t fun F => F.modPort n fun q => { q with held := q.held.del l }).weftDeliver t f
      else a
    | none => a
  one (one s)

/-- The fields of a frame are those of the port's group (R84). -/
def PortGroup.takes (p : PortGroup) (n : Nat) (f : Frame) : Bool :=
  f.group == n && f.fmt == p.fmt && f.len == p.units && f.payload.length == 8 * p.units

/-- A frame has reached the locked receiver of lane `l` (R84); none stands for one whose CRC does not match. -/
def State.onFrame (s : State) (t n l : Nat) (fr : Option Frame) : State :=
  let p := (s.tile t).fabric.portGroup n
  match fr.filter (p.takes n) with
  | none => if p.done then s else s.request t n .corrupt false
  | some f =>
  if f.epoch ≠ p.e ∧ !(p.done && f.epoch == p.e + 1) then s
  else
    let s1 := if f.epoch = p.e then s
      else s.modFabric t fun F => F.modPort n fun q =>
        { q with e := f.epoch, n := 0, done := false, held := [], asked := none }
    let q := (s1.tile t).fabric.portGroup n
    if f.seq.toNat < q.n.toNat ∨ f.seq.toNat % q.lanes ≠ l then s1
    else if f.seq = q.n then
      (if s1.weftRoom t n then (s1.weftDeliver t f).drainHeld t n else s1.request t n .overrun false)
    else if f.seq.toNat < q.n.toNat + q.lanes ∧ !(q.held.any fun e => e.1 == l) then
      s1.modFabric t fun F => F.modPort n fun x => { x with held := x.held.put l f }
    else s1.request t n .gap false

/-- WEFT_FRAME_RECEIVE: frame `ev.n` arrives, the bits of `ev.v` flipped from byte `ev.unit` upward. A receiver that is not
locked loses it, and a saved port drops it (R89, R487). -/
def execWeftFrameReceive (s : State) : Host.Outcome State Fault Refusal :=
  .next (match s.flight? s.ev.n with
  | none => s
  | some fl =>
    match fl.msg with
    | .frame bs rx =>
      let t := fl.dst
      let r := (s.tile t).fabric.rings.get Ring.reset rx
      let s1 := s.dropFlight s.ev.n
      if r.st ≠ 2 ∨ !((s.tile t).fabric.portGroup r.group).bound ∨ (s.part t).state = .saved then s1
      else s1.onFrame t r.group r.lane (readFrame (flipBytes bs s.ev.unit s.ev.v.toNat))
    | _ => s)

/-- WEFT_HELD_DRAIN: room has freed at the port of group `ev.unit` of tile `ev.tile`. -/
def execWeftHeldDrain (s : State) : Host.Outcome State Fault Refusal :=
  .next (if ((s.tile s.ev.tile).fabric.portGroup s.ev.unit).bound then s.drainHeld s.ev.tile s.ev.unit else s)

/-- WEFT_WATCHDOG: a port has delivered no row for long and asks for one; with `ev.flag`, 8 x PACE cycles have passed since its
last request, and it may send others (R86). -/
def execWeftWatchdog (s : State) : Host.Outcome State Fault Refusal :=
  let t := s.ev.tile
  let n := s.ev.unit
  let p := (s.tile t).fabric.portGroup n
  let g := s.group n
  .next (if s.ev.flag then s.modFabric t fun F => F.modPort n fun q => { q with asked := none }
    else if p.bound && !p.done && decide (g.state = .streaming ∨ g.state = .closing) && g.members.contains t then
      s.request t n .watchdog false
    else s)

/-! ### The selvedge's side (R85, R87, R488) -/

/-- A row that meets marked data has been asked for once more; the third time ends the stream (R488, R511). -/
def Group.askRow (g : Group) (n : Nat) : Group × Bool :=
  let c := (Tab.get 0 g.rowAsked n) + 1
  ({ g with rowAsked := Tab.put g.rowAsked n c }, decide (3 ≤ c))

/-- SEQ falls to the first missing row; a group in state closing streams again for a row up to LAST (R80, R85). -/
def Group.rewind (g : Group) (first : BitVec 32) : Group :=
  if g.state = .closing then
    (if first.toNat ≤ g.last.toNat then { g with seq := first, state := .streaming } else g)
  else { g with seq := if first.toNat < g.seq.toNat then first else g.seq }

/-- REPLAY_REQUEST_ARRIVAL: a member's request reaches the selvedge; one of another epoch, or for an idle group, is ignored (R85,
R511). -/
def execReplayRequestArrival (s : State) : Host.Outcome State Fault Refusal :=
  .next (match s.flight? s.ev.n with
  | none => s
  | some fl =>
    match fl.msg with
    | .replay n e first over_ =>
      let s0 := s.dropFlight s.ev.n
      let g := s0.group n
      if e ≠ g.epoch ∨ g.state = .idle then s0
      else
        let bad := (s.weftRow g first.toNat).any fun r => r.2
        let a := if bad then g.askRow first.toNat else (g, false)
        if a.2 then s0.endStream n 1
        else
          let k := if over_ then g.overruns + 1 else g.overruns
          let dbl := over_ && decide (k % 16 = 0)
          let s1 := s0.modGroup n fun _ =>
            { a.1.rewind first with overruns := k, pace := if dbl then min 65535 (2 * g.pace) else g.pace }
          if dbl then s1.care1 fl.src 0x0008 n else s1
    | _ => s)

/-- MEMBER_COMPLETION_REPORT: a member has delivered its END row (R80, R84). -/
def execMemberCompletionReport (s : State) : Host.Outcome State Fault Refusal :=
  .next (match s.flight? s.ev.n with
  | none => s
  | some fl =>
    match fl.msg with
    | .report n e =>
      let s0 := s.dropFlight s.ev.n
      if e = (s0.group n).epoch ∧ (s0.group n).state ≠ .idle then
        (s0.modGroup n fun g => { g with completed := natInsert fl.src g.completed }).groupCheck n
      else s0
    | _ => s)

/-! ### Rings (R89, R490) -/

/-- RING_RANGE_END: the tuning loop of receiver `ev.unit` of tile `ev.tile` reaches the end of its range. -/
def execRingRangeEnd (s : State) : Host.Outcome State Fault Refusal :=
  let t := s.ev.tile
  let x := s.ev.unit
  let r := (s.tile t).fabric.rings.get Ring.reset x
  .next (if r.st ≠ 2 then s
    else
      let s1 := (s.modFabric t fun F => { F with rings := F.rings.put x { r with st := 3, fails := 0 } }).startTest t 3 23 x true
      if ((s.tile t).fabric.portGroup r.group).done then s1 else s1.request t r.group .corrupt false)

/-- RING_RELOCK_DONE: an attempt to relock ends, with success where `ev.flag` is set; the third failure cordons the
receiver, and its group's stream ends as failed. -/
def execRingRelockDone (s : State) : Host.Outcome State Fault Refusal :=
  let t := s.ev.tile
  let x := s.ev.unit
  let r := (s.tile t).fabric.rings.get Ring.reset x
  let set := fun (y : Ring) => s.modFabric t fun F => { F with rings := F.rings.put x y }
  .next (if r.st ≠ 3 then s
    else if s.ev.flag then ((set { r with st := 2, fails := 0 }).care1 t 0x0005 x).request t r.group .relock true
    else if r.fails < 2 then set { r with fails := r.fails + 1 }
    else
      let s1 := (set { r with st := 0, fails := 0, cordoned := true }).care1 t 0x000D (23 + 256 * x)
      if (s.group r.group).state = .idle then s1 else s1.endStream r.group 1)

end Sys2Proof.Machine
end

