-- ==== Sys2Proof/Machine/Pattern.lean ====
section
/-!
DEFINITION. Pattern images (R118-R125): reading an image from memory, and the records it holds; what breaks a rule fails the
launch with the code of R126.
-/
namespace Sys2Proof.Machine

/-- A result, or the load-failure code of R126. -/
abbrev Check (α : Type) := Except Nat α

/-- Fail with a code unless a condition holds. -/
def need (b : Bool) (code : Nat) : Check Unit := if b then .ok () else .error code

/-- A check of every entry of a list, in order, with the results. -/
def checkAllOf {α β : Type} (f : α → Check β) : List α → Check (List β)
  | [] => .ok []
  | x :: r => match f x with
    | .error c => .error c
    | .ok y => match checkAllOf f r with
      | .error c => .error c
      | .ok l => .ok (y :: l)

/-! ### Reading virtual memory for a launch (R125, R505) -/

/-- The location of one byte of a launch's address space with the permissions of user mode; none where it faults or is
refused. -/
def State.userLoc (s : State) (t : Nat) (a : BitVec 12) (g : BitVec 4) (kind : AccKind) (va : Word) : Option (Nat × Bool) :=
  match s.translate t a g kind true va with
  | .ok (.control _) _ _ => none
  | .ok p fe _ => if (s.refusal p.loc).isSome then none else some (p.loc, fe)
  | _ => none

/-- `n` bytes of a launch's address space; none where any of them cannot be read. -/
def State.readVirt (s : State) (t : Nat) (a : BitVec 12) (g : BitVec 4) (va : Word) : Nat → Option (List Byte)
  | 0 => some []
  | n + 1 =>
    match s.userLoc t a g .load va with
    | none => none
    | some (loc, _) => (s.readVirt t a g (va + 1) n).map fun r => s.byte loc :: r

/-- Bytes written to a launch's address space in ascending order; false where one faults. -/
def State.writeVirt (s : State) (t : Nat) (a : BitVec 12) (g : BitVec 4) (va : Word) : List Byte → State × Bool
  | [] => (s, true)
  | b :: r =>
    match s.userLoc t a g .store va with
    | none => (s, false)
    | some (loc, fe) => ((s.expose loc [b]).apply loc [b] fe).writeVirt t a g (va + 1) r

/-! ### Tables (R120) -/

/-- The first entry and the number of entries of the table at an offset of an image. -/
def tableAt (bs : List Byte) (off ent : Nat) : Check (Nat × Nat) :=
  if off = 0 then .ok (0, 0)
  else
    let n := blkField bs off 4
    let ok := decide (off % 8 = 0) && decide (off + 8 ≤ bs.length) && decide (blkField bs (off + 4) 2 = ent)
      && decide (blkField bs (off + 6) 2 = 0) && decide (off + 8 + n * ent ≤ bs.length)
    if ok then .ok (off + 8, n) else .error 1

/-- The offsets of the entries of a table. -/
def entries (bs : List Byte) (off ent : Nat) : Check (List Nat) :=
  match tableAt bs off ent with
  | .error c => .error c
  | .ok (first, n) => .ok ((List.range n).map fun i => first + i * ent)

/-- A parameter: a value, or the per-tile array it names (R120). -/
def paramAt (bs : List Byte) (v : Nat) (perTile : Bool) (tiles : Nat) : Check Param :=
  if !perTile then .ok (.const (BitVec.ofNat 64 v))
  else if v % 8 = 0 ∧ v + 8 * tiles ≤ bs.length then
    .ok (.perTile ((List.range tiles).map fun i => BitVec.ofNat 64 (blkField bs (v + 8 * i) 8)))
  else .error 1

/-! ### Element blocks (R123) -/

/-- A word that only its DEST keeps from being a STEER, MSEL, SIG, SIG2 or HALT: code 0x03 (R162, R207). -/
def steerDest (w : Nat) : Bool :=
  decide (64 ≤ w / 2 ^ 19 % 128 ∧ w / 2 ^ 19 % 128 ≤ 68)
    && (decodeT (w - w / 2 ^ 15 % 16 * 2 ^ 15 + 14 * 2 ^ 15)).toOption.isSome

/-- The valid slots of an element block; an undefined word is code 0x02, an invalid combination 0x03 (R126). The words of
other slots are ignored (R167). -/
def slotsAt (bs : List Byte) (off : Nat) : Check (Tab (BitVec 32)) :=
  let valid := blkField bs (off + 0x80) 4
  let one := fun (k : Nat) =>
    let w := blkField bs (off + 4 * k) 4
    if valid / 2 ^ k % 2 = 0 then Except.ok none
    else
      match decodeT w with
      | .error _ => .error (if steerDest w then 3 else 2)
      | .ok i => if i.triggerOk then .ok (some (k, BitVec.ofNat 32 w)) else .error 3
  (checkAllOf one (List.range 32)).map fun l => l.filterMap id

/-- The element block at an offset, for a node of `tiles` tiles. -/
def blockAt (bs : List Byte) (off tiles : Nat) : Check ElemBlock :=
  let burst := blkField bs (off + 0x84) 1
  let dpt := blkField bs (off + 0x86) 2
  match slotsAt bs off, checkAllOf (fun k => paramAt bs (blkField bs (off + 0x88 + 8 * k) 8) (decide (dpt / 2 ^ k % 2 = 1)) tiles)
      (List.range 8), paramAt bs (blkField bs (off + 0xC8) 8) (decide (dpt / 2 ^ 8 % 2 = 1)) tiles with
  | .error c, _, _ => .error c
  | _, .error c, _ => .error c
  | _, _, .error c => .error c
  | .ok slots, .ok d, .ok seed =>
    if (burst = 2 ∨ burst = 4 ∨ burst = 8 ∨ burst = 16) ∧ dpt < 512 ∧ blkField bs (off + 0xD0) 8 = 0 then
      .ok ⟨slots, burst, BitVec.ofNat 8 (blkField bs (off + 0x85) 1), d, seed⟩
    else .error 1

/-! ### Nodes and wires (R121, R122) -/

/-- The parameter words that a kind of node uses. -/
def kindParams (kind : Nat) : Nat :=
  match kind with
  | 0 => 1
  | 1 => 2
  | 2 => 2
  | 3 => 8
  | 4 => 0
  | 5 => 1
  | 6 => 1
  | 7 => 3
  | 8 => 4
  | _ => 6

/-- The highest UNIT and FLAGS of a kind of node. -/
def kindLimits (kind : Nat) : Nat × Nat :=
  match kind with
  | 0 => (15, 0)
  | 1 => (3, 7)
  | 3 => (7, 1)
  | 4 => (0, 0x3FF)
  | 7 => (0, 0x3F)
  | 8 => (79, 0)
  | 9 => (0, 0x1F)
  | _ => (0, 0)

/-- The parameters of a kind that may differ from tile to tile: those of a directive that takes `tiles=` and has a value
there (R101, R120). -/
def kindPerTile (kind : Nat) : Bool := [1, 3, 5, 6, 8].contains kind

/-- Every value of a parameter. -/
def Param.all (p : Param) (f : Word → Bool) : Bool :=
  match p with
  | .const v => f v
  | .perTile vs => vs.all f

/-- The fields of a node lie in the ranges its directive allows (R108, R109, R112, R120): the code where they do not. -/
def Node.ranges (n : Node) : Check Unit :=
  let f := n.flags
  match n.kind with
  | 1 =>
    if f / 4 % 2 = 0 then need ((n.par 0).all (fun v => v == 0) && (n.par 1).all fun v => v == 0) 1
    else need ((n.par 0).all (fun v => decide (v.toNat % 64 = 0)) && (n.par 1).all fun v => decide (v.toNat % 64 = 0)) 8
  | 3 => need ((n.par 0).all (fun v => decide (v.toNat % 8 = 0))
      && (n.par 1).all (fun v => decide (v.toNat % 8 = 0 ∧ v.toNat ≤ 2 ^ 24))
      && ([2, 3, 4].all fun j => (n.par j).all fun v => decide (v.toNat ≤ 2 ^ 20))
      && [5, 6, 7].all fun j => (n.par j).all pitchOk) 1
  | 4 =>
    let a := f % 32
    let b := f / 32
    need ((decide (a < 0x13) && decide (b = 0x1F)) || (decide (0x13 ≤ a ∧ a ≤ 0x16) && decide (0x13 ≤ b ∧ b ≤ 0x16))) 1
  | 5 => need ((n.par 0).all fun v => decide (1 ≤ v.toNat ∧ v.toNat ≤ 1024)) 1
  | 6 => need ((n.par 0).all fun v => decide (1 ≤ v.toNat ∧ v.toNat ≤ 1024)) 1
  | 7 =>
    if f % 8 = 7 then .error 5
    else need (decide (f / 16 < 3 ∧ (n.par 0).value < 2 ^ 16 ∧ (n.par 1).value < 64 ∧ (n.par 2).value < 64)) 1
  | 8 => need ([0, 1, 2, 3].all fun j => (n.par j).all fun v =>
      decide (get v 53 47 ≤ 79 ∧ get v 44 0 = 0) && (v.getLsbD 63 || v == 0)) 1
  | 9 =>
    if 64 < (n.x1 + 1 - n.x0) * (n.y1 + 1 - n.y0) then .error 6
    else need (decide (f % 8 ≤ 4) && decide (1 ≤ (n.par 0).value ∧ (n.par 0).value ≤ 2 ^ 32)
      && (if f % 8 = 4 then decide (1 ≤ (n.par 4).value ∧ (n.par 4).value ≤ 32 ∧ (n.par 3).value % 8 = 0 ∧ (n.par 2).value = 0)
        else decide ((n.par 4).value = 0))) 1
  | _ => .ok ()

/-- The node record at an offset of a load of `w` by `h` tiles; `blocks` are the offsets of the slot table's entries. -/
def nodeAt (bs : List Byte) (w h : Nat) (blocks : List Nat) (off : Nat) : Check Node :=
  let b := fun i n => blkField bs (off + i) n
  let kind := b 0 1
  let (x0, y0, x1, y1) := (b 8 1, b 9 1, b 10 1, b 11 1)
  let tiles := (x1 + 1 - x0) * (y1 + 1 - y0)
  let used := kindParams kind
  let lim := kindLimits kind
  let ok := decide (kind ≤ 9) && decide (b 1 1 ≤ lim.1) && decide (b 2 2 ≤ lim.2) && decide (b 4 2 < if kindPerTile kind then 2 ^ used else 1)
    && decide (b 6 2 = 0) && decide (b 12 4 = 0) && decide (x0 ≤ x1 ∧ x1 < w ∧ y0 ≤ y1 ∧ y1 < h)
    && ((List.range 10).all fun j => decide (j < used) || decide (b (16 + 8 * j) 8 = 0))
  if !ok then .error 1
  else
    match checkAllOf (fun j => paramAt bs (b (16 + 8 * j) 8) (decide (b 4 2 / 2 ^ j % 2 = 1)) tiles) (List.range 10) with
    | .error c => .error c
    | .ok ps =>
      let n : Node := ⟨kind, b 1 1, b 2 2, x0, y0, x1, y1, ps, none, []⟩
      match n.ranges with
      | .error c => .error c
      | .ok _ =>
        if kind = 0 then
          (if blocks.contains (n.par 0).value then
            (blockAt bs (n.par 0).value tiles).map fun e => { n with block := some e }
          else .error 1)
        else if kind = 2 then
          let at_ := (n.par 0).value
          let cnt := (n.par 1).value
          if at_ % 8 = 0 ∧ at_ + 2 * cnt ≤ bs.length then
            .ok { n with groups := (List.range cnt).map fun i => blkField bs (at_ + 2 * i) 2 }
          else .error 1
        else .ok n

/-- A signed byte. -/
def byteInt (v : Nat) : Int := signed 8 v

/-- The wire record at an offset, for `n` nodes; the select flag stands on a wire's first record only (R122). R122 does not say that DX
and DY are zero where AT is clear: DESIGN CHOICE (log 71), a record with AT clear and one of them not zero is malformed. -/
def wireAt (bs : List Byte) (n : Nat) (off : Nat) : Check WireRec :=
  let b := fun i k => blkField bs (off + i) k
  let f := b 3 1
  if b 0 2 < n ∧ b 4 2 < n ∧ f < 8 ∧ f % 4 ≠ 3 ∧ b 7 1 = 0 ∧ b 10 6 = 0 ∧ (4 ≤ f ∨ (b 8 1 = 0 ∧ b 9 1 = 0)) then
    .ok ⟨b 0 2, b 2 1, decide (f % 2 = 1), decide (f / 2 % 2 = 1), decide (4 ≤ f), b 4 2, b 6 1, byteInt (b 8 1), byteInt (b 9 1)⟩
  else .error 1

/-- The highest port of a node as the source of a wire, and as a destination (R122). -/
def Node.srcPorts (n : Node) : Nat := if n.kind = 0 ∨ n.kind = 8 then 3 else 0
def Node.dstPorts (n : Node) : Nat := if n.kind = 0 ∨ n.kind = 8 then 3 else if n.kind = 6 then 1 else 0

/-- The wire records of a load name ports that their nodes have, and a CONT record has a record before it (R122). -/
def wiresNamed (nodes : List Node) (ws : List WireRec) : Bool :=
  (ws.head?.all fun w => !w.cont) && ws.all fun w =>
    (nodes[w.srcNode]?.any fun n => decide (w.srcPort ≤ n.srcPorts))
      && nodes[w.dstNode]?.any fun n => decide (w.dstPort ≤ n.dstPorts)

/-! ### Loads, actors and data (R119, R124, R125) -/

/-- The nodes of a load in the order in which R167 looks for the first failure: those without slots, then the elements by
ascending number. -/
def nodeOrder (bs : List Byte) (offs : List Nat) : List Nat :=
  let kind := fun off => blkField bs off 1
  (offs.filter fun o => kind o != 0) ++ (List.range 16).flatMap fun e =>
    offs.filter fun o => kind o == 0 && blkField bs (o + 1) 1 == e

/-- The load record at an offset. -/
def loadAt (bs : List Byte) (off : Nat) : Check Load :=
  let w0 : Word := BitVec.ofNat 64 (blkField bs off 8)
  let w := get w0 63 56 + 1
  let h := get w0 55 48 + 1
  if get w0 27 0 ≠ 0 ∨ get w0 30 29 = 3 then .error 1
  else
    match entries bs (blkField bs (off + 8) 8) 96, entries bs (blkField bs (off + 16) 8) 16,
        entries bs (blkField bs (off + 24) 8) 216 with
    | .ok ns, .ok ws, .ok es =>
      (match checkAllOf (wireAt bs ns.length) ws, checkAllOf (nodeAt bs w h es) (nodeOrder bs ns),
          checkAllOf (nodeAt bs w h es) ns with
      | .ok wires, .ok _, .ok nodes =>
        if wiresNamed nodes wires then
          .ok ⟨w, h, w0.getLsbD 28, get w0 47 40, get w0 39 32, w0.getLsbD 31, get w0 30 29, nodes, wires, 0, 0, 0, 0⟩
        else .error 1
      | .error c, _, _ => .error c
      | _, .error c, _ => .error c
      | _, _, .error c => .error c)
    | .error c, _, _ => .error c
    | _, .error c, _ => .error c
    | _, _, .error c => .error c

/-- The pocket record at an offset. -/
def pocketAt (bs : List Byte) (off : Nat) : Check PocketRec :=
  let b := fun i n => blkField bs (off + i) n
  if 1 ≤ b 0 1 ∧ b 0 1 ≤ 124 ∧ (b 1 1 = 1 ∨ b 1 1 = 2) ∧ b 2 1 < 16 ∧ b 3 1 ≤ 63 ∧ 1 ≤ b 4 2 ∧ b 4 2 ≤ 256 ∧ b 6 2 = 0
      ∧ b 8 8 % 4 = 0 ∧ b 8 8 < bs.length ∧ b 16 16 = 0 then
    .ok ⟨b 0 1, b 1 1, b 2 1, b 3 1, b 4 2, BitVec.ofNat 64 (b 8 8)⟩
  else .error 1

/-- The actor record at an offset. -/
def actorAt (bs : List Byte) (off : Nat) : Check ActorRec :=
  let b := fun i n => blkField bs (off + i) n
  if 1 ≤ b 2 2 ∧ b 2 2 ≤ 124 ∧ b 4 4 = 0 ∧ b 8 8 % 64 = 0 ∧ b 16 8 % 64 = 0 ∧ b 16 8 < 2 ^ 32 ∧ b 32 32 = 0 then
    match entries bs (b 0x18 8) 32 with
    | .error c => .error c
    | .ok l =>
      if l.length ≠ b 2 2 then .error 1
      else (checkAllOf (pocketAt bs) l).map fun ps =>
        ⟨b 0 1, b 1 1, BitVec.ofNat 64 (b 8 8), BitVec.ofNat 64 (b 16 8), ps⟩
  else .error 1

/-- The data record at an offset: the region, its size, and its initial bytes where it has them. -/
def dataAt (bs : List Byte) (off : Nat) : Check DataRec :=
  let b := fun i n => blkField bs (off + i) n
  let flags := b 0x18 8
  let n := flags / 2 ^ 32
  if flags / 2 % 2 ^ 31 ≠ 0 ∨ b 16 8 % 8 ≠ 0 ∨ (b 16 8 ≠ 0 ∧ bs.length ≤ b 16 8) then .error 1
  else if flags % 2 = 0 then (if n = 0 then .ok ⟨BitVec.ofNat 64 (b 0 8), b 8 8, none⟩ else .error 1)
  else if n ≤ b 8 8 ∧ b 16 8 + n ≤ bs.length then .ok ⟨BitVec.ofNat 64 (b 0 8), b 8 8, some (b 16 8, n)⟩
  else .error 1

/-- Actors and labels of one tile (R113, R114): at most 32, no label twice. -/
def actorsOk (l : List ActorRec) : Bool :=
  l.all fun a =>
    let here := l.filter fun b => b.x == a.x && b.y == a.y
    let labels := here.flatMap fun b => b.pockets.map fun p => p.label
    decide (here.length ≤ 32) && labels.Nodup

/-- The header of an image: fields in range (R118). -/
def headerOk (bs : List Byte) (tiles : Nat) : Bool :=
  let b := fun i n => blkField bs i n
  decide (b 0 4 = 0x4C445246) && decide (b 4 2 = 1) && decide (1 ≤ b 6 2 ∧ b 6 2 ≤ 4096) && decide (b 8 4 ≤ 32 * tiles)
    && decide (b 12 4 = 0) && decide (b 0x28 8 = bs.length) && decide (b 0x30 16 = 0)

/-- The pattern that an image holds, for an allocation of `w` by `h` tiles. -/
def patternOf (bs : List Byte) (w h : Nat) : Check Pattern :=
  let b := fun i n => blkField bs i n
  if !headerOk bs (w * h) then .error 1
  else
    match entries bs (b 0x10 8) 32, entries bs (b 0x18 8) 64, entries bs (b 0x20 8) 32 with
    | .ok ls, .ok as, .ok ds =>
      if ls.length ≠ b 6 2 ∨ as.length ≠ b 8 4 then .error 1
      else
        (match checkAllOf (loadAt bs) ls, checkAllOf (actorAt bs) as, checkAllOf (dataAt bs) ds with
        | .ok loads, .ok actors, .ok data =>
          if actors.any fun a => decide (w ≤ a.x ∨ h ≤ a.y) then .error 9
          else if !actorsOk actors then .error 0xB
          else .ok ⟨loads, actors, data⟩
        | .error c, _, _ => .error c
        | _, .error c, _ => .error c
        | _, _, .error c => .error c)
    | .error c, _, _ => .error c
    | _, .error c, _ => .error c
    | _, _, .error c => .error c

end Sys2Proof.Machine
end

