-- ==== Sys2Proof/Machine/Place.lean ====
section
/-!
DEFINITION. Placement by Purad (R24, R127-R130): the candidate origins of a load, their cost, the placement of a pattern and its
cache, the launch spanning tree and the launch block (R259, R260).
-/
namespace Sys2Proof.Machine

/-! ### Tiles of a load -/

/-- The tiles of a node's range, row by row, relative to the load origin. -/
def Node.tiles (n : Node) : List (Nat × Nat) :=
  (List.range (n.y1 + 1 - n.y0)).flatMap fun j => (List.range (n.x1 + 1 - n.x0)).map fun i => (n.x0 + i, n.y0 + j)

/-- A tile of a load lies in a node's range. -/
def Node.covers (n : Node) (p : Nat × Nat) : Bool := decide (n.x0 ≤ p.1 ∧ p.1 ≤ n.x1 ∧ n.y0 ≤ p.2 ∧ p.2 ≤ n.y1)

/-- The place of a tile in a node's per-tile arrays (R120). -/
def Node.index (n : Node) (p : Nat × Nat) : Nat := (p.2 - n.y0) * (n.x1 + 1 - n.x0) + (p.1 - n.x0)

/-- A parameter's value at a place of the arrays. -/
def Param.at_ (q : Param) (i : Nat) : Word :=
  match q with
  | .const v => v
  | .perTile vs => vs[i]?.getD 0

/-- Every tile of a load, row by row, relative to its origin. -/
def Load.tiles (L : Load) : List (Nat × Nat) :=
  (List.range L.height).flatMap fun j => (List.range L.width).map fun i => (i, j)

/-- The tile at a relative position of a placement whose origin is absolute. -/
def tileAt (o p : Nat × Nat) : Nat := tileKey (o.1 + p.1) (o.2 + p.2)

/-- The code with which Purad could not place a load (R126, R127); none for a load that has a placement. -/
def Load.unplaced (L : Load) : Option Nat := if L.ox = 256 then some L.oy else none

/-- A load that Purad could not place keeps the failure's code where its origin would stand: the column 256, which no tile has,
says so, and the code waits there for the load's own boundary (R130). -/
def Load.failed (L : Load) (code : Nat) : Load := { L with ox := 256, oy := code, ox2 := 256, oy2 := code }

/-- The absolute origins of a load's placements in an allocation: two for a redundant load (R116), none for one that Purad could
not place. -/
def Load.origins (L : Load) (a : Alloc) : List (Nat × Nat) :=
  if L.unplaced.isSome then []
  else (a.x + L.ox, a.y + L.oy) :: if L.red then [(a.x + L.ox2, a.y + L.oy2)] else []

/-- Every tile of a load's placements. -/
def Load.allTiles (L : Load) (a : Alloc) : List Nat := (L.origins a).flatMap fun o => L.tiles.map (tileAt o)

/-- The placement of a load that a tile lies in, and its position there. -/
def Load.site (L : Load) (a : Alloc) (t : Nat) : Option ((Nat × Nat) × (Nat × Nat)) :=
  ((L.origins a).find? fun o =>
    decide (o.1 ≤ tileX t ∧ tileX t < o.1 + L.width ∧ o.2 ≤ tileY t ∧ tileY t < o.2 + L.height)).map fun o =>
      (o, (tileX t - o.1, tileY t - o.2))

/-! ### Cost (R24, R127) -/

/-- 3 × HOPS + 2 × SEAMS of the logical link of a tile in a hop direction, from the measure (R34). -/
def State.linkCost (s : State) (t d : Nat) : Nat :=
  let m := (s.silicon t).measd.toNat / 2 ^ (8 * d) % 256
  3 * (m / 32) + 2 * (m / 8 % 4)

/-- The cost of the route from a tile over a logical offset, along x and then along y (R24); `n` bounds its hops. -/
def State.routeCost (s : State) : Nat → Nat → Int → Int → Nat
  | 0, _, _, _ => 0
  | n + 1, t, dx, dy =>
    let go := fun (d : Nat) (x y : Int) => s.linkCost t d + s.routeCost n (neighbour t d) x y
    if 0 < dx then go 0 (dx - 1) dy
    else if dx < 0 then go 2 (dx + 1) dy
    else if 0 < dy then go 1 dx (dy - 1)
    else if dy < 0 then go 3 dx (dy + 1)
    else 0

/-- The direction from a tile of a fold node toward the root of its tree (R92, R112); none at the root. -/
def Node.foldOut (n : Node) (p : Nat × Nat) : Option Nat :=
  let rx := (n.par 0).value % 256
  let ry := (n.par 0).value / 256 % 256
  let toX := if p.1 < rx then some 0 else if rx < p.1 then some 2 else none
  let toY := if p.2 < ry then some 1 else if ry < p.2 then some 3 else none
  match n.flags / 16 with
  | 0 => toX
  | 1 => toY
  | _ => toX.orElse fun _ => toY

/-- The tiles of a load that a wire record leaves: those of its source whose end holds its destination, and of a fold node only
the roots of its trees (R111). -/
def Load.wireTiles (L : Load) (w : WireRec) : List (Nat × Nat) :=
  match L.nodes[w.srcNode]?, L.nodes[w.dstNode]? with
  | some n, some m => n.tiles.filter fun p =>
      let x : Int := p.1 + w.dx
      let y : Int := p.2 + w.dy
      decide (0 ≤ x ∧ 0 ≤ y) && m.covers (x.toNat, y.toNat) && (n.kind != 7 || (n.foldOut p).isNone)
  | _, _ => []

/-- The cost of one wire record of a load whose origin is `o`. -/
def State.wireCost (s : State) (L : Load) (o : Nat × Nat) (w : WireRec) : Nat :=
  ((L.wireTiles w).map fun p => s.routeCost 512 (tileAt o p) w.dx w.dy).sum

/-- The cost of a fold node's trees. -/
def State.foldCost (s : State) (o : Nat × Nat) (n : Node) : Nat :=
  (n.tiles.map fun p => match n.foldOut p with
    | some d => s.linkCost (tileAt o p) d
    | none => 0).sum

/-- The cost of a load at an origin (R127); a group's rows cross no logical link (log 8). -/
def State.originCost (s : State) (i : Nat) (L : Load) (o : Nat × Nat) : Nat :=
  let k := L.wires.length
  (((List.range k).zip L.wires).map fun w => Config.puradTraffic i w.1 * s.wireCost L o w.2).sum
    + (((List.range L.nodes.length).zip L.nodes).map fun n =>
        if n.2.kind = 7 then Config.puradTraffic i (k + n.1) * s.foldCost o n.2 else 0).sum

/-! ### Candidates (R116, R127) -/

/-- The octet of physical rows that a tile lies in (R75). -/
def State.octet (s : State) (t : Nat) : Nat := s.physOf t / 140 / 8

/-- The members of a group in placements with the given origins. -/
def Node.members (n : Node) (os : List (Nat × Nat)) : List Nat := os.flatMap fun o => n.tiles.map (tileAt o)

/-- Every group of a load lies in one octet (R127). -/
def State.octetsOk (s : State) (L : Load) (os : List (Nat × Nat)) : Bool :=
  L.nodes.all fun n => n.kind != 9 ||
    (n.members os).all fun t => s.octet t == s.octet ((n.members os).head?.getD 0)

/-- The origins, relative to an allocation, at which a load lies inside it, from the lowest y and then the lowest x. -/
def Load.inside (L : Load) (a : Alloc) : List (Nat × Nat) :=
  (if L.fixed then [(L.atx, L.aty)]
    else (List.range a.h).flatMap fun y => (List.range a.w).map fun x => (x, y)).filter fun o =>
      decide (o.1 + L.width ≤ a.w ∧ o.2 + L.height ≤ a.h)

/-- Two placements of a load share no tile. -/
def Load.apart (L : Load) (p q : Nat × Nat) : Bool :=
  decide (p.1 + L.width ≤ q.1 ∨ q.1 + L.width ≤ p.1 ∨ p.2 + L.height ≤ q.2 ∨ q.2 + L.height ≤ p.2)

/-- The pairs of origins of a load's placements; a load that is not redundant has one placement, and the second origin
repeats the first. R116 does not say which placement of a redundant load `at=` fixes: DESIGN CHOICE (log 8), the first, and Purad
chooses the second among every origin. -/
def Load.pairs (L : Load) (a : Alloc) : List ((Nat × Nat) × (Nat × Nat)) :=
  if !L.red then (L.inside a).map fun o => (o, o)
  else
    (L.inside a).flatMap fun p => (({ L with fixed := false }.inside a).filter (L.apart p)).map fun q => (p, q)

/-- The first entry of least cost. -/
def leastBy {α : Type} (cost : α → Nat) : List α → Option α
  | [] => none
  | x :: r => match leastBy cost r with
    | none => some x
    | some y => if cost x ≤ cost y then some x else some y

/-- Purad places load `i` (R127), or fails it with the code of R126. -/
def State.placeLoad (s : State) (a : Alloc) (i : Nat) (L : Load) : Check Load :=
  let abs := fun (o : Nat × Nat) => (a.x + o.1, a.y + o.2)
  let both := fun (p : (Nat × Nat) × (Nat × Nat)) => if L.red then [abs p.1, abs p.2] else [abs p.1]
  let all := L.pairs a
  let good := all.filter fun p => s.octetsOk L (both p)
  let cost := fun p => ((both p).map (s.originCost i L)).sum
  if (L.inside a).isEmpty then .error 9
  else if all.isEmpty then .error 0xC
  else match leastBy cost good with
    | none => .error (if L.red then 0xC else 6)
    | some (p, q) => .ok { L with ox := p.1, oy := p.2, ox2 := q.1, oy2 := q.2 }

/-- Purad places every load of a pattern. A load that meets no candidate fails by itself: the others have their places (R130). -/
def State.placeAll (s : State) (a : Alloc) (pat : Pattern) : Pattern :=
  { pat with loads := ((List.range pat.loads.length).zip pat.loads).map fun e =>
      match s.placeLoad a e.1 e.2 with
      | .ok L => L
      | .error c => e.2.failed c }

/-- The loads of a pattern all have their places, else the code of the first that has none. -/
def Pattern.allPlaced (p : Pattern) : Check Unit :=
  match p.loads.findSome? Load.unplaced with
  | none => .ok ()
  | some c => .error c

/-! ### The cache (R129) -/

/-- The origins of a placed pattern, two for each load. -/
def Pattern.origins (p : Pattern) : List (Nat × Nat) := p.loads.flatMap fun L => [(L.ox, L.oy), (L.ox2, L.oy2)]

/-- A pattern with the origins of a cached placement, from load `k` on. -/
def Pattern.withOrigins (p : Pattern) (k : Nat) (l : List (Nat × Nat)) : Pattern :=
  { p with loads := ((List.range p.loads.length).zip p.loads).map fun e =>
      if e.1 < k then e.2
      else
        let o := l[2 * e.1]?.getD (0, 0)
        let q := l[2 * e.1 + 1]?.getD (0, 0)
        { e.2 with ox := o.1, oy := o.2, ox2 := q.1, oy2 := q.2 } }

/-- The key of a placement (R129). -/
def State.placeKey (s : State) (image : List Byte) (a : Alloc) : BitVec 256 :=
  Config.sm3 (image ++ natBytes 4 s.mgen.toNat ++
    [BitVec.ofNat 8 a.x, BitVec.ofNat 8 a.y, BitVec.ofNat 8 (a.w - 1), BitVec.ofNat 8 (a.h - 1)])

/-- A placement becomes the most recently used of the cache's 256. -/
def State.cachePut (s : State) (c : Placement) : State :=
  { s with cache := (c :: s.cache.filter fun x => x.key != c.key).take 256 }

/-- Purad's answer for a pattern, from load `k` on: a cached placement, or a fresh one. The loads before `k` keep theirs (R130). -/
def State.purad (s : State) (image : List Byte) (a : Alloc) (k : Nat) (pat : Pattern) : State × Pattern :=
  let key := s.placeKey image a
  let c := (s.cache.find? fun c => c.key == key).getD ⟨key, (s.placeAll a pat).origins⟩
  (s.cachePut c, pat.withOrigins k c.origins)

/-! ### The tree and the launch block (R259, R260) -/

/-- The root tile of a pattern: the one that `root=` names, relative to the allocation, else (0,0) of its first load; code
0x09 where it lies outside the allocation (R106, R126; log 53). -/
def Pattern.root (p : Pattern) (a : Alloc) (named : Option (Nat × Nat)) : Check Nat :=
  match named, p.loads with
  | some r, _ => if r.1 < a.w ∧ r.2 < a.h then .ok (tileKey (a.x + r.1) (a.y + r.2)) else .error 9
  | none, L :: _ => .ok (tileKey (a.x + L.ox) (a.y + L.oy))
  | none, [] => .ok (tileKey a.x a.y)

/-- The least and the greatest of numbers, from a first one. -/
def least (n : Nat) (l : List Nat) : Nat := l.foldl min n
def greatest (n : Nat) (l : List Nat) : Nat := l.foldl max n

/-- The child mask of a tile: along the root's row first, then along each column, within a rectangle (R260). -/
def childMask (root x0 y0 x1 y1 t : Nat) : Nat :=
  let x := tileX t
  let y := tileY t
  let rx := tileX root
  let ry := tileY root
  bit (decide (y = ry ∧ rx ≤ x ∧ x < x1)) + 2 * bit (decide (ry ≤ y ∧ y < y1))
    + 4 * bit (decide (y = ry ∧ x ≤ rx ∧ x0 < x)) + 8 * bit (decide (y ≤ ry ∧ y0 < y))

/-- The launch tree over the smallest rectangle that holds the root, every tile of a load, and the tiles of an earlier
tree of the launch (R130, R260). -/
def treeOf (pat : Pattern) (a : Alloc) (root : Nat) (old : List Nat) : List (Nat × Nat × Bool) :=
  let takes := pat.loads.flatMap fun L => L.allTiles a
  let all := root :: takes ++ old
  let xs := all.map tileX
  let ys := all.map tileY
  let x0 := least (tileX root) xs
  let x1 := greatest (tileX root) xs
  let y0 := least (tileY root) ys
  let y1 := greatest (tileY root) ys
  (List.range (y1 + 1 - y0)).flatMap fun j => (List.range (x1 + 1 - x0)).map fun i =>
    let t := tileKey (x0 + i) (y0 + j)
    (t, childMask root x0 y0 x1 y1 t, takes.contains t)

/-- The children of a tile in the tree of a launch. -/
def Launch.children (l : Launch) (t : Nat) : List Nat :=
  match l.tree.find? fun e => e.1 == t with
  | some (_, m, _) => ((List.range 4).filter fun d => m / 2 ^ d % 2 == 1).map (neighbour t)
  | none => []

/-- The parent of a tile in the tree of a launch; none for the root. -/
def Launch.parent (l : Launch) (t : Nat) : Option Nat :=
  (l.tree.find? fun e => (l.children e.1).contains t).map (·.1)

/-- The tiles of the tree. -/
def Launch.tiles (l : Launch) : List Nat := l.tree.map (·.1)

/-- The allocation of a launch. -/
def Launch.alloc (l : Launch) : Alloc := ⟨l.ax, l.ay, l.aw, l.ah⟩

/-- The LAUNCH word (R259). -/
def Launch.word (l : Launch) : Word := put 48 6 l.prio + put 16 32 l.index.toNat + put 0 15 l.queue

/-- The spool location that Purad chose for object `j` of launch `n`, on 64 bytes. -/
def spoolAt (n j : Nat) : Nat :=
  let v := Config.puradSpool n j
  0x10 * 2 ^ 56 + v % 48 * 2 ^ 53 + v / 48 % (0x6000000000 / 64) * 64

/-- What the placed configurations are made from at a tile (R113, R124, R259): the tile's place in the launch, and of every
actor there its state region, and the label, settings and entry address of every pocket. -/
def Launch.tileWords (l : Launch) (t : Nat) : List Nat :=
  t :: l.patternVa.toNat :: (l.pat.actors.filter fun a => tileKey (l.ax + a.x) (l.ay + a.y) == t).flatMap fun a =>
    [a.sbase.toNat, a.ssize.toNat, a.pockets.length] ++ a.pockets.flatMap fun p =>
      [p.label, p.w, p.tags, p.prio, p.depth, (l.patternVa + p.entry).toNat]

/-- The placed configurations of a launch, one of 8 KiB for each tile of its tree (R259, R280; log 54). -/
def Launch.image (l : Launch) : List Byte :=
  l.tree.flatMap fun e => (Config.tileConfig (l.tileWords e.1)).toList

/-- The launch block of launch `n` (R259). -/
def Launch.block (l : Launch) (n : Nat) : List Byte :=
  natBytes 8 (spoolAt n 2) ++ natBytes 8 l.arg.toNat ++ natBytes 8 (spoolAt n 1) ++ natBytes 8 l.word.toNat
    ++ natBytes 4 l.mgen.toNat ++ natBytes 2 l.pat.loads.length ++ List.replicate 26 0

/-- The tree table of a launch (R260). -/
def Launch.treeTable (l : Launch) : List Byte :=
  (List.range l.ah).flatMap fun j => (List.range l.aw).map fun i =>
    match l.tree.find? fun e => e.1 == tileKey (l.ax + i) (l.ay + j) with
    | some (_, m, takes) => BitVec.ofNat 8 (m + 16 * bit takes)
    | none => 0

end Sys2Proof.Machine
end

