-- ==== Sys2Proof/Machine/Loader.lean ====
section
/-!
DEFINITION. The configuration loader: what a load's records make of each tile's fabric (R92, R105, R108-R112, R121-R123), and the
checks that fail a load (R116, R126, R461).
-/
namespace Sys2Proof.Machine

/-! ### Elements (R105, R123) -/

/-- The node of a kind and unit that stands at a tile of a load. -/
def Load.nodeAt (L : Load) (p : Nat × Nat) (kind unit : Nat) : Option Node :=
  L.nodes.find? fun n => n.kind == kind && n.unit == unit && n.covers p

/-- The element that a node's block configures at a tile. -/
def Node.element (n : Node) (p : Nat × Nat) : Elem :=
  match n.block with
  | none => Elem.reset
  | some b =>
    { Elem.reset with
      slots := b.slots
      burst := b.burst
      q := b.qinit
      d := Vector.ofFn fun (k : Fin 8) => ⟨false, 0, ((b.dinit[k.val]?).getD (.const 0)).at_ (n.index p)⟩
      seed := b.rseed.at_ (n.index p) }

/-- The instructions in an element's slots. -/
def Elem.instrs (E : Elem) : List Instr := E.slots.filterMap fun k => (decodeT k.2.toNat).toOption

/-- The output channels that an instruction names. -/
def instrOuts (i : Instr) : List Nat :=
  match i.tform with
  | some f => destChans f.dest
  | none => []

/-- The input channels that an instruction names: operands and the ordering token. -/
def instrIns (i : Instr) : List Nat :=
  match i.tform with
  | some f => (TForm.chan f.a).toList ++ (TForm.chan f.b).toList ++ (f.tok.map BitVec.toNat).toList
  | none => []

/-- The element and input channel that the replies of an LDR feed (R198). -/
def instrReply (i : Instr) : Option (Nat × Nat) :=
  match i with
  | .tLdr _ _ _ _ _ e _ _ c => some (e.toNat, c.toNat)
  | _ => none

/-- Every instruction of the elements at a tile, with its element. -/
def Load.code (L : Load) (p : Nat × Nat) : List (Nat × Instr) :=
  (List.range 16).flatMap fun e => match L.nodeAt p 0 e with
    | some n => (n.element p).instrs.map fun i => (e, i)
    | none => []

/-! ### Fold slots (R92, R112) -/

/-- Two nodes share a tile. -/
def Node.meets (n m : Node) : Bool := decide (n.x0 ≤ m.x1 ∧ m.x0 ≤ n.x1 ∧ n.y0 ≤ m.y1 ∧ m.y0 ≤ n.y1)

/-- The slot numbers of a load's fold nodes, by node number: each takes the lowest that no earlier one on a tile of it has. -/
def Load.foldNumbers (L : Load) : List (Nat × Nat × Node) :=
  ((List.range L.nodes.length).zip L.nodes).foldl (fun acc e =>
    if e.2.kind ≠ 7 then acc
    else
      let taken := (acc.filter fun x => x.2.2.meets e.2).map fun x => x.2.1
      acc ++ [(e.1, ((List.range (acc.length + 1)).find? fun k => !taken.contains k).getD 0, e.2)]) []

/-- The fold slots of a tile with their numbers. -/
def Load.foldsAt (L : Load) (p : Nat × Nat) : List (Nat × Node) :=
  (L.foldNumbers.filter fun x => x.2.2.covers p).map fun x => (x.2.1, x.2.2)

/-- The local sources of a fold node. -/
def Node.srcs (n : Node) : BitVec 6 := BitVec.ofNat 6 (n.par 1).value

/-- The neighbour of a position in a hop direction, where there is one. -/
def posNext (p : Nat × Nat) (d : Nat) : Option (Nat × Nat) :=
  match d with
  | 0 => some (p.1 + 1, p.2)
  | 1 => some (p.1, p.2 + 1)
  | 2 => if p.1 = 0 then none else some (p.1 - 1, p.2)
  | _ => if p.2 = 0 then none else some (p.1, p.2 - 1)

/-- The children of a tile in the trees of a fold node, as hop directions. -/
def Node.foldIn (n : Node) (p : Nat × Nat) : List Nat :=
  (List.range 4).filter fun d => match posNext p d with
    | some q => n.covers q && n.foldOut q == some (opposite d)
    | none => false

/-- Where a tile stands along its tree (R112). -/
def Node.along (n : Node) (p : Nat × Nat) : Nat :=
  match n.flags / 16 with
  | 0 => p.1 - n.x0
  | 1 => p.2 - n.y0
  | _ => n.index p

/-- Columns of the island of a tile under its resident format. -/
def Load.columnsAt (L : Load) (p : Nat × Nat) (i : Nat) : Nat :=
  match L.nodeAt p 1 i with
  | some n => mxColumns (BitVec.ofNat 3 (n.flags % 4))
  | none => 256

/-- LEN of a tree: the columns of its islands; 0 where an element output is among its sources, or only the needle core (R92, R429). -/
def Load.foldLen (L : Load) (n : Node) (p : Nat × Nat) : Nat :=
  if n.srcs.getLsbD 1 then 0
  else match (List.range 4).find? fun i => n.srcs.getLsbD (5 - i) with
  | some i => L.columnsAt p i - 1
  | none => 0

/-- The slot of a tile in a fold node's trees. -/
def Load.foldSlot (L : Load) (n : Node) (p : Nat × Nat) : FoldSlot :=
  let srcs := n.srcs
  let has := srcs != 0
  { FoldSlot.reset with
    v := true
    op := BitVec.ofNat 3 (n.flags % 8)
    idx := decide (n.flags / 8 % 2 = 1)
    ins := BitVec.ofNat 5 (16 * bit has + ((n.foldIn p).map fun d => 2 ^ inBit d).sum)
    out := BitVec.ofNat 3 ((n.foldOut p).getD 4)
    srcs := srcs
    len := L.foldLen n p
    slice := if n.flags / 8 % 2 = 1 then n.along p * bankCount (srcs.zeroExtend 16) else 0
    pattern := true
    elemSrc := 4 * ((n.par 2).value % 16) + (n.par 2).value / 16 % 4 }

/-- Two tiles of a fold node stand in one of its trees (R112). -/
def Node.sameTree (n : Node) (p q : Nat × Nat) : Bool :=
  match n.flags / 16 with
  | 0 => p.2 == q.2
  | 1 => p.1 == q.1
  | _ => true

/-- A fold node keeps R92 and R95 on every tile: its root in its range, a source, LEN of every island source of a tree, at most
256 slices. The code 0x05 for the first, the second and the last of these is the model's choice (log 71). -/
def Load.foldOk (L : Load) (n : Node) : Bool :=
  let rx := (n.par 0).value % 256
  let ry := (n.par 0).value / 256 % 256
  let k := bankCount (n.srcs.zeroExtend 16)
  (decide (n.flags / 16 = 1) || decide (n.x0 ≤ rx ∧ rx ≤ n.x1)) && (decide (n.flags / 16 = 0) || decide (n.y0 ≤ ry ∧ ry ≤ n.y1))
    && decide (n.srcs ≠ 0) && (n.tiles.all fun p =>
      (decide (n.flags / 8 % 2 = 0) || decide ((n.along p + 1) * k ≤ 256)) && n.tiles.all fun q =>
        !n.sameTree p q || (List.range 4).all fun i => !n.srcs.getLsbD (5 - i) || decide (L.columnsAt q i = L.foldLen n p + 1))

/-! ### Wires (R111, R122) -/

/-- The wires of a load: each record with the CONT records after it. Every record that takes an island's results is a route of
its own (R74, R122). -/
def Load.heads (L : Load) : List (WireRec × List WireRec) :=
  L.wires.foldl (fun acc w =>
    match w.cont && !(L.nodes[w.srcNode]?.any fun n => n.kind == 1), acc.getLast? with
    | true, some e => acc.dropLast ++ [(e.1, e.2 ++ [w])]
    | _, _ => acc ++ [(w, [])]) []

/-- The end that a port of a node is (R122). -/
def Node.sink (n : Node) (port : Nat) : Option Sink :=
  match n.kind with
  | 0 => some (.elem n.unit port)
  | 1 => some (.island n.unit)
  | 3 => some (.stream n.unit)
  | 4 => some .ct
  | 5 => some .cmp
  | 6 => some (.mrg port)
  | 8 => some (.link n.unit port)
  | _ => none

/-- Where a wire record ends for the tile at `p` of a placement; none where its destination node is not there. -/
def Load.sinkOf (L : Load) (o p : Nat × Nat) (w : WireRec) : Option (Nat × Sink) :=
  let x : Int := p.1 + w.dx
  let y : Int := p.2 + w.dy
  match L.nodes[w.dstNode]? with
  | none => none
  | some n =>
    let q := (x.toNat, y.toNat)
    if x < 0 ∨ y < 0 ∨ n.covers q = false then none else (n.sink w.dstPort).map fun k => (tileAt o q, k)

/-- A wire as it leaves a tile: its source node and port, select queue and ends. -/
structure Route where
  node : Node
  port : Nat
  sel : Option Nat
  dsts : List (Nat × Sink)
  deriving DecidableEq, Repr

/-- The wires that leave the tile at `p` of a placement. The select queues are those of the tile's own wires, numbered in their
order (R122, R203). -/
def Load.routes (L : Load) (o p : Nat × Nat) : List Route :=
  (L.heads.foldl (fun (acc : List Route × Nat) e =>
    match L.nodes[e.1.srcNode]? with
    | none => acc
    | some n =>
      let ds := (e.1 :: e.2).filterMap (L.sinkOf o p)
      if !n.covers p || ds.isEmpty || (n.kind == 7 && (n.foldOut p).isSome) then acc
      else (acc.1 ++ [⟨n, e.1.srcPort, if e.1.select then some acc.2 else none, ds⟩], acc.2 + bit e.1.select)) ([], 0)).1

/-- The sources of a route: one for each bound group of a weft node. -/
def Load.sourcesOf (L : Load) (p : Nat × Nat) (groups : Nat → List Nat) (r : Route) : List Source :=
  match r.node.kind with
  | 0 => [.elem r.node.unit r.port]
  | 1 => [.island r.node.unit]
  | 2 => r.node.groups.flatMap groups |>.map Source.weft
  | 3 => [.stream r.node.unit]
  | 4 => [.ct]
  | 5 => [.cmp]
  | 6 => [.mrg]
  | 7 => ((L.foldsAt p).filter fun f => f.2 == r.node).map fun f => Source.fold f.1
  | 8 => [.link r.node.unit r.port]
  | _ => []

/-- The wires from element outputs into the fold slots of a tile (R112). -/
def Load.foldWires (L : Load) (o p : Nat × Nat) : List Wire :=
  ((L.foldsAt p).filter fun f => f.2.srcs.getLsbD 1).map fun f =>
    let e := (f.2.par 2).value
    ⟨.elem (e % 16) (e / 16 % 4), none, [(tileAt o p, .fold f.1)]⟩

/-- The wires of a tile's resident load. -/
def Load.wiresAt (L : Load) (o p : Nat × Nat) (groups : Nat → List Nat) : List Wire :=
  ((L.routes o p).flatMap fun r => (L.sourcesOf p groups r).map fun x => ⟨x, r.sel, r.dsts⟩) ++ L.foldWires o p

/-- A wire may begin at a node of this kind, and end at one (R111). -/
def Node.isSource (n : Node) : Bool := n.kind != 9 && (n.kind != 3 || n.flags == 0) && (n.kind != 8 || true)
def Node.isSink (n : Node) : Bool := [0, 1, 4, 5, 6, 8].contains n.kind || (n.kind == 3 && n.flags == 1)

/-- The direction bit of a link node's channel (R438): set for a receiving one. -/
def Node.receives (n : Node) (k : Nat) : Bool := ((n.par k).value / 2 ^ 62) % 2 == 1

/-- A route has the ends that R111 allows its source. For a `src=` stream and a link channel the table gives no number of
destinations: one, like every other single source, is the model's choice (log 71). -/
def Route.ok (r : Route) : Bool :=
  let isl := r.dsts.all fun d => match d.2 with
    | .island _ => true
    | _ => false
  match r.node.kind with
  | 2 => r.dsts.all fun d => match d.2 with
    | .island _ => true
    | .elem _ _ => true
    | _ => false
  | 0 => decide (r.dsts.length = 1) || isl
  | _ => decide (r.dsts.length = 1)

/-- The records of a load name nodes that can be sources and destinations, on channels of the right direction, and an island
takes rows from its own tile only, and a link channel joins an element only (R111, R122, R438). A CONT record whose source fields differ from its wire's is taken as a
wire conflict, code 0x07: the model's choice (log 71). -/
def Load.recordsOk (L : Load) : Bool :=
  ((L.wires.zip (L.wires.drop 1)).all fun x => !x.2.cont || (x.2.srcNode == x.1.srcNode && x.2.srcPort == x.1.srcPort)) &&
  L.wires.all fun w =>
    match L.nodes[w.srcNode]?, L.nodes[w.dstNode]? with
    | some a, some b =>
      a.isSource && b.isSink && (a.kind != 8 || a.receives w.srcPort) && (b.kind != 8 || !b.receives w.dstPort)
        && (b.kind != 1 || (decide (w.dx = 0 ∧ w.dy = 0) && (a.kind == 0 || a.kind == 2)))
        && (a.kind != 2 || decide (w.dx = 0 ∧ w.dy = 0))
        && (a.kind != 8 || b.kind == 0) && (b.kind != 8 || a.kind == 0)
    | _, _ => false

/-! ### Checks of a load (R116, R126, R461) -/

/-- The routes of an island's results at a tile: wires, then folds (R74). -/
def Load.resultRoutes (L : Load) (o p : Nat × Nat) (i : Nat) : Nat :=
  ((L.routes o p).filter fun r => r.node.kind == 1 && r.node.unit == i).length
    + ((L.foldsAt p).filter fun f => f.2.srcs.getLsbD (5 - i)).length

/-- The ends of every wire of a placement, one for each route, with those of element sources of folds. -/
def Load.ends (L : Load) (o : Nat × Nat) : List (Nat × Sink) :=
  L.tiles.flatMap fun p => (L.routes o p).flatMap fun r => r.dsts

/-- The sources of a tile that may carry one wire only. -/
def Load.singles (L : Load) (o p : Nat × Nat) : List Source :=
  ((L.routes o p).filter fun r => r.node.kind != 1 && r.node.kind != 2).flatMap (L.sourcesOf p fun _ => [])
    ++ (L.foldWires o p).map fun w => w.src

/-- The channels that the slots of a tile name are wired, and reply channels are not (R111, R198); STEER and MSEL name a
queue that is there (R202, R203). -/
def Load.codeOk (L : Load) (o p : Nat × Nat) : Bool :=
  let outs := L.singles o p
  let ins := (L.ends o).filterMap fun d => match d.2 with
    | .elem e k => if d.1 = tileAt o p then some (e, k) else none
    | _ => none
  let replies := (L.code p).filterMap fun c => instrReply c.2
  let sels := ((L.routes o p).filter fun r => r.sel.isSome).length
  (replies.all fun c => !ins.contains c) && (L.code p).all fun c =>
    ((instrOuts c.2).all fun k => outs.contains (.elem c.1 k))
      && ((instrIns c.2).all fun k => ins.contains (c.1, k) || replies.contains (c.1, k))
      && match c.2 with
        | .tSteer _ _ _ _ n => decide (2 ≤ L.resultRoutes o p n.toNat)
        | .tMsel _ _ _ _ q => decide (q.toNat < sels)
        | _ => true

/-- The wires of a placement have no conflict (R111): code 0x07 where they do. -/
def Load.wiresOk (L : Load) (o : Nat × Nat) : Bool :=
  L.recordsOk && (L.ends o).Nodup && L.tiles.all fun p =>
    ((L.routes o p).all Route.ok) && (L.singles o p).Nodup && ((List.range 4).all fun i => decide (L.resultRoutes o p i ≤ 4))
      && L.codeOk o p

/-- No two nodes of one kind and unit share a tile. R126 names no code for two that do: DESIGN CHOICE (log 71), the image is malformed,
code 0x01. -/
def Load.unitsOk (L : Load) : Bool :=
  let ns := (List.range L.nodes.length).zip L.nodes
  ns.all fun a => ns.all fun b =>
    decide (a.1 = b.1) || a.2.kind != b.2.kind || a.2.unit != b.2.unit || [2, 7, 9].contains a.2.kind || !a.2.meets b.2

/-- The fold nodes that take a node's results: those of an island, or of an element's output channel that `c` allows (R112). -/
def Load.foldsOf (L : Load) (x : Node) (c : Nat → Bool) : List Nat :=
  (List.range L.nodes.length).filter fun i => L.nodes[i]?.any fun f => f.kind == 7 && f.meets x &&
    ((x.kind == 1 && f.srcs.getLsbD (5 - x.unit)) ||
      (x.kind == 0 && f.srcs.getLsbD 1 && decide ((f.par 2).value % 16 = x.unit) && c ((f.par 2).value / 16 % 4)))

/-- The nodes that a node's results lead to: by its wires, and through the folds that take them. -/
def Load.after (L : Load) (n : Nat) : List Nat :=
  (L.wires.filter fun w => w.srcNode == n).map (fun w => w.dstNode)
    ++ (L.nodes[n]?.map fun x => L.foldsOf x fun _ => true).getD []

/-- A `dst=` copy stream can be reached from one of some nodes. -/
def Load.reachesDst (L : Load) : Nat → List Nat → Bool
  | 0, _ => false
  | k + 1, ns =>
    (ns.any fun n => L.nodes[n]?.any fun x => x.kind == 3 && x.flags == 1) || (!ns.isEmpty && L.reachesDst k (ns.flatMap L.after))

/-- The keep mode of a load is met (R461). -/
def Load.keepOk (L : Load) : Bool :=
  let ns := (List.range L.nodes.length).zip L.nodes
  match L.keep with
  | 0 => true
  | 1 => ns.any fun e => match e.2.block with
    | none => false
    | some b => b.slots.any fun k => match decodeT k.2.toNat with
      | .ok i =>
        (match i with
        | .tMaskb .. => true
        | _ => false) && (instrOuts i).any fun c =>
          L.reachesDst (L.nodes.length + 1) ((L.wires.filter fun w => w.srcNode == e.1 && w.srcPort == c).map (fun w => w.dstNode)
            ++ L.foldsOf e.2 fun k => k == c)
      | .error _ => false
  | _ => L.nodes.any fun n => (n.kind == 1 && decide (n.flags / 4 % 2 = 1)) || (n.kind == 3 && n.flags == 0)

/-- An instruction that a redundant load may not hold (R116). -/
def instrLeaves (i : Instr) : Bool :=
  match i with
  | .tSig .. | .tSig2 .. => true
  | j => match j.tform, instrReply j with
    | some f, none => f.mem
    | _, _ => false

/-- A redundant load meets R116: no link, no actor on its tiles, no STR, AMO or SIG, groups of at most 32 members. -/
def Load.redundantOk (L : Load) (a : Alloc) (actors : List ActorRec) : Bool :=
  !L.red || ((L.nodes.all fun n => n.kind != 8 && (n.kind != 9 || decide (n.tiles.length ≤ 32)))
    && (L.tiles.all fun p => (L.code p).all fun c => !instrLeaves c.2)
    && actors.all fun x => !(L.allTiles a).contains (tileKey (a.x + x.x) (a.y + x.y)))

/-- The islands that a load names at a tile. -/
def Load.islandsAt (L : Load) (o p : Nat × Nat) : List Nat :=
  (List.range 4).filter fun i =>
    (L.nodeAt p 1 i).isSome || decide (L.resultRoutes o p i ≠ 0) || (L.ends o).contains (tileAt o p, .island i)

/-- The checks of a load that the machine's state does not decide. -/
def Load.static (L : Load) (a : Alloc) (actors : List ActorRec) : Check Unit := do
  need L.unitsOk 1
  need (L.foldNumbers.all fun x => decide (x.2.1 < 16)) 4
  need (L.nodes.all fun n => n.kind != 7 || L.foldOk n) 5
  need ((L.origins a).all L.wiresOk) 7
  need (L.nodes.all fun n => n.kind != 8 || (L.origins a).all fun o => n.tiles.all fun p => tileAt o p == portHome n.unit) 9
  need (L.redundantOk a actors) 0xC
  need L.keepOk 0xD

/-- The checks of a load that the tiles it is placed on decide: resident blocks within LSIZE (0x0A), no cordoned island
(0x07). -/
def State.siteOk (s : State) (L : Load) (a : Alloc) : Check Unit :=
  let sites := (L.origins a).flatMap fun o => L.tiles.map fun p => (o, p)
  match need (sites.all fun x =>
      L.nodes.all fun n => n.kind != 1 || n.flags / 4 % 2 != 1 || !n.covers x.2 ||
        let top := s.lsize (tileAt x.1 x.2)
        let at_ := fun j => ((n.par j).at_ (n.index x.2)).toNat
        decide (at_ 0 + 32768 ≤ top ∧ at_ 1 + 4 * mxColumns (BitVec.ofNat 3 (n.flags % 4)) ≤ top)) 0xA with
  | .error c => .error c
  | .ok _ => need (sites.all fun x => (L.islandsAt x.1 x.2).all fun i => !((s.tile (tileAt x.1 x.2)).fabric.island i).cordoned) 7

end Sys2Proof.Machine
end

