-- ==== Sys2Proof/Machine/Pace.lean ====
section
/-!
DEFINITION. The cycles per row that the routes downstream of a weft group need (R83): what one row of every group of a load sends
over each link, through each port and into each element, and the largest of those that the group's own rows use.
-/
namespace Sys2Proof.Machine

/-! ### Sites: where the tokens of a row come to -/

/-- The site of a sink: elements 0-15 of a tile, then its islands, copy streams and units; none for a link channel. -/
def siteOf (t : Nat) (k : Sink) : Option Nat :=
  match k with
  | .elem e _ => some (64 * t + e)
  | .island i => some (64 * t + 16 + i)
  | .stream g => some (64 * t + 20 + g)
  | .ct => some (64 * t + 28)
  | .cmp => some (64 * t + 29)
  | .mrg _ => some (64 * t + 30)
  | _ => none

/-- The groups of a load that a weft node binds at a tile: the group nodes that `on` picks, have one of its indices and count the
tile as a member. -/
def Load.boundGroups (L : Load) (on : Node → Bool) (p : Nat × Nat) (n : Node) : List Node :=
  L.nodes.filter fun g => g.kind == 9 && on g && g.covers p && n.groups.contains (g.par 5).value

/-- Rows per row of its tree that a fold node takes at a tile: those of its busiest local source. -/
def Node.foldLocal (n : Node) (rates : Tab Nat) (t : Nat) : Nat :=
  let at_ := fun k => Tab.get 0 rates (64 * t + k)
  greatest 0 (((List.range 4).filter fun i => n.srcs.getLsbD (5 - i)).map (fun i => at_ (16 + i)) ++
    if n.srcs.getLsbD 1 then [at_ ((n.par 2).value % 16)] else [])

/-- Rows of the tree of a fold node that a tile stands in, for one row of every group. -/
def Node.foldRows (n : Node) (o : Nat × Nat) (rates : Tab Nat) (p : Nat × Nat) : Nat :=
  greatest 0 ((n.tiles.filter (n.sameTree p)).map fun q => n.foldLocal rates (tileAt o q))

/-- Flits of a row of a tree, and tokens that its root sends for it (R93, R429). -/
def Load.foldFlits (L : Load) (n : Node) (p : Nat × Nat) : Nat :=
  let per := foldPer (BitVec.ofNat 3 (n.flags % 8))
  (L.foldLen n p + per) / per
def Load.foldTokens (L : Load) (n : Node) (p : Nat × Nat) : Nat :=
  let len := L.foldLen n p + 1
  if foldF32 (BitVec.ofNat 3 (n.flags % 8)) then (len + 1) / 2 else if n.flags % 8 = 6 then 2 * len else len

/-- Tile `p` lies on the way from tile `q` of a fold node to the root of its tree (R112). -/
def Node.onWay (n : Node) (p q : Nat × Nat) : Bool :=
  let rx := (n.par 0).value % 256
  let ry := (n.par 0).value / 256 % 256
  let between := fun (a b c : Nat) => decide ((a ≤ c ∧ c ≤ b) ∨ (b ≤ c ∧ c ≤ a))
  match n.flags / 16 with
  | 0 => p.2 == q.2 && between q.1 rx p.1
  | 1 => p.1 == q.1 && between q.2 ry p.2
  | _ => (p.2 == q.2 && between q.1 rx p.1) || (p.1 == rx && between q.2 ry p.2)

/-- Partials of a row that a tile sends toward the root: one, or under order=index one for each slice below it (R94, R95). -/
def Node.foldParts (n : Node) (p : Nat × Nat) : Nat :=
  if n.flags / 8 % 2 = 0 then 1
  else bankCount (n.srcs.zeroExtend 16) * (n.tiles.filter (n.onWay p)).length

/-- What a route carries for one row of every group: tokens, or for rows that reach an island their number. An element sends a
token for each it takes, as the example of R250 counts it. -/
def Load.carried (L : Load) (on : Node → Bool) (o p : Nat × Nat) (rates : Tab Nat) (r : Route) (d : Sink) : Nat :=
  let t := tileAt o p
  let n := r.node
  let at_ := fun k => Tab.get 0 rates (64 * t + k)
  let out := match n.kind with
    | 0 => at_ n.unit
    | 1 => at_ (16 + n.unit) * (L.columnsAt p n.unit / 2)
    | 2 => (match d with
      | .island _ => ((L.boundGroups on p n).filter fun g => g.flags % 8 != 4).length
      | _ => ((L.boundGroups on p n).map fun g => if g.flags % 8 = 4 then (g.par 4).value else 0).sum)
    | 4 => at_ 28
    | 5 => at_ 29
    | 6 => at_ 30
    | 7 => n.foldRows o rates p * L.foldTokens n p
    | _ => 0
  match d with
  | .island i =>
    if n.kind = 0 then
      let per := match L.nodeAt p 1 i with
        | some m => rowTokens (BitVec.ofNat 3 (m.flags % 4))
        | none => 1
      (out + per - 1) / per
    else out
  | _ => out

/-- Every route of a placement, with the tile it leaves. -/
def Load.allRoutes (L : Load) (o : Nat × Nat) : List ((Nat × Nat) × Route) :=
  L.tiles.flatMap fun p => (L.routes o p).map fun r => (p, r)

/-- The rates at the sites once tokens have gone one wire further: an element is as busy as its busiest channel, a unit takes
what all its wires bring. -/
def Load.ratesOn (L : Load) (on : Node → Bool) (o : Nat × Nat) (rates : Tab Nat) : Tab Nat :=
  (L.allRoutes o).foldl (fun acc x => x.2.dsts.foldl (fun acc d =>
    let c := L.carried on o x.1 rates x.2 d.2
    match siteOf d.1 d.2 with
    | none => acc
    | some k => acc.put k (if k % 64 < 16 then max (Tab.get 0 acc k) c else Tab.get 0 acc k + c)) acc) []

/-- The rates at every site for one row of every group that `on` picks. -/
def Load.rates (L : Load) (on : Node → Bool) (o : Nat × Nat) : Tab Nat :=
  (List.range (L.heads.length + 1)).foldl (fun r _ => L.ratesOn on o r) []

/-! ### What carries them -/

/-- What a row's traffic occupies: a physical link, a channel fed from its own tile, an element, or the way from a tile's copy
streams to memory. -/
inductive Carrier where
  | link (p d : Nat) | chan (t : Nat) (k : Sink) | elem (t e : Nat) | out (t : Nat)
  deriving DecidableEq, Repr

/-- The physical links that a wire to another tile takes. -/
def State.wireLinks (s : State) (t u : Nat) : List (Nat × Nat) := (routeLinks t u).flatMap fun x => s.linkHops x.1 x.2 true

/-- What one row of every group that `on` picks occupies in a placement, with the cycles it takes there: a flit of four tokens or
of a fold a cycle on a link (R98, R267), a token a cycle into a channel and an element (R247), 32 bytes a cycle to memory (R273). -/
def State.occupied (s : State) (L : Load) (on : Node → Bool) (o : Nat × Nat) : List (Carrier × Nat) :=
  let rates := L.rates on o
  let wires := (L.allRoutes o).flatMap fun x => x.2.dsts.flatMap fun d =>
    let t := tileAt o x.1
    let c := L.carried on o x.1 rates x.2 d.2
    match d.2 with
    | .island _ => []
    | _ =>
      if d.1 = t then [(Carrier.chan t d.2, c)]
      else (s.wireLinks t d.1).map fun l => (Carrier.link l.1 l.2, (c + 3) / 4)
  let folds := (L.nodes.filter fun n => n.kind == 7).flatMap fun n => n.tiles.flatMap fun p =>
    match n.foldOut p with
    | none => []
    | some d => (s.linkHops (tileAt o p) d true).map fun l =>
        (Carrier.link l.1 l.2, n.foldRows o rates p * L.foldFlits n p * n.foldParts p)
  let units := rates.filterMap fun e =>
    if e.1 % 64 < 16 then some (Carrier.elem (e.1 / 64) (e.1 % 64), e.2)
    else if 20 ≤ e.1 % 64 ∧ e.1 % 64 < 28 then some (Carrier.out (e.1 / 64), (e.2 + 3) / 4)
    else none
  (wires ++ folds ++ units).filter fun x => x.2 != 0

/-- The cycles per row that the slowest route downstream of a group needs, counting every flow that shares what it uses (R83). -/
def State.rowCycles (s : State) (L : Load) (os : List (Nat × Nat)) (g : Node) : Nat :=
  greatest 0 (os.flatMap fun o =>
    let all := s.occupied L (fun _ => true) o
    let mine := s.occupied L (fun n => n == g) o
    mine.map fun x => ((all.filter fun y => y.1 == x.1).map fun y => y.2).sum)

end Sys2Proof.Machine
end

