-- ==== Sys2Proof/Machine/Configure.lean ====
section
/-!
DEFINITION. The groups that Purad gives a load (R75, R79, R83), and the configuration of a tile (R261, R279).
-/
namespace Sys2Proof.Machine

/-! ### Groups of a load (R75, R78, R79, R83, R109) -/

/-- Wavelengths of a group. -/
def Group.lambdas (g : Group) : List Nat := if g.w2 then [g.lambda.toNat, g.lambda.toNat + 1] else [g.lambda.toNat]

/-- The waveguide of a group's fibre within its octet (R75). -/
def Group.guide (g : Group) : Nat := g.fibre % 32 / 8

/-- The fields of an entry are ones that the selvedge takes, valid or not (R79). -/
def Group.fieldsOk (g : Group) : Bool :=
  decide (g.fibre < 768 ∧ g.fmt.toNat ≤ 4) && (!g.w2 || decide (g.lambda.toNat % 2 = 0))

/-- Two valid groups of one fibre carry the same split mask and no common wavelength (R79). -/
def Group.agrees (g h : Group) : Bool :=
  g.fibre != h.fibre || (decide (g.split = h.split) && g.lambdas.all fun l => !h.lambdas.contains l)

/-- A valid entry other than `n` uses fibre `f`. -/
def State.fibreUsed (s : State) (n f : Nat) : Bool := s.groups.any fun e => e.1 != n && e.2.v && e.2.fibre == f

/-- The other seven fibres of a fibre's octet and waveguide (R75). -/
def fibresBeside (f : Nat) : List Nat := ((List.range 8).map fun j => f / 8 * 8 + j).filter fun x => x != f

/-- The split mask of an entry is disjoint from those of the other fibres that `which` picks (R75). -/
def State.splitFree (s : State) (g : Group) (which : Nat → Bool) : Bool :=
  (fibresBeside g.fibre).all fun f => !which f || decide (g.split &&& s.splitMask f = 0)

/-- The conditions of R79 on a valid entry `n`, against the valid groups; the masks of fibres that no group uses are Purad's to
set with it. -/
def State.groupRules (s : State) (n : Nat) (g : Group) : Bool :=
  g.fieldsOk && (s.groups.all fun e => e.1 == n || !e.2.v || g.agrees e.2) && s.splitFree g (s.fibreUsed n)

/-- A write of entry `n` sets the split mask of its fibre: a valid entry, or one of a fibre that no other group uses (log 55). -/
def State.setsSplit (s : State) (n : Nat) (g : Group) : Bool := g.v || !s.fibreUsed n g.fibre

/-- The selvedge takes a management core's write of entry `n` (R79). -/
def State.groupWriteOk (s : State) (n : Nat) (g : Group) : Bool :=
  g.fieldsOk && (!g.v || s.groups.all fun e => e.1 == n || !e.2.v || g.agrees e.2)
    && (!s.setsSplit n g || s.splitFree g fun _ => true)

/-- A fibre's split mask changes. -/
def State.setSplit (s : State) (f : Nat) (m : BitVec 8) : State := { s with splits := s.splits.put f m }

/-- Purad lights a group: its fibre takes the group's split mask, and the other fibres of its waveguide give up those rows. -/
def State.light (s : State) (g : Group) : State :=
  (fibresBeside g.fibre).foldl (fun a f => if a.splitMask f &&& g.split = 0 then a else a.setSplit f (a.splitMask f &&& ~~~g.split))
    (s.setSplit g.fibre g.split)

/-- Receivers of a tile on a waveguide that no group uses. -/
def State.freeRings (s : State) (t w : Nat) : Nat :=
  let dead := ((List.range 2).filter fun k => ((s.tile t).fabric.rings.get Ring.reset (2 * w + k)).cordoned).length
  2 - dead - ((s.groups.filter fun e => e.2.v && e.2.guide == w && e.2.members.contains t).map fun e => e.2.lanes).sum

/-- Cycles of an island for a streamed format (R69). -/
def fmtCycles (fmt : BitVec 3) : Nat :=
  match fmt.toNat with
  | 0 => 4
  | 1 => 6
  | 2 => 8
  | 3 => 16
  | _ => 1

/-- The entry of a group node with its members, on a fibre and wavelength; `slow` are the cycles per row of its slowest
downstream route (R83). -/
def Node.entry (n : Node) (launch load slow : Nat) (ms : List Nat) (split : Nat) (fibre lambda : Nat) : Group :=
  let g : Group := { Group.reset with
    v := true
    w2 := decide (n.flags / 8 % 2 = 1)
    fibre := fibre
    lambda := BitVec.ofNat 4 lambda
    split := BitVec.ofNat 8 split
    fmt := BitVec.ofNat 3 (n.flags % 8)
    nmem := ms.length - 1
    last := BitVec.ofNat 32 ((n.par 0).value - 1)
    members := ms
    byWeft := decide (n.flags / 16 % 2 = 1)
    patIndex := (n.par 5).value
    launch := some launch
    load := load
    elemsAt := (n.par 1).at_ 0
    scalesAt := (n.par 2).at_ 0
    stride := (n.par 3).at_ 0
    units := (n.par 4).value }
  let pace := min 65535 (max (max g.minPace (fmtCycles g.fmt)) slow)
  { g with pace := pace, basePace := pace }

/-- The entry that Purad gives a group node: the first index, fibre and wavelength that R79 and the members' receivers
allow; code 0x06 where there is none. -/
def State.addGroup (s : State) (launch load : Nat) (L : Load) (os : List (Nat × Nat)) (n : Node) : Check State :=
  let ms := n.members os
  let o := s.octet (ms.head?.getD 0)
  let split := ((List.range 8).filter fun j => ms.any fun t => s.physOf t / 140 % 8 == j).map (2 ^ ·) |>.sum
  match (List.range 1024).find? fun k => !(s.group k).v with
  | none => .error 6
  | some k =>
    let fits := fun (g : Group) => s.groupRules k g && ms.all fun t => decide (g.lanes ≤ s.freeRings t g.guide)
    match ((List.range 32).flatMap fun f => (List.range 16).map fun l =>
        n.entry launch load (s.rowCycles L os n) ms split (32 * o + f) l).find? fits with
    | some g => .ok ((s.light g).modGroup k fun _ => g)
    | none => .error 6

/-- The entries of every group of a load, or of none. The entries of ended loads are free again. -/
def State.addGroups (s : State) (launch load : Nat) (L : Load) (os : List (Nat × Nat)) : Check State :=
  (L.nodes.filter fun n => n.kind == 9).foldl (fun c n => match c with
    | .error e => .error e
    | .ok a => a.addGroup launch load L os n) (.ok { s with groups := s.groups.filter fun e => !e.2.spent })

/-- The entry of a group whose load is over: it is idle and keeps its EPOCH (R252), until Purad uses it again. -/
def Group.spentAfter (g : Group) : Group := { g with state := .idle, launch := none, starter := none, spent := true }

/-- Streams that a program started and that end with their launch or load, or begin again, give their STREAM units back (R494). -/
def State.unbookStreams (s : State) (which : Group → Bool) : State :=
  s.groups.foldl (fun a e => match e.2.starter with
    | some x => if which e.2 then a.unbook x.1 360 else a
    | none => a) s

/-- A load has ended: its groups' entries stay in the table, idle and with their EPOCH (R252), until Purad uses them again. -/
def State.dropGroups (s : State) (launch load : Nat) : State :=
  { s with groups := s.groups.map fun e =>
      if e.2.launch == some launch && e.2.load == load then
        (e.1, e.2.spentAfter)
      else e }

/-! ### The configuration of a tile (R261, R279) -/

/-- The table numbers of the groups of a load that an index names and that have a tile as a member. -/
def State.groupsAt (s : State) (launch load t i : Nat) : List Nat :=
  (s.groups.filter fun e =>
    e.2.v && e.2.launch == some launch && e.2.load == load && e.2.patIndex == i && e.2.members.contains t).map (·.1)

/-- The box of a copy node at a tile (R121). -/
def Node.box (n : Node) (p : Nat × Nat) : Box :=
  let w := fun j => (n.par j).at_ (n.index p)
  ⟨w 0, (w 1).toNat, (w 2).toNat, (w 3).toNat, (w 4).toNat, w 5, w 6, w 7⟩

/-- The stream of a copy node at a tile, its extents not yet patched. -/
def Node.stream (n : Node) (p : Nat × Nat) (a : BitVec 12) (g : BitVec 4) : Stream :=
  { Stream.reset with used := true, isDst := n.flags == 1, box := n.box p, asid := a, gen := g }

/-- A stream with the extents of the runs its box needs next (R360, R363). -/
def State.patchStream (s : State) (t : Nat) (G : Stream) : Stream :=
  let next := (List.range (G.box.size - G.pos)).map fun k => G.box.addr (G.pos + k)
  { G with ext := runsFrom (s.patchRun t G.asid G.gen) 4 next [] }

/-- The element path of a tile: extents over the regions of the pattern (R360, R361). -/
def State.pathFor (s : State) (t : Nat) (l : Launch) : Stream :=
  { Stream.reset with
    used := true, asid := l.asid, gen := l.gen
    ext := runsFrom (s.patchRun t l.asid l.gen) 16 (l.pat.data.flatMap DataRec.pages) [] }

/-- The island of a tile as a load claims it (R68, R74, R298); what it holds stays. -/
def Load.islandFor (L : Load) (o p : Nat × Nat) (groups : Nat → List Nat) (fmtOf : Nat → BitVec 3) (i : Nat) (I : Island) : Island :=
  let ws := L.wiresAt o p groups
  let feed : Option Source := (ws.find? fun w => w.dsts.contains (tileAt o p, .island i)).map fun w => w.src
  let res := L.resultRoutes o p i
  let named := (L.islandsAt o p).contains i
  { I with
    named := named
    claimBlock := (L.nodeAt p 1 i).any fun n => decide (n.flags / 4 % 2 = 1)
    claimRows := feed.isSome
    claimResults := decide (res ≠ 0)
    routes := res
    rowFmt := match feed with
      | some (.weft g) => fmtOf g
      | some (.elem _ _) => (match L.nodeAt p 1 i with
        | some n => BitVec.ofNat 3 (n.flags % 4)
        | none => I.fmt)
      | _ => I.rowFmt
    src := match feed with
      | some (.weft _) => 1
      | some (.elem _ _) => 2
      | _ => 0
    steer := []
    parts := [] }

/-- The receivers of a tile bound to a group (R77). -/
def bindRings (g : Group) (n : Nat) (rings : Tab Ring) : Tab Ring :=
  let free := ([2 * g.guide, 2 * g.guide + 1].filter fun x =>
    decide ((rings.get Ring.reset x).st = 0) && !(rings.get Ring.reset x).cordoned).take g.lanes
  ((List.range free.length).zip free).foldl (fun acc e =>
    acc.put e.2 { acc.get Ring.reset e.2 with
      st := 1, lambda := g.lambda + BitVec.ofNat 4 e.1, group := n, w2 := g.w2, lane := e.1, fails := 0 }) rings

/-- The weft port's state for a group that it binds. -/
def Group.port (g : Group) : PortGroup :=
  { PortGroup.reset with bound := true, e := g.epoch, done := true, fmt := g.fmt, lanes := g.lanes, units := g.len }

/-- The leave that the loader asks for a tile (R497): a MATRIX unit for each island with claimed roles, a STREAM unit for
each `start=load` group that the tile starts. No rule names the member that starts such a group: it is the first one (DESIGN
CHOICE, log 59). -/
def State.loadLeave (s : State) (t launch load : Nat) (F : Fabric) : List LeaveReq :=
  (F.islands.filter fun e => e.2.claimBlock || e.2.claimRows || e.2.claimResults).map (fun _ => ⟨t, none, 0, 1⟩) ++
    (s.groups.filter fun e => e.2.v && e.2.launch == some launch && e.2.load == load && !e.2.byWeft
      && e.2.members.head? == some t).map fun _ => ⟨t, none, 2, 1⟩

/-- The fabric of tile `t` once load `k` of launch `n` is configured there; its part stays. -/
def State.fabricFor (s : State) (t n : Nat) (l : Launch) (k : Nat) (L : Load) (o p : Nat × Nat) : Fabric :=
  let F := (s.tile t).fabric
  let gs := s.groupsAt n k t
  let bound := ((L.nodes.filter fun x => x.kind == 2 && x.covers p).flatMap fun x => x.groups.flatMap gs).eraseDups
  let unit := fun kind => L.nodes.find? fun x => x.kind == kind && x.covers p
  { F with
    elems := (List.range 16).filterMap fun e => (L.nodeAt p 0 e).map fun x => (e, x.element p)
    ops := []
    path := s.pathFor t l
    streams := (List.range 8).foldl (fun acc g =>
      match L.nodeAt p 3 g with
      | some x => acc.put g (s.patchStream t (x.stream p l.asid l.gen))
      | none => acc) F.streams
    islands := (List.range 4).map fun i => (i, L.islandFor o p gs (fun g => (s.group g).fmt) i (F.island i))
    selq := []
    folds := (L.foldsAt p).foldl (fun acc f => acc.put f.1 (L.foldSlot f.2 p)) F.folds
    cmp := match unit 5 with
      | some x => { Fabric.reset.cmp with width := ((x.par 0).at_ (x.index p)).toNat }
      | none => Fabric.reset.cmp
    mrg := match unit 6 with
      | some x => { Fabric.reset.mrg with keys := ((x.par 0).at_ (x.index p)).toNat }
      | none => Fabric.reset.mrg
    ct := match unit 4 with
      | some x => { Fabric.reset.ct with fmt := BitVec.ofNat 5 x.flags, reblock := BitVec.ofNat 5 (x.flags / 32) }
      | none => Fabric.reset.ct
    wires := L.wiresAt o p gs
    groups := bound.map fun g => (g, (s.group g).port)
    raw := []
    rings := bound.foldl (fun acc g => bindRings (s.group g) g acc) F.rings
    sinks := [] }

/-- The blocks that `.resident` lines name at a place of a load: island, format and bases (R110). -/
def Load.residents (L : Load) (p : Nat × Nat) : List (Nat × BitVec 3 × Nat × Nat) :=
  (List.range 4).filterMap fun i => (L.nodeAt p 1 i).bind fun n =>
    if n.flags / 4 % 2 = 1 then
      some (i, BitVec.ofNat 3 (n.flags % 4), ((n.par 0).at_ (n.index p)).toNat, ((n.par 1).at_ (n.index p)).toNat)
    else none

/-- The blocks that `.resident` lines name start to load (R67, R110). -/
def State.loadBlocks (s : State) (t : Nat) (L : Load) (p : Nat × Nat) : State :=
  (L.residents p).foldl (fun a r => a.snapBlock t r.1 r.2.1 r.2.2.1 r.2.2.2) s

/-- The blocks of a load at a tile can be read now (R329, R341). -/
def State.blocksReady (s : State) (t : Nat) (L : Load) (p : Nat × Nat) : Bool :=
  (L.residents p).all fun r => s.storeReads t r.1 (blockSpans r.2.1 r.2.2.1 r.2.2.2)

/-- Blocks that cannot be read yet take their places at the words they wait for (R309). -/
def State.blocksWait (s : State) (t : Nat) (L : Load) (p : Nat × Nat) : State :=
  (L.residents p).foldl (fun a r => a.storeWaits t r.1 (blockSpans r.2.1 r.2.2.1 r.2.2.2)) s

/-- The channels of a link node are bound (R438). -/
def State.bindLinks (s : State) (L : Load) (p : Nat × Nat) : State :=
  (L.nodes.filter fun n => n.kind == 8 && n.covers p).foldl (fun a n =>
    a.modPort n.unit fun P => { P with lpch := (List.range 4).foldl (fun acc k =>
      acc.put k ((n.par k).at_ (n.index p) &&& 0xFFFFE00000000000)) P.lpch, pendCh := [], joined := [], rq := [], sent := [] }) s

/-- Load `k` of launch `n` is configured on a tile, which runs it; a tile outside the load keeps an empty fabric. -/
def State.configure (s : State) (t n : Nat) (l : Launch) (k : Nat) : State :=
  let run := fun (a : State) => a.modPart t fun P =>
    { P with launch := some n, load := k, state := .running, tacked := false }
  match l.pat.loads[k]? with
  | none => s
  | some L =>
    match L.site l.alloc t with
    | none => run (s.modFabric t fun F => { F with elems := [] })
    | some (o, p) =>
      let F := s.fabricFor t n l k L o p
      let s1 := ((s.modFabric t fun _ => F).loadBlocks t L p).bindLinks L p
      run s1

/-- What a boundary leaves of a tile's fabric (R279): elements but their counters, which the swap clears (R266), channels, queues, units, wires and receivers end with the
load; islands keep blocks, rows and results that the load does not claim, COPYs and the fold slots of no pattern go. -/
def Fabric.clear (F : Fabric) : Fabric :=
  { Fabric.reset with
    elems := F.elems.map fun e => (e.1, { Elem.reset with fires := e.2.fires, squash := e.2.squash })
    streams := F.streams.filter fun e => e.2.job.isSome
    islands := F.islands.map fun e =>
      (e.1, { e.2 with named := false, claimBlock := false, claimRows := false, claimResults := false, routes := 0, steer := [],
                       parts := [], src := 0 })
    rings := F.rings.filterMap fun e => if e.2.cordoned then some (e.1, { Ring.reset with cordoned := true }) else none
    part := F.part }

end Sys2Proof.Machine
end

