-- ==== Sys2Proof/Machine/Launch.lean ====
section
/-!
DEFINITION. The life of a launch (R253-R262, R276-R281): a queue's next record, admission, the launch stitch, drain waves, the
boundary between loads, redundant loads (R116, R117), and completion.
-/
namespace Sys2Proof.Machine

/-! ### Records (R253-R257) -/

/-- Fields of the queue descriptors (R253). -/
def Queue.enabled (q : Queue) : Bool := q.d1.getLsbD 63
def Queue.slots (q : Queue) : Nat := 16 * 2 ^ get q.d0 11 8
def Queue.prio (q : Queue) : Nat := get q.d0 5 0
def Queue.asid (q : Queue) : BitVec 12 := BitVec.ofNat 12 (get q.d1 11 0)
def Queue.gen (q : Queue) : BitVec 4 := BitVec.ofNat 4 (get q.d1 15 12)
def Queue.alloc (q : Queue) : Alloc := ⟨get q.d1 39 32, get q.d1 31 24, get q.d1 55 48 + 1, get q.d1 47 40 + 1⟩

/-- The ring location of record `i` (R253, R254). -/
def Queue.recordLoc (q : Queue) (i : BitVec 32) : Nat := hostLoc (get q.d0 63 12 * 4096 + 64 * (i.toNat % q.slots))

/-- What a completion needs of a record (R257): its queue and index, where and how it is written, its cookie and stitch. -/
structure Ending where
  queue : Nat
  index : BitVec 32
  asid : BitVec 12
  gen : BitVec 4
  alloc : Alloc
  done : Word
  cookie : Word
  notify : Word
  deriving DecidableEq, Repr

/-- Word 0 of a completion record (R257). -/
def endingWord (queue code status : Nat) : Word := put 63 1 1 + put 48 15 queue + put 8 8 code + put 0 8 status

/-- A record completes (R256, R257): the 32 bytes at DONE, the stitch from tile `t`, then CIDX; where DONE cannot be written,
BADDONE alone. -/
def State.endRecord (s : State) (e : Ending) (t : Nat) (status code : Nat) (cycles : Word) : State :=
  let w0 := endingWord e.queue code status
  let bs := natBytes 8 w0.toNat ++ natBytes 8 e.cookie.toNat ++ natBytes 8 e.index.toNat ++ natBytes 8 cycles.toNat
  let r := s.writeVirt t e.asid e.gen e.done bs
  let next := fun (x : State) => x.modQueue e.queue fun q => { q with cidx := e.index + 1, busy := false }
  if r.2 then next (r.1.notify t 0 e.alloc e.notify w0 e.cookie)
  else (next s).modQueue e.queue fun q => { q with qerr := q.qerr ||| 4 }

/-- The code of BADREC for a record's bytes under its queue (R256). -/
def State.recordCode (s : State) (q : Queue) (bs : List Byte) : Option Nat :=
  let a := q.alloc
  let kind := blkField bs 0 1
  let pat : Word := BitVec.ofNat 64 (blkField bs 8 8)
  let done : Word := BitVec.ofNat 64 (blkField bs 0x18 8)
  let note : Word := BitVec.ofNat 64 (blkField bs 0x28 8)
  let t := tileKey a.x a.y
  let mapped := fun kind va => (s.userLoc t q.asid q.gen kind va).isSome
  let tiles := (List.range a.h).flatMap fun j => (List.range a.w).map fun i => tileKey (a.x + i) (a.y + j)
  if 1 < kind then some 1
  else if pat.toNat % 64 ≠ 0 ∨ done.toNat % 32 ≠ 0 ∨ (get note 63 62 ≠ 3 ∧ (a.target note).isNone) then some 2
  else if blkField bs 1 7 ≠ 0 ∨ blkField bs 0x30 16 ≠ 0 then some 3
  else if (kind = 1 ∧ mapped .load pat = false) ∨ mapped .store done = false then some 4
  else if kind = 1 ∧ tiles.any fun t => (s.tile t).router.hqLog == 0 then some 5
  else none

/-- LAUNCH_RECORD_READ: a port reads the next record of queue `ev.n`: a no-op completes at once, a faulty record with BADREC,
a launch waits for admission. -/
def execLaunchRecordRead (s : State) : Host.Outcome State Fault Refusal :=
  let n := s.ev.n
  let q := s.queue n
  .next (if !q.enabled || q.busy || q.ridx == q.widx then s
    else
      let bs := s.bytes (q.recordLoc q.ridx) 64
      let f := fun off => (BitVec.ofNat 64 (blkField bs off 8) : Word)
      let a := q.alloc
      let e : Ending := ⟨n, q.ridx, q.asid, q.gen, a, f 0x18, f 0x20, f 0x28⟩
      let s1 := s.modQueue n fun x => { x with ridx := x.ridx + 1, busy := true }
      match s.recordCode q bs with
      | some c => s1.endRecord e (tileKey a.x a.y) 3 c 0
      | none =>
        if blkField bs 0 1 = 0 then s1.endRecord e (tileKey a.x a.y) 0 0 0
        else
          let l : Launch :=
            { queue := n, index := q.ridx, prio := q.prio, seqNo := s.seq, asid := q.asid, gen := q.gen, ax := a.x, ay := a.y,
              aw := a.w, ah := a.h, patternVa := f 8, arg := f 0x10, done := f 0x18, cookie := f 0x20, notify := f 0x28,
              state := .waiting, pat := ⟨[], [], []⟩, root := tileKey a.x a.y, mgen := 0, tree := [], load := 0,
              loadsDone := false, sent := 0, received := 0, rerun := false, fault := none, saved := [] }
          { s1.stamp with launches := s.launches.put s.seq l })

/-- What the completion of a launch needs. -/
def Launch.ending (l : Launch) : Ending := ⟨l.queue, l.index, l.asid, l.gen, l.alloc, l.done, l.cookie, l.notify⟩

/-! ### Admission (R258, R259) -/

/-- Two launches have a tile in common. -/
def Launch.overlaps (l m : Launch) : Bool :=
  decide (l.ax < m.ax + m.aw ∧ m.ax < l.ax + l.aw ∧ l.ay < m.ay + m.ah ∧ m.ay < l.ay + l.ah)

/-- A launch occupies its allocation. -/
def Launch.onTiles (l : Launch) : Bool := decide (l.state = .running ∨ l.state = .stopping ∨ l.state = .resuming)

/-- A launch waits for its allocation. -/
def Launch.waits (l : Launch) : Bool := decide (l.state = .waiting ∨ l.state = .saved)

/-- The running launches that overlap launch `n`. -/
def State.rivals (s : State) (n : Nat) (l : Launch) : List (Nat × Launch) :=
  s.launches.filter fun e => e.1 != n && e.2.onTiles && e.2.overlaps l

/-- An overlapping launch that waits comes first: a higher priority, or an earlier acceptance at the same (R258). -/
def State.comesFirst (s : State) (n : Nat) (l : Launch) : Bool :=
  s.launches.any fun e => e.1 != n && e.2.waits && e.2.overlaps l
    && (decide (l.prio < e.2.prio) || (decide (l.prio = e.2.prio) && decide (e.2.seqNo < l.seqNo)))

/-- Every tile of a launch has a valid FSAVE, so that it may be pre-empted (R483). -/
def State.saveable (s : State) (l : Launch) : Bool := l.tree.all fun e => (s.tile e.1).fsave.getLsbD 63

/-- The image of a pattern (R118); none where a byte of it cannot be read. -/
def State.imageOf (s : State) (t : Nat) (l : Launch) : Option (List Byte) :=
  (s.readVirt t l.asid l.gen l.patternVa 64).bind fun h => s.readVirt t l.asid l.gen l.patternVa (blkField h 0x28 8)

/-- The initial bytes of the data regions are written (R125); false where a write faults, which leaves those before it. -/
def State.initData (s : State) (t : Nat) (l : Launch) (image : List Byte) : List DataRec → State × Bool
  | [] => (s, true)
  | d :: r =>
    match d.init with
    | none => s.initData t l image r
    | some (off, n) =>
      let w := s.writeVirt t l.asid l.gen d.vaddr ((image.drop off).take n ++ List.replicate (d.size - n) 0)
      if w.2 then w.1.initData t l image r else (w.1, false)

/-- A launch ends before any tile is touched. -/
def State.rejectLaunch (s : State) (n : Nat) (l : Launch) (status code : Nat) : State :=
  { s with launches := s.launches.del n }.endRecord l.ending l.root status code 0

/-- A placed launch: its pattern, generation, root and tree. -/
def Launch.placed (l : Launch) (pat : Pattern) (mgen : BitVec 32) (root : Nat) (old : List Nat) : Launch :=
  { l with pat := pat, mgen := mgen, root := root, tree := treeOf pat l.alloc root old }

/-- The groups of load `k` of a launch, or of all its loads, leave the table. -/
def State.cutGroups (s : State) (n : Nat) (k : Option Nat) : State :=
  { s.unbookStreams (fun g => g.launch == some n && !(k.any fun j => g.load != j)) with
    groups := s.groups.filter fun e => e.2.launch != some n || k.any fun j => e.2.load != j }

/-- The checks of load `k` of a launch where it is placed, and the entries of its groups (R126, R130). -/
def State.prepareLoad (s : State) (n k : Nat) (l : Launch) : Check State := do
  match l.pat.loads[k]? with
  | none => .error 1
  | some L =>
    let _ ← (match L.unplaced with | none => (.ok () : Check Unit) | some c => .error c)
    let _ ← L.static l.alloc l.pat.actors
    let _ ← s.siteOk L l.alloc
    (s.cutGroups n (some k)).addGroups n k L (L.origins l.alloc)

/-- The placement of a launch, its root where one is named, and what it needs before its first stitch (R259), or its failure
code. -/
def State.placeLaunch (s : State) (n : Nat) (l : Launch) (named : Option (Nat × Nat)) : State × Check Launch :=
  match s.imageOf l.root l with
  | none => (s, .error 1)
  | some image =>
    match patternOf image l.aw l.ah with
    | .error c => (s, .error c)
    | .ok pat =>
      let r := s.purad image l.alloc 0 pat
      match r.2.allPlaced with
      | .error c => (r.1, .error c)
      | .ok _ =>
        let p := r.2
        match checkAllOf (fun L => L.static l.alloc p.actors) p.loads, p.root l.alloc named with
        | .error c, _ => (r.1, .error c)
        | .ok _, .error c => (r.1, .error c)
        | .ok _, .ok root =>
          let l1 := l.placed p s.mgen root []
          match r.1.prepareLoad n 0 l1 with
          | .error c => (r.1, .error c)
          | .ok s1 =>
            let d := s1.initData l1.root l1 image p.data
            if d.2 then (d.1, .ok l1) else (d.1.cutGroups n none, .error 1)

/-- The placed configurations, the tree table and the launch block go to spool (R259, R260). -/
def State.writeLaunch (s : State) (n : Nat) (l : Launch) : State :=
  ((s.write (spoolAt n 2) l.image).write (spoolAt n 1) l.treeTable).write (spoolAt n 0) (l.block n)

/-- The launch stitch for a tile of launch `n` (R259). -/
def launchStitch (n t : Nat) : Stitch :=
  ⟨selvedge, false, 0, t, 125, none, true, Config.stubPc, BitVec.ofNat 64 (spoolAt n 0), 0, some n, none⟩

/-- A placed launch starts: its spool objects are written, and its stitch goes to the root (R259). -/
def State.startLaunch (s : State) (n : Nat) (l : Launch) : State :=
  let s1 := s.writeLaunch n l
  { s1 with launches := s1.launches.put n { l with state := .running } }.post (.stitch (launchStitch n l.root)) selvedge l.root false

/-- LAUNCH_ADMIT: the management plane admits launch `ev.n`, resumes it, or pre-empts what stands in its way (R258, R484). With
`ev.flag` its graph names a root, (`ev.unit` mod 256, `ev.unit` / 256) (R106, log 53). -/
def execLaunchAdmit (s : State) : Host.Outcome State Fault Refusal :=
  let n := s.ev.n
  .next (match s.launch? n with
  | none => s
  | some l =>
    let rs := s.rivals n l
    if !l.waits || !s.mgmt.idSet || s.comesFirst n l || rs.any fun e => decide (l.prio ≤ e.2.prio) then s
    else if !rs.isEmpty then
      rs.foldl (fun a e => if e.2.state = .running ∧ s.saveable e.2 then
        a.modLaunch e.1 fun x => { x with state := .stopping } else a) s
    else if l.state = .saved then s.modLaunch n fun x => { x with state := .resuming }
    else
      let r := s.placeLaunch n l (if s.ev.flag then some (s.ev.unit % 256, s.ev.unit / 256) else none)
      match r.2 with
      | .error c => r.1.rejectLaunch n l 1 c
      | .ok l1 => r.1.startLaunch n l1)

/-! ### Configuration (R261, R279, R280) -/

/-- No COPY uses a stream that a launch's load declares on a tile (R275): the swap waits for one that does. -/
def State.streamsFree (s : State) (t k : Nat) (l : Launch) : Bool :=
  match l.pat.loads[k]? with
  | none => true
  | some L =>
    match L.site l.alloc t with
    | none => true
    | some (_, p) => (List.range 8).all fun g =>
        (L.nodeAt p 3 g).isNone || ((s.tile t).fabric.gen g).job.isNone

/-- A launch is on its tiles and goes on with its loads: it runs, or its pre-emption waits for a quiescent point. -/
def Launch.live (l : Launch) : Bool := decide (l.state = .running ∨ l.state = .stopping)

/-- TACK_PREFETCH: the next load's configuration is in the staging area of tile `ev.tile` (R280). -/
def execTackPrefetch (s : State) : Host.Outcome State Fault Refusal :=
  let t := s.ev.tile
  let P := s.part t
  .next (match P.launch.bind s.launch? with
  | none => s
  | some l =>
    if (P.state = .running ∨ P.state = .settled) ∧ P.load + 1 < l.pat.loads.length then
      s.modPart t fun p => { p with tacked := true }
    else s)

/-- A tile's bookkeeping of waves starts afresh. -/
def Part.noWave (P : Part) : Part := { P with waveHere := false, waveDown := false, answers := [], lastSum := none }

/-- The launch has this tile: its stitch has reached it. -/
def State.hasLaunch (s : State) (n t : Nat) : Bool := (s.part t).launch == some n

/-- Every tile of a launch loses its load: the launch ends with a status and code. -/
def State.failLaunch (s : State) (n : Nat) (l : Launch) (status code : Nat) : State :=
  let ts := l.tiles.filter (s.hasLaunch n)
  let s1 : State := (ts.foldl (fun (a : State) t => (a.loaderReturn t).modFabric t fun F =>
    { F.clear with part := { F.part.noWave with state := .idle, tokenHere := false } }) s).dropTokens ts
  let s2 : State := { s1.unbookStreams (fun g => g.launch == some n) with
    groups := s1.groups.map fun e => if e.2.launch = some n then (e.1, e.2.spentAfter) else e }
  s2.modLaunch n fun x =>
    { x with fault := some (status, code), loadsDone := true, saved := [],
             state := if x.state = .resuming then .running else x.state }

/-- Load `k` of launch `n` has begun: it runs on some tile that it uses. -/
def State.loadBegun (s : State) (n k : Nat) (l : Launch) : Bool :=
  l.tiles.any fun t => s.hasLaunch n t && decide ((s.part t).load = k)
    && decide ((s.part t).state = .running ∨ (s.part t).state = .settled) && (l.pat.loads[k]?).any fun L => (L.site l.alloc t).isSome

/-- Purad's placement of the loads of a launch from `k` on under a new generation (R130); a load that it cannot place fails at its
own boundary (State.prepareLoad). -/
def State.replace (s : State) (k : Nat) (l : Launch) : State × Check Launch :=
  match s.imageOf l.root l with
  | none => (s, .error 1)
  | some image =>
    let r := s.purad image l.alloc k l.pat
    (r.1, .ok (l.placed r.2 s.mgen l.root l.tiles))

/-- A new placement takes effect: the launch's spool objects follow it, what was tacked is dropped (R280), waves start afresh,
and the launch stitch goes on to the tiles that join the tree. -/
def State.joinTree (s : State) (n : Nat) (old new : Launch) : State :=
  let s1 := { s.writeLaunch n new with launches := s.launches.put n new }
  let have_ := old.tiles.filter (s.hasLaunch n)
  let s2 := have_.foldl (fun a t => a.modPart t fun p => { p.noWave with tacked := false }) s1
  have_.foldl (fun a t => ((new.children t).filter fun u => !old.tiles.contains u).foldl (fun a u =>
    a.post (.stitch (launchStitch n u)) t u false) a) s2

/-- A tile is about to configure load `k` (R130): MGEN is compared with the placement's; where they differ, the load is placed
anew, or, where it has begun elsewhere, those after it. The first tile has the load's checks made and its groups entered. -/
def State.readyLoad (s : State) (n k : Nat) (l : Launch) : State × Check Launch :=
  let same := decide (l.mgen = s.mgen)
  if s.loadBegun n k l then
    if same then (s, .ok l)
    else
      let r := s.replace (k + 1) l
      match r.2 with
      | .error _ => (s, .ok l)
      | .ok l1 => (r.1.joinTree n l l1, .ok l1)
  else if same && decide (l.load = k) then (s, .ok l)
  else
    let r := if same then (s, .ok l) else s.replace k l
    match r.2 with
    | .error c => (r.1, .error c)
    | .ok l1 =>
      match r.1.prepareLoad n k l1 with
      | .error c => (r.1, .error c)
      | .ok s1 =>
        let l2 := { l1 with load := k, rerun := l.rerun && decide (l.load = k) }
        (if same then { s1 with launches := s1.launches.put n l2 } else s1.joinTree n l l2, .ok l2)

/-- A tile configures the load that it is to run (R261, R279, R497): the loader asks for the leave of the load, waits for the
grant, for the blocks it reads, and for a stream that a COPY uses, and swaps. -/
def State.configureNext (s : State) (t : Nat) : State :=
  let P := s.part t
  let n := P.launch.getD 0
  match P.launch.bind s.launch? with
  | none => s
  | some l0 =>
    if P.state ≠ .config ∨ !l0.live ∨ !s.streamsFree t P.load l0 then s
    else
      let r := s.readyLoad n P.load l0
      match r.2 with
      | .error c => r.1.failLaunch n l0 1 c
      | .ok l =>
        let swap := fun (a : State) => (a.loaderGive t LeaveReq.swap).configure t n l P.load
        match (l.pat.loads[P.load]?).bind fun L => (L.site l.alloc t).map fun x => (L, x) with
        | none => swap r.1
        | some (L, o, p) =>
          let needs := r.1.loadLeave t n P.load (r.1.fabricFor t n l P.load L o p)
          if !P.wanted.isEmpty then r.1
          else if (P.leave.filter fun q => !q.swap) ≠ needs then (r.1.loaderGive t fun q => !q.swap).loaderAsk t needs
          else if !r.1.blocksReady t L p then r.1.blocksWait t L p
          else swap r.1

/-- LOAD_ZERO_CONFIGURED: tile `ev.tile` has fetched its configuration of load 0; it starts to fire once it holds what the load
needs. -/
def execLoadZeroConfigured (s : State) : Host.Outcome State Fault Refusal :=
  .next (if (s.part s.ev.tile).load = 0 then s.configureNext s.ev.tile else s)

/-- CONFIG_SWAP: with its SWAP leave granted, tile `ev.tile` swaps in its next load, once no bank of it is being re-woven; after
the last load the unit goes back. -/
def execConfigSwap (s : State) : Host.Outcome State Fault Refusal :=
  let t := s.ev.tile
  let P := s.part t
  .next (if (s.tile t).reweaving = true ∨ (s.tile t).reweave.isSome ∨ (P.wanted.any LeaveReq.swap) then s
    else if P.state = .idle then s.loaderGive t LeaveReq.swap
    else if P.load = 0 then s
    else s.configureNext t)

/-! ### Settling and drain waves (R276-R278) -/

/-- The compaction unit holds no token that could move on. -/
def State.cmpQuiet (s : State) (t : Nat) : Bool :=
  let C := (s.tile t).fabric.cmp
  !C.due && match C.inq with
    | [] => true
    | k :: _ => decide (C.width = 0) || (!k.gap && !s.wireRoom t .cmp 1)

/-- The link channels that a tile sends on have every token credited (R439). -/
def State.linksQuiet (s : State) (t : Nat) : Bool :=
  (s.tile t).fabric.wires.all fun w => w.dsts.all fun d => match d.2 with
    | .link p k => ((s.port p).sent.get [] k).isEmpty
    | _ => true

/-- The groups that a tile's load bound are idle, and those that the loader starts have ended (R242, R276). -/
def State.groupsQuiet (s : State) (t : Nat) : Bool :=
  (s.tile t).fabric.groups.all fun e => !e.2.bound ||
    (decide ((s.group e.1).state = .idle) && ((s.group e.1).byWeft || (s.group e.1).ended))

/-- An island of the load is quiet. -/
def Island.quiet (I : Island) : Bool :=
  !I.named || (I.rows.isEmpty && I.results.isEmpty && !I.loading && decide (I.parts.length < rowTokens I.rowFmt))

/-- A tile takes part in the load that it runs. -/
def State.takesPart (s : State) (t : Nat) : Bool :=
  ((s.part t).launch.bind s.launch?).any fun l =>
    (l.pat.loads[(s.part t).load]?).any fun L => (L.site l.alloc t).isSome

/-- Every statement of R276 holds for a tile; one that takes no part in the load is always settled. -/
def State.settledNow (s : State) (t : Nat) : Bool :=
  let F := (s.tile t).fabric
  !s.takesPart t || (F.streams.all fun e => !e.2.used || e.2.job.isSome || decide (e.2.box.size ≤ e.2.pos)) && s.groupsQuiet t
    && (F.islands.all fun e => e.2.quiet) && (F.folds.all fun e => !e.2.v || !e.2.pattern || e.2.empty)
    && s.cmpQuiet t && F.mrg.entries.isEmpty && F.mrg.in0.isEmpty && F.mrg.in1.isEmpty
    && decide (F.ct.h0.state = .empty ∧ F.ct.h1.state = .empty) && F.ct.inq.isEmpty
    && F.ops.isEmpty && ((List.range 16).all fun e => s.elemQuiet t e)
    && ((s.tile t).router.inj.all fun x => !x.st.srcElem) && s.linksQuiet t

/-- A tile whose load has settled says so, and one whose guard has come to hold runs again (R281). -/
def State.settle (s : State) (t : Nat) : State :=
  if (s.part t).state = .running ∧ s.settledNow t then s.modPart t fun p => { p with state := .settled }
  else if (s.part t).state = .settled ∧ !s.settledNow t then s.wakePart t
  else s

/-- The wave reaches the children of a tile, once all of them have the launch and are in the tile's load. -/
def State.waveOn (s : State) (t n : Nat) (l : Launch) : State :=
  if (l.children t).all fun c => s.hasLaunch n c && decide ((s.part c).load = (s.part t).load) && !(s.part c).tokenHere then
    (l.children t).foldl (fun a c => a.modPart c fun p => { p with waveHere := true })
      (s.modPart t fun p => { p with waveHere := true, waveDown := true })
  else s

/-- DRAIN_WAVE_DOWN: a settled tile passes the wave on; the root starts the first one itself. -/
def execDrainWaveDown (s : State) : Host.Outcome State Fault Refusal :=
  let t := s.ev.tile
  let s1 := s.settle t
  let P := s1.part t
  .next (match P.launch.bind s.launch? with
  | none => s
  | some l =>
    if P.state = .settled ∧ !P.waveDown ∧ l.state = .running ∧ (P.waveHere ∨ t = l.root) then s1.waveOn t (P.launch.getD 0) l
    else s1)

/-- The sums of a tile's answer: its own counts with those of its subtree, and DIRTY. -/
def Part.sums (P : Part) : Nat × Nat × Bool :=
  P.answers.foldl (fun a x => (a.1 + x.2.1, a.2.1 + x.2.2.1, a.2.2 || x.2.2.2)) (P.s, P.a, P.dirty)

/-- A tile has answered the wave that was there. -/
def Part.answered (P : Part) : Part := { P with dirty := false, waveHere := false, waveDown := false, answers := [] }

/-- A tile whose children have all answered answers its parent; at the root the wave ends, and with `done` the root acts on
two waves that agree; else the next wave starts (R278). -/
def State.waveUp (s : State) (t : Nat) (l : Launch) (done : State → State) : State :=
  let P := s.part t
  let r := P.sums
  if !P.waveDown || !(l.children t).all fun c => P.answers.any fun x => x.1 == c then s
  else
    match l.parent t with
    | some u => (s.modPart t Part.answered).modPart u fun p => { p with answers := p.answers ++ [(t, r.1, r.2.1, r.2.2)] }
    | none =>
      if !r.2.2 && decide (r.1 = r.2.1) && decide (P.lastSum = some (r.1, r.2.1)) then
        done (s.modPart t fun p => { p.answered with lastSum := none })
      else s.modPart t fun p => { p.answered with lastSum := some (r.1, r.2.1), waveHere := true }

/-- A stream of a load is under way: its load does not drain (R242). -/
def State.streaming (s : State) (n k : Nat) : Bool :=
  s.groups.any fun e => e.2.launch == some n && e.2.load == k && e.2.state != .idle

/-- DRAIN_WAVE_ANSWER: tile `ev.tile` answers, DIRTY where it has left the settled state; at the root the load may end, and the
token starts; a stream that began meanwhile calls for another wave (R242). -/
def execDrainWaveAnswer (s : State) : Host.Outcome State Fault Refusal :=
  let t := s.ev.tile
  let P := s.part t
  .next (match P.launch.bind s.launch? with
  | none => s
  | some l =>
    if l.state ≠ .running then s
    else (s.settle t).waveUp t l fun x =>
      if x.streaming (P.launch.getD 0) P.load then x.modPart t fun p => { p with waveHere := true }
      else x.modPart t fun p => { p with tokenHere := true })

/-- RECONFIG_TOKEN: the token reaches tile `ev.tile` (R279): it goes on to the children, the load is cleared with its reports,
and the loader asks for the swap's leave; after the last load the tile is idle. A child that joined the tree after the load is
not in it. -/
def execReconfigToken (s : State) : Host.Outcome State Fault Refusal :=
  let t := s.ev.tile
  let P := s.part t
  let n := P.launch.getD 0
  .next (match P.launch.bind s.launch? with
  | none => s
  | some l =>
    if !P.tokenHere || !l.live then s
    else
      let k := P.load
      let more := decide (k + 1 < l.pat.loads.length)
      let s1 := ((l.children t).filter fun c => (s.part c).load == k).foldl (fun a c =>
        a.modPart c fun p => { p with tokenHere := true }) s
      let s2 := ((((s1.boundaryReports t).loaderReturn t).enterEmap t).modFabric t fun F =>
        { F.clear with part := { F.part.noWave with
            state := if more then .config else .idle
            load := if more then k + 1 else k
            tacked := P.tacked && more, s := 0, a := 0, dirty := false, tokenHere := false } }).dropTokens [t]
      let s3 := s2.loaderAsk t [⟨t, none, 1, 1⟩]
      if t = l.root then
        let s4 := s3.dropGroups n k
        if more then s4 else s4.modLaunch n fun x => { x with loadsDone := true }
      else s3)

/-! ### Redundant loads (R116, R117) -/

/-- The tile of the other placement of a redundant load that stands where tile `t` does. -/
def State.partner (s : State) (t : Nat) : Option Nat :=
  match (s.part t).launch.bind s.launch? with
  | none => none
  | some l =>
    match l.pat.loads[(s.part t).load]? with
    | none => none
    | some L =>
      if !L.red then none
      else match L.site l.alloc t with
        | some (o, p) => ((L.origins l.alloc).find? fun q => q != o).map fun q => tileAt q p
        | none => none

/-- What a token of a `dst=` stream writes: its word, or nothing. -/
def Token.written (k : Token) : Option Word := if k.poison || k.gap then none else some k.data

/-- The tests of R489 that a redundant mismatch starts on a tile: RESIDUE of every island and STRUCT of every copy island that
the load uses. -/
def State.mismatchTests (s : State) (t : Nat) : State :=
  let F := (s.tile t).fabric
  let isl := (List.range 4).filter fun i => (F.island i).named
  let cis := (List.range 2).filter fun c => (List.range 4).any fun k => (F.gen (4 * c + k)).used && (F.gen (4 * c + k)).job.isNone
  cis.foldl (fun a c => a.startTest t 0 (20 + c) 0 true) (isl.foldl (fun a i => a.startTest t 2 (16 + i) 0 true) s)

/-- A redundant mismatch (R117): the load runs again once from its start; the second time the launch ends with ECHK. -/
def State.mismatch (s : State) (n : Nat) (l : Launch) (L : Load) (k : Nat) : State :=
  let ts := L.allTiles l.alloc
  let s1 : State := ts.foldl State.mismatchTests (s.care1 l.root 0x0004 l.queue)
  if l.rerun then s1.failLaunch n l 2 0
  else
    let s2 := { (s1.unbookStreams fun g => g.launch == some n && g.load == k).modLaunch n (fun x => { x with rerun := true }) with
      groups := s1.groups.map fun e => if e.2.launch = some n ∧ e.2.load = k then
        (e.1, { e.2 with state := .idle, ended := false, starter := none, pace := e.2.basePace }) else e }
    let s3 : State := ts.foldl (fun (a : State) t => (a.loaderReturn t).modFabric t fun F =>
      { F.clear with part := { F.part with state := .config, s := 0, a := 0, dirty := false } }) s2
    (l.tiles.foldl (fun (a : State) t => a.modPart t fun p => p.noWave) s3).dropTokens ts

/-- COPY_DST_WRITE: stream `ev.unit` of tile `ev.tile` writes its next unit; in a redundant load the streams of both placements
write it together, once and only where they agree. -/
def execCopyDstWrite (s : State) : Host.Outcome State Fault Refusal :=
  let t := s.ev.tile
  let g := s.ev.unit
  .next (match s.partner t with
  | none => s.dstStep t g true
  | some u =>
    let G := (s.tile t).fabric.gen g
    let H := (s.tile u).fabric.gen g
    let n := G.box.unitLen G.pos
    if !s.dstReady t g || !s.dstReady u g || G.pos ≠ H.pos then s
    else if (G.inq.take n).map Token.written = (H.inq.take n).map Token.written then
      let s1 := s.dstStep t g true
      if ((s1.tile t).fabric.gen g).pos = G.pos then s1 else s1.dstStep u g false
    else
      match (s.part t).launch.bind s.launch? with
      | none => s
      | some l =>
        match l.pat.loads[(s.part t).load]? with
        | some L => s.mismatch ((s.part t).launch.getD 0) l L (s.part t).load
        | none => s)

/-! ### Completion (R257, R262) -/

/-- The records of a launch's actors on a tile. -/
def Router.actorsOf (r : Router) (n : Nat) : List Nat :=
  (List.range 32).filter fun k => decide ((r.actor k).launch = some n) && decide ((r.actor k).state ≠ .free)

/-- The launch's actors are quiet on a tile (R262), and its stores and copies performed (R257). -/
def State.actorsQuiet (s : State) (t n : Nat) : Bool :=
  let r := (s.tile t).router
  (r.actorsOf n).all (fun k => decide ((r.actor k).state ≠ .running) && (r.pocketsOf k).all fun l => (r.held l).isEmpty)
    && (r.inj.all fun x => x.st.launch != some n) && (r.localRef.all fun x => x.launch != some n)
    && (s.tile t).stores.isEmpty
    && (s.tile t).fabric.streams.all fun e => match e.2.job with
      | some j => j.launch != some n
      | none => true

/-- The actors of a launch exit on a tile; their records become free and their pockets unbound (R262, R373). -/
def State.exitAll (s : State) (t n : Nat) : State :=
  let ks := (s.tile t).router.actorsOf n
  (ks.foldl (fun a k => a.exitActor t k) s).modRouter t fun r =>
    ks.foldl (fun r k =>
      let r1 := r.modActor k fun a => { Actor.reset with inc := a.inc }
      { r1 with pockets := r1.pockets.filter fun e => e.2.sys || e.2.owner != k }) r

/-- The orphans left on a tile at the completion of a launch go back with STATUS 2, oldest first, or are discarded (R385, R512;
log 62). -/
def State.returnOrphans (s : State) (t : Nat) : State :=
  let os := (s.tile t).router.orphanList.map (s.unload t)
  os.foldl (fun a st => a.giveBack t st 2 false) (s.modRouter t fun r =>
    { r with orphans := [], holdq := r.holdq.filter fun h => !h.orphan }.refill)

/-- A launch leaves its tiles and its record completes with a status and code (R257, R262). -/
def State.finishLaunch (s : State) (n : Nat) (l : Launch) (status code : Nat) : State :=
  let cycles := (s.tile l.root).cycles - (s.part l.root).rootCycles
  let s1 := l.tiles.foldl (fun a t =>
    let b := ((a.exitAll t n).returnOrphans t).syncOvf t
    if s.hasLaunch n t then (b.loaderReturn t).modPart t fun _ => Part.reset else b) s
  { s1.cutGroups n none with launches := s1.launches.del n }.endRecord l.ending l.root status code cycles

/-- A launch has passed its last boundary and its actors are quiet on every tile (R262). -/
def State.launchOver (s : State) (n : Nat) (l : Launch) : Bool :=
  l.live && l.loadsDone && decide (l.sent = l.received) && l.tiles.all fun t =>
    let P := s.part t
    s.actorsQuiet t n && s.hasLaunch n t && decide (P.state = .idle) && P.wanted.isEmpty && P.leave.isEmpty
      && s.behind.all fun b => b.tile != t

/-- System software ends launch `n` (R257, R484): one that holds no tile at once, with no effect of its loads left; another one
gives up its load, and completes once its actors are quiet. -/
def State.abortLaunch (s : State) (n : Nat) (l : Launch) (code : Nat) : State :=
  match l.state with
  | .waiting => s.rejectLaunch n l 4 code
  | .saved => s.finishLaunch n l 4 code
  | _ => s.failLaunch n l 4 code

/-- LAUNCH_COMPLETE: launch `ev.n` is over; or, with `ev.flag`, system software aborts it with the code `ev.unit` (R257, log 38). -/
def execLaunchComplete (s : State) : Host.Outcome State Fault Refusal :=
  let n := s.ev.n
  .next (match s.launch? n with
  | none => s
  | some l =>
    if s.ev.flag then s.abortLaunch n l (s.ev.unit % 256)
    else if s.launchOver n l then s.finishLaunch n l (l.fault.getD (0, 0)).1 (l.fault.getD (0, 0)).2
    else s)

end Sys2Proof.Machine
end

