-- ==== Sys2Proof/Machine/Drain.lean ====
section
/-!
DEFINITION. Rows that stay incomplete at a fabric-load boundary (R99): which inputs of a fold tree have delivered their final row,
and what a router does with the rows that such an input lacks.
-/
namespace Sys2Proof.Machine

/-! ### Sources that have ended (R99) -/

/-- The load of a launch is in on every tile that takes part in it, so that nothing of it is still to start. -/
def State.loadIn (s : State) (n : Nat) (l : Launch) (k : Nat) : Bool :=
  l.tiles.all fun t => !(l.pat.loads[k]?.any fun L => (L.site l.alloc t).isSome) ||
    (s.hasLaunch n t && decide ((s.part t).load = k) && decide ((s.part t).state = .running ∨ (s.part t).state = .settled))

/-- The sources of a tile that can end by themselves; an element stands for all its outputs. -/
def Fabric.sources (F : Fabric) : List Source :=
  F.elems.map (fun e => Source.elem e.1 0) ++ F.islands.map (fun e => Source.island e.1)
    ++ F.streams.map (fun e => Source.stream e.1) ++ [Source.ct, Source.cmp, Source.mrg] ++ F.folds.map fun e => Source.fold e.1

/-- An element sends stitches in some slot. -/
def Elem.signals (E : Elem) : Bool :=
  E.instrs.any fun i => match i with
    | .tSig .. => true
    | .tSig2 .. => true
    | _ => false

/-- The needle cores of a launch do nothing more by themselves, and nothing is left that may wake them: no stitch on its way to one
of its tiles, no stream started by WEFT, whose completion is a stitch, and no element but those of `X`. -/
def State.needlesOver (s : State) (n : Nat) (l : Launch) (X : List (Nat × Source)) : Bool :=
  decide (l.sent = l.received) && (s.flights.all fun f => !f.msg.isStitch || !l.tiles.contains f.dst)
    && (s.groups.all fun e => e.2.launch != some n || !e.2.byWeft || e.2.state == .idle) && l.tiles.all fun t =>
    s.actorsQuiet t n && ((s.tile t).slots.toList.all fun sl => !sl.runs)
      && (s.tile t).fabric.elems.all fun e => !e.2.signals || X.contains (t, .elem e.1 0)

/-- A source has ended, where those of `X` have. What comes over a link has no end that this wafer knows of. -/
def State.isOver (s : State) (n : Nat) (l : Launch) (X : List (Nat × Source)) (t : Nat) (x : Source) : Bool :=
  match x with
  | .elem e _ => X.contains (t, .elem e 0)
  | .weft g =>
    let G := s.group g
    !G.v || (decide (G.state = .idle) && (if G.byWeft then s.needlesOver n l X else G.ended))
  | .link _ _ => false
  | y => X.contains (t, y)

/-- Nothing more comes to a sink, where the sources of `X` have ended: no token is on its way there, and every wire that leads to
it and every element whose replies go there has ended. -/
def State.fedOver (s : State) (n : Nat) (l : Launch) (X : List (Nat × Source)) (d : Nat × Sink) : Bool :=
  s.onWay d == 0
    && (l.tiles.all fun u => (s.tile u).fabric.wires.all fun w => !w.dsts.contains d || s.isOver n l X u w.src)
    && (s.tile d.1).fabric.elems.all fun e => X.contains (d.1, .elem e.1 0) || e.2.instrs.all fun i =>
        match instrReply i, d.2 with
        | some r, .elem a k => r != (a, k)
        | _, _ => true

/-- A slot of an element fires no more: its trigger cannot come to hold, or an operand is missing and does not come. -/
def State.slotOver (s : State) (n : Nat) (l : Launch) (X : List (Nat × Source)) (t e : Nat) (f : TForm) : Bool :=
  let E := (s.tile t).fabric.elem e
  let lacks := fun (c : Option (BitVec 4)) => (TForm.chan c).any fun k =>
    !E.present c (E.need f) && s.fedOver n l X (t, .elem e k)
  (!E.triggered f && (f.g != 3 || (f.a.bind E.src).isSome)) || lacks f.a || lacks f.b
    || f.tok.any fun k => (E.chans.get [] k.toNat).isEmpty && s.fedOver n l X (t, .elem e k.toNat)

/-- A source of a tile gives nothing more, where those of `X` have ended. -/
def State.endsNow (s : State) (n : Nat) (l : Launch) (X : List (Nat × Source)) (t : Nat) (x : Source) : Bool :=
  let F := (s.tile t).fabric
  let fed := fun (d : Sink) => s.fedOver n l X (t, d)
  match x with
  | .elem e _ =>
    let E := F.elem e
    E.beat.isNone && (E.replies.all fun r => r.2.isEmpty) && !(F.ops.any fun o => o.elem == e)
      && (E.halted || (!E.stopped && E.instrs.all fun i => i.tform.all fun f => s.slotOver n l X t e f))
  | .island i =>
    let I := F.island i
    I.rows.isEmpty && I.results.isEmpty && I.jobs.isEmpty && !I.loading && decide (I.parts.length < rowTokens I.rowFmt)
      && fed (.island i) && (I.claimRows || s.needlesOver n l X)
  | .stream g => let G := F.gen g
    !G.used || G.isDst || G.job.isSome || decide (G.box.size ≤ G.pos)
  | .ct => F.ct.inq.isEmpty && decide (F.ct.h0.state = .empty ∧ F.ct.h1.state = .empty) && fed .ct
  | .cmp => F.cmp.inq.isEmpty && !F.cmp.due && fed .cmp
  | .mrg => F.mrg.entries.isEmpty && F.mrg.in0.isEmpty && F.mrg.in1.isEmpty && fed (.mrg 0) && fed (.mrg 1)
  | .fold m =>
    let f := F.fold m
    f.empty && f.locals.all (fun k =>
        if k < 4 then s.isOver n l X t (.island k)
        else if k = 4 then s.isOver n l X t (.elem (f.elemSrc / 4) 0) && fed (.fold m)
        else s.needlesOver n l X)
      && f.inDirs.all fun d => s.foldsOnWay t m d == 0 && X.contains (neighbour t d, .fold m)
  | .weft _ => false
  | .link _ _ => false

/-- Of some sources, those that stay when each round drops the ones that have not ended. -/
def State.endedOf (s : State) (n : Nat) (l : Launch) : Nat → List (Nat × Source) → List (Nat × Source)
  | 0, X => X
  | k + 1, X => s.endedOf n l k (X.filter fun x => s.endsNow n l X x.1 x.2)

/-- The sources of a launch that have ended: the most that agree with one another, since a ring of sources that wait for each other
has ended too. -/
def State.ended (s : State) (n : Nat) (l : Launch) : List (Nat × Source) :=
  let X := l.tiles.flatMap fun t => (s.tile t).fabric.sources.map fun x => (t, x)
  s.endedOf n l X.length X

/-- Input `k` of slot `m` has delivered its final row: it is empty and its source has ended. -/
def State.inputOver (s : State) (n : Nat) (l : Launch) (X : List (Nat × Source)) (t m k : Nat) : Bool :=
  let f := (s.tile t).fabric.fold m
  (f.inq.get [] k).isEmpty &&
    if k < 4 then s.foldsOnWay t m k == 0 && X.contains (neighbour t k, .fold m)
    else if k < 12 then s.isOver n l X t (.island (k - 8))
    else if k = 12 then f.half.isNone && s.isOver n l X t (.elem (f.elemSrc / 4) 0) && s.onWay (t, .fold m) == 0
    else s.needlesOver n l X

/-! ### Rows that stay incomplete (R99) -/

/-- Under order=index every other router has forwarded what it held, so the root holds the partials of an incomplete row
(R95, R99, log 49): it delivers the row poisoned once no two of them combine and none completes it. -/
def State.drainIndex (s : State) (t m : Nat) (fl : FoldFlit) : Option State :=
  let f := (s.tile t).fabric.fold m
  if f.out ≠ 4 ∨ f.parts.isEmpty ∨ (joinable f.parts).isSome ∨ f.parts.any (fun p =>
      p.row == fl.row && p.k == fl.k && p.lo == 0 && p.hi + 1 == foldSlices s m 324 t) then none
  else (s.modFold t m fun x => { x with parts := x.parts.filter fun p => !(p.row == fl.row && p.k == fl.k) }).foldDeliver t m fl

/-- Slot `m` of a tile hands on its next flit poisoned, where some input has it and every other one has ended without. -/
def State.drainFold (s : State) (n : Nat) (l : Launch) (t m : Nat) : State :=
  let f := (s.tile t).fabric.fold m
  let X := s.ended n l
  let have_ := f.inputs.filter fun k => !(f.inq.get [] k).isEmpty
  let w := originWord t 22 9
  let fl : FoldFlit := ⟨f.rows.toNat, f.nextK, List.replicate (foldPer f.op) ⟨0, some w⟩, 0, 255⟩
  let report := fun (x : State) =>
    if f.nextK = 0 ∨ f.short = false then (x.sinkReport t 22 9 w).modFold t m fun y => { y with short := true } else x
  let out := if f.idx then (if have_.isEmpty then s.drainIndex t m fl else none)
    else if have_.isEmpty || have_.length == f.inputs.length then none
    else (s.foldOut t m fl).map fun a => a.modFold t m fun x => have_.foldl FoldSlot.pop x
  if !f.outq.isEmpty || !(f.inputs.all fun k => have_.contains k || s.inputOver n l X t m k) then s
  else (out.map report).getD s

/-- FOLD_DRAIN_INCOMPLETE: a row of slot `ev.unit` of the load on tile `ev.tile` that some input has, and that every other input
has ended without, goes on poisoned, with a report (R99). -/
def execFoldDrainIncomplete (s : State) : Host.Outcome State Fault Refusal :=
  let t := s.ev.tile
  let m := s.ev.unit
  let f := (s.tile t).fabric.fold m
  .next (match (s.part t).launch, (s.part t).launch.bind s.launch? with
  | some n, some l =>
    if f.v && f.pattern && s.loadIn n l (s.part t).load then s.drainFold n l t m else s
  | _, _ => s)

end Sys2Proof.Machine
end

