-- ==== Sys2Proof/Machine/Preempt.lean ====
section
/-!
DEFINITION. Pre-emption of a launch (R363, R483-R487): the stop wave, quiet waves, the fabric image, the save wave and the
resumption.
-/
namespace Sys2Proof.Machine

/-! ### Stopping (R484) -/

/-- A wave that goes down the tree without answers has reached a tile: it is the root, or its parent has acted on it. -/
def Launch.below (l : Launch) (t : Nat) (acted : Nat → Bool) : Bool :=
  decide (t = l.root) || (l.parent t).any acted

/-- STOP_WAVE: the stop wave reaches tile `ev.tile`, which tells its system actor. -/
def execStopWave (s : State) : Host.Outcome State Fault Refusal :=
  let t := s.ev.tile
  let P := s.part t
  .next (match P.launch.bind s.launch? with
  | none => s
  | some l =>
    if l.state = .stopping ∧ !P.stopping ∧ l.below t fun u => (s.part u).stopping then
      (s.modPart t fun p => { p.noWave with stopping := true }).hwStitch t t 0 false 0 4 0x53544F50 l.word none
    else s)

/-- STOP_FIRING_TIMEOUT: 65,536 cycles after the stop wave only the beats of a burst issue on tile `ev.tile`. -/
def execStopFiringTimeout (s : State) : Host.Outcome State Fault Refusal :=
  .next (if (s.part s.ev.tile).stopping then s.modPart s.ev.tile fun p => { p with firingStopped := true } else s)

/-! ### Quiet waves (R363, R484) -/

/-- A tile is at a quiescent point (R363): an operation that has been turned back is not on its way. -/
def State.quiescent (s : State) (t : Nat) : Bool :=
  let F := (s.tile t).fabric
  (F.elems.all fun e => e.2.beat.isNone) && (F.ops.all fun o => o.refused)
    && (F.islands.all fun e => !e.2.loading && !e.2.refire) && s.linksQuiet t && !(List.range 8).any (s.streamWaits t)
    && F.streams.all fun e => e.2.job.all fun j => j.buf.isEmpty

/-- Every actor of a launch on a tile is AWAY, FREE or EXITED. -/
def State.actorsAway (s : State) (t n : Nat) : Bool :=
  ((s.tile t).router.actorsOf n).all fun k =>
    decide (((s.tile t).router.actor k).state = .away ∨ ((s.tile t).router.actor k).state = .exited)

/-- A tile answers a quiet wave. -/
def State.quietNow (s : State) (t n : Nat) : Bool :=
  (s.part t).stopping && s.quiescent t && s.actorsAway t n
    && decide ((s.part t).state = .running ∨ (s.part t).state = .settled ∨ (s.part t).state = .idle)

/-- QUIET_WAVE: the wave goes on from tile `ev.tile`, or its answer does, once the tile is quiet. -/
def execQuietWave (s : State) : Host.Outcome State Fault Refusal :=
  let t := s.ev.tile
  let P := s.part t
  let n := P.launch.getD 0
  .next (match P.launch.bind s.launch? with
  | none => s
  | some l =>
    if l.state ≠ .stopping ∨ !s.quietNow t n ∨ P.quiet then s
    else if P.waveDown then s.waveUp t l fun x => x.modPart t fun p => { p with quiet := true }
    else if P.waveHere ∨ t = l.root then s.waveOn t n l
    else s)

/-! ### The fabric image (R486) -/

/-- A token in its 16 bytes. -/
def Token.image (k : Token) : List Byte := natBytes 8 k.data.toNat ++ natBytes 8 (k.tag.toNat + 8 * bit k.poison)

/-- The state word of an element: q, the counts of its channels, HALT. -/
def Elem.stateWord (E : Elem) : Nat :=
  E.q.toNat + ((List.range 4).map fun k => (E.chans.get [] k).length * 2 ^ (4 * k + 8)).sum + 2 ^ 24 * bit E.halted

/-- The byte at an offset of an element's 0x200; none where R486 names no field. -/
def Elem.imageByte (E : Elem) (o : Nat) : Option Byte :=
  if o < 0x80 then ((E.d.toList.flatMap Token.image)[o]?)
  else if o < 0x180 then ((E.chans.get [] ((o - 0x80) / 0x40)).flatMap Token.image)[(o - 0x80) % 0x40]?
  else if o < 0x190 then (natBytes 8 E.stateWord ++ natBytes 8 E.ctr.toNat)[o - 0x180]?
  else none

/-- What a segment holds, as numbers: tokens, queue tokens, origin words, fold flits, rows, halves of the corner-turn buffer. -/
def Token.code (k : Token) : List Nat := [bit k.poison, k.tag.toNat, k.data.toNat]
def originCode (o : Option Word) : List Nat := (o.map fun w => [1, w.toNat]).getD [0, 0]
def QTok.code (k : QTok) : List Nat := [k.sel, k.count] ++ originCode k.poisoned
def FoldFlit.code (f : FoldFlit) : List Nat :=
  [f.row, f.k, f.lo, f.hi, f.vals.length] ++ f.vals.flatMap fun v => [v.x.toNat, (-v.x).toNat] ++ originCode v.poison
def Row.code (r : Row) : List Nat := r.fmt.toNat :: (originCode r.poison ++ (r.elems ++ r.scales).map BitVec.toNat)
def HalfState.code (h : HalfState) : Nat :=
  match h with
  | .empty => 0
  | .filling => 1
  | .full => 2
  | .draining => 3
def Half.code (h : Half) : List Nat := [h.state.code, bit h.ended, h.pos, h.age, h.toks.length] ++ h.toks.flatMap Token.code

/-- A list with its length before it. -/
def listCode {α : Type} (f : α → List Nat) (l : List α) : List Nat := l.length :: l.flatMap f

/-- Queues and units: the select and steer queues, the compaction window, the merge unit's n and spent marks (R486). -/
def Fabric.queuesCode (F : Fabric) : List Nat :=
  listCode (fun e => e.1 :: listCode QTok.code e.2) F.selq ++ listCode (fun e => e.1 :: listCode QTok.code e.2.steer) F.islands
    ++ [F.cmp.width, F.cmp.seen, F.cmp.passed, bit F.cmp.due, F.mrg.keys, F.mrg.n] ++ F.mrg.spent

/-- A fold slot: the flits of its inputs with their rows and slice ranges, and what it has combined of the row in hand (R486). -/
def FoldSlot.code (f : FoldSlot) : List Nat :=
  listCode (fun e => e.1 :: listCode FoldFlit.code e.2) f.inq ++ listCode FoldFlit.code f.parts ++ [f.rows.toNat, f.nextK, bit f.ovf, bit f.short]
    ++ listCode (fun e => [e.1, e.2]) f.pushed ++ listCode Token.code f.outq

/-- An island: its state and MISM, row buffer and result slots (R486). -/
def Island.code (I : Island) : List Nat :=
  [bit I.valid, I.fmt.toNat, I.ebase, I.sbase, bit I.refire, I.sent, I.rowFmt.toNat, I.mism.toNat] ++ listCode Row.code I.rows
    ++ listCode Token.code I.parts ++ listCode (listCode Token.code) I.results

/-- The corner-turn buffer: states, positions and halves (R460, R486). -/
def Corner.code (c : Corner) : List Nat :=
  [c.fmt.toNat, c.reblock.toNat, bit c.wr] ++ c.h0.code ++ c.h1.code ++ listCode Token.code c.inq

/-- The weft receivers: n, e and done of each bound group (R486). -/
def Fabric.weftCode (F : Fabric) : List Nat := listCode (fun e => [e.1, e.2.n.toNat, e.2.e.toNat, bit e.2.done]) F.groups

/-- The contents of the segment that holds an offset, where R486 gives them and not their places, and the offset in it. -/
def Fabric.segment (F : Fabric) (o : Nat) : Option (List Nat × Nat) :=
  if 0x2600 ≤ o ∧ o < 0x2800 then some (F.queuesCode, o - 0x2600)
  else if 0x2800 ≤ o ∧ o < 0x5000 then some ((F.fold ((o - 0x2800) / 0x280)).code, (o - 0x2800) % 0x280)
  else if 0x5000 ≤ o ∧ o < 0xD800 then some ((F.island ((o - 0x5000) / 0x2200)).code, (o - 0x5000) % 0x2200)
  else if 0xD800 ≤ o ∧ o < 0x11880 then some (F.ct.code, o - 0xD800)
  else if 0x15880 ≤ o ∧ o < 0x16080 then some (F.weftCode, o - 0x15880)
  else none

/-- The byte at an offset of a fabric image (R486): what the fields of R486 give; a byte of a segment whose contents it gives; else a
byte it leaves open. -/
def Fabric.imageByte (F : Fabric) (word : Word) (fill : Nat → Byte) (o : Nat) : Byte :=
  let v :=
    if o < 16 then (natBytes 8 1 ++ natBytes 8 word.toNat)[o]?
    else if 0x400 ≤ o ∧ o < 0x2400 then (F.elem ((o - 0x400) / 0x200)).imageByte ((o - 0x400) % 0x200)
    else if 0x2400 ≤ o ∧ o < 0x2600 then
      let G := F.gen ((o - 0x2400) / 0x40)
      (natBytes 8 G.stat.toNat ++ natBytes 8 G.gfva.toNat ++ natBytes 8 G.pos)[o % 0x40]?
    else if 0x11880 ≤ o ∧ o < 0x15880 then
      (F.mrg.entries.find? fun e => e.1 == (o - 0x11880) / 16).bind fun e => e.2.image[o % 16]?
    else (F.segment o).map fun x => Config.imageSegment x.1 x.2
  v.getD (fill o)

/-- The fabric image of a tile. -/
def Fabric.image (F : Fabric) (word : Word) (fill : Nat → Byte) : List Byte := (List.range 0x18000).map (F.imageByte word fill)

/-- A token from the 16 bytes at an offset of an image, `b` reading some of its bytes. -/
def tokenOf (b : Nat → Nat → Nat) (o : Nat) : Token :=
  ⟨decide (b (o + 8) 1 / 8 % 2 = 1), BitVec.ofNat 3 (b (o + 8) 1), BitVec.ofNat 64 (b o 8)⟩

/-- An element as its 0x200 bytes give it, from offset `o`. -/
def Elem.ofImage (E : Elem) (b : Nat → Nat → Nat) (o : Nat) : Elem :=
  let w := b (o + 0x180) 8
  { E with
    d := Vector.ofFn fun k : Fin 8 => tokenOf b (o + 16 * k.val)
    q := BitVec.ofNat 8 w
    chans := (List.range 4).map fun k =>
      (k, (List.range (w / 2 ^ (4 * k + 8) % 8)).map fun j => tokenOf b (o + 0x80 + 0x40 * k + 16 * j))
    halted := decide (w / 2 ^ 24 % 2 = 1)
    ctr := BitVec.ofNat 64 (b (o + 0x188) 8) }

/-- A stream as its 0x40 bytes give it: GSTAT's REASON and KIND, GFVA and the position. -/
def Stream.ofImage (G : Stream) (b : Nat → Nat → Nat) (o : Nat) : Stream :=
  { G with
    reason := BitVec.ofNat 3 (b o 8 / 2 ^ 61), kind := BitVec.ofNat 3 (b o 8 / 2 ^ 58)
    gfva := BitVec.ofNat 64 (b (o + 8) 8), pos := b (o + 16) 8 }

/-- A saved fabric as a tile reads it back from its image (R485): every field whose place R486 gives comes from there; what the other
segments hold is what was saved, in a layout of the hardware's own (log 39). -/
def State.readBack (s : State) (t : Nat) (F : Fabric) : Fabric :=
  let b := fun o n => s.readNat (localLoc t (get (s.tile t).fsave 51 32) + o) n
  { F with
    elems := F.elems.map fun e => (e.1, e.2.ofImage b (0x400 + 0x200 * e.1))
    streams := F.streams.map fun e => (e.1, e.2.ofImage b (0x2400 + 0x40 * e.1))
    mrg := { F.mrg with entries := F.mrg.entries.map fun e => (e.1, tokenOf b (0x11880 + 16 * e.1)) } }

/-! ### Save and resumption (R484, R485) -/

/-- Streams of a launch that have begun go back to armed (R80). -/
def State.disarm (s : State) (n : Nat) : State :=
  { s with groups := s.groups.map fun e =>
      if e.2.launch = some n ∧ (e.2.state = .streaming ∨ e.2.state = .closing) then (e.1, { e.2 with state := .armed }) else e }

/-- Nothing of the fabric's own traffic is on its way to a tile. -/
def State.nothingComes (s : State) (t : Nat) : Bool := s.flights.all fun f => !(f.msg.ofFabric && f.dst == t)

/-- SAVE_WAVE: tile `ev.tile`, still at a quiescent point (R363), writes its fabric image at FSAVE.OFF and enters saved; with the
last one the launch is saved. -/
def execSaveWave (s : State) : Host.Outcome State Fault Refusal :=
  let t := s.ev.tile
  let P := s.part t
  let n := P.launch.getD 0
  let F := (s.tile t).fabric
  .next (match P.launch.bind s.launch? with
  | none => s
  | some l =>
    if l.state ≠ .stopping ∨ P.state = .saved ∨ !s.quietNow t n ∨ !s.nothingComes t
        ∨ !(if t = l.root then P.quiet else (l.parent t).any fun u => decide ((s.part u).state = .saved)) then s
    else
      let s1 := s.write (localLoc t (get (s.tile t).fsave 51 32)) (F.image l.word (Config.imageFill n t))
      let s2 := (s1.loaderReturn t).modFabric t fun G =>
        { G.clear with streams := [], part := { G.part.noWave with state := .saved, tacked := false } }
      let s3 := (s2.modLaunch n fun x => { x with saved := x.saved.put t F }).disarm n
      if l.tiles.all fun u => decide ((s3.part u).state = .saved) && decide ((s3.part u).launch = some n) then
        s3.modLaunch n fun x => { x with state := .saved }
      else s3)

/-- The generator of a resumed tile: its extents are patched afresh under the ASID's present generation (R363, R485). -/
def State.repatched (s : State) (t : Nat) (G : Stream) : Stream := s.patchStream t { G with gen := (s.asid G.asid).gen }

/-- An island of a resumed tile: its block is read again from its bases (R485). -/
def State.reblocked (s : State) (t : Nat) (I : Island) : Island :=
  if I.valid then
    { I with elems := s.bytes (localLoc t I.ebase) 32768, scales := s.bytes (localLoc t I.sbase) (4 * mxColumns I.fmt) }
  else I

/-- The weft port of a resumed tile holds no frame, and its receivers lock again (R486). -/
def PortGroup.resumed (p : PortGroup) : PortGroup := { p with held := [], asked := none }
def Ring.resumed (r : Ring) : Ring := if r.st = 0 then r else { r with st := 1, fails := 0 }

/-- The fabric of a resumed tile from what was saved: every island as it was, with its block read again from the bases of its
last load; what runs on it for the needle goes on, and the tile keeps the leave it holds. -/
def State.resumed (s : State) (t : Nat) (l : Launch) (F : Fabric) : Fabric :=
  let now := (s.tile t).fabric
  let path : Stream := { s.pathFor t { l with gen := (s.asid l.asid).gen } with reason := F.path.reason, kind := F.path.kind, gfva := F.path.gfva }
  { F with
    path := path
    streams := F.streams.map fun e => (e.1, s.repatched t e.2)
    islands := (List.range 4).map fun i =>
      (i, { s.reblocked t (F.island i) with jobs := (now.island i).jobs, cordoned := (now.island i).cordoned })
    groups := F.groups.map fun e => (e.1, e.2.resumed)
    rings := F.rings.map fun e => (e.1, e.2.resumed)
    part := { F.part.noWave with
      state := if F.part.state = .idle then .idle else .running
      tacked := false, stopping := false, firingStopped := false, quiet := false, leave := now.part.leave, wanted := [] } }

/-- A stream of a launch goes on at the lowest row that a member still needs (R80, R487). -/
def State.rewind (s : State) (n : Nat) (l : Launch) : State :=
  { s with groups := s.groups.map fun e =>
      if e.2.launch = some n ∧ e.2.state = .armed then
        let next := e.2.members.map fun m =>
          let p := (l.saved.get Fabric.reset m).portGroup e.1
          if p.e = e.2.epoch then p.n.toNat else 0
        (e.1, { e.2 with seq := BitVec.ofNat 32 (leastOf next) })
      else e }

/-- RESUME_WAVE: tile `ev.tile` of launch `ev.n` asks for its leave again, and with it takes up what was saved and runs (R485,
R497). -/
def execResumeWave (s : State) : Host.Outcome State Fault Refusal :=
  let t := s.ev.tile
  let n := s.ev.n
  .next (match s.launch? n with
  | none => s
  | some l =>
    match l.saved.find? fun e => e.1 == t with
    | none => s
    | some (_, F) =>
      if l.state ≠ .resuming ∨ !(l.below t fun u => !(l.saved.any fun e => e.1 == u)) then s
      else
        let needs := s.loadLeave t n F.part.load F
        if !(s.part t).wanted.isEmpty then s
        else if (s.part t).leave ≠ needs then
          (s.modPart t fun _ => { Part.reset with launch := some n, load := F.part.load, state := .saved }).loaderAsk t needs
        else
          let s1 := if t = l.root then s.rewind n l else s
          let s2 := s1.modFabric t fun _ => s1.resumed t l (s1.readBack t F)
          let left := l.saved.del t
          s2.modLaunch n fun x => { x with saved := left, state := if left.isEmpty then .running else .resuming })

end Sys2Proof.Machine
end

