-- ==== Sys2Proof/Machine/Mesh.lean ====
section
/-!
DEFINITION. The mesh (R24-R33): how a flit moves through routers, failed links and drain markers; clock sources (R42-R44); the
re-weave of a bank (R39, R417).
-/
namespace Sys2Proof.Machine

/-! ### Route registers (R30, R34) -/

/-- A register with field `d` of `n` bits replaced. -/
def setField (w n d v : Nat) : Nat := w / 2 ^ (n * (d + 1)) * 2 ^ (n * (d + 1)) + v % 2 ^ n * 2 ^ (n * d) + w % 2 ^ (n * d)

/-- The silicon with the route and measure entries of a direction on a mesh changed. -/
def Phys.setRoute (P : Phys) (data : Bool) (d entry measure : Nat) : Phys :=
  let r := BitVec.ofNat 64 (setField (P.drt data).toNat 16 d entry)
  let m := BitVec.ofNat 32 (setField (P.meas data).toNat 8 d measure)
  if data then { P with drtd := r, measd := m } else { P with drts := r, meass := m }

/-- The machine with a message changed. -/
def State.modFlight (s : State) (n : Nat) (f : Flight → Flight) : State :=
  { s with flights := s.flights.map fun x => if x.id = n then f x else x }

/-! ### Flits (R24, R31, R32) -/

/-- A message takes its next physical hop, or is held at a failed link (R32); a tile without a clock sends nothing on (R44). -/
def State.hopOn (s : State) (f : Flight) (h : BitVec 2) (r : List (BitVec 2)) : State :=
  if (s.phy f.at_).dark then s
  else if (s.phy f.at_).badLinks.contains (linkKey h.toNat f.data) then
    s.modFlight f.id fun x => { x with held := true }
  else
    match physNext f.at_ h.toNat with
    | none => s
    | some q => s.modFlight f.id fun x => { x with at_ := q, hops := r, held := false }

/-- The targeted test that an error at silicon `p` starts on the router of the tile it holds, if it holds one (R422, R489;
log 62). -/
def State.routerTest (s : State) (p test sub : Nat) : State :=
  let t := (s.phy p).logical
  if s.physOf t = p ∧ t < tileCount then s.startTest t test 28 sub true else s

/-- A flit of the fabric that has arrived enters its tile (R98, R267). -/
def State.enterFabric (s : State) (f : Flight) : State :=
  match f.msg with
  | .tokens k ks => (s.dropFlight f.id).tokensArrive (f.dst, k) ks
  | .fold n i fl => (s.dropFlight f.id).foldArrive f.dst n i fl
  | _ => s

/-- ROUTER_FLIT_ARRIVAL: message `ev.n` goes on from the router it is at (R24, R29): along the hop list in its head, to the
target of a router in FWD, or along the route entry of its next logical hop; tokens and fold flits end here. A flit with a wrong check (`ev.upset`) is
retried, and a LOOP of hop `ev.unit` starts (R489). -/
def execRouterFlitArrival (s : State) : Host.Outcome State Fault Refusal :=
  .next (match s.flight? s.ev.n with
  | none => s
  | some f =>
    if tileCount ≤ f.src ∨ tileCount ≤ f.dst then s
    else if !s.ev.upset.isEmpty then s.routerTest f.at_ 3 (s.ev.unit % 4)
    else if s.arrived f && f.msg.ofFabric then (if (s.silicon f.dst).dark then s else s.enterFabric f)
    else
      match f.hops with
      | h :: r => s.hopOn f h r
      | [] =>
        let P := s.phy f.at_
        if P.state = 4 then
          (match P.fwd with
          | some q => s.modFlight f.id fun x => { x with at_ := q }
          | none => s)
        else
          match f.msg, nextDir P.logical f.dst with
          | .drain _ _, _ => s
          | _, none => s
          | _, some d =>
            let e := entryOf (P.drt f.data) d
            if !entryValid e || s.draining P.logical d f.data then s
            else
              match entryHops e with
              | h :: r => s.hopOn f h r
              | [] => s)

/-- LINK_FAILURE: the physical link in direction `ev.unit` of silicon `ev.tile` fails, of the data mesh where `ev.flag` is set;
the router holds what is routed across it (R32), and a LOOP of the hop starts (R489). -/
def execLinkFailure (s : State) : Host.Outcome State Fault Refusal :=
  let p := s.ev.tile
  .next ((s.modPhy p fun P => { P with badLinks := natInsert (linkKey s.ev.unit s.ev.flag) P.badLinks }).routerTest p 3 (s.ev.unit % 4))

/-- Held messages try again: one about to depart on the route entry in force, one on a detour that its head flit carries on that
detour (R31, R32). -/
def State.release (s : State) : State := { s with flights := s.flights.map fun f => { f with held := false } }

/-- The direction of the link that a message at a router is to take next: of the detour that its head flit carries, else of the route
entry in force there. -/
def State.nextLink (s : State) (f : Flight) : Option Nat :=
  match f.hops with
  | h :: _ => some h.toNat
  | [] =>
    let P := s.phy f.at_
    (nextDir P.logical f.dst).bind fun d => (entryHops (entryOf (P.drt f.data) d)).head?.map BitVec.toNat

/-- No drain marker is on its way. -/
def State.drained (s : State) : Bool := s.flights.all fun f => match f.msg with
  | .drain _ _ => false
  | _ => true

/-- A commit is in its second phase: its entries have been applied and markers may still be on their way. -/
def State.committing (s : State) : Bool := s.plan.any fun p => p.slot.isSome

/-- The route entries of a commit come into force together, and MGEN advances with them (R31, R35, R414). -/
def State.settleDue (s : State) : State :=
  let cs := (s.plan.map fun p => p.due).getD []
  let s1 := cs.foldl (fun a c => a.modPhy c.phys fun P => P.setRoute c.data c.dir c.entry c.measure) s
  let s2 : State := { s1 with mgen := s.mgen + 1, plan := s.plan.map fun p => { p with due := [] } }
  s2.release

/-- A commit whose last marker is gone takes effect. -/
def State.commitStep (s : State) : State :=
  if s.drained && s.committing && s.plan.any fun p => !p.due.isEmpty then s.settleDue else s

/-- A request whose sender the path error does not reach: an invalidation, which must reach its tile (R359; DESIGN CHOICE, log 73). -/
def Msg.staysHeld (m : Msg) : Bool :=
  match m with
  | .inval _ _ _ _ _ => true
  | _ => false

/-- PATH_HOLD_TIMEOUT: the flits held at that link are discarded (R32). The answer to a memory request among them is a late
refusal of its own step. -/
def execPathHoldTimeout (s : State) : Host.Outcome State Fault Refusal :=
  let s1 : State := { s with flights := s.flights.filter fun f =>
    !(f.held && f.at_ == s.ev.tile && f.data == s.ev.flag && s.nextLink f == some s.ev.unit && !f.msg.staysHeld) }
  .next s1.commitStep

/-- DRAIN_MARKER_ARRIVAL: marker `ev.n` has reached the end of its old route, or the target of a router in FWD there; with the last
one the commit takes effect (R31, R35, R414). -/
def execDrainMarkerArrival (s : State) : Host.Outcome State Fault Refusal :=
  .next (match s.flight? s.ev.n with
  | none => s
  | some f =>
    match f.msg with
    | .drain _ _ => if !f.hops.isEmpty || (s.phy f.at_).state == 4 then s else (s.dropFlight f.id).commitStep
    | _ => s)

/-- TILE_FWD_TO_DEAD: silicon `ev.tile` in FWD, with nothing at it or on its way to it, enters DEAD (R415); its tests are abandoned (R472). -/
def execTileFwdToDead (s : State) : Host.Outcome State Fault Refusal :=
  let p := s.ev.tile
  .next (if (s.phy p).state = 4 ∧ s.flights.all (fun f => walkHops f.at_ f.hops != some p) then
      let s1 := s.modPhy p fun P => { P with dself := BitVec.ofNat 32 (5 * 2 ^ 29), fwd := none }
      s1.abandon (spareKey p) fun _ => true
    else s)

/-! ### Clocks (R42-R44) -/

/-- Fields of CLKSRC (R42). -/
def Phys.depth (P : Phys) : Nat := P.clksrc.toNat / 2 ^ 16 % 256
def Phys.clockDir (P : Phys) (j : Nat) : Nat := P.clksrc.toNat / 2 ^ (8 + 2 * j) % 4
def Phys.clockCur (P : Phys) : Nat := P.clksrc.toNat / 2 ^ 6 % 4
def Phys.clockOk (P : Phys) (j : Nat) : Bool := P.clksrc.getLsbD j

/-- The depth that candidate `j` of a tile advertises: that of the neighbour, or 0 of the selvedge entry. -/
def State.clockDepth (s : State) (p j : Nat) : Nat :=
  match physNext p ((s.phy p).clockDir j) with
  | some q => (s.phy q).depth
  | none => 0

/-- Candidate `j` of a tile is alive: it has not been lost, and the neighbour it comes from has a clock (R42, R44). -/
def State.clockAlive (s : State) (p j : Nat) : Bool :=
  !(s.phy p).lost.getLsbD j && match physNext p ((s.phy p).clockDir j) with
    | some q => !(s.phy q).dark
    | none => true

/-- Candidate `j` of a tile is alive and eligible: its depth is not above the tile's own, and below 255 (R43). -/
def State.eligible (s : State) (p j : Nat) : Bool :=
  s.clockAlive p j && decide (s.clockDepth p j ≤ (s.phy p).depth ∧ s.clockDepth p j < 255)

/-- The OK bits of a tile as its candidates are now (R42). -/
def State.setOk (s : State) (p : Nat) : State :=
  let ok := (List.range 4).foldl (fun n j => n + bit (s.eligible p j) * 2 ^ j) 0
  s.modPhy p fun P => { P with clksrc := BitVec.ofNat 32 (P.clksrc.toNat / 16 * 16 + ok) }

/-- The physical neighbours of a tile. -/
def physNear (p : Nat) : List Nat := (List.range 4).filterMap (physNext p)

/-- Silicon `q` takes its clock from silicon `p`. -/
def State.clockFrom (s : State) (p q : Nat) : Bool :=
  let Q := s.phy q
  !Q.dark && decide (physNext q (Q.clockDir Q.clockCur) = some p)

/-- The depth that the clock of some tiles carries reaches those that take their clock from them, and so on (R42): the machine, and
the tiles whose depth has changed. -/
def State.followDepth : Nat → List Nat → State → List Nat → State × List Nat
  | 0, _, s, done => (s, done)
  | _, [], s, done => (s, done)
  | n + 1, p :: r, s, done =>
    let d := min 255 ((s.phy p).depth + 1)
    let l := (physNear p).filter fun q => s.clockFrom p q && decide ((s.phy q).depth ≠ d)
    let set := fun (a : State) (q : Nat) => a.modPhy q fun Q =>
      { Q with clksrc := BitVec.ofNat 32 (Q.clksrc.toNat / 2 ^ 24 * 2 ^ 24 + d * 2 ^ 16 + Q.clksrc.toNat % 2 ^ 16) }
    State.followDepth n (r ++ l) (l.foldl set s) (done ++ l)

/-- A change of the clock of silicon `p`: the depth of the tiles behind it follows, and the OK bits of all of these and of their
neighbours (R42, R43). -/
def State.tellClock (s : State) (p : Nat) : State :=
  let r := State.followDepth (140 * 192) [p] s [p]
  let near := r.2.foldl (fun l q => (q :: physNear q).foldl (fun l x => natInsert x l) l) []
  near.foldl State.setOk r.1

/-- Count an event of a piece of silicon. -/
def State.carePhys (s : State) (p ev detail : Nat) : State :=
  let w1 := (p / 140 * 256 + p % 140) * 2 ^ 32 + detail % 65536 * 65536 + ev
  { s with care := { s.care with
      buf := s.care.buf ++ [⟨(s.tile (s.phy p).logical).cycles, BitVec.ofNat 64 w1⟩]
      ctr := s.care.ctr.put w1 (min (2 ^ 64 - 1) (s.care.ctr.get 0 w1 + 1)) } }

/-- CLKSRC after a switch to candidate `j`, whose source has depth `n`. -/
def Phys.switchClock (P : Phys) (j n : Nat) : Phys :=
  let w := P.clksrc.toNat
  { P with clksrc := BitVec.ofNat 32 ((n + 1) % 256 * 2 ^ 16 + w / 2 ^ 8 % 256 * 2 ^ 8 + j * 2 ^ 6 + w % 16), hold := true
           lost := P.lost ||| (1#4 <<< P.clockCur) }

/-- CLOCK_SOURCE_LOSS: silicon `ev.tile` loses its clock source and switches to the first later eligible candidate, holding
issue; with none left its neighbours treat its links as failed (R44). A STRUCT of its router starts (R489). -/
def execClockSourceLoss (s : State) : Host.Outcome State Fault Refusal :=
  let p := s.ev.tile
  let P := s.phy p
  .next (match (List.range 4).find? fun j => decide (P.clockCur < j) && s.eligible p j with
  | some j => (((s.modPhy p fun Q => Q.switchClock j (s.clockDepth p j)).tellClock p).carePhys p 0x0006 j).routerTest p 0 0
  | none =>
    let dead := (s.modPhy p fun Q =>
      { Q with lost := Q.lost ||| (1#4 <<< Q.clockCur), hold := true, dark := true }).tellClock p
    (List.range 4).foldl (fun a d =>
      match physNext p d with
      | none => a
      | some q => a.modPhy q fun Q =>
          { Q with badLinks := natInsert (linkKey (opposite d) true) (natInsert (linkKey (opposite d) false) Q.badLinks) })
        (dead.routerTest p 0 0))

/-- CLOCK_SWITCH_HOLD_END: 1,200 cycles after a switch silicon `ev.tile` issues again. -/
def execClockSwitchHoldEnd (s : State) : Host.Outcome State Fault Refusal :=
  .next (if !(s.phy s.ev.tile).dark then s.modPhy s.ev.tile fun P => { P with hold := false } else s)

/-! ### The re-weave of a bank (R39, R40, R417) -/

/-- BANK_REWEAVE: at a boundary, or with no load, the re-weave that DARN.BANK asked for starts on tile `ev.tile`. -/
def execBankReweave (s : State) : Host.Outcome State Fault Refusal :=
  let t := s.ev.tile
  .next (if (s.tile t).reweave.isSome ∧ ((s.part t).state = .idle ∨ (s.part t).state = .config ∨ (s.part t).state = .saved) then
      s.modTile t fun T => { T with reweaving := true }
    else s)

/-- The contents of a tile's local store from an offset up are lost. -/
def State.loseFrom (s : State) (t off : Nat) : State :=
  let lost := fun (a : Nat) => decide (localLoc t off ≤ a ∧ a < localLoc t 0x100000)
  { s with mem := s.mem.filter fun c => !lost c.1
           empties := s.empties.filter fun w => !lost w
           marks := s.marks.filter fun w => !lost w }

/-- BANK_REWEAVE_DONE: LSIZE and BANKS of tile `ev.tile` change together, and its system actor is told. -/
def execBankReweaveDone (s : State) : Host.Outcome State Fault Refusal :=
  let t := s.ev.tile
  .next (match (s.tile t).reweave with
  | none => s
  | some b =>
    if !(s.tile t).reweaving then s
    else
      let s1 := s.modPhy (s.physOf t) fun P => { P with banks := P.banks &&& ~~~(1#16 <<< b) }
      let s2 := (s1.loseFrom t (s1.lsize t)).modTile t fun T => { T with reweave := none, reweaving := false, marked := natErase b T.marked }
      ((s2.abandon t fun x => decide (descUnit x.desc = 27 ∧ descSub x.desc = b)).care1 t 0x000D (27 + 256 * b)).hwStitch t t 0 false 0 4 (banksWord (s2.silicon t).banks) (BitVec.ofNat 64 (s2.lsize t)) none)

end Sys2Proof.Machine
end

