-- ==== Sys2Proof/Machine/Darn.lean ====
section
/-!
DEFINITION. DARN (R411-R418, R470-R472): a plan is read and checked against the whole map, takes effect at a commit, or is
discarded; a bank's retirement is confirmed.
-/
namespace Sys2Proof.Machine

/-! ### A plan in memory (R411) -/

/-- The value of a route register has no reserved bit set: bits [4:0] of an entry, a hop beyond LEN, an entry with V = 0 that
is not zero (R30). -/
def routesWhole (v : Word) : Bool :=
  (List.range 4).all fun d =>
    let e := entryOf v d
    if entryValid e then decide (e % 32 = 0) && decide (e / 2 ^ 5 % 2 ^ 8 / 4 ^ (e / 2 ^ 13 % 4 + 1) = 0) else decide (e = 0)

/-- The VALUE of an entry lies in its register's fields (R411, R29, R30, R34). -/
def valueOk (reg : Nat) (v : Word) : Bool :=
  match reg with
  | 0 =>
    let st := get v 31 29
    decide (get v 63 48 = 0 ∧ get v 28 16 = 0 ∧ st < 6)
      && (if st = 4 then decide (get v 39 32 < 140 ∧ get v 47 40 < 192) else decide (get v 47 32 = 0))
  | 1 | 2 => routesWhole v
  | 3 | 4 => decide (get v 63 32 = 0) && (List.range 4).all fun d => decide (v.toNat / 2 ^ (8 * d) % 8 = 0)
  | 6 =>
    let off := get v 19 0
    let len := get v 51 32
    decide (get v 31 20 = 0 ∧ get v 63 52 = 0 ∧ off % 64 = 0 ∧ len % 64 = 0 ∧ 1 ≤ len ∧ off + len ≤ 0x100000)
  | _ => false

/-- The entries of a plan of `n` entries, from the bytes of the whole plan. -/
def planEnts (bs : List Byte) (n : Nat) : List (Word × PlanEnt) :=
  (List.range n).map fun i =>
    let w := BitVec.ofNat 64 (blkField bs (0x10 + 16 * i) 8)
    (w, ⟨physKey (get w 7 0) (get w 15 8), get w 63 60, BitVec.ofNat 64 (blkField bs (0x18 + 16 * i) 8)⟩)

/-- Word 0 of an entry names a tile of the wafer and has no reserved bit set. -/
def entWordOk (w : Word) : Bool := decide (get w 59 16 = 0 ∧ get w 7 0 < 140 ∧ get w 15 8 < 192)

/-- Two entries write one register of one tile (R413); a tile may have several MOVE ranges. -/
def PlanEnt.clashes (a b : PlanEnt) : Bool := a.phys == b.phys && a.reg == b.reg && a.reg != 6

/-- The first malformed entry of a plan. -/
def malformedAt : Nat → List PlanEnt → List (Word × PlanEnt) → Option Nat
  | _, _, [] => none
  | i, seen, (w, e) :: r =>
    if entWordOk w && valueOk e.reg e.value && !seen.any e.clashes then malformedAt (i + 1) (e :: seen) r else some i

/-! ### The map a plan gives (R412, R413) -/

/-- Silicon with a plan's entry written. -/
def Phys.applyEnt (P : Phys) (e : PlanEnt) : Phys :=
  match e.reg with
  | 0 => { P with dself := e.value.setWidth 32, fwd := if e.isFwd then some e.target else none }
  | 1 => { P with drtd := e.value }
  | 2 => { P with drts := e.value }
  | 3 => { P with measd := e.value.setWidth 32 }
  | 4 => { P with meass := e.value.setWidth 32 }
  | _ => P

/-- Silicon as the plan would leave it. -/
def State.planned (s : State) (ents : List PlanEnt) (p : Nat) : Phys :=
  (ents.filter fun e => e.phys == p).foldl Phys.applyEnt (s.phy p)

/-- Every pattern actor record of a tile is FREE, EXITED or AWAY (R412). -/
def State.recordsAway (s : State) (t : Nat) : Bool :=
  (s.tile t).router.actors.all fun e => decide (e.2.state = .free ∨ e.2.state = .exited ∨ e.2.state = .away)

/-- A tile can hand its place to other silicon: no resident load, no bound receiver, no handler, no bank re-weave (R412). -/
def State.vacant (s : State) (t : Nat) : Bool :=
  let T := s.tile t
  decide (T.fabric.part.state = .idle) && (T.fabric.rings.all fun e => decide (e.2.st = 0))
    && (T.slots.toList.all fun sl => match sl.run with
        | .handler _ => false
        | _ => true)
    && T.reweave.isNone && s.recordsAway t

/-- A DSELF entry keeps R412. -/
def State.transOk (s : State) (ents : List PlanEnt) (e : PlanEnt) : Bool :=
  let P := s.phy e.phys
  let same := P.dself.toNat % 65536 == e.value.toNat % 65536
  match P.state, get e.value 31 29 with
  | 1, 3 | 3, 1 | 2, 1 | 0, 5 => same
  | 1, 2 => same && s.recordsAway P.logical
  | 3, 4 =>
    let Q := s.planned ents e.target
    same && decide ((s.phy e.target).state = 0 ∧ Q.state = 1) && Q.dself.toNat % 65536 == P.dself.toNat % 65536
      && s.vacant P.logical && (s.tile (spareKey e.target)).reweave.isNone
  | 0, 1 => !P.dead && ents.any fun f => f.isFwd && f.target == e.phys
  | _, _ => false

/-- A route's hops from silicon `p` over the map `M`: where they end and how many seam links they take; nothing where they leave
the wafer, cross a failed link, or reach a tile in FWD or DEAD or one that is dead in the manufacturing map (R23). -/
def walkMap (M : Nat → Phys) (data : Bool) : Nat → Nat → List (BitVec 2) → Option (Nat × Nat)
  | p, n, [] => some (p, n)
  | p, n, h :: r =>
    match physNext p h.toNat with
    | none => none
    | some q =>
      if (M p).badLinks.contains (linkKey h.toNat data) || (M q).dead || decide ((M q).state = 4 ∨ (M q).state = 5) then none
      else walkMap M data q (if physPanel p = physPanel q then n else n + 1) r

/-- The logical neighbour of a tile; none where the mesh ends. -/
def tileNext (t d : Nat) : Option Nat :=
  match d with
  | 0 => if tileX t < 135 then some (t + 1) else none
  | 1 => if tileY t < 187 then some (t + 136) else none
  | 2 => if 0 < tileX t then some (t - 1) else none
  | _ => if 0 < tileY t then some (t - 136) else none

/-- The route and measure of silicon `p` in a direction are right in the map `M` (R22, R413): none where the mesh ends. -/
def routeOk (M : Nat → Phys) (p d : Nat) (data : Bool) : Bool :=
  let P := M p
  let e := entryOf (P.drt data) d
  let m := (P.meas data).toNat / 2 ^ (8 * d) % 2 ^ 8
  match tileNext P.logical d with
  | none => !entryValid e && decide (m / 32 = 0)
  | some u =>
    entryValid e && (match walkMap M data p 0 (entryHops e) with
      | none => false
      | some (q, n) => (M q).holds u && decide (m / 32 = (entryHops e).length ∧ m / 8 % 4 = n))

/-- Every route of the map is right. -/
def routesOk (M : Nat → Phys) : Bool :=
  (List.range (140 * 192)).all fun p =>
    !decide (1 ≤ (M p).state ∧ (M p).state ≤ 3)
      || (List.range 4).all fun d => routeOk M p d true && routeOk M p d false

/-- A MOVE entry names a tile with a FWD entry and stays below its target's LSIZE (R413). -/
def State.moveOk (s : State) (ents : List PlanEnt) (e : PlanEnt) : Bool :=
  match ents.find? fun f => f.isFwd && f.phys == e.phys with
  | none => false
  | some f => decide (get e.value 19 0 + get e.value 51 32 ≤ 0x10000 * bankCount (s.phy f.target).banks)

/-- The checks of a plan's entries after their form: a status and an entry (R413). -/
def State.checkPlan (s : State) (ents : List PlanEnt) : Nat × Nat :=
  match ents.findIdx? fun e => e.reg == 0 && !s.transOk ents e with
  | some i => (4, i)
  | none =>
    if !routesOk (s.planned ents) then (5, 0)
    else
      match ents.findIdx? fun e => e.reg == 6 && !s.moveOk ents e with
      | some i => (6, i)
      | none => (0, 0)

/-- The word every DARN form writes (R413, R470). -/
def State.darnWord (s : State) (status entry : Nat) : Word := put 32 32 s.mgen.toNat + put 16 12 entry + put 0 8 status

/-! ### PREP and ABORT (R413, R416) -/

/-- A plan is staged or committing on the wafer. -/
def State.planBusy (s : State) : Bool := s.plan.isSome && !(s.committing && s.drained)

/-- The staged plan, if a tile, or management core `n` as owner `tileCount + n`, owns it (R413). -/
def State.stagedBy (s : State) (own : Nat) : Option Plan := s.plan.filter fun p => p.owner == own && p.slot.isNone

/-- The running tile owns the staged plan. -/
def State.stagedHere (s : State) : Option Plan := s.stagedBy s.ft

/-- The checks of PREP before a plan's entries are read: BUSY, STALE, and the form of its header (R413). -/
def State.prepHead (s : State) (bs : List Byte) : Nat :=
  let n := blkField bs 0 2
  if s.planBusy then 1
  else if BitVec.ofNat 32 (blkField bs 8 4) ≠ s.mgen then 2
  else if n = 0 ∨ 4096 < n ∨ blkField bs 2 6 ≠ 0 ∨ blkField bs 12 4 ≠ 0 then 3
  else 0

/-- PREP with the bytes of a whole plan, for its owner: the machine, and the word it answers. -/
def State.prepPlan (s : State) (own : Nat) (bs : List Byte) : State × Word :=
  let ents := planEnts bs (blkField bs 0 2)
  match malformedAt 0 [] ents with
  | some i => (s, s.darnWord 3 i)
  | none =>
    let es := ents.map (·.2)
    match s.checkPlan es with
    | (0, _) => ({ s with plan := some ⟨own, es, none, []⟩ }, s.darnWord 0 0)
    | (c, i) => (s, s.darnWord c i)

/-- PREP of the running slot with the bytes of the whole plan. -/
def State.prep (s : State) (d : BitVec 5) (bs : List Byte) : State :=
  let r := s.prepPlan s.ft bs
  r.1.finish d r.2

/-- DARN.PREP: BUSY, STALE and the header's form are judged before the entries are read. -/
def execDarnPrep (d a : BitVec 5) (s : State) : Host.Outcome State Fault Refusal :=
  let va := s.cur.sreg a
  .next (if s.cur.pendsOn [d, a] then s
    else if s.cur.mode = .user then s.trapPriv (.darnPrep d a)
    else
      match s.readBlock (.darnPrep d a) va 64 16 with
      | .trap s1 c sub v => s1.trap c sub v
      | .wait s1 => s1
      | .got s1 bs =>
        if s1.prepHead bs ≠ 0 then s1.finish d (s1.darnWord (s1.prepHead bs) 0)
        else
          match s1.readBlock (.darnPrep d a) va 64 (16 + 16 * blkField bs 0 2) with
          | .trap s2 c sub v => s2.trap c sub v
          | .wait s2 => s2
          | .got s2 all => s2.prep d all)

/-- DARN.ABORT. -/
def execDarnAbort (d : BitVec 5) (s : State) : Host.Outcome State Fault Refusal :=
  .next (if s.cur.pendsOn [d] then s
    else if s.cur.mode = .user then s.trapPriv (.darnAbort d)
    else if s.stagedHere.isSome then { s with plan := none }.finish d (s.darnWord 0 0)
    else s.finish d (s.darnWord 7 0))

/-- DARN_PLAN_TIMEOUT: 2^24 cycles have passed without a commit (R416). -/
def execDarnPlanTimeout (s : State) : Host.Outcome State Fault Refusal :=
  .next (if s.committing then s else { s with plan := none })

/-! ### COMMIT (R414, R415, R472) -/

/-- The local store of tile `t` as the move leaves it: what a MOVE range names stays with its presence and its marks, every
other byte is zero and full. -/
def State.moveStore (s : State) (t : Nat) (ranges : List (Nat × Nat)) : State :=
  let kept := fun (a : Nat) => match storeTile a with
    | some (u, off) => u != t || ranges.any fun r => decide (r.1 ≤ off ∧ off < r.1 + r.2)
    | none => true
  let s1 := { s with mem := s.mem.filter fun c => kept c.1
                     empties := s.empties.filter kept
                     marks := s.marks.filter kept }
  s1.serveAll ((s.feWait.map fun q => q.word).filter fun w => !kept w)

/-- A tile moves from silicon `p` to silicon `q` with its router's state and the stores that it has in its table (R324); each piece
of silicon keeps everything else that is its own (R414). -/
def State.moveTile (s : State) (p q : Nat) : State :=
  let t := (s.phy p).logical
  let old := s.tile t
  let s1 := (s.modTile t fun _ => { s.tile (spareKey q) with router := old.router, stores := old.stores }).modTile (spareKey p) fun _ =>
    { old with router := Router.reset, stores := [] }
  { s1 with tiles := s1.tiles.del (spareKey q) }.carePhys p 0x0010 (q / 140 * 256 + q % 140)

/-- The change that a plan makes to the route of silicon `p` in a direction of a mesh, if it makes one. -/
def State.rerouteOf (s : State) (ents : List PlanEnt) (p d : Nat) (data : Bool) : Option RouteChange :=
  let old := s.phy p
  let new := s.planned ents p
  let e := entryOf (new.drt data) d
  let m := (new.meas data).toNat / 2 ^ (8 * d) % 2 ^ 8
  if e = entryOf (old.drt data) d ∧ m = (old.meas data).toNat / 2 ^ (8 * d) % 2 ^ 8 then none
  else some ⟨p, new.logical, d, data, e, m⟩

/-- A drain marker leaves along the old route of a change (R31), unless no traffic can be on it: there was none, the tile held or
holds no logical tile, the entry itself stays, or a failed link lies on it, at which the router holds what it has (R32). -/
def State.sendMarker (s : State) (old : Phys) (c : RouteChange) : State :=
  let e0 := entryOf (old.drt c.data) c.dir
  let failed := (hopLinks c.phys (entryHops e0)).any fun x => (s.phy x.1).badLinks.contains (linkKey x.2 c.data)
  if decide (e0 = c.entry) || !entryValid e0 || failed || !decide (1 ≤ old.state ∧ old.state ≤ 3 ∧ (s.phy c.phys).state ≤ 3) then s
  else
    let f : Flight := { id := s.seq
                        msg := .drain (BitVec.ofNat 2 c.dir) c.data
                        src := old.logical, dst := (tileNext old.logical c.dir).getD old.logical
                        at_ := c.phys, hops := entryHops e0, data := c.data, held := false }
    { s.stamp with flights := s.flights ++ [f] }

/-- A commit's effect: the moves, every DSELF entry at once, and the markers of its route entries, which come into force once the
last marker has arrived (R31, R35); those of a tile that it makes FWD keep their values (R471). -/
def State.applyPlan (s : State) (p : Plan) : State :=
  let moves := fun (q : Nat) => (p.ents.filter fun e => e.phys == q && e.reg == 6).map fun e =>
    (get e.value 19 0, get e.value 51 32)
  let s1 := (p.ents.filter PlanEnt.isFwd).foldl (fun a e =>
    (a.moveStore (s.phy e.phys).logical (moves e.phys)).moveTile e.phys e.target) s
  let s2 := (p.ents.filter fun e => e.reg == 0).foldl (fun a e => a.modPhy e.phys fun P => P.applyEnt e) s1
  let touched := (p.ents.map fun e => e.phys).foldl (fun l q => natInsert q l) []
  let due := (touched.filter fun q => !(p.ents.any fun e => e.isFwd && e.phys == q)).flatMap fun q => (List.range 4).flatMap fun d =>
    (s.rerouteOf p.ents q d true).toList ++ (s.rerouteOf p.ents q d false).toList
  due.foldl (fun a c => a.sendMarker (s.phy c.phys) c) { s2 with plan := some { p with due := due } }

/-- COMMIT for an owner and its slot (R414): the machine, and the word it answers once no marker of the commit is on its way. -/
def State.commitPlan (s : State) (own slot : Nat) : State × Option Word :=
  let done := fun (x : State) => ({ x with plan := none }, some (x.darnWord 0 0))
  if s.plan.any fun p => p.owner == own && p.slot == some slot then (if s.drained then done s else (s, none))
  else
    match s.stagedBy own with
    | none => (s, some (s.darnWord 7 0))
    | some p =>
      match s.checkPlan p.ents with
      | (0, _) =>
        let s1 := s.applyPlan { p with slot := some slot }
        if s1.drained then done s1.settleDue else (s1, none)
      | (c, i) => ({ s with plan := none }, some (s.darnWord c i))

/-- DARN.COMMIT: it stalls while markers of its commit are on their way. -/
def execDarnCommit (d : BitVec 5) (s : State) : Host.Outcome State Fault Refusal :=
  .next (if s.cur.pendsOn [d] then s
    else if s.cur.mode = .user then s.trapPriv (.darnCommit d)
    else
      let r := s.commitPlan s.ft s.fk
      match r.2 with
      | some w => r.1.finish d w
      | none => r.1)

/-- DARN as management core `n` runs it on a plan at a location of the wafer's memory (R413, R414, R416, R503): PREP, COMMIT, else
ABORT. The word it answers stands in `cores`; a COMMIT that waits is made again. -/
def State.coreDarn (s : State) (n op loc : Nat) : State :=
  let own := tileCount + n
  let tell := fun (x : State) (w : Word) => { x with cores := x.cores.put n w }
  let read := fun (k : Nat) => (List.range k).map fun i => s.systemByte (loc + i)
  match op with
  | 0 =>
    if s.prepHead (read 16) ≠ 0 then tell s (s.darnWord (s.prepHead (read 16)) 0)
    else
      let r := s.prepPlan own (read (16 + 16 * blkField (read 16) 0 2))
      tell r.1 r.2
  | 1 =>
    let r := s.commitPlan own 0
    match r.2 with
    | some w => tell r.1 w
    | none => r.1
  | _ => if (s.stagedBy own).isSome then tell { s with plan := none } (s.darnWord 0 0) else tell s (s.darnWord 7 0)

/-! ### BANK (R39, R41, R417) -/

/-- The status of DARN.BANK for bank `b` of tile (x, y). -/
def State.bankStatus (s : State) (x y b : Nat) : Nat :=
  let t := tileKey x y
  if 135 < x ∨ 187 < y ∨ !(s.tile t).marked.contains b then 8
  else if bankCount (s.silicon t).banks < 13 then 9
  else if (s.tile t).reweave.isSome then 10
  else 0

/-- DARN.BANK. -/
def execDarnBank (d a : BitVec 5) (s : State) : Host.Outcome State Fault Refusal :=
  let v := s.cur.sreg a
  let b := get v 19 16
  .next (if s.cur.pendsOn [d, a] then s
    else if s.cur.mode = .user then s.trapPriv (.darnBank d a)
    else if get v 63 20 ≠ 0 then s.trapIllegal (.darnBank d a)
    else
      let c := s.bankStatus (get v 7 0) (get v 15 8) b
      let s1 := if c = 0 then s.modTile (tileKey (get v 7 0) (get v 15 8)) fun T => { T with reweave := some b } else s
      s1.finish d (s1.darnWord c 0))

end Sys2Proof.Machine
end

