-- ==== Sys2Proof/Machine/Links.lean ====
section
/-!
DEFINITION. Link ports (R433-R443): going up and down, lanes, token channels, peer traffic that passes through; SNAP
(R426, R427).
-/
namespace Sys2Proof.Machine

/-! ### Lanes and snapshots (R426, R427, R434-R437) -/

/-- The physical lanes in use of a direction, ascending (R435). -/
def laneList (fence : BitVec 16) (st : BitVec 2) : List Nat :=
  if st = 2 then (List.range 16).filter fun i => !fence.getLsbD i else []

/-- Sixteen bytes of LANEMAP: the physical lane behind each logical lane, 0xFF for one that is not in use (R436). -/
def laneBytes (l : List Nat) : List Byte := (List.range 16).map fun j => BitVec.ofNat 8 ((l[j]?).getD 0xFF)

/-- The record of a port at the latch (R426). -/
def Port.record (p : Port) (n : Nat) : List Byte :=
  natBytes 2 n ++ natBytes 2 0 ++ natBytes 4 p.lmgen.toNat ++ natBytes 8 p.cycles.toNat
    ++ laneBytes (laneList p.outFence p.state) ++ laneBytes (laneList p.inFence p.state) ++ List.replicate 16 0
    ++ (List.range 128).flatMap fun i => natBytes 8 (p.cnt.get 0 i).toNat

/-- The status word of a SNAP (R427). -/
def snapWord (lmgen : BitVec 32) (status : Nat) : Word := put 32 32 lmgen.toNat + put 0 8 status

/-- SNAP: after the checks of its 1,088 bytes, a bad port completes at once, else the record is latched. -/
def execSnap (d a b : BitVec 5) (s : State) : Host.Outcome State Fault Refusal :=
  let v := s.cur.sreg a
  let va := s.cur.sreg b
  let n := get v 6 0
  .next (if s.cur.pendsOn [d, a, b] then s
    else if va.toNat % 64 ≠ 0 then s.trap 0x02 0 va
    else
      match State.checkAll s.ft s.fk (.snap d a b) .store 1 ((List.range 34).map fun j => va + BitVec.ofNat 64 (32 * j)) s [] with
      | .wait s1 => s1
      | .trap s1 c sub _ => s1.trap c sub va
      | .ok s1 ps =>
        if 79 < n ∨ get v 63 7 ≠ 0 then s1.finish d (snapWord 0 3)
        else
          let P := s1.port n
          let job : SnapJob := ⟨s1.ft, s1.fk % 8, s1.seq, P.lmgen, ps.map fun x => (x.2.1.loc, x.2.2), P.record n⟩
          let s2 := { s1.stamp with snaps := s1.snaps ++ [job] }
          s2.modCur fun sl => { sl.advance with pend := sl.pend ++ [⟨job.pend, [sl.absReg d], .result, va, 0, false, false⟩] })

/-- A piece of a record can no longer be written: its owner refuses it, or its wafer cannot be reached. -/
def State.pieceRefused (s : State) (loc : Nat) : Bool :=
  (s.refusal loc).isSome || (decide (0x40 ≤ loc / 2 ^ 56 ∧ loc / 2 ^ 56 ≤ 0x7F) && !s.reaches (loc / 2 ^ 54 % 256))

/-- Write the pieces of a record that are not refused. -/
def State.snapWrite (s : State) : List (Nat × Bool) → List Byte → State
  | [], _ => s
  | (loc, fe) :: r, bs =>
    let s1 := if s.pieceRefused loc then s
      else if loc / 2 ^ 56 = 0xF0 then s.ctlStore loc (bs.take 32)
      else (s.expose loc (bs.take 32)).apply loc (bs.take 32) fe
    s1.snapWrite r (bs.drop 32)

/-- SNAP_COMPLETE: the oldest SNAP of a slot is written, and its status reaches sD, of a handler that has been evicted since too
(R307, R427). -/
def execSnapComplete (s : State) : Host.Outcome State Fault Refusal :=
  .next (match s.snaps.findIdx? fun j => j.tile == s.ev.tile && j.slot == s.ev.unit % 8 with
  | none => s
  | some i =>
    match s.snaps[i]? with
    | none => s
    | some j =>
      let bad := j.pieces.any fun x => s.pieceRefused x.1
      let s1 := { s with snaps := dropAt s.snaps i }.snapWrite j.pieces j.bytes
      s1.deliver j.tile j.pend [snapWord j.lmgen (if bad then 4 else 1)])

/-! ### Ports (R434, R435, R443) -/

/-- The outbound lanes are brought up once more: their counters C3 (R436). -/
def Port.raiseLanes (p : Port) : Port :=
  { p with cnt := (laneList p.outFence 2).foldl (fun c l => c.put (4 * l + 3) (c.get 0 (4 * l + 3) + 1)) p.cnt }

/-- LINK_PORT_UP: port `ev.tile` is up with far port `ev.n` of wafer `ev.v`; `ev.unit` has a bit for every channel whose
far channel is valid, of the opposite direction, and names this port back (R434, R439, R443). -/
def execLinkPortUp (s : State) : Host.Outcome State Fault Refusal :=
  let n := s.ev.tile
  let p := s.port n
  .next (if 79 < n ∨ p.state = 3 ∨ bankCount p.outFence = 16 ∨ bankCount p.inFence = 16 then s
    else
      (s.modPort n fun p =>
        let q := if p.state = 2 then p else { p.raiseLanes with sent := [] }
        { q with state := 2, farV := true, farWid := s.ev.v.setWidth 8, farPort := BitVec.ofNat 7 s.ev.n
                 joined := (List.range 4).filter fun k => s.ev.unit.testBit k }).setReach s)

/-- Accesses of a slot to wafers that can no longer be reached come back as late EPEER refusals (R443). -/
def State.peerLost (s : State) (t k : Nat) : State :=
  let lost := fun (loc : Nat) => match peerOf loc with
    | some w => !s.reaches w
    | none => false
  let where_ := fun (p : Pend) => match p.kind with
    | .result => none
    | .vec _ _ _ l _ => (l.find? fun e => lost e.loc).map fun e => (e.loc, e.va)
    | _ => if lost p.loc then some (p.loc, p.va) else none
  let s1 := (s.slot t k).pend.foldl (fun a p =>
    match where_ p with
    | none => a
    | some (loc, va) =>
      if p.fe then
        { a with feWait := a.feWait.filter fun q => q.who != FeWho.needle t k p.id }.modSlot t k fun sl =>
          sl.feFail p.id 0x06 (loc / 2 ^ 54 % 256) va
      else a.modSlot t k fun sl => (sl.dropPend p.id).pushLate 0x06 (loc / 2 ^ 54 % 256) va) s
  ((s.tile t).stores.filter fun e => e.slot == k && lost e.loc).foldl (fun a e =>
    match (a.tile t).stores.find? fun x => x.id == e.id with
    | some x => a.refuseStore t x 0x06 (e.loc / 2 ^ 54 % 256)
    | none => a) s1

/-- A port goes down (R435, R443): reach follows, accesses that cannot be acknowledged come back, its home tile is told. -/
def State.portDown (s : State) (n : Nat) : State :=
  if (s.port n).state ≠ 2 then s
  else
    let s1 := (s.modPort n fun p => { p with state := 0, farV := false, joined := [] }).setReach s
    let s2 := s1.tiles.foldl (fun a e => (List.range 8).foldl (fun b k => b.peerLost e.1 k) a) s1
    s2.hwStitch (portHome n) (portHome n) 0 false 0 4 (BitVec.ofNat 64 n) (s2.port n).stat none

/-- What the link layer of port `n` does by itself: cycles, counters but C3 of an outbound lane, training and cordoning, which take a port
that is up down (R434-R436). -/
def State.linkStep (s : State) (n : Nat) (x : LinkStep) : State :=
  match x with
  | .cycles k => s.modPort n fun p => { p with cycles := p.cycles + BitVec.ofNat 64 k }
  | .count i k =>
    if 128 ≤ i ∨ (i < 64 ∧ i % 4 = 3) then s
    else s.modPort n fun p => { p with cnt := p.cnt.put i (p.cnt.get 0 i + BitVec.ofNat 64 k) }
  | .state st => if st = 2 then s else (s.portDown n).modPort n fun p => { p with state := st }

/-- LINK_PORT_DOWN. -/
def execLinkPortDown (s : State) : Host.Outcome State Fault Refusal := .next (s.portDown s.ev.tile)

/-- LINK_FAR_END_TIMEOUT: the far end has been silent for 2^20 cycles (R435). -/
def execLinkFarEndTimeout (s : State) : Host.Outcome State Fault Refusal := .next (s.portDown s.ev.tile)

/-- LINK_LANE_FENCE: physical lane `ev.unit` (16-31 inbound) of port `ev.tile` is fenced and the map is re-packed; a
direction without a lane takes the port down (R435). -/
def execLinkLaneFence (s : State) : Host.Outcome State Fault Refusal :=
  let n := s.ev.tile
  let l := s.ev.unit
  let p := s.port n
  let old := if l < 16 then p.outFence else p.inFence
  let new := old ||| (1#16 <<< (l % 16))
  .next (if 79 < n ∨ 31 < l ∨ new = old then s
    else
      let s1 := (s.modPort n fun p =>
        if l < 16 then { p with outFence := new, lmgen := p.lmgen + 1 } else { p with inFence := new, lmgen := p.lmgen + 1 }).care1
          (portHome n) 0x0007 n
      if bankCount new = 16 then s1.portDown n else s1)

/-! ### Token channels (R438-R440) -/

/-- LINK_TOKEN_ARRIVAL at channel `ev.unit` of port `ev.tile`. On a send channel the credit of the oldest token comes back, which
counts in A (R484; log 63). On a receive channel a
token arrives (discarded and counted where the channel is not joined), or, with `ev.flag`, the oldest token it holds goes on
along its wire (R439, R440). -/
def execLinkTokenArrival (s : State) : Host.Outcome State Fault Refusal :=
  let n := s.ev.tile
  let k := s.ev.unit % 4
  let p := s.port n
  let home := portHome n
  .next (if s.ev.flag then
      (match p.rq.get [] k with
      | [] => s
      | x :: r =>
        if s.wireRoom home (.link n k) 1 && !s.stops home then
          (s.modPort n fun p => { p with rq := p.rq.put k r }).wirePush home (.link n k) x
        else s)
    else if p.joined? k false then
      (if (p.sent.get [] k).isEmpty then s
      else (s.modPort n fun p => { p with sent := p.sent.put k ((p.sent.get [] k).drop 1) }).modPart home fun q => { q with a := q.a + 1 })
    else if p.joined? k true then
      (if (p.rq.get [] k).length < 256 then s.modPort n fun p => { p with rq := p.rq.put k (p.rq.get [] k ++ [s.ev.tok]) } else s)
    else s.care1 home 0x000B n)

/-- LPCH_WRITE: a privileged store of `ev.v` to LPCHk, k being `ev.unit`, of port `ev.tile` (R440). -/
def execLpchWrite (s : State) : Host.Outcome State Fault Refusal :=
  .next (if 79 < s.ev.tile ∨ 3 < s.ev.unit then s else s.rebind s.ev.tile s.ev.unit (s.ev.v.setWidth 64))

/-- A channel has quiesced: every credit is back, every token it held has been delivered (R440). -/
def Port.quiesced (p : Port) (k : Nat) : Bool := (p.sent.get [] k).isEmpty && (p.rq.get [] k).isEmpty

/-- LPCH_QUIESCE_DONE: the new binding of channel `ev.unit` of port `ev.tile` takes effect. -/
def execLpchQuiesceDone (s : State) : Host.Outcome State Fault Refusal :=
  let n := s.ev.tile
  let k := s.ev.unit
  .next (match (s.port n).pendCh.find? fun e => e.1 == k with
  | none => s
  | some e =>
    if (s.port n).quiesced k then
      s.modPort n fun p => { p with lpch := p.lpch.put k e.2, pendCh := p.pendCh.del k, joined := natErase k p.joined }
    else s)

/-! ### Peer traffic of other wafers (R442) -/

/-- A location that an agent outside may access: `n` bytes of a local store or of spool, of another wafer or of the host. -/
def outsideOk (loc n : Nat) : Bool :=
  (memWord loc && memWord (loc + n - 1)) || (peerOf loc).isSome || (decide (hostLoc 0 ≤ loc) && decide (loc + n ≤ imageLoc 0))

/-- Bytes that an access from outside covers; 0 for one that has no such form. -/
def OutOp.size : OutOp → Nat
  | .load n _ => n
  | .store bs _ => bs.length
  | .amo _ n _ _ _ => n
  | _ => 8

/-- An access from outside lies on a full-empty page, and waits there for its word (R232). -/
def OutOp.waits : OutOp → Bool
  | .load _ fe => fe
  | .amo _ _ _ _ fe => fe
  | .ldf => true
  | .stf _ => true
  | _ => false

/-- Another wafer accesses this one through link port `n` below 80, a management core as agent 80 + its number, or another wafer or the
host its own memory (R323, R325, R423-R425, R442, R503; log 7): within one 32-byte unit. One to this wafer waits where the way from the
port's home tile is not open, and is refused as a local access would be. A store to a full-empty page fills the words it touches; a load,
an atomic operation, LDF and STF take their place at the word. -/
def State.outside (s : State) (n : Nat) (op : OutOp) (loc : Nat) : State :=
  let here := decide (loc < hostLoc 0) && (peerOf loc).isNone
  if op.size = 0 ∨ loc / 32 ≠ (loc + op.size - 1) / 32 ∨ outsideOk loc op.size = false then s
  else if here && (decide (n < 80 ∧ (s.port n).state ≠ 2) || s.lsizeRefused loc || !s.pathOpen (portHome n) loc) then s
  else if op.waits then s.stamp.feRequest (.outside n s.seq op loc) (wordOf loc)
  else
    match op with
    | .store bs true => if s.narrowMarked loc bs.length then s else (s.expose loc bs).apply loc bs true
    | _ => (s.outPerform op loc).serve (wordOf loc)

/-- PEER_TRAFFIC_FORWARD. Traffic for wafer `ev.unit` % 256, on virtual channel 1 where `ev.unit` is 256 or more, arrives at
port `ev.tile` from source `ev.n` for destination `ev.v` and crosses to the port its WROUTE gives; with `ev.flag`, message `ev.n`
leaves by its port. It is held while what went before by other ports is on its way (R443). What another wafer asks of this one is a turn
of its own, `State.outside` (R442). -/
def execPeerTrafficForward (s : State) : Host.Outcome State Fault Refusal :=
  let w := s.ev.unit % 256
  let ports := s.peerPorts w
  let there := w * 2 ^ 54 + 2 ^ 62
  .next (if s.ev.flag then
      (match s.flight? s.ev.n with
      | none => s
      | some f =>
        match f.msg with
        | .peer _ _ => if s.arrived f then s.dropFlight f.id else s
        | _ => s)
    else if w = s.mgmt.wid.toNat ∨ s.routeHeld s.seq there = true then s
    else
      match ports[Config.peerHash s.ev.n s.ev.v.toNat % ports.length]? with
      | none => s
      | some n =>
        let dl := decide (256 ≤ s.ev.unit) || (s.wroute.get 0 w).getLsbD 62
        s.post (.peer (BitVec.ofNat 8 w) dl) (portHome s.ev.tile) (portHome n) true)

end Sys2Proof.Machine
end

