-- ==== Sys2Proof/Machine/Memory.lean ====
section
/-!
DEFINITION. Loads, stores, full-empty words and atomic operations of the needle core (R230-R232, R308-R313, R423-R425),
and the steps that complete them: replies, acknowledgements, late refusals, budgets, fetch faults (R329, R391, R479, R480).
-/
namespace Sys2Proof.Machine

/-! ### Loads and stores (R230) -/

/-- LD: `o` = 01 is .ACQ. -/
def execLd (d b : BitVec 5) (z : BitVec 3) (o : BitVec 2) (x : BitVec 10) (s : State) : Host.Outcome State Fault Refusal :=
  let n := sizeBytes z
  .next (if s.cur.pendsOn (b :: sizeRegs d n) then s
    else s.needleLoad (.ld d b z o x) (sizeRegs d n) n false (o == 1) (s.cur.addr b x n))

/-- LDS: sign-extending. -/
def execLds (d b : BitVec 5) (z : BitVec 3) (o : BitVec 2) (x : BitVec 10) (s : State) : Host.Outcome State Fault Refusal :=
  let n := sizeBytes z
  .next (if s.cur.pendsOn (b :: sizeRegs d n) then s
    else s.needleLoad (.lds d b z o x) (sizeRegs d n) n true (o == 1) (s.cur.addr b x n))

/-- ST: `o` = 10 is .REL. -/
def execSt (d b : BitVec 5) (z : BitVec 3) (o : BitVec 2) (x : BitVec 10) (s : State) : Host.Outcome State Fault Refusal :=
  let n := sizeBytes z
  .next (if s.cur.pendsOn (b :: sizeRegs d n) then s
    else s.needleStore (.st d b z o x) (fun _ _ => true) (s.cur.addr b x n) (s.cur.storeBytes d n) (o == 2) false)

/-! ### Full-empty words (R308) -/

/-- LDF.D. -/
def execLdf (d b : BitVec 5) (x : BitVec 10) (s : State) : Host.Outcome State Fault Refusal :=
  let va := s.cur.addr b x 8
  .next (if s.cur.pendsOn [d, b] then s
    else
      match s.check s.ft s.fk (.ldf d b x) .ldf va 8 with
      | .wait s1 => s1
      | .trap s1 c sub v => s1.trap c sub v
      | .ok s1 p _ => if s1.mayAccess s1.ft s1.fk p.loc 8 then s1.feIssue s1.ft s1.fk [d] .ldf va p.loc else s1)

/-- STF.D, a release. It waits at its word's owner; it enters and leaves the pending-store table at once when it is served, so that
what empties the word never waits for it (log 11). -/
def execStf (d b : BitVec 5) (x : BitVec 10) (s : State) : Host.Outcome State Fault Refusal :=
  let va := s.cur.addr b x 8
  .next (if s.cur.pendsOn [d, b] then s
    else
      match s.check s.ft s.fk (.stf d b x) .stf va 8 with
      | .wait s1 => s1
      | .trap s1 c sub v => s1.trap c sub v
      | .ok s1 p _ =>
        if s1.mayAccess s1.ft s1.fk p.loc 8 && s1.releasedTo s1.ft s1.fk p.loc false then
          s1.feIssue s1.ft s1.fk [] (.stf (s.cur.sreg d)) va p.loc
        else s1)

/-- STE.D, a plain store (R308). -/
def execSte (d b : BitVec 5) (x : BitVec 10) (s : State) : Host.Outcome State Fault Refusal :=
  let va := s.cur.addr b x 8
  .next (if s.cur.pendsOn [d, b] then s
    else
      match s.check s.ft s.fk (.ste d b x) .ste va 8 with
      | .wait s1 => s1
      | .trap s1 c sub v => s1.trap c sub v
      | .ok s1 p _ =>
        if !s1.mayAccess s1.ft s1.fk p.loc 8 || !s1.storeRoom s1.ft 1 then s1
        else (s1.enterEmpty s1.ft s1.fk va p.loc (s.cur.sreg d)).modCur Slot.advance)

/-! ### Atomic operations (R311-R313) -/

/-- The regions an AMO may name: the local stores and spool (R311). -/
def amoPlace (_ : Nat) (p : Place) : Bool :=
  match p with
  | .store _ _ => true
  | .spool _ => true
  | _ => false

/-- An AMO of the running slot with operation `op` of R153 and SCOPE `c`: one register or a pair (R311). -/
def State.amo (s : State) (i : Instr) (op : Nat) (d a b : BitVec 5) (w : BitVec 1) (o : BitVec 2) (c : BitVec 3) : State :=
  let rs := if w = 0 then [d] else [d, d + 1]
  let xs := if w = 0 then [b] else [b, b + 1]
  if s.cur.pendsOn (a :: (rs ++ xs)) then s
  else s.needleAmo i amoPlace rs op (if op = 10 then 4 else if w = 0 then 8 else 16) (s.cur.sreg a) (s.cur.wide b w)
    (s.cur.wide d w) (o.getLsbD 0) (o.getLsbD 1) (c == 4)

def execAmoAdd (d a b : BitVec 5) (w : BitVec 1) (o : BitVec 2) (c : BitVec 3) (s : State) : Host.Outcome State Fault Refusal :=
  .next (s.amo (.amoAdd d a b w o c) 0 d a b w o c)

def execAmoMinI (d a b : BitVec 5) (w : BitVec 1) (o : BitVec 2) (c : BitVec 3) (s : State) : Host.Outcome State Fault Refusal :=
  .next (s.amo (.amoMinI d a b w o c) 1 d a b w o c)

def execAmoMaxI (d a b : BitVec 5) (w : BitVec 1) (o : BitVec 2) (c : BitVec 3) (s : State) : Host.Outcome State Fault Refusal :=
  .next (s.amo (.amoMaxI d a b w o c) 2 d a b w o c)

def execAmoMinN (d a b : BitVec 5) (w : BitVec 1) (o : BitVec 2) (c : BitVec 3) (s : State) : Host.Outcome State Fault Refusal :=
  .next (s.amo (.amoMinN d a b w o c) 3 d a b w o c)

def execAmoMaxN (d a b : BitVec 5) (w : BitVec 1) (o : BitVec 2) (c : BitVec 3) (s : State) : Host.Outcome State Fault Refusal :=
  .next (s.amo (.amoMaxN d a b w o c) 4 d a b w o c)

def execAmoAnd (d a b : BitVec 5) (w : BitVec 1) (o : BitVec 2) (c : BitVec 3) (s : State) : Host.Outcome State Fault Refusal :=
  .next (s.amo (.amoAnd d a b w o c) 5 d a b w o c)

def execAmoOr (d a b : BitVec 5) (w : BitVec 1) (o : BitVec 2) (c : BitVec 3) (s : State) : Host.Outcome State Fault Refusal :=
  .next (s.amo (.amoOr d a b w o c) 6 d a b w o c)

def execAmoXor (d a b : BitVec 5) (w : BitVec 1) (o : BitVec 2) (c : BitVec 3) (s : State) : Host.Outcome State Fault Refusal :=
  .next (s.amo (.amoXor d a b w o c) 7 d a b w o c)

def execAmoSwap (d a b : BitVec 5) (w : BitVec 1) (o : BitVec 2) (c : BitVec 3) (s : State) : Host.Outcome State Fault Refusal :=
  .next (s.amo (.amoSwap d a b w o c) 8 d a b w o c)

def execAmoCas (d a b : BitVec 5) (w : BitVec 1) (o : BitVec 2) (c : BitVec 3) (s : State) : Host.Outcome State Fault Refusal :=
  .next (s.amo (.amoCas d a b w o c) 9 d a b w o c)

def execAmoFadd (d a b : BitVec 5) (o : BitVec 2) (c : BitVec 3) (s : State) : Host.Outcome State Fault Refusal :=
  .next (s.amo (.amoFadd d a b o c) 10 d a b 0 o c)

/-! ### Peer wafers (R423-R425) -/

/-- The region that XAMO and XST must name (R423, R424). -/
def peerPlace (pa : Nat) (_ : Place) : Bool := decide (0x40 ≤ pa / 2 ^ 56 ∧ pa / 2 ^ 56 ≤ 0x7F)

/-- An XAMO of the running slot (R423), in the order of the slot's XAMOs and XSTs to one wafer (R425). -/
def State.xamo (s : State) (i : Instr) (op : Nat) (d a b : BitVec 5) (w : BitVec 1) (o : BitVec 2) (c : BitVec 3) : State :=
  let rs := if w = 0 then [d] else [d, d + 1]
  let xs := if w = 0 then [b] else [b, b + 1]
  if s.cur.pendsOn (a :: (rs ++ xs)) then s
  else s.noteX (s.needleAmo i peerPlace rs op (if op = 10 then 4 else if w = 0 then 8 else 16) (s.cur.sreg a) (s.cur.wide b w)
    (s.cur.wide d w) (o.getLsbD 0) (o.getLsbD 1) (c == 4))

def execXamoAdd (d a b : BitVec 5) (w : BitVec 1) (o : BitVec 2) (c : BitVec 3) (s : State) : Host.Outcome State Fault Refusal :=
  .next (s.xamo (.xamoAdd d a b w o c) 0 d a b w o c)

def execXamoMinI (d a b : BitVec 5) (w : BitVec 1) (o : BitVec 2) (c : BitVec 3) (s : State) : Host.Outcome State Fault Refusal :=
  .next (s.xamo (.xamoMinI d a b w o c) 1 d a b w o c)

def execXamoMaxI (d a b : BitVec 5) (w : BitVec 1) (o : BitVec 2) (c : BitVec 3) (s : State) : Host.Outcome State Fault Refusal :=
  .next (s.xamo (.xamoMaxI d a b w o c) 2 d a b w o c)

def execXamoMinN (d a b : BitVec 5) (w : BitVec 1) (o : BitVec 2) (c : BitVec 3) (s : State) : Host.Outcome State Fault Refusal :=
  .next (s.xamo (.xamoMinN d a b w o c) 3 d a b w o c)

def execXamoMaxN (d a b : BitVec 5) (w : BitVec 1) (o : BitVec 2) (c : BitVec 3) (s : State) : Host.Outcome State Fault Refusal :=
  .next (s.xamo (.xamoMaxN d a b w o c) 4 d a b w o c)

def execXamoAnd (d a b : BitVec 5) (w : BitVec 1) (o : BitVec 2) (c : BitVec 3) (s : State) : Host.Outcome State Fault Refusal :=
  .next (s.xamo (.xamoAnd d a b w o c) 5 d a b w o c)

def execXamoOr (d a b : BitVec 5) (w : BitVec 1) (o : BitVec 2) (c : BitVec 3) (s : State) : Host.Outcome State Fault Refusal :=
  .next (s.xamo (.xamoOr d a b w o c) 6 d a b w o c)

def execXamoXor (d a b : BitVec 5) (w : BitVec 1) (o : BitVec 2) (c : BitVec 3) (s : State) : Host.Outcome State Fault Refusal :=
  .next (s.xamo (.xamoXor d a b w o c) 7 d a b w o c)

def execXamoSwap (d a b : BitVec 5) (w : BitVec 1) (o : BitVec 2) (c : BitVec 3) (s : State) : Host.Outcome State Fault Refusal :=
  .next (s.xamo (.xamoSwap d a b w o c) 8 d a b w o c)

def execXamoCas (d a b : BitVec 5) (w : BitVec 1) (o : BitVec 2) (c : BitVec 3) (s : State) : Host.Outcome State Fault Refusal :=
  .next (s.xamo (.xamoCas d a b w o c) 9 d a b w o c)

def execXamoFadd (d a b : BitVec 5) (o : BitVec 2) (c : BitVec 3) (s : State) : Host.Outcome State Fault Refusal :=
  .next (s.xamo (.xamoFadd d a b o c) 10 d a b 0 o c)

/-- XST (R424). -/
def execXst (d b : BitVec 5) (z : BitVec 3) (o : BitVec 2) (x : BitVec 10) (s : State) : Host.Outcome State Fault Refusal :=
  let n := sizeBytes z
  .next (if s.cur.pendsOn (b :: sizeRegs d n) then s
    else s.noteX (s.needleStore (.xst d b z o x) peerPlace (s.cur.addr b x n) (s.cur.storeBytes d n) (o == 2) (o == 2)))

/-! ### Replies, acknowledgements and late refusals (R209, R231, R309, R329, R480) -/

/-- NEEDLE_MEMORY_REPLY: the outstanding entry `ev.n` of a slot is performed and returns, unless an older request of its tile to
its bytes is on its way or something holds it (R25, R31, R32, R39). With `ev.flag` only lane `ev.v` of a vector load is performed
(R325), and not before a lower lane of the same bytes (R330). -/
def execNeedleMemoryReply (s : State) : Host.Outcome State Fault Refusal :=
  let t := s.ev.tile
  let k := s.ev.unit
  .next (match (s.slot t k).pend? s.ev.n with
    | none => s
    | some p =>
      let only := if s.ev.flag then some s.ev.v.toNat else none
      if p.fe || !s.mayPerform t p.id (p.spansOf only) || only.any p.laneWaits then s
      else
        match p.kind with
        | .vec _ _ _ _ _ => s.performLanes t k p only
        | _ => s.performPend t k p)

/-- STORE_ACK: the owner acknowledges access `ev.n` of the tile's pending-store table, alone with `ev.flag`, else with the
other lanes of its instruction, in lane order (R296, R329); a store that has left the table is performed at system scope. -/
def execStoreAck (s : State) : Host.Outcome State Fault Refusal :=
  let t := s.ev.tile
  .next (match (s.tile t).stores.find? fun e => e.id == s.ev.n with
    | none => s.systemAck t s.ev.n
    | some e =>
      if s.ev.flag then s.ackOne t e.id
      else ((s.tile t).stores.filter fun x => x.entry == e.entry).foldl (fun a x => a.ackOne t x.id) s)

/-- FE_REQUEST_RETRY: a refused request, number `ev.n` in the list of requests, tries again; one that waits at its word is served
where nothing before it keeps it (R309). -/
def execFeRequestRetry (s : State) : Host.Outcome State Fault Refusal :=
  .next (match s.feWait[s.ev.n]? with
    | none => s
    | some q =>
      if !q.retry then s.serve q.word
      else if (s.feReady q || !s.nodeFull q.word) && s.pathOpen q.tile q.word then
        { s with feWait := dropAt s.feWait s.ev.n }.feRequest q.who q.word
      else s)

/-- The TRAPCAUSE code and SUB of a late refusal (R477). -/
def lateCode (c : LateCause) (loc : Nat) : Nat × Nat :=
  match c with
  | .elsize => (0x05, 0)
  | .epeer => (0x06, loc / 2 ^ 54 % 256)
  | .epath => (0x0E, 0)
  | .edata => (0x0D, 0)

/-- The location and address of an outstanding access: of lane `k` where it is a vector load that lacks it. -/
def Pend.place (p : Pend) (k : Nat) : Nat × Word :=
  match p.kind with
  | .vec _ _ _ l _ => (match l.find? fun e => e.k == k with
    | some e => (e.loc, e.va)
    | none => (p.loc, p.va))
  | _ => (p.loc, p.va)

/-- LATE_REFUSAL_ARRIVAL: the access or store `ev.n` comes back refused for a cause that holds of it, a vector load at lane `ev.v`
(R231, R480). -/
def execLateRefusalArrival (s : State) : Host.Outcome State Fault Refusal :=
  let t := s.ev.tile
  let k := s.ev.unit
  .next (match (s.slot t k).pend? s.ev.n with
    | some p =>
      let at_ := p.place s.ev.v.toNat
      let c := lateCode s.ev.cause at_.1
      (match p.kind with
      | .result => s
      | _ =>
        if !s.causeHolds t at_.1 ((p.pieces.head?.map Piece.n).getD 8) false s.ev.cause then s
        else if p.fe then
          { s with feWait := s.feWait.filter fun q => q.who != FeWho.needle t k p.id }.modSlot t k fun sl =>
            sl.feFail p.id c.1 c.2 at_.2
        else s.modSlot t k fun sl => (sl.dropPend p.id).pushLate c.1 c.2 at_.2)
    | none =>
      match (s.tile t).stores.find? fun e => e.id == s.ev.n && e.slot == k % 8 with
      | none =>
        if decide (s.ev.cause = .epath) && (s.slot t k).held.any (s.pathFailed t) then s.modSlot t k fun sl => { sl with cut := true }
        else s
      | some e =>
        let c := lateCode s.ev.cause e.loc
        if s.causeHolds t e.loc e.bytes.length true s.ev.cause then s.refuseStore t e c.1 c.2 else s)

/-- LATE_REFUSAL_TRAP: the oldest held late refusal is taken at an instruction boundary (R480). -/
def execLateRefusalTrap (s : State) : Host.Outcome State Fault Refusal :=
  let t := s.ev.tile
  let k := s.ev.unit
  let sl := s.slot t k
  .next (match sl.late with
    | [] => s
    | x :: r =>
      if sl.inTrap then s
      else (s.modSlot t k fun sl => { sl with late := r }).takeTrap t k x.cause sl.instrPc sl.instrPc x.val)

/-- BUDGET_EXPIRY: EBUDGET at an instruction boundary (R391). -/
def execBudgetExpiry (s : State) : Host.Outcome State Fault Refusal :=
  let t := s.ev.tile
  let k := s.ev.unit
  let sl := s.slot t k
  .next (if sl.budgetDue && !sl.inTrap then
      (s.modSlot t k fun sl => { sl with budgetDue := false }).takeTrap t k (trapWord 0x08 0 false) sl.instrPc sl.instrPc 0
    else s)

/-! ### Faults of a fetch and of a word (R134, R135, R479) -/

/-- RESERVED_ENCODING: EILLEGAL with the word, or with the EXT word of a pair (R134, R477). -/
def execReservedEncoding (s : State) : Host.Outcome State Fault Refusal :=
  .next (s.trap 0x01 0 (match s.cur.ext with
    | some p => BitVec.ofNat 64 (0x02000000 + p.toNat)
    | none => s.ev.v.setWidth 64))

/-- FETCH_FAULT: the cause and SUB that the fetch met, with the word's address (R135, R479). -/
def execFetchFault (s : State) : Host.Outcome State Fault Refusal := .next (s.trap s.ev.n s.ev.unit (s.ev.v.setWidth 64))

/-- TLB_WALK: a walk for an address of a slot fills the caches (R353, R357); with `ev.flag` it reads one level of its tables
(R358). -/
def execTlbWalk (s : State) : Host.Outcome State Fault Refusal :=
  let sl := s.slot s.ev.tile s.ev.unit
  let va : Word := s.ev.v.setWidth 64
  .next (if s.ev.flag then s.walkOn s.ev.tile (s.ev.unit % 8) sl.asid sl.gen va
    else (s.needleTr s.ev.tile s.ev.unit s.ev.kind va).1)

/-- EARLY_SPILL_OR_FILL: the oldest window is spilled early, or the next one filled, where it would not fault (R224). -/
def execEarlySpillOrFill (s : State) : Host.Outcome State Fault Refusal :=
  let t := s.ev.tile
  let k := s.ev.unit
  let sl := s.slot t k
  .next (if !sl.runs then s
    else
      match (if s.ev.flag then
          (if sl.frames.length < sl.depth.toNat ∧ sl.frames.length < 5 then s.fillWindow t k .ret else Win.wait s)
        else s.spill t k .ret) with
      | .done s1 => s1
      | _ => s)

end Sys2Proof.Machine
end

