-- ==== Sys2Proof/Machine/Mgmt.lean ====
section
/-!
DEFINITION. Power-on and boot (R507, R508), the management window and its commands (R503-R505, R509), the host's doorbell
pages (R254), stores that have rows of their own, heat (R500-R502), clock gating (R91) and the care label's storage (R510).
-/
namespace Sys2Proof.Machine

/-! ### Power (R23, R507, R510) -/

/-- Memory that is not the module's: the host's, and that of other wafers. -/
def beyondWafer (loc : Nat) : Bool := decide ((2 ^ 64 ≤ loc ∧ loc < 2 ^ 65) ∨ (0x40 ≤ loc / 2 ^ 56 ∧ loc / 2 ^ 56 ≤ 0x7F))

/-- Silicon as the flash keeps it (R23): its place in the map, its routes, banks, spare element and fences,
with the directions that fences leave too few lanes (R33). A retirement under
way is over; every other change of state is undone. -/
def Phys.inFlash (P : Phys) (p : Nat) : Phys :=
  let st := if P.state = 4 then 5 else if P.state = 2 ∨ P.state = 3 then 1 else P.state
  let low := if st = 5 then 0 else P.dself.toNat % 2 ^ 29
  { P with dself := BitVec.ofNat 32 (st * 2 ^ 29 + low), clksrc := (phys0State p).clksrc, fwd := none, hold := false, dark := false, lost := 0
           badLinks := ((List.range 4).filter fun d => decide (P.lanes.get 8 d < 4)).flatMap fun d => [d, d + 4] }

/-- The module without power (R510): only the flash, the fuses and what is not the module's remain; counters and histograms
stand as last checkpointed. -/
def State.unpowered (s : State) : State :=
  let s1 := if s.committing then s.settleDue else s
  let g := s.mgmt
  { State.reset with
    mem := s.mem.filter fun c => beyondWafer c.1
    empties := s.empties.filter beyondWafer
    marks := s.marks.filter beyondWafer
    care := { s.care with buf := [], ctr := s.care.saved, hist := s.care.histSaved }
    mgmt := { Mgmt.reset with
      fuses := g.fuses, fuseBanks := g.fuseBanks, fuseEmap := g.fuseEmap, fuseDead := g.fuseDead, fuseHash := g.fuseHash, fuseSvn := g.fuseSvn
      field := s1.phys.foldl (fun (l : Tab Phys) e => l.put e.1 (e.2.inFlash e.1)) g.field }
    focus := s.focus
    ev := s.ev
    agenda := s.agenda
    seq := s.seq
    free := s.free
    turns := s.turns }

/-- POWER_LOSS. -/
def execPowerLoss (s : State) : Host.Outcome State Fault Refusal := .next s.unpowered

/-- Silicon as the fuses give it. -/
def Mgmt.fused (g : Mgmt) (p : Nat) (x : BitVec 32 × Word × Word × BitVec 32 × BitVec 32) : Phys :=
  { phys0State p with dself := x.1, drtd := x.2.1, drts := x.2.2.1, measd := x.2.2.2.1, meass := x.2.2.2.2
                      banks := g.fuseBanks.get 0xFFFF p, emap := g.fuseEmap.get 17 p, dead := g.fuseDead.contains p }

/-- POWER_ON: the chains apply the manufacturing map of the fuses and the field changes (R23, R36, R507). -/
def execPowerOn (s : State) : Host.Outcome State Fault Refusal :=
  let s1 := s.unpowered
  let g := s1.mgmt
  let made := g.fuses.foldl (fun (l : Tab Phys) e => l.put e.1 (g.fused e.1 e.2)) []
  .next ({ s1 with phys := g.field.foldl (fun (l : Tab Phys) e => l.put e.1 e.2) made })

/-! ### The first-stage image (R507, R508) -/

/-- A digest or signature value as a byte string, most significant byte first. -/
def bigBytes (n v : Nat) : List Byte := (natBytes n v).reverse

/-- The image that the host has written, as long as its header says; none where the header is not one. -/
def State.firstImage (s : State) : Option (List Byte) :=
  let size := s.readNat (imageLoc 8) 8
  if s.readNat (imageLoc 0) 4 = 0x54534142 ∧ 0xA0 ≤ size ∧ size ≤ 0x4000000 then some (s.bytes (imageLoc 0) size) else none

/-- The image passes the checks of R508. -/
def Mgmt.accepts (g : Mgmt) (img : List Byte) : Bool :=
  let key := (img.drop 0x10).take 64
  g.fuseHash.contains (Config.sm3 key) && decide (g.fuseSvn.toNat ≤ blkField img 4 4) && decide (blkField img 0x90 16 = 0)
    && Config.sm2Verify key ((img.drop 0x50).take 64) (bigBytes 32 (Config.sm3 (img.drop 0xA0)).toNat)

/-- The system actor's reserved pockets, with the settings of R375. -/
def Router.bindSystem (r : Router) (img : List Byte) : Router :=
  let r1 := { r with sysActor := { Actor.reset with
    state := .bound, sbase := Config.imageEntry img 2, ssize := Config.imageEntry img 3 } }
  (((r1.bindPocket 0 true 0 true 0 0 63 15 (Config.imageEntry img 1) false).bindPocket 125 true 0 true 0 0 63 3 0
    false).bindPocket 126 true 0 true 0 0 0 15 0 false).bindPocket 127 true 0 true 0 0 0 0 0 false

/-- A live tile is basted: the image's code and state, its system actor, and the boot stitch to label 125. -/
def State.baste (s : State) (img : List Byte) (t : Nat) : State :=
  let s1 := (Config.imageCells img).foldl (fun a c => a.write (localLoc t c.1) [c.2]) s
  let st : Stitch := ⟨selvedge, false, 0, t, 125, none, true, Config.imageEntry img 0, 0, 0, none, none⟩
  (s1.modRouter t fun r => r.bindSystem img).post (.stitch st) selvedge t false

/-- FIRST_STAGE_IMAGE_CHECK. -/
def execFirstStageImageCheck (s : State) : Host.Outcome State Fault Refusal :=
  .next (if s.mgmt.basted then s
    else
      match s.firstImage.filter s.mgmt.accepts with
      | none => s.raise 3
      | some img =>
        let s1 := { s with mgmt := { s.mgmt with
          basted := true, imageHash := Config.sm3 img, svn := BitVec.ofNat 32 (blkField img 4 4) } }
        ((List.range tileCount).filter fun t => decide (1 ≤ (s.silicon t).state ∧ (s.silicon t).state ≤ 3)).foldl
          (fun a t => a.baste img t) s1)

/-! ### Commands (R253, R447, R492, R504, R505, R509, R510) -/

/-- A word of the command block. -/
def Mgmt.word (g : Mgmt) (i : Nat) : Word := g.cmd[i % 8]'(Nat.mod_lt _ (by decide))

/-- The management state with a word of the command block written. -/
def Mgmt.setWord (g : Mgmt) (i : Nat) (v : Word) : Mgmt := { g with cmd := g.cmd.set (i % 8) v (Nat.mod_lt _ (by decide)) }

/-- Command `code` has been started and has not been answered. -/
def State.asked (s : State) (code : Nat) : Bool :=
  s.mgmt.basted && decide (get (s.mgmt.word 0) 7 0 = code ∧ get (s.mgmt.word 7) 7 0 = 0xFF)

/-- The answer to a command, in word 7. -/
def State.reply (s : State) (status rest : Nat) : State :=
  { s with mgmt := s.mgmt.setWord 7 (put 0 8 status + put 8 56 rest) }

/-- Bytes written to host memory. -/
def State.hostWrite (s : State) (a : Word) (bs : List Byte) : State :=
  (s.write (hostLoc a.toNat) (bs.take (2 ^ 64 - a.toNat))).write (hostLoc 0) (bs.drop (2 ^ 64 - a.toNat))

/-- Queue descriptors that the plane accepts (R253). -/
def queueOk (d0 d1 : Word) : Bool :=
  decide (get d0 11 8 ≤ 11 ∧ get d0 7 6 = 0 ∧ get d1 62 56 = 0 ∧ get d1 23 16 = 0)
    && decide (get d1 39 32 + get d1 55 48 ≤ 135 ∧ get d1 31 24 + get d1 47 40 ≤ 187)

/-- QSET. -/
def execQset (s : State) : Host.Outcome State Fault Refusal :=
  let w := s.mgmt.word
  .next (if !s.asked 1 then s
    else if 32768 ≤ (w 1).toNat ∨ queueOk (w 2) (w 3) = false then s.reply 2 0
    else (s.modQueue (w 1).toNat fun q => { q with d0 := w 2, d1 := w 3 }).reply 0 0)

/-- WINSET. -/
def execWinset (s : State) : Host.Outcome State Fault Refusal :=
  let w := s.mgmt.word
  .next (if !s.asked 2 then s
    else if 8 ≤ (w 1).toNat then s.reply 2 0
    else
      { s with mgmt := { s.mgmt with
        winBase := s.mgmt.winBase.put (w 1).toNat (w 2), winSize := s.mgmt.winSize.put (w 1).toNat (w 3) } }.reply 0 0)

/-- SWROUND. -/
def execSwround (s : State) : Host.Outcome State Fault Refusal :=
  let n := (s.mgmt.word 1).toNat
  .next (if !s.asked 3 then s
    else if n < 32 ∨ 40 < n then s.reply 2 0
    else { s with mgmt := { s.mgmt with swLog := n } }.reply 0 0)

/-- The record of a lifetime index (R510): zeros where it has been overwritten; one not yet written is not stated (log 15). -/
def State.careAt (s : State) (i : Nat) : List Byte :=
  let first := s.care.total - s.care.log.length
  if i < first then List.replicate 16 0
  else
    match s.care.log[i - first]? with
    | some r => natBytes 8 r.w0.toNat ++ natBytes 8 r.w1.toNat
    | none => natBytes 8 (Config.freeWord (s.free + 2 * i)).toNat ++ natBytes 8 (Config.freeWord (s.free + 2 * i + 1)).toNat

/-- CAREREAD. -/
def execCareread (s : State) : Host.Outcome State Fault Refusal :=
  let w := s.mgmt.word
  .next (if !s.asked 4 then s
    else
      let bs := (List.range (w 2).toNat).flatMap fun i => s.careAt ((w 1).toNat + i)
      { s.hostWrite (w 3) bs with free := s.free + 2 * ((w 1).toNat + (w 2).toNat) }.reply 0 0)

/-- Bytes 0x00 to 0x7F of the attestation record (R509). -/
def State.attestation (s : State) : List Byte :=
  let w := s.mgmt.word
  ([1, 2, 3, 4].flatMap fun i => natBytes 8 (w i).toNat) ++ bigBytes 32 s.mgmt.imageHash.toNat
    ++ bigBytes 32 Config.fuseMapHash.toNat ++ natBytes 4 s.mgen.toNat ++ natBytes 1 s.mgmt.wid.toNat ++ natBytes 3 0
    ++ natBytes 8 s.care.total ++ natBytes 4 s.mgmt.svn.toNat ++ natBytes 12 0

/-- ATTEST. -/
def execAttest (s : State) : Host.Outcome State Fault Refusal :=
  .next (if !s.asked 5 then s
    else (s.hostWrite (s.mgmt.word 5) (s.attestation ++ natBytes 64 (Config.sm2Sign s.attestation).toNat)).reply 0 0)

/-- SETID. -/
def execSetid (s : State) : Host.Outcome State Fault Refusal :=
  let v := s.mgmt.word 1
  .next (if !s.asked 6 then s
    else if s.mgmt.idSet = true ∨ 256 ≤ v.toNat then s.reply 2 0
    else { s with mgmt := { s.mgmt with idSet := true, wid := v.setWidth 8 } }.setReach s |>.reply 0 0)

/-- The queue of a STAGE or FETCH may be used: enabled, with its ASID's current GEN, and the length is one (R505). -/
def State.copyOk (s : State) : Bool :=
  let w := s.mgmt.word
  let q := s.queue (w 1).toNat
  decide ((w 1).toNat < 32768) && q.enabled && decide (q.gen = (s.asid q.asid).gen)
    && decide (1 ≤ (w 4).toNat ∧ (w 4).toNat ≤ 2 ^ 32)

/-- Bytes of the next piece of a copy: up to the end of a word. -/
def pieceLen (va : Word) (n : Nat) : Nat := min n (8 - va.toNat % 8)

/-- STAGE copies in ascending order, by pieces within words: the machine, and how many bytes were copied before a fault. -/
def State.stageCopy (s : State) (q : Queue) (va ha : Word) (done : Nat) : Nat → Nat → State × Option Nat
  | 0, _ => (s, none)
  | fuel + 1, n =>
    if n = 0 then (s, none)
    else
      let t := tileKey q.alloc.x q.alloc.y
      let k := pieceLen va n
      match s.userLoc t q.asid q.gen .store va with
      | none => (s, some done)
      | some (loc, fe) =>
        let bs := (List.range k).map fun i => s.byte (hostLoc (ha + BitVec.ofNat 64 i).toNat)
        ((s.expose loc bs).apply loc bs fe).stageCopy q (va + BitVec.ofNat 64 k) (ha + BitVec.ofNat 64 k) (done + k) fuel (n - k)

/-- What a FETCH comes to. -/
inductive Fetched where
  | all (bs : List Byte)
  | stopped (bs : List Byte)
  | wait

/-- FETCH reads in ascending order; on a full-empty page it waits for an empty word. A marked word's bytes are not stated
(log 15). -/
def State.fetchBytes (s : State) (q : Queue) (va : Word) (acc : List Byte) : Nat → Nat → Fetched
  | 0, _ => .all acc
  | fuel + 1, n =>
    if n = 0 then .all acc
    else
      let t := tileKey q.alloc.x q.alloc.y
      let k := pieceLen va n
      match s.userLoc t q.asid q.gen .load va with
      | none => .stopped acc
      | some (loc, fe) =>
        if fe && s.isEmpty (wordOf loc) then .wait
        else
          let bs := if s.marked loc k then natBytes k (Config.freeWord (s.free + acc.length)).toNat else s.bytes loc k
          s.fetchBytes q (va + BitVec.ofNat 64 k) (acc ++ bs) fuel (n - k)

/-- A copy stopped at its first failing byte: STATUS 4, the bytes copied, and its address in word 6 (R505). -/
def State.copyStopped (s : State) (n : Nat) : State :=
  { s with mgmt := s.mgmt.setWord 6 (s.mgmt.word 2 + BitVec.ofNat 64 n) }.reply 4 n

/-- STAGE. -/
def execStage (s : State) : Host.Outcome State Fault Refusal :=
  let w := s.mgmt.word
  let n := (w 4).toNat
  .next (if !s.asked 7 then s
    else if !s.copyOk then s.reply 2 0
    else
      match s.stageCopy (s.queue (w 1).toNat) (w 2) (w 3) 0 n n with
      | (s1, none) => s1.reply 0 0
      | (s1, some k) => s1.copyStopped k)

/-- FETCH. -/
def execFetch (s : State) : Host.Outcome State Fault Refusal :=
  let w := s.mgmt.word
  let n := (w 4).toNat
  .next (if !s.asked 8 then s
    else if !s.copyOk then s.reply 2 0
    else
      match s.fetchBytes (s.queue (w 1).toNat) (w 2) [] n n with
      | .all bs => { s.hostWrite (w 3) bs with free := s.free + n }.reply 0 0
      | .stopped bs => { s.hostWrite (w 3) bs with free := s.free + n }.copyStopped bs.length
      | .wait => s)

/-- IDKEY. -/
def execIdkey (s : State) : Host.Outcome State Fault Refusal :=
  .next (if !s.asked 9 then s
    else (s.hostWrite (s.mgmt.word 1) (natBytes 64 Config.identityKey.toNat)).reply 0 0)

/-! ### The host's registers (R254, R503) -/

/-- Work queues of a wafer (R1, R253). -/
def queueCount : Nat := 32768

/-- ALERT_READ: the bits clear as they are read. -/
def execAlertRead (s : State) : Host.Outcome State Fault Refusal := .next ({ s with mgmt := { s.mgmt with alert := 0 } })

/-- The queue whose doorbell page holds offset `off` of BAR0 of host port `p` (R446). -/
def queueAt (p off : Nat) : Nat := 4096 * p + off / 4096

/-- A read of a doorbell page at an offset in it (R254): WIDX is written only. -/
def Queue.read (q : Queue) (off : Nat) : Word :=
  match off with
  | 0x08 => q.ridx.zeroExtend 64
  | 0x10 => q.cidx.zeroExtend 64
  | 0x18 => q.qerr.zeroExtend 64
  | 0x20 => q.d0
  | 0x28 => q.d1
  | _ => 0

/-- QERR_READ: a read at offset `ev.n` of BAR0 of host port `ev.tile` (R446); of a queue's QERR, it clears the bits it reads. -/
def execQerrRead (s : State) : Host.Outcome State Fault Refusal :=
  let n := queueAt s.ev.tile s.ev.n
  .next (if queueCount ≤ n ∨ s.ev.n % 4096 ≠ 0x18 then s else s.modQueue n fun q => { q with qerr := 0 })

/-- WIDX_WRITE: a write of `ev.v` at offset `ev.n` of BAR0 of host port `ev.tile` (R446); to a queue's WIDX, one that would exceed the
ring sets OVR, one to a queue that is off sets bit 1, and another register takes no write. -/
def execWidxWrite (s : State) : Host.Outcome State Fault Refusal :=
  let v : BitVec 32 := s.ev.v.setWidth 32
  let n := queueAt s.ev.tile s.ev.n
  .next (if queueCount ≤ n ∨ s.ev.n % 4096 ≠ 0 then s else s.modQueue n fun q =>
    if !q.enabled then { q with qerr := q.qerr ||| 2 }
    else if q.slots < (v - q.cidx).toNat then { q with qerr := q.qerr ||| 1 }
    else { q with widx := v })

/-- A store to the panel registers of the management window (R503): PCTL.BUDGET, THERM without TNOW. -/
def Panel.store (p : Panel) (off : Nat) (v : Word) : Panel :=
  if off = 0 then { p with budget := BitVec.ofNat 24 (get v 23 0) }
  else if off = 8 then
    { p with tcrit := BitVec.ofNat 8 (get v 31 24), talert := BitVec.ofNat 8 (get v 23 16), thyst := BitVec.ofNat 8 (get v 15 8) }
  else p

/-- PCTL and THERM as the management window shows them (R503). -/
def Panel.read (p : Panel) (off : Nat) : Word :=
  if off = 0 then put 32 24 p.booked + put 0 24 p.budget.toNat
  else if off = 8 then put 24 8 p.tcrit.toNat + put 16 8 p.talert.toNat + put 8 8 p.thyst.toNat + put 0 8 p.tnow.toNat
  else 0

/-- An 8-byte read of the host at an offset of the management window (R503); ALERT also clears, by ALERT_READ. -/
def State.windowRead (s : State) (off : Nat) : Word :=
  if off = 0x100 then s.mgmt.alert.zeroExtend 64
  else if 0x1000 ≤ off ∧ off < 0x1040 then s.mgmt.word ((off - 0x1000) / 8)
  else if 0x8000 ≤ off ∧ off < 0x8000 + 0x40 * 56 then (s.panel ((off - 0x8000) / 0x40)).read ((off - 0x8000) % 0x40)
  else 0

/-- A write of DOOR (R504): word 7 reads 0xFF while the command runs, 3 for an unknown code; before the plane accepts commands
nothing happens (R508). -/
def State.door (s : State) : State :=
  let c := get (s.mgmt.word 0) 7 0
  if !s.mgmt.basted then s else if 1 ≤ c ∧ c ≤ 9 then s.reply 0xFF 0 else s.reply 3 0

/-- An 8-byte write of the host to the management window. -/
def State.windowWrite (s : State) (off : Nat) (v : Word) : State :=
  if 0x1000 ≤ off ∧ off < 0x1040 then { s with mgmt := s.mgmt.setWord ((off - 0x1000) / 8) v }
  else if off = 0x1040 then s.door
  else if 0x8000 ≤ off ∧ off < 0x8000 + 0x40 * 56 then s.modPanel ((off - 0x8000) / 0x40) fun p => p.store ((off - 0x8000) % 0x40) v
  else if 0x100000 ≤ off ∧ off < 0x100000 + 0x4000000 then s.write (imageLoc (off - 0x100000)) (natBytes 8 v.toNat)
  else s

/-! ### Stores with rows of their own -/

/-- REGISTER_WRITE: with `ev.flag` a write of the host at offset `ev.n` of the management window, else a store of a management
core to the control register at bits [55:0] `ev.n` of its address (R28, R503). -/
def execRegisterWrite (s : State) : Host.Outcome State Fault Refusal :=
  let v : Word := s.ev.v.setWidth 64
  let pa := 0xF0 * 2 ^ 56 + s.ev.n % 2 ^ 56
  .next (if s.ev.flag then s.windowWrite s.ev.n v
    else
      match s.place 0 pa with
      | some (.control a) => s.ctlWrite a v
      | _ => s)

/-- ASIDS_WRITE: `ev.v` to ASIDS of `ev.n` (R354). -/
def execAsidsWrite (s : State) : Host.Outcome State Fault Refusal := .next (s.setAsid s.ev.n (s.ev.v.setWidth 64))

/-- GSTAT_RESUME_WRITE: a store to the GSTAT of generator `ev.unit` of a tile (R362). -/
def execGstatResumeWrite (s : State) : Host.Outcome State Fault Refusal :=
  .next (if s.ev.unit ≤ 8 then s.resumeGen s.ev.tile s.ev.unit else s)

/-- RELADV_WRITE: `ev.v` to RELADV of a tile (R469). -/
def execReladvWrite (s : State) : Host.Outcome State Fault Refusal := .next (s.setReladv s.ev.tile (s.ev.v.setWidth 64))

/-- HQCFG_WRITE: `ev.v` to HQCFG of a tile (R376, R377). -/
def execHqcfgWrite (s : State) : Host.Outcome State Fault Refusal :=
  .next (s.modRouter s.ev.tile fun r => r.setHqcfg (s.ev.v.setWidth 64))

/-- The STATE codes of a group (R80). -/
def groupState (n : Nat) : GroupState :=
  match n with
  | 0 => .idle
  | 1 => .armed
  | 2 => .streaming
  | _ => .closing

/-- An entry of the group table with the fields of R78 written; the stream's bookkeeping and the members stand. -/
def Group.written (g : Group) (v : BitVec 128) : Group :=
  let f := fun hi lo => v.toNat / 2 ^ lo % 2 ^ (hi + 1 - lo)
  { g with v := v.getLsbD 127, state := groupState (f 126 125), w2 := v.getLsbD 124, fibre := f 123 114
           lambda := BitVec.ofNat 4 (f 113 110), split := BitVec.ofNat 8 (f 109 102), fmt := BitVec.ofNat 3 (f 101 99)
           nmem := f 98 93, pace := f 92 77, epoch := BitVec.ofNat 8 (f 76 69), seq := BitVec.ofNat 32 (f 63 32)
           last := BitVec.ofNat 32 (f 31 0) }

/-- GROUP_TABLE_WRITE: entry `ev.n` takes `ev.v`, unless R79 refuses it. -/
def execGroupTableWrite (s : State) : Host.Outcome State Fault Refusal :=
  let n := s.ev.n
  let g := s.group n
  let h := g.written s.ev.v
  .next (if 1024 ≤ n ∨ (g.v = true ∧ g.state ≠ .idle) ∨ s.groupWriteOk n h = false then s
    else (if s.setsSplit n h then s.setSplit h.fibre h.split else s).modGroup n fun _ => h)

/-! ### Heat (R500-R502, R506) -/

/-- One bin more. -/
def bump (h : Tab Nat) (k : Nat) : Tab Nat := h.put k (h.get 0 k + 1)

/-- The level of a panel after a sample of `t` degrees (R500). -/
def Panel.sampled (p : Panel) (t : Nat) : Panel :=
  let hot := decide (p.talert.toNat ≤ t)
  let cool := decide (t + p.thyst.toNat ≤ p.talert.toNat)
  let fall := hot && decide (1 ≤ p.hotMs)
  let rise := cool && decide (p.coolMs = 10)
  let l := if p.tcrit.toNat ≤ t then 2
    else if fall then max 2 (p.level - 2)
    else if rise then min 8 (p.level + 2)
    else p.level
  { p with tnow := BitVec.ofNat 8 t, level := l, hotMs := if hot then p.hotMs + 1 else 0
           coolMs := if rise then 1 else if cool then p.coolMs + 1 else 0 }

/-- The RATE of a panel's buckets (R501). -/
def Panel.rate (p : Panel) : Nat :=
  if p.budget.toNat < p.booked then 256 * p.budget.toNat * p.level / (8 * p.booked) else 256 * p.level / 8

/-- A bucket with a RATE, and DEPTH 64 (R498, R501). -/
def Bucket.rated (b : Bucket) (r : Nat) : Bucket := ⟨BitVec.ofNat 16 r, 64, min b.count (64 * 256)⟩

/-- Every bucket of a tile takes a RATE. -/
def Tile.rated (T : Tile) (r : Nat) : Tile :=
  { T with buckW := T.buckW.rated r, buckC0 := T.buckC0.rated r, buckC1 := T.buckC1.rated r }

/-- A thermal alert: its bit and a care-label record, whose EVENT the spec does not list (R506; log 15). -/
def State.thermalAlert (s : State) : State :=
  let r : CareRec := ⟨s.freeVal, s.useFree.freeVal⟩
  { s.useFree.useFree with care := { s.care with
      buf := s.care.buf ++ [r], ctr := s.care.ctr.put r.w1.toNat (min (2 ^ 64 - 1) (s.care.ctr.get 0 r.w1.toNat + 1)) } }.raise 1

/-- THERMAL_SAMPLE: panel `ev.tile` samples `ev.n` degrees and `ev.v` millivolts (R493, R500, R501). -/
def execThermalSample (s : State) : Host.Outcome State Fault Refusal :=
  let p := s.ev.tile
  let tb := 128 * p + min 63 (s.ev.n / 2)
  let vb := 128 * p + 64 + min 63 ((s.ev.v.toNat - 500) / 10)
  let s1 := { s with care := { s.care with hist := bump (bump s.care.hist tb) vb } }.modPanel p fun P => P.sampled s.ev.n
  let s2 := if (s1.panel p).tcrit.toNat ≤ s.ev.n then s1.thermalAlert else s1
  let r := (s2.panel p).rate
  .next (((List.range (140 * 192)).filter fun q => physPanel q == p).foldl (fun a q => a.modTile (s.keyAt q) fun T => T.rated r) s2)

/-! ### Clock gating (R91) -/

/-- A tile is idle: no load is resident that has not settled, one that has been saved among them. -/
def State.idleTile (s : State) (t : Nat) : Bool :=
  let T := s.tile t
  let F := T.fabric
  decide (F.part.state = .idle ∨ F.part.state = .settled ∨ F.part.state = .saved)
    && (T.slots.toList.all fun sl => match sl.run with
        | .handler _ => false
        | _ => true)
    && T.readyLabels.isEmpty && T.router.inj.isEmpty && (F.streams.all fun e => e.2.job.isNone)
    && (F.islands.all fun e => e.2.jobs.isEmpty) && T.swatch.running.isEmpty && T.reweave.isNone
    && (F.rings.all fun e => decide (e.2.st = 0) || decide ((s.group e.2.group).state = .idle)) && T.gateEn

/-- TILE_CLOCK_GATE: a tile that has been idle for 4,096 cycles gates its clocks. -/
def execTileClockGate (s : State) : Host.Outcome State Fault Refusal :=
  .next (if s.idleTile s.ev.tile then s.modTile s.ev.tile fun T => { T with gated := true } else s)

/-- TILE_WAKE: an idle condition no longer holds. -/
def execTileWake (s : State) : Host.Outcome State Fault Refusal :=
  .next (if s.idleTile s.ev.tile then s else s.modTile s.ev.tile fun T => { T with gated := false })

/-! ### The care label's storage (R510) -/

/-- CARE_LOG_FLUSH: buffered records reach the log, 2^26 deep; where it is full the oldest go and ALERT bit 2 is set. -/
def execCareLogFlush (s : State) : Host.Outcome State Fault Refusal :=
  let l := s.care.log ++ s.care.buf
  let s1 := { s with care := { s.care with buf := [], log := l.drop (l.length - 2 ^ 26), total := s.care.total + s.care.buf.length } }
  .next (if 2 ^ 26 < l.length then s1.raise 2 else s1)

/-- CARE_CHECKPOINT. -/
def execCareCheckpoint (s : State) : Host.Outcome State Fault Refusal :=
  .next ({ s with care := { s.care with saved := s.care.ctr, histSaved := s.care.hist } })

/-! ### Tests that find no idle cycle (R422, R490) -/

/-- The unit of a test is busy now: an element or a copy stream that moves, a unit of the fabric in a running load, a router with messages,
or what keeps the test from running (R422). A MARCH always finds its bank. -/
def State.unitActive (s : State) (t : Nat) (d : Word) : Bool :=
  let u := descUnit d
  let F := (s.tile t).fabric
  s.unitBusy t d
    || (decide (u < 16) && ((F.elem u).beat.isSome || (s.pickSlot t u).isSome))
    || (decide (16 ≤ u ∧ u < 20) && (F.island (u - 16)).valid)
    || (decide (u = 20 ∨ u = 21) && (List.range 4).any fun k => s.streamRuns t (4 * (u - 20) + k))
    || (decide (22 ≤ u ∧ u ≤ 26) && s.unitRuns t)
    || (decide (u = 28) && s.flights.any fun f => f.at_ == s.physOf t)

/-- The unit of a test has been retired, or its tile (R490). -/
def State.unitRetired (s : State) (t : Nat) (d : Word) : Bool :=
  let u := descUnit d
  decide ((s.silicon t).state = 5) || s.cordoned t d
    || (decide (u = 27) && !(s.silicon t).banks.getLsbD (descSub d))

/-- SWATCH_TEST_ABANDON: a test whose unit stayed busy for 2^32 cycles, or has been retired, is abandoned; a targeted one that found its
unit busy runs once more, and the first abandonment is counted too (R422, R490, R493). How long it ran is `ev.v`. -/
def execSwatchTestAbandon (s : State) : Host.Outcome State Fault Refusal :=
  let t := s.ev.tile
  .next (match (s.tile t).swatch.running[s.ev.n]? with
    | none => s
    | some x =>
      let gone := s.unitRetired t x.desc
      if !gone && !s.unitActive t x.desc then s
      else if x.targeted && decide (x.tries = 0) && !gone then
        (s.modSwatch t fun w => { w with running := setAt w.running s.ev.n { x with tries := 1 } }).care1 t 0x000C
          (descTest x.desc * 4096 + 3)
      else s.endTest t s.ev.n 0 s.ev.v.toNat 3)

end Sys2Proof.Machine
end

