-- ==== Sys2Proof/Machine/ScalarFp.lean ====
section
/-!
DEFINITION. Scalar floating point of the needle core (R218-R221): operands from the low bits of scalar registers,
results zero-extended, flags, draws and the trap of R58.
-/
namespace Sys2Proof.Machine

/-- A floating-point instruction of the running slot: it waits for the registers it names (R209), forms its result
from the slot, then ends as R57 and R58 say. -/
def State.fpOp (s : State) (rs : List (BitVec 5)) (rm : Nat) (draws : Nat) (f : Slot → FRes) (w : Slot → Nat → Slot) :
    State :=
  if s.cur.pendsOn rs then s else s.fpEnd (f s.cur).exc rm draws fun sl => w sl (f s.cur).bits

/-- sD ← an operation of the type's format on s[a], s[b] and s[d] that rounds (R219). -/
def State.fpRound (s : State) (d a b : BitVec 5) (t : BitVec 2) (r : BitVec 3)
    (f : FFmt → Nat → Nat → Nat → Nat → Nat → FRes) : State :=
  s.fpOp [d, a, b] (s.cur.mode3 r) 1
    (fun sl => f (scalarFmt t) (sl.mode3 r) (sl.draw 0) (sl.sreg a).toNat (sl.sreg b).toNat (sl.sreg d).toNat)
    fun sl x => sl.setSreg d (BitVec.ofNat 64 x)

/-- sD ← an operation that does not round (R219). -/
def State.fpExact (s : State) (d a b : BitVec 5) (t : BitVec 2) (f : FFmt → Nat → Nat → FRes) : State :=
  s.fpOp [d, a, b] 0 0 (fun sl => f (scalarFmt t) (sl.sreg a).toNat (sl.sreg b).toNat)
    fun sl x => sl.setSreg d (BitVec.ofNat 64 x)

def execFadd (d a b : BitVec 5) (t : BitVec 2) (r : BitVec 3) (s : State) : Host.Outcome State Fault Refusal :=
  .next (s.fpRound d a b t r fun f rm w x y _ => f.add rm w x y)

def execFsub (d a b : BitVec 5) (t : BitVec 2) (r : BitVec 3) (s : State) : Host.Outcome State Fault Refusal :=
  .next (s.fpRound d a b t r fun f rm w x y _ => f.sub rm w x y)

def execFmul (d a b : BitVec 5) (t : BitVec 2) (r : BitVec 3) (s : State) : Host.Outcome State Fault Refusal :=
  .next (s.fpRound d a b t r fun f rm w x y _ => f.mul rm w x y)

def execFfma (d a b : BitVec 5) (t : BitVec 2) (r : BitVec 3) (s : State) : Host.Outcome State Fault Refusal :=
  .next (s.fpRound d a b t r fun f rm w x y z => f.fma rm w x y z)

def execFdiv (d a b : BitVec 5) (t : BitVec 2) (r : BitVec 3) (s : State) : Host.Outcome State Fault Refusal :=
  .next (s.fpRound d a b t r fun f rm w x y _ => f.div rm w x y)

def execFsqrt (d a : BitVec 5) (t : BitVec 2) (r : BitVec 3) (s : State) : Host.Outcome State Fault Refusal :=
  .next (s.fpRound d a 0 t r fun f rm w x _ _ => f.sqrt rm w x)

def execFmin (d a b : BitVec 5) (t : BitVec 2) (s : State) : Host.Outcome State Fault Refusal :=
  .next (s.fpExact d a b t fun f x y => f.minmax false x y)

def execFmax (d a b : BitVec 5) (t : BitVec 2) (s : State) : Host.Outcome State Fault Refusal :=
  .next (s.fpExact d a b t fun f x y => f.minmax true x y)

def execFabs (d a : BitVec 5) (t : BitVec 2) (s : State) : Host.Outcome State Fault Refusal :=
  .next (s.fpExact d a 0 t fun f x _ => f.abs x)

def execFneg (d a : BitVec 5) (t : BitVec 2) (s : State) : Host.Outcome State Fault Refusal :=
  .next (s.fpExact d a 0 t fun f x _ => f.negate x)

/-- FCVT (R220): the source type in `f`, the destination type in `t`. -/
def execFcvt (d a f t : BitVec 5) (r : BitVec 3) (s : State) : Host.Outcome State Fault Refusal :=
  .next (s.fpOp [d, a] (s.cur.mode3 r) 1
    (fun sl => convert (etype t.toNat) (etype f.toNat) (sl.mode3 r) (sl.draw 0) (sl.sreg a).toNat)
    fun sl x => sl.setSreg d ((etype t.toNat).image x))

/-- FCMP (R221). -/
def execFcmp (p : BitVec 3) (a b : BitVec 5) (t : BitVec 2) (c : BitVec 4) (s : State) : Host.Outcome State Fault Refusal :=
  .next (s.fpOp [a, b] 0 0
    (fun sl =>
      let x := (scalarFmt t).compare c.toNat (sl.sreg a).toNat (sl.sreg b).toNat
      ⟨bit x.1, x.2⟩)
    fun sl x => sl.setPred p (x == 1))

end Sys2Proof.Machine
end

