-- ==== Sys2Proof/Machine/Vector.lean ====
section
/-!
DEFINITION. Vector instructions of the needle core on registers (R282-R294): integer and floating lanes, conversions
with the mx block forms, reductions, permutes and masks.
-/
namespace Sys2Proof.Machine

/-! ### Integer lanes (R286, R287) -/

/-- The signed value of a lane of `w` bits. -/
def sv (w x : Nat) : Int := signed w x

def execVadd (d a b : BitVec 3) (m : BitVec 2) (z : BitVec 1) (w : BitVec 3) (s : State) : Host.Outcome State Fault Refusal :=
  .next (s.lanes2 w d a b m z fun _ x y => x + y)

def execVsub (d a b : BitVec 3) (m : BitVec 2) (z : BitVec 1) (w : BitVec 3) (s : State) : Host.Outcome State Fault Refusal :=
  .next (s.lanes2 w d a b m z fun w x y => x + 2 ^ w - y)

def execVmul (d a b : BitVec 3) (m : BitVec 2) (z : BitVec 1) (w : BitVec 3) (s : State) : Host.Outcome State Fault Refusal :=
  .next (s.lanes2 w d a b m z fun _ x y => x * y)

def execVmulh (d a b : BitVec 3) (m : BitVec 2) (z : BitVec 1) (w : BitVec 3) (s : State) : Host.Outcome State Fault Refusal :=
  .next (s.lanes2 w d a b m z fun w x y => intBits w (sv w x * sv w y / 2 ^ w))

def execVmulhu (d a b : BitVec 3) (m : BitVec 2) (z : BitVec 1) (w : BitVec 3) (s : State) : Host.Outcome State Fault Refusal :=
  .next (s.lanes2 w d a b m z fun w x y => x * y / 2 ^ w)

def execVand (d a b : BitVec 3) (m : BitVec 2) (z : BitVec 1) (w : BitVec 3) (s : State) : Host.Outcome State Fault Refusal :=
  .next (s.lanes2 w d a b m z fun _ x y => x &&& y)

def execVor (d a b : BitVec 3) (m : BitVec 2) (z : BitVec 1) (w : BitVec 3) (s : State) : Host.Outcome State Fault Refusal :=
  .next (s.lanes2 w d a b m z fun _ x y => x ||| y)

def execVxor (d a b : BitVec 3) (m : BitVec 2) (z : BitVec 1) (w : BitVec 3) (s : State) : Host.Outcome State Fault Refusal :=
  .next (s.lanes2 w d a b m z fun _ x y => x ^^^ y)

def execVandn (d a b : BitVec 3) (m : BitVec 2) (z : BitVec 1) (w : BitVec 3) (s : State) : Host.Outcome State Fault Refusal :=
  .next (s.lanes2 w d a b m z fun w x y => x &&& (2 ^ w - 1 - y))

def execVshl (d a b : BitVec 3) (m : BitVec 2) (z : BitVec 1) (w : BitVec 3) (s : State) : Host.Outcome State Fault Refusal :=
  .next (s.lanes2 w d a b m z fun w x y => x * 2 ^ (y % w))

def execVshr (d a b : BitVec 3) (m : BitVec 2) (z : BitVec 1) (w : BitVec 3) (s : State) : Host.Outcome State Fault Refusal :=
  .next (s.lanes2 w d a b m z fun w x y => x / 2 ^ (y % w))

def execVsra (d a b : BitVec 3) (m : BitVec 2) (z : BitVec 1) (w : BitVec 3) (s : State) : Host.Outcome State Fault Refusal :=
  .next (s.lanes2 w d a b m z fun w x y => intBits w (sv w x / 2 ^ (y % w)))

def execVmin (d a b : BitVec 3) (m : BitVec 2) (z : BitVec 1) (w : BitVec 3) (s : State) : Host.Outcome State Fault Refusal :=
  .next (s.lanes2 w d a b m z fun w x y => if sv w y < sv w x then y else x)

def execVmax (d a b : BitVec 3) (m : BitVec 2) (z : BitVec 1) (w : BitVec 3) (s : State) : Host.Outcome State Fault Refusal :=
  .next (s.lanes2 w d a b m z fun w x y => if sv w x < sv w y then y else x)

def execVminu (d a b : BitVec 3) (m : BitVec 2) (z : BitVec 1) (w : BitVec 3) (s : State) : Host.Outcome State Fault Refusal :=
  .next (s.lanes2 w d a b m z fun _ x y => min x y)

def execVmaxu (d a b : BitVec 3) (m : BitVec 2) (z : BitVec 1) (w : BitVec 3) (s : State) : Host.Outcome State Fault Refusal :=
  .next (s.lanes2 w d a b m z fun _ x y => max x y)

def execVadds (d a b : BitVec 3) (m : BitVec 2) (z : BitVec 1) (w : BitVec 3) (s : State) : Host.Outcome State Fault Refusal :=
  .next (s.lanes2 w d a b m z fun w x y => intBits w (sat true w (sv w x + sv w y)))

def execVaddsu (d a b : BitVec 3) (m : BitVec 2) (z : BitVec 1) (w : BitVec 3) (s : State) : Host.Outcome State Fault Refusal :=
  .next (s.lanes2 w d a b m z fun w x y => intBits w (sat false w (x + y : Nat)))

def execVsubs (d a b : BitVec 3) (m : BitVec 2) (z : BitVec 1) (w : BitVec 3) (s : State) : Host.Outcome State Fault Refusal :=
  .next (s.lanes2 w d a b m z fun w x y => intBits w (sat true w (sv w x - sv w y)))

def execVsubsu (d a b : BitVec 3) (m : BitVec 2) (z : BitVec 1) (w : BitVec 3) (s : State) : Host.Outcome State Fault Refusal :=
  .next (s.lanes2 w d a b m z fun w x y => intBits w (sat false w ((x : Int) - (y : Int))))

def execVabs (d a : BitVec 3) (m : BitVec 2) (z : BitVec 1) (w : BitVec 3) (s : State) : Host.Outcome State Fault Refusal :=
  .next (s.lanes2 w d a 0 m z fun w x _ => if sv w x < 0 then 2 ^ w - x else x)

/-- VMAD: the low bits of a × b + c. -/
def execVmad (d a b c : BitVec 3) (m : BitVec 2) (z : BitVec 1) (w : BitVec 3) (s : State) : Host.Outcome State Fault Refusal :=
  .next (s.lanes w d m z fun sl k =>
    lane (laneBits w) (sl.vreg a) k * lane (laneBits w) (sl.vreg b) k + lane (laneBits w) (sl.vreg c) k)

def execVmov (d a : BitVec 3) (m : BitVec 2) (z : BitVec 1) (w : BitVec 3) (s : State) : Host.Outcome State Fault Refusal :=
  .next (s.lanes2 w d a 0 m z fun _ x _ => x)

/-- A vector operation that reads the global scalar register of `c` (R155). -/
def State.lanesOf (s : State) (c : BitVec 3) (w : BitVec 3) (d : BitVec 3) (m : BitVec 2) (z : BitVec 1)
    (f : Slot → Nat → Nat) : State :=
  s.onSlot [global c] fun sl => sl.setVreg d (sl.merged (laneBits w) d m z (f sl))

/-- VSPLAT: the low bits of sN. -/
def execVsplat (d c : BitVec 3) (m : BitVec 2) (z : BitVec 1) (w : BitVec 3) (s : State) : Host.Outcome State Fault Refusal :=
  .next (s.lanesOf c w d m z fun sl _ => (sl.sreg (global c)).toNat)

/-- VCMP: lanes compared as R142 says; sign extension keeps both orders. -/
def execVcmp (d : BitVec 2) (a b : BitVec 3) (m : BitVec 2) (z : BitVec 1) (w : BitVec 3) (c : BitVec 4) (s : State) :
    Host.Outcome State Fault Refusal :=
  let n := laneBits w
  .next (s.onSlot [] fun x => x.setMreg d (x.mergedMask (4096 / n) d m z fun k =>
    intCompare c.toNat (BitVec.ofInt 64 (sv n (lane n (x.vreg a) k))) (BitVec.ofInt 64 (sv n (lane n (x.vreg b) k)))))

/-! ### Floating lanes (R285, R288, R289) -/

/-- The exceptions of the active lanes below `n`. -/
def Slot.laneExc (sl : Slot) (m : BitVec 2) (n : Nat) (f : Nat → Exc) : Exc :=
  (sl.activeLanes m n).foldl (fun x k => x ||| f k) 0

/-- A floating-point vector operation of the running slot: lane k of vD from `f` of the slot, the lane's draw and k. Under
RSR every lane takes a draw (R285). -/
def State.vfp (s : State) (d : BitVec 3) (m : BitVec 2) (z : BitVec 1) (t : BitVec 3) (rm draws : Nat)
    (f : Slot → Nat → Nat → FRes) : State :=
  let w := (vectorFmt t).width
  let c := s.cur
  s.fpEnd (c.laneExc m (4096 / w) fun k => (f c (c.draw k) k).exc) rm draws fun sl =>
    sl.setVreg d (c.merged w d m z fun k => (f c (c.draw k) k).bits)

/-- An operation of three lanes that rounds. -/
def State.vround (s : State) (d a b c : BitVec 3) (m : BitVec 2) (z : BitVec 1) (t r : BitVec 3)
    (f : FFmt → Nat → Nat → Nat → Nat → Nat → FRes) : State :=
  let fm := vectorFmt t
  s.vfp d m z t (s.cur.mode3 r) (4096 / fm.width) fun sl w k =>
    f fm (sl.mode3 r) w (lane fm.width (sl.vreg a) k) (lane fm.width (sl.vreg b) k) (lane fm.width (sl.vreg c) k)

/-- An operation of two lanes that does not round. -/
def State.vexact (s : State) (d a b : BitVec 3) (m : BitVec 2) (z : BitVec 1) (t : BitVec 3)
    (f : FFmt → Nat → Nat → FRes) : State :=
  let fm := vectorFmt t
  s.vfp d m z t 0 0 fun sl _ k => f fm (lane fm.width (sl.vreg a) k) (lane fm.width (sl.vreg b) k)

def execVfadd (d a b : BitVec 3) (m : BitVec 2) (z : BitVec 1) (t r : BitVec 3) (s : State) : Host.Outcome State Fault Refusal :=
  .next (s.vround d a b 0 m z t r fun f rm w x y _ => f.add rm w x y)

def execVfsub (d a b : BitVec 3) (m : BitVec 2) (z : BitVec 1) (t r : BitVec 3) (s : State) : Host.Outcome State Fault Refusal :=
  .next (s.vround d a b 0 m z t r fun f rm w x y _ => f.sub rm w x y)

def execVfmul (d a b : BitVec 3) (m : BitVec 2) (z : BitVec 1) (t r : BitVec 3) (s : State) : Host.Outcome State Fault Refusal :=
  .next (s.vround d a b 0 m z t r fun f rm w x y _ => f.mul rm w x y)

def execVfdiv (d a b : BitVec 3) (m : BitVec 2) (z : BitVec 1) (t r : BitVec 3) (s : State) : Host.Outcome State Fault Refusal :=
  .next (s.vround d a b 0 m z t r fun f rm w x y _ => f.div rm w x y)

def execVffma (d a b c : BitVec 3) (m : BitVec 2) (z : BitVec 1) (t r : BitVec 3) (s : State) : Host.Outcome State Fault Refusal :=
  .next (s.vround d a b c m z t r fun f rm w x y e => f.fma rm w x y e)

def execVfsqrt (d a : BitVec 3) (m : BitVec 2) (z : BitVec 1) (t r : BitVec 3) (s : State) : Host.Outcome State Fault Refusal :=
  .next (s.vround d a 0 0 m z t r fun f rm w x _ _ => f.sqrt rm w x)

def execVfmin (d a b : BitVec 3) (m : BitVec 2) (z : BitVec 1) (t : BitVec 3) (s : State) : Host.Outcome State Fault Refusal :=
  .next (s.vexact d a b m z t fun f x y => f.minmax false x y)

def execVfmax (d a b : BitVec 3) (m : BitVec 2) (z : BitVec 1) (t : BitVec 3) (s : State) : Host.Outcome State Fault Refusal :=
  .next (s.vexact d a b m z t fun f x y => f.minmax true x y)

def execVfabs (d a : BitVec 3) (m : BitVec 2) (z : BitVec 1) (t : BitVec 3) (s : State) : Host.Outcome State Fault Refusal :=
  .next (s.vexact d a 0 m z t fun f x _ => f.abs x)

def execVfneg (d a : BitVec 3) (m : BitVec 2) (z : BitVec 1) (t : BitVec 3) (s : State) : Host.Outcome State Fault Refusal :=
  .next (s.vexact d a 0 m z t fun f x _ => f.negate x)

/-- VFCMP (R289). -/
def execVfcmp (d : BitVec 2) (a b : BitVec 3) (m : BitVec 2) (z : BitVec 1) (t : BitVec 3) (c : BitVec 4) (s : State) :
    Host.Outcome State Fault Refusal :=
  let fm := vectorFmt t
  let n := 4096 / fm.width
  let f := fun (x : Slot) k => fm.compare c.toNat (lane fm.width (x.vreg a) k) (lane fm.width (x.vreg b) k)
  .next (s.fpEnd (s.cur.laneExc m n fun k => (f s.cur k).2) 0 0 fun x =>
    x.setMreg d (x.mergedMask n d m z fun k => (f x k).1))

/-! ### Conversions (R290, R291) -/

/-- The lane width of a type (R290). -/
def EType.laneW (t : EType) : Nat := if t.width = 6 then 8 else t.width

/-- The register with lanes 0 to n − 1 of `w` bits merged from `f`, and zeros above (R283, R290). -/
def Slot.mergedLow (x : Slot) (w n : Nat) (d : BitVec 3) (m : BitVec 2) (z : BitVec 1) (f : Nat → Nat) : BitVec 4096 :=
  ofLanes w n fun k => if x.active m k then f k else if z = 1 then 0 else lane w (x.vreg d) k

/-- VCVT between types that are no mx forms. -/
def State.vcvt (s : State) (d a : BitVec 3) (frm dst : EType) (m : BitVec 2) (z : BitVec 1) (r : BitVec 3) : State :=
  let n := 4096 / max frm.laneW dst.laneW
  let c := s.cur
  let f := fun k => convert dst frm (c.mode3 r) (c.draw k) (lane frm.laneW (c.vreg a) k)
  s.fpEnd (c.laneExc m n fun k => (f k).exc) (c.mode3 r) n fun x =>
    x.setVreg d (x.mergedLow dst.laneW n d m z fun k => dst.lane (f k).bits)

/-- The mx code of an element-type code (R51, R144). -/
def mxCode (c : BitVec 5) : Nat := c.toNat - 0x13

/-- The lane width of an mx element (R291). -/
def mxLane (c : Nat) : Nat := if mxWidth c = 6 then 8 else mxWidth c

/-- Block b of a conversion into an mx form: an inactive element counts as 0 (R291). -/
def Slot.mxBlock (x : Slot) (a : BitVec 3) (fm : FFmt) (c : Nat) (m : BitVec 2) (rm b : Nat) : MxBlock :=
  mxEncode (mxWidth c) rm ((List.range 32).map fun j =>
    let k := 32 * b + j
    (if x.active m k then fm.unpack (lane fm.width (x.vreg a) k) else .fin false 0 0, x.draw k))

/-- VCVT into an mx form: elements to vD, scales to v(D+1). -/
def State.vcvtTo (s : State) (d a : BitVec 3) (fm : FFmt) (c : Nat) (m : BitVec 2) (z : BitVec 1) (r : BitVec 3) :
    State :=
  let x := s.cur
  let n := 4096 / max fm.width (mxLane c)
  let rm := x.mode3 r
  let blocks := (List.range (n / 32)).map fun b => x.mxBlock a fm c m rm b
  let elems := blocks.flatMap fun b => b.elems
  s.fpEnd (blocks.foldl (fun e b => e ||| b.exc) 0) rm n fun y =>
    let e := x.mergedLow (mxLane c) n d m z fun k => intBits (mxLane c) (elems.getD k 0)
    let sc := ofLanes 8 (n / 32) fun b =>
      if (List.range 32).any fun j => x.active m (32 * b + j) then ((blocks.map fun t => t.scale).getD b 0)
      else if z = 1 then 0 else lane 8 (x.vreg (d + 1)) b
    (y.setVreg d e).setVreg (d + 1) sc

/-- An mx element rounded to a float (R51, R291): a scale of 0xFF gives the canonical NaN and raises nothing. -/
def mxToFloat (fm : FFmt) (rm w scale : Nat) (e : Int) : FRes :=
  match mxValue scale e with
  | some v => fm.round rm w v
  | none => ⟨fm.canonical, 0⟩

/-- VCVT from an mx form: elements in vA, scales in v(A+1). -/
def State.vcvtFrom (s : State) (d a : BitVec 3) (c : Nat) (fm : FFmt) (m : BitVec 2) (z : BitVec 1) (r : BitVec 3) :
    State :=
  let x := s.cur
  let n := 4096 / max fm.width (mxLane c)
  let rm := x.mode3 r
  let f := fun k => mxToFloat fm rm (x.draw k) (lane 8 (x.vreg (a + 1)) (k / 32))
    (signed (mxWidth c) (lane (mxLane c) (x.vreg a) k))
  s.fpEnd (x.laneExc m n fun k => (f k).exc) rm n fun y => y.setVreg d (x.mergedLow fm.width n d m z fun k => (f k).bits)

/-- The float format of an mx conversion's partner (R290). -/
def etypeFmt (t : EType) : FFmt :=
  match t with
  | .flt f => f
  | .int _ _ => f32

/-- VCVT (R290): FROM in `f`, TO in `t`; codes 0x13 to 0x16 are mx forms. -/
def execVcvt (d a : BitVec 3) (f : BitVec 5) (m : BitVec 2) (z : BitVec 1) (r : BitVec 3) (t : BitVec 5) (s : State) :
    Host.Outcome State Fault Refusal :=
  .next (if 0x13 ≤ t.toNat then s.vcvtTo d a (etypeFmt (etype f.toNat)) (mxCode t) m z r
    else if 0x13 ≤ f.toNat then s.vcvtFrom d a (mxCode f) (etypeFmt (etype t.toNat)) m z r
    else s.vcvt d a (etype f.toNat) (etype t.toNat) m z r)

/-! ### Reductions (R61, R292) -/

/-- The active lanes' values, ascending. -/
def Slot.activeVals (x : Slot) (w : Nat) (a : BitVec 3) (m : BitVec 2) : List Nat :=
  (x.activeLanes m (4096 / w)).map fun k => lane w (x.vreg a) k

/-- An integer reduction of the active lanes: a 64-bit result with zeros above. -/
def State.vred (s : State) (d a : BitVec 3) (m : BitVec 2) (w : BitVec 3) (f : Nat → List Nat → Int) : State :=
  s.onSlot [] fun x => x.setVreg d (BitVec.ofNat 4096 (intBits 64 (f (laneBits w) (x.activeVals (laneBits w) a m))))

/-- The least or greatest of some integers with a starting value. -/
def leastFrom (i : Int) (l : List Int) : Int := l.foldl min i
def greatestOf (i : Int) (l : List Int) : Int := l.foldl max i

def execVradd (d a : BitVec 3) (m : BitVec 2) (w : BitVec 3) (s : State) : Host.Outcome State Fault Refusal :=
  .next (s.vred d a m w fun w l => (l.map fun x => sv w x).sum)

def execVrmin (d a : BitVec 3) (m : BitVec 2) (w : BitVec 3) (s : State) : Host.Outcome State Fault Refusal :=
  .next (s.vred d a m w fun w l => leastFrom ((2 ^ (w - 1) : Nat) - 1) (l.map fun x => sv w x))

def execVrmax (d a : BitVec 3) (m : BitVec 2) (w : BitVec 3) (s : State) : Host.Outcome State Fault Refusal :=
  .next (s.vred d a m w fun w l => greatestOf (-(2 ^ (w - 1) : Nat)) (l.map fun x => sv w x))

def execVrminu (d a : BitVec 3) (m : BitVec 2) (w : BitVec 3) (s : State) : Host.Outcome State Fault Refusal :=
  .next (s.vred d a m w fun w l => leastFrom ((2 ^ w : Nat) - 1) (l.map fun x => (x : Int)))

def execVrmaxu (d a : BitVec 3) (m : BitVec 2) (w : BitVec 3) (s : State) : Host.Outcome State Fault Refusal :=
  .next (s.vred d a m w fun _ l => greatestOf 0 (l.map fun x => (x : Int)))

def execVrand (d a : BitVec 3) (m : BitVec 2) (w : BitVec 3) (s : State) : Host.Outcome State Fault Refusal :=
  .next (s.vred d a m w fun w l => (l.foldl (fun x y => x &&& y) (2 ^ w - 1) : Nat))

def execVror (d a : BitVec 3) (m : BitVec 2) (w : BitVec 3) (s : State) : Host.Outcome State Fault Refusal :=
  .next (s.vred d a m w fun _ l => (l.foldl (fun x y => x ||| y) 0 : Nat))

def execVrxor (d a : BitVec 3) (m : BitVec 2) (w : BitVec 3) (s : State) : Host.Outcome State Fault Refusal :=
  .next (s.vred d a m w fun _ l => (l.foldl (fun x y => x ^^^ y) 0 : Nat))

/-- One level of the tree of R61: adjacent pairs combined, the number of draws used and the exceptions. -/
def reduceLevel (f : Nat → Nat → Nat → FRes) : List Nat → Nat → Exc → List Nat × Nat × Exc
  | x :: y :: r, i, e =>
    let v := f i x y
    let t := reduceLevel f r (i + 1) (e ||| v.exc)
    (v.bits :: t.1, t.2.1, t.2.2)
  | l, i, e => (l, i, e)

/-- The tree of R61 over `n` levels. -/
def reduceTree (f : Nat → Nat → Nat → FRes) : Nat → List Nat → Nat → Exc → List Nat × Nat × Exc
  | 0, l, i, e => (l, i, e)
  | n + 1, l, i, e =>
    let t := reduceLevel f l i e
    reduceTree f n t.1 t.2.1 t.2.2

/-- A floating-point reduction: an inactive lane enters as the identity (R61, R292). -/
def State.vredf (s : State) (d a : BitVec 3) (m : BitVec 2) (t : BitVec 3) (rm : Nat) (ident : FFmt → Nat)
    (f : FFmt → Nat → Nat → Nat → FRes) : State :=
  let fm := vectorFmt t
  let c := s.cur
  let n := 4096 / fm.width
  let l := (List.range n).map fun k => if c.active m k then lane fm.width (c.vreg a) k else ident fm
  let x := reduceTree (fun i => f fm (c.draw i)) (Nat.log2 n) l 0 0
  s.fpEnd x.2.2 rm x.2.1 fun sl => sl.setVreg d (BitVec.ofNat 4096 (x.1.headD 0))

/-- VRFADD. -/
def execVrfadd (d a : BitVec 3) (m : BitVec 2) (t r : BitVec 3) (s : State) : Host.Outcome State Fault Refusal :=
  .next (s.vredf d a m t (s.cur.mode3 r) (fun f => f.withSign true 0) fun f w x y => f.add (s.cur.mode3 r) w x y)

/-- VRFMIN. -/
def execVrfmin (d a : BitVec 3) (m : BitVec 2) (t : BitVec 3) (s : State) : Host.Outcome State Fault Refusal :=
  .next (s.vredf d a m t 0 (fun f => f.maxBits + 1) fun f _ x y => f.minmax false x y)

/-- VRFMAX. -/
def execVrfmax (d a : BitVec 3) (m : BitVec 2) (t : BitVec 3) (s : State) : Host.Outcome State Fault Refusal :=
  .next (s.vredf d a m t 0 (fun f => f.withSign true (f.maxBits + 1)) fun f _ x y => f.minmax true x y)

/-! ### Permutes (R293) -/

/-- Lane k of a register of n lanes, 0 beyond them. -/
def laneOr0 (w : Nat) (x : BitVec 4096) (k : Nat) : Nat := if k < 4096 / w then lane w x k else 0

/-- VPERM. -/
def execVperm (d a b : BitVec 3) (m : BitVec 2) (z : BitVec 1) (w : BitVec 3) (s : State) : Host.Outcome State Fault Refusal :=
  let n := laneBits w
  .next (s.lanes w d m z fun x k => laneOr0 n (x.vreg a) (lane n (x.vreg b) k))

/-- VSLUP. -/
def execVslup (d a c : BitVec 3) (m : BitVec 2) (z : BitVec 1) (w : BitVec 3) (s : State) : Host.Outcome State Fault Refusal :=
  .next (s.lanesOf c w d m z fun x k =>
    let h := (x.sreg (global c)).toNat
    if h ≤ k then lane (laneBits w) (x.vreg a) (k - h) else 0)

/-- VSLDN. -/
def execVsldn (d a c : BitVec 3) (m : BitVec 2) (z : BitVec 1) (w : BitVec 3) (s : State) : Host.Outcome State Fault Refusal :=
  .next (s.lanesOf c w d m z fun x k => laneOr0 (laneBits w) (x.vreg a) (k + (x.sreg (global c)).toNat))

/-- Lanes of a and b from lane `o` on, alternating. -/
def zipLane (w o : Nat) (x y : BitVec 4096) (k : Nat) : Nat := lane w (if k % 2 = 0 then x else y) (k / 2 + o)

def execVziplo (d a b : BitVec 3) (m : BitVec 2) (z : BitVec 1) (w : BitVec 3) (s : State) : Host.Outcome State Fault Refusal :=
  .next (s.lanes w d m z fun x k => zipLane (laneBits w) 0 (x.vreg a) (x.vreg b) k)

def execVziphi (d a b : BitVec 3) (m : BitVec 2) (z : BitVec 1) (w : BitVec 3) (s : State) : Host.Outcome State Fault Refusal :=
  .next (s.lanes w d m z fun x k => zipLane (laneBits w) (2048 / laneBits w) (x.vreg a) (x.vreg b) k)

/-- The even (o = 0) or odd (o = 1) lanes of a, then of b. -/
def unzLane (w o : Nat) (x y : BitVec 4096) (k : Nat) : Nat :=
  if k < 2048 / w then lane w x (2 * k + o) else lane w y (2 * (k - 2048 / w) + o)

def execVunzlo (d a b : BitVec 3) (m : BitVec 2) (z : BitVec 1) (w : BitVec 3) (s : State) : Host.Outcome State Fault Refusal :=
  .next (s.lanes w d m z fun x k => unzLane (laneBits w) 0 (x.vreg a) (x.vreg b) k)

def execVunzhi (d a b : BitVec 3) (m : BitVec 2) (z : BitVec 1) (w : BitVec 3) (s : State) : Host.Outcome State Fault Refusal :=
  .next (s.lanes w d m z fun x k => unzLane (laneBits w) 1 (x.vreg a) (x.vreg b) k)

/-- VCOMP: the active lanes packed from lane 0, zeros above. -/
def execVcomp (d a : BitVec 3) (m : BitVec 2) (w : BitVec 3) (s : State) : Host.Outcome State Fault Refusal :=
  let n := laneBits w
  .next (s.onSlot [] fun x =>
    let l := x.activeVals n a m
    x.setVreg d (ofLanes n (4096 / n) fun k => l.getD k 0))

/-- VEXPD: active lane k takes lane j of a, j the number of active lanes below k. -/
def execVexpd (d a : BitVec 3) (m : BitVec 2) (z : BitVec 1) (w : BitVec 3) (s : State) : Host.Outcome State Fault Refusal :=
  .next (s.lanes w d m z fun x k => lane (laneBits w) (x.vreg a) (x.activeLanes m k).length)

/-- VGET: the lowest active lane, zero-extended, into sN. -/
def execVget (a c : BitVec 3) (m : BitVec 2) (w : BitVec 3) (s : State) : Host.Outcome State Fault Refusal :=
  let n := laneBits w
  .next (s.onSlot [global c] fun x => x.setSreg (global c) (BitVec.ofNat 64 ((x.activeVals n a m).headD 0)))

/-! ### Masks (R294) -/

/-- mD from two masks. -/
def State.vmask (s : State) (d a b : BitVec 2) (f : BitVec 1024 → BitVec 1024 → BitVec 1024) : State :=
  s.onSlot [] fun x => x.setMreg d (f (x.mreg a) (x.mreg b))

def execVmand (d a b : BitVec 2) (s : State) : Host.Outcome State Fault Refusal := .next (s.vmask d a b fun x y => x &&& y)
def execVmor (d a b : BitVec 2) (s : State) : Host.Outcome State Fault Refusal := .next (s.vmask d a b fun x y => x ||| y)
def execVmxor (d a b : BitVec 2) (s : State) : Host.Outcome State Fault Refusal := .next (s.vmask d a b fun x y => x ^^^ y)
def execVmandn (d a b : BitVec 2) (s : State) : Host.Outcome State Fault Refusal := .next (s.vmask d a b fun x y => x &&& ~~~y)
def execVmnot (d a : BitVec 2) (s : State) : Host.Outcome State Fault Refusal := .next (s.vmask d a 0 fun x _ => ~~~x)

end Sys2Proof.Machine
end

