-- ==== Sys2Proof/Machine/VectorMem.lean ====
section
/-!
DEFINITION. Vector loads and stores, gathers and scatters (R295-R297). The lanes of a load are outstanding
until their owners answer, those of a store stand in the pending-store table (R329, log 11).
-/
namespace Sys2Proof.Machine

/-- A lane with its address, place and full-empty attribute. -/
abbrev LaneAcc := Nat × Word × Place × Bool

/-- Bytes that a lane of `w` bits touches. -/
def laneLen (w : Nat) : Nat := (w + 7) / 8

/-- The address of lane k of a run of 512 bytes (R282, R295). -/
def laneVa (w : Nat) (va : Word) (k : Nat) : Word := va + BitVec.ofNat 64 (w * k / 8)

/-- The value of a lane at its place. -/
def State.laneValue (s : State) (w : Nat) (x : LaneAcc) : Nat :=
  let v := bytesNat (s.placeBytes x.2.2.1 (laneLen w))
  if w = 4 then v / 2 ^ (4 * (x.1 % 2)) % 16 else v

/-- The checks of every active lane, in order, before any access (R297). -/
def State.checkLanes (s : State) (i : Instr) (kind : AccKind) (w : Nat) (lanes : List (Nat × Word)) : AccAll :=
  State.checkAll s.ft s.fk i kind (laneLen w) (lanes.map fun e => e.2) s []

/-- The lanes may leave (R329-R331). -/
def State.lanesMay (s : State) (w : Nat) (l : List LaneAcc) : Bool :=
  l.all fun x => s.mayAccess s.ft s.fk x.2.2.1.loc (laneLen w)

/-- The first lane that its owner refuses (R40, R368). -/
def State.laneRefused (s : State) (l : List LaneAcc) : Option (Nat × Nat × Word) :=
  s.refusedPiece (l.map fun x => (x.2.1, x.2.2.1, x.2.2.2))

/-- A lane of control space, which is accessed before the next instruction issues (R335). -/
def LaneAcc.isControl (x : LaneAcc) : Bool :=
  match x.2.2.1 with
  | .control _ => true
  | _ => false

/-- A lane in the local store of tile `t`. -/
def LaneAcc.isOwn (t : Nat) (x : LaneAcc) : Bool :=
  match x.2.2.1 with
  | .store u _ => u == t
  | _ => false

/-- The lanes of a vector load that its owners answer. -/
def farLanes (l : List LaneAcc) : List Lane :=
  (l.filter fun x => !LaneAcc.isControl x).map fun x => ⟨x.1, x.2.2.1.loc, x.2.1, x.2.2.2⟩

/-- The lanes of a vector load in control space, with their values. -/
def State.nearLanes (s : State) (w : Nat) (l : List LaneAcc) : List (Nat × Nat) :=
  (l.filter LaneAcc.isControl).map fun x => (x.1, s.laneValue w x)

/-- A vector load leaves: its lanes are outstanding as one entry, and the register waits. Where every lane lies in the
tile's own store it is performed at once (R209, R325, log 11). -/
def State.lanesLeave (s : State) (d : BitVec 3) (w : Nat) (zero : Bool) (l : List LaneAcc) : State :=
  let far := farLanes l
  let got := s.nearLanes w l
  let p : Pend := ⟨s.seq, [], .vec d w zero far got, (far.map Lane.va).headD 0, (far.map Lane.loc).headD 0, false,
    false⟩
  if far.isEmpty then s.modCur fun sl => (sl.setLanes d w zero got).advance
  else
    let s1 := s.stamp.modCur fun sl => { sl.advance with pend := sl.pend ++ [p] }
    if l.all (LaneAcc.isOwn s.ft) then s1.performLanes s.ft s.fk p none else s1

/-- Load active lanes into vD (R295-R297): a lane on a full-empty page makes the slot wait for the words of such lanes. -/
def State.loadLanes (s : State) (i : Instr) (d : BitVec 3) (w : Nat) (zero : Bool)
    (lanes : List (Nat × Word)) : State :=
  match s.checkLanes i .load w lanes with
  | .wait s1 => s1
  | .trap s1 c sub v => s1.trap c sub v
  | .ok s1 ps =>
    let l : List LaneAcc := (lanes.map fun e => e.1).zip ps
    let fe := l.filter fun x => x.2.2.2
    if !s1.lanesMay w l then s1
    else if fe.isEmpty then s1.lanesLeave d w zero l
    else
      match s1.laneRefused l with
      | some (c, sub, v) => s1.modCur fun sl => sl.advance.pushLate c sub v
      | none => s1.feIssue s1.ft s1.fk [] (.vec d w zero (farLanes l) (s1.nearLanes w l)) ((fe.map fun x => x.2.1).headD 0)
          ((fe.map fun x => x.2.2.1.loc).headD 0)

/-- The bytes a lane stores, and how: a nibble keeps the other half of its byte (R295). -/
def laneStore (w k v : Nat) : List Byte × StoreHow :=
  if w = 4 then ([BitVec.ofNat 8 (v % 16)], .nibble (k % 2 == 1)) else (natBytes (w / 8) v, .bytes)

/-- The bytes of a lane merged with what its place holds (R295). -/
def State.laneBytes (s : State) (w : Nat) (x : LaneAcc) (v : Nat) : List Byte :=
  match (laneStore w x.1 v).2 with
  | .nibble h => (laneStore w x.1 v).1.map (nibbleByte ((s.placeBytes x.2.2.1 1).headD 0) h)
  | _ => (laneStore w x.1 v).1

/-- The lanes of a vector store in the pending-store table of the running slot's tile (R329): they share one entry. -/
def State.laneEntries (s : State) (w : Nat) (val : Nat → Nat) (l : List LaneAcc) : List StoreEnt :=
  (l.filter fun x => !LaneAcc.isControl x).zipIdx.map fun y =>
    let x := y.1
    let b := laneStore w x.1 (val x.1)
    ⟨s.seq + y.2, s.fk, x.2.1, x.2.2.1.loc, b.1, x.2.2.2, b.2, s.seq, false, x.2.2.2⟩

/-- Active lanes leave in ascending order: to control space at once (R335), else through the table. -/
def State.lanesEnter (s : State) (w : Nat) (val : Nat → Nat) (l : List LaneAcc) : State :=
  let es := s.laneEntries w val l
  let s1 := (l.filter LaneAcc.isControl).foldl (fun a x => a.ctlStore x.2.2.1.loc (a.laneBytes w x (val x.1))) s
  { s1 with seq := s1.seq + es.length }.modTile s.ft fun T => { T with stores := T.stores ++ es }

/-- Store active lanes in ascending order (R295-R297, R329). -/
def State.storeLanes (s : State) (i : Instr) (w : Nat) (val : Nat → Nat) (lanes : List (Nat × Word)) : State :=
  match s.checkLanes i .store w lanes with
  | .wait s1 => s1
  | .trap s1 c sub v => s1.trap c sub v
  | .ok s1 ps =>
    let l : List LaneAcc := (lanes.map fun e => e.1).zip ps
    if !s1.lanesMay w l || !s1.storeRoom s1.ft 1 || (l.any fun x => x.2.2.2 && !s1.releasedTo s1.ft s1.fk x.2.2.1.loc false) then s1
    else (s1.lanesEnter w val l).modCur Slot.advance

/-- The active lanes of a run with their addresses. -/
def Slot.runLanes (x : Slot) (m : BitVec 2) (w : Nat) (va : Word) : List (Nat × Word) :=
  (x.activeLanes m (4096 / w)).map fun k => (k, laneVa w va k)

/-- The active lanes of a gather or scatter with their addresses: sN + va[k] × (w/8) (R296). -/
def Slot.indexLanes (x : Slot) (m : BitVec 2) (w : Nat) (a : BitVec 3) (base : Word) : List (Nat × Word) :=
  (x.activeLanes m (4096 / w)).map fun k => (k, base + BitVec.ofNat 64 (lane w (x.vreg a) k * (w / 8)))

/-- VLD. -/
def execVld (m : BitVec 2) (v : BitVec 3) (b : BitVec 5) (w : BitVec 3) (x : BitVec 10) (s : State) :
    Host.Outcome State Fault Refusal :=
  let n := laneBits w
  .next (if s.cur.pendsOn [b] then s
    else s.loadLanes (.vld m v b w x) v n false (s.cur.runLanes m n (s.cur.addr b x 512)))

/-- VST. -/
def execVst (m : BitVec 2) (v : BitVec 3) (b : BitVec 5) (w : BitVec 3) (x : BitVec 10) (s : State) :
    Host.Outcome State Fault Refusal :=
  let n := laneBits w
  .next (if s.cur.pendsOn [b] then s
    else s.storeLanes (.vst m v b w x) n (lane n (s.cur.vreg v)) (s.cur.runLanes m n (s.cur.addr b x 512)))

/-- VGATHER: an inactive lane keeps its contents, or is zeroed with z = 1 (R283). -/
def execVgather (d a c : BitVec 3) (m : BitVec 2) (z : BitVec 1) (w : BitVec 3) (s : State) :
    Host.Outcome State Fault Refusal :=
  let n := laneBits w
  .next (if s.cur.pendsOn [global c] then s
    else s.loadLanes (.vgather d a c m z w) d n (z == 1) (s.cur.indexLanes m n a (s.cur.sreg (global c))))

/-- VSCATTER. -/
def execVscatter (d a c : BitVec 3) (m : BitVec 2) (z : BitVec 1) (w : BitVec 3) (s : State) :
    Host.Outcome State Fault Refusal :=
  let n := laneBits w
  .next (if s.cur.pendsOn [global c] then s
    else s.storeLanes (.vscatter d a c m z w) n (lane n (s.cur.vreg d)) (s.cur.indexLanes m n a (s.cur.sreg (global c))))

end Sys2Proof.Machine
end

