-- ==== Sys2Proof/Machine/Dispatch.lean ====
section
/-!
DEFINITION. One arm for every constructor of `Instr`: a direct call of its meaning.
-/
namespace Sys2Proof.Machine

/-- The effect of one instruction, or of one step of the hardware, the host or the management plane. -/
def exec (i : Instr) (s : State) : Host.Outcome State Fault Refusal :=
  match i with
  | .ext p => Sys2Proof.Machine.execExt p s
  | .b o => Sys2Proof.Machine.execB o s
  | .bc p n o => Sys2Proof.Machine.execBc p n o s
  | .call o => Sys2Proof.Machine.execCall o s
  | .callr a => Sys2Proof.Machine.execCallr a s
  | .br a => Sys2Proof.Machine.execBr a s
  | .loop a o => Sys2Proof.Machine.execLoop a o s
  | .trap c => Sys2Proof.Machine.execTrap c s
  | .mfs d n => Sys2Proof.Machine.execMfs d n s
  | .mts a n => Sys2Proof.Machine.execMts a n s
  | .fence sc => Sys2Proof.Machine.execFence sc s
  | .add d a b => Sys2Proof.Machine.execAdd d a b s
  | .sub d a b => Sys2Proof.Machine.execSub d a b s
  | .mul d a b => Sys2Proof.Machine.execMul d a b s
  | .mulh d a b => Sys2Proof.Machine.execMulh d a b s
  | .mulhu d a b => Sys2Proof.Machine.execMulhu d a b s
  | .div d a b => Sys2Proof.Machine.execDiv d a b s
  | .divu d a b => Sys2Proof.Machine.execDivu d a b s
  | .rem d a b => Sys2Proof.Machine.execRem d a b s
  | .remu d a b => Sys2Proof.Machine.execRemu d a b s
  | .and d a b => Sys2Proof.Machine.execAnd d a b s
  | .or d a b => Sys2Proof.Machine.execOr d a b s
  | .xor d a b => Sys2Proof.Machine.execXor d a b s
  | .andn d a b => Sys2Proof.Machine.execAndn d a b s
  | .shl d a b => Sys2Proof.Machine.execShl d a b s
  | .shr d a b => Sys2Proof.Machine.execShr d a b s
  | .sra d a b => Sys2Proof.Machine.execSra d a b s
  | .min d a b => Sys2Proof.Machine.execMin d a b s
  | .max d a b => Sys2Proof.Machine.execMax d a b s
  | .minu d a b => Sys2Proof.Machine.execMinu d a b s
  | .maxu d a b => Sys2Proof.Machine.execMaxu d a b s
  | .clz d a => Sys2Proof.Machine.execClz d a s
  | .ctz d a => Sys2Proof.Machine.execCtz d a s
  | .popc d a => Sys2Proof.Machine.execPopc d a s
  | .addi d a ix => Sys2Proof.Machine.execAddi d a ix s
  | .andi d a ix => Sys2Proof.Machine.execAndi d a ix s
  | .ori d a ix => Sys2Proof.Machine.execOri d a ix s
  | .xori d a ix => Sys2Proof.Machine.execXori d a ix s
  | .shli d a sc => Sys2Proof.Machine.execShli d a sc s
  | .shri d a sc => Sys2Proof.Machine.execShri d a sc s
  | .srai d a sc => Sys2Proof.Machine.execSrai d a sc s
  | .muli d a ix => Sys2Proof.Machine.execMuli d a ix s
  | .cmp p a b c => Sys2Proof.Machine.execCmp p a b c s
  | .cmpi p a c ix => Sys2Proof.Machine.execCmpi p a c ix s
  | .pand d a b => Sys2Proof.Machine.execPand d a b s
  | .por d a b => Sys2Proof.Machine.execPor d a b s
  | .pxor d a b => Sys2Proof.Machine.execPxor d a b s
  | .pandn d a b => Sys2Proof.Machine.execPandn d a b s
  | .sel d a b n p => Sys2Proof.Machine.execSel d a b n p s
  | .lea d a b sc => Sys2Proof.Machine.execLea d a b sc s
  | .fadd d a b t r => Sys2Proof.Machine.execFadd d a b t r s
  | .fsub d a b t r => Sys2Proof.Machine.execFsub d a b t r s
  | .fmul d a b t r => Sys2Proof.Machine.execFmul d a b t r s
  | .ffma d a b t r => Sys2Proof.Machine.execFfma d a b t r s
  | .fdiv d a b t r => Sys2Proof.Machine.execFdiv d a b t r s
  | .fsqrt d a t r => Sys2Proof.Machine.execFsqrt d a t r s
  | .fmin d a b t => Sys2Proof.Machine.execFmin d a b t s
  | .fmax d a b t => Sys2Proof.Machine.execFmax d a b t s
  | .fabs d a t => Sys2Proof.Machine.execFabs d a t s
  | .fneg d a t => Sys2Proof.Machine.execFneg d a t s
  | .fcvt d a f t r => Sys2Proof.Machine.execFcvt d a f t r s
  | .fcmp p a b t c => Sys2Proof.Machine.execFcmp p a b t c s
  | .ld d b sc o x => Sys2Proof.Machine.execLd d b sc o x s
  | .lds d b sc o x => Sys2Proof.Machine.execLds d b sc o x s
  | .st d b sc o x => Sys2Proof.Machine.execSt d b sc o x s
  | .ldf d b x => Sys2Proof.Machine.execLdf d b x s
  | .stf d b x => Sys2Proof.Machine.execStf d b x s
  | .ste d b x => Sys2Proof.Machine.execSte d b x s
  | .amoAdd d a b w o sc => Sys2Proof.Machine.execAmoAdd d a b w o sc s
  | .amoMinI d a b w o sc => Sys2Proof.Machine.execAmoMinI d a b w o sc s
  | .amoMaxI d a b w o sc => Sys2Proof.Machine.execAmoMaxI d a b w o sc s
  | .amoMinN d a b w o sc => Sys2Proof.Machine.execAmoMinN d a b w o sc s
  | .amoMaxN d a b w o sc => Sys2Proof.Machine.execAmoMaxN d a b w o sc s
  | .amoAnd d a b w o sc => Sys2Proof.Machine.execAmoAnd d a b w o sc s
  | .amoOr d a b w o sc => Sys2Proof.Machine.execAmoOr d a b w o sc s
  | .amoXor d a b w o sc => Sys2Proof.Machine.execAmoXor d a b w o sc s
  | .amoSwap d a b w o sc => Sys2Proof.Machine.execAmoSwap d a b w o sc s
  | .amoCas d a b w o sc => Sys2Proof.Machine.execAmoCas d a b w o sc s
  | .amoFadd d a b o sc => Sys2Proof.Machine.execAmoFadd d a b o sc s
  | .send a b => Sys2Proof.Machine.execSend a b s
  | .sendNr a b => Sys2Proof.Machine.execSendNr a b s
  | .send2 d a b => Sys2Proof.Machine.execSend2 d a b s
  | .send2Nr d a b => Sys2Proof.Machine.execSend2Nr d a b s
  | .weft d a b => Sys2Proof.Machine.execWeft d a b s
  | .foldPut b t => Sys2Proof.Machine.execFoldPut b t s
  | .foldCfg a b t => Sys2Proof.Machine.execFoldCfg a b t s
  | .foldStat d t => Sys2Proof.Machine.execFoldStat d t s
  | .copy d a => Sys2Proof.Machine.execCopy d a s
  | .mload d a b f ix => Sys2Proof.Machine.execMload d a b f ix s
  | .mrow d a b f ix => Sys2Proof.Machine.execMrow d a b f ix s
  | .mdrain d a b ix => Sys2Proof.Machine.execMdrain d a b ix s
  | .mres d a ix => Sys2Proof.Machine.execMres d a ix s
  | .vadd d a b m z w => Sys2Proof.Machine.execVadd d a b m z w s
  | .vsub d a b m z w => Sys2Proof.Machine.execVsub d a b m z w s
  | .vmul d a b m z w => Sys2Proof.Machine.execVmul d a b m z w s
  | .vmulh d a b m z w => Sys2Proof.Machine.execVmulh d a b m z w s
  | .vmulhu d a b m z w => Sys2Proof.Machine.execVmulhu d a b m z w s
  | .vand d a b m z w => Sys2Proof.Machine.execVand d a b m z w s
  | .vor d a b m z w => Sys2Proof.Machine.execVor d a b m z w s
  | .vxor d a b m z w => Sys2Proof.Machine.execVxor d a b m z w s
  | .vandn d a b m z w => Sys2Proof.Machine.execVandn d a b m z w s
  | .vshl d a b m z w => Sys2Proof.Machine.execVshl d a b m z w s
  | .vshr d a b m z w => Sys2Proof.Machine.execVshr d a b m z w s
  | .vsra d a b m z w => Sys2Proof.Machine.execVsra d a b m z w s
  | .vmin d a b m z w => Sys2Proof.Machine.execVmin d a b m z w s
  | .vmax d a b m z w => Sys2Proof.Machine.execVmax d a b m z w s
  | .vminu d a b m z w => Sys2Proof.Machine.execVminu d a b m z w s
  | .vmaxu d a b m z w => Sys2Proof.Machine.execVmaxu d a b m z w s
  | .vadds d a b m z w => Sys2Proof.Machine.execVadds d a b m z w s
  | .vaddsu d a b m z w => Sys2Proof.Machine.execVaddsu d a b m z w s
  | .vsubs d a b m z w => Sys2Proof.Machine.execVsubs d a b m z w s
  | .vsubsu d a b m z w => Sys2Proof.Machine.execVsubsu d a b m z w s
  | .vabs d a m z w => Sys2Proof.Machine.execVabs d a m z w s
  | .vmad d a b c m z w => Sys2Proof.Machine.execVmad d a b c m z w s
  | .vmov d a m z w => Sys2Proof.Machine.execVmov d a m z w s
  | .vsplat d c m z w => Sys2Proof.Machine.execVsplat d c m z w s
  | .vcmp d a b m z w c => Sys2Proof.Machine.execVcmp d a b m z w c s
  | .vfadd d a b m z t r => Sys2Proof.Machine.execVfadd d a b m z t r s
  | .vfsub d a b m z t r => Sys2Proof.Machine.execVfsub d a b m z t r s
  | .vfmul d a b m z t r => Sys2Proof.Machine.execVfmul d a b m z t r s
  | .vffma d a b c m z t r => Sys2Proof.Machine.execVffma d a b c m z t r s
  | .vfdiv d a b m z t r => Sys2Proof.Machine.execVfdiv d a b m z t r s
  | .vfsqrt d a m z t r => Sys2Proof.Machine.execVfsqrt d a m z t r s
  | .vfmin d a b m z t => Sys2Proof.Machine.execVfmin d a b m z t s
  | .vfmax d a b m z t => Sys2Proof.Machine.execVfmax d a b m z t s
  | .vfabs d a m z t => Sys2Proof.Machine.execVfabs d a m z t s
  | .vfneg d a m z t => Sys2Proof.Machine.execVfneg d a m z t s
  | .vfcmp d a b m z t c => Sys2Proof.Machine.execVfcmp d a b m z t c s
  | .vcvt d a f m z r t => Sys2Proof.Machine.execVcvt d a f m z r t s
  | .vradd d a m w => Sys2Proof.Machine.execVradd d a m w s
  | .vrmin d a m w => Sys2Proof.Machine.execVrmin d a m w s
  | .vrmax d a m w => Sys2Proof.Machine.execVrmax d a m w s
  | .vrminu d a m w => Sys2Proof.Machine.execVrminu d a m w s
  | .vrmaxu d a m w => Sys2Proof.Machine.execVrmaxu d a m w s
  | .vrand d a m w => Sys2Proof.Machine.execVrand d a m w s
  | .vror d a m w => Sys2Proof.Machine.execVror d a m w s
  | .vrxor d a m w => Sys2Proof.Machine.execVrxor d a m w s
  | .vrfadd d a m t r => Sys2Proof.Machine.execVrfadd d a m t r s
  | .vrfmin d a m t => Sys2Proof.Machine.execVrfmin d a m t s
  | .vrfmax d a m t => Sys2Proof.Machine.execVrfmax d a m t s
  | .vperm d a b m z w => Sys2Proof.Machine.execVperm d a b m z w s
  | .vslup d a c m z w => Sys2Proof.Machine.execVslup d a c m z w s
  | .vsldn d a c m z w => Sys2Proof.Machine.execVsldn d a c m z w s
  | .vziplo d a b m z w => Sys2Proof.Machine.execVziplo d a b m z w s
  | .vziphi d a b m z w => Sys2Proof.Machine.execVziphi d a b m z w s
  | .vunzlo d a b m z w => Sys2Proof.Machine.execVunzlo d a b m z w s
  | .vunzhi d a b m z w => Sys2Proof.Machine.execVunzhi d a b m z w s
  | .vcomp d a m w => Sys2Proof.Machine.execVcomp d a m w s
  | .vexpd d a m z w => Sys2Proof.Machine.execVexpd d a m z w s
  | .vget a c m w => Sys2Proof.Machine.execVget a c m w s
  | .vmand d a b => Sys2Proof.Machine.execVmand d a b s
  | .vmor d a b => Sys2Proof.Machine.execVmor d a b s
  | .vmxor d a b => Sys2Proof.Machine.execVmxor d a b s
  | .vmandn d a b => Sys2Proof.Machine.execVmandn d a b s
  | .vmnot d a => Sys2Proof.Machine.execVmnot d a s
  | .vgather d a c m z w => Sys2Proof.Machine.execVgather d a c m z w s
  | .vscatter d a c m z w => Sys2Proof.Machine.execVscatter d a c m z w s
  | .vld m v b w x => Sys2Proof.Machine.execVld m v b w x s
  | .vst m v b w x => Sys2Proof.Machine.execVst m v b w x s
  | .pbind d a => Sys2Proof.Machine.execPbind d a s
  | .pfree d a => Sys2Proof.Machine.execPfree d a s
  | .pstatPocket d a => Sys2Proof.Machine.execPstatPocket d a s
  | .pstatWaiting d a => Sys2Proof.Machine.execPstatWaiting d a s
  | .pstatAllocation d a => Sys2Proof.Machine.execPstatAllocation d a s
  | .resume a => Sys2Proof.Machine.execResume a s
  | .spawn d a b => Sys2Proof.Machine.execSpawn d a b s
  | .steal d a b => Sys2Proof.Machine.execSteal d a b s
  | .leaveMatrix d a y => Sys2Proof.Machine.execLeaveMatrix d a y s
  | .leaveSwap d a y => Sys2Proof.Machine.execLeaveSwap d a y s
  | .leaveStream d a y => Sys2Proof.Machine.execLeaveStream d a y s
  | .leaveSwatch d a y => Sys2Proof.Machine.execLeaveSwatch d a y s
  | .snap d a b => Sys2Proof.Machine.execSnap d a b s
  | .tlbinvAll a => Sys2Proof.Machine.execTlbinvAll a s
  | .tlbinvAsid a => Sys2Proof.Machine.execTlbinvAsid a s
  | .tlbinvVa a b => Sys2Proof.Machine.execTlbinvVa a b s
  | .asidret d a => Sys2Proof.Machine.execAsidret d a s
  | .darnPrep d a => Sys2Proof.Machine.execDarnPrep d a s
  | .darnCommit d => Sys2Proof.Machine.execDarnCommit d s
  | .darnAbort d => Sys2Proof.Machine.execDarnAbort d s
  | .darnBank d a => Sys2Proof.Machine.execDarnBank d a s
  | .swatchRun d a => Sys2Proof.Machine.execSwatchRun d a s
  | .swatchStat d a => Sys2Proof.Machine.execSwatchStat d a s
  | .swatchStop d a => Sys2Proof.Machine.execSwatchStop d a s
  | .xamoAdd d a b w o sc => Sys2Proof.Machine.execXamoAdd d a b w o sc s
  | .xamoMinI d a b w o sc => Sys2Proof.Machine.execXamoMinI d a b w o sc s
  | .xamoMaxI d a b w o sc => Sys2Proof.Machine.execXamoMaxI d a b w o sc s
  | .xamoMinN d a b w o sc => Sys2Proof.Machine.execXamoMinN d a b w o sc s
  | .xamoMaxN d a b w o sc => Sys2Proof.Machine.execXamoMaxN d a b w o sc s
  | .xamoAnd d a b w o sc => Sys2Proof.Machine.execXamoAnd d a b w o sc s
  | .xamoOr d a b w o sc => Sys2Proof.Machine.execXamoOr d a b w o sc s
  | .xamoXor d a b w o sc => Sys2Proof.Machine.execXamoXor d a b w o sc s
  | .xamoSwap d a b w o sc => Sys2Proof.Machine.execXamoSwap d a b w o sc s
  | .xamoCas d a b w o sc => Sys2Proof.Machine.execXamoCas d a b w o sc s
  | .xamoFadd d a b o sc => Sys2Proof.Machine.execXamoFadd d a b o sc s
  | .xst d b sc o x => Sys2Proof.Machine.execXst d b sc o x s
  | .tAdd g x u d a b l => Sys2Proof.Machine.execTAdd g x u d a b l s
  | .tSub g x u d a b l => Sys2Proof.Machine.execTSub g x u d a b l s
  | .tMul g x u d a b l => Sys2Proof.Machine.execTMul g x u d a b l s
  | .tMulh g x u d a b => Sys2Proof.Machine.execTMulh g x u d a b s
  | .tAnd g x u d a b => Sys2Proof.Machine.execTAnd g x u d a b s
  | .tOr g x u d a b => Sys2Proof.Machine.execTOr g x u d a b s
  | .tXor g x u d a b => Sys2Proof.Machine.execTXor g x u d a b s
  | .tShl g x u d a b => Sys2Proof.Machine.execTShl g x u d a b s
  | .tShr g x u d a b => Sys2Proof.Machine.execTShr g x u d a b s
  | .tSra g x u d a b => Sys2Proof.Machine.execTSra g x u d a b s
  | .tMin g x u d a b l => Sys2Proof.Machine.execTMin g x u d a b l s
  | .tMax g x u d a b l => Sys2Proof.Machine.execTMax g x u d a b l s
  | .tMinu g x u d a b l => Sys2Proof.Machine.execTMinu g x u d a b l s
  | .tMaxu g x u d a b l => Sys2Proof.Machine.execTMaxu g x u d a b l s
  | .tCmp g x u d a b c q => Sys2Proof.Machine.execTCmp g x u d a b c q s
  | .tMov g x u d a q => Sys2Proof.Machine.execTMov g x u d a q s
  | .tSel g x u d a b n q => Sys2Proof.Machine.execTSel g x u d a b n q s
  | .tTag g x u d a t => Sys2Proof.Machine.execTTag g x u d a t s
  | .tDup g x u d a n => Sys2Proof.Machine.execTDup g x u d a n s
  | .tMaskb g x u d a b w sc => Sys2Proof.Machine.execTMaskb g x u d a b w sc s
  | .tCrng g x u d a b => Sys2Proof.Machine.execTCrng g x u d a b s
  | .tFadd g x u f d a b r => Sys2Proof.Machine.execTFadd g x u f d a b r s
  | .tFsub g x u f d a b r => Sys2Proof.Machine.execTFsub g x u f d a b r s
  | .tFmul g x u f d a b r => Sys2Proof.Machine.execTFmul g x u f d a b r s
  | .tFfma g x u f d a b r k => Sys2Proof.Machine.execTFfma g x u f d a b r k s
  | .tFmin g x u f d a b => Sys2Proof.Machine.execTFmin g x u f d a b s
  | .tFmax g x u f d a b => Sys2Proof.Machine.execTFmax g x u f d a b s
  | .tFcmpF64 g x u d a b c q => Sys2Proof.Machine.execTFcmpF64 g x u d a b c q s
  | .tFcmpF32 g x u d a b c q => Sys2Proof.Machine.execTFcmpF32 g x u d a b c q s
  | .tFcvt g x u d a r c => Sys2Proof.Machine.execTFcvt g x u d a r c s
  | .tLdr g x u d a e t k c => Sys2Proof.Machine.execTLdr g x u d a e t k c s
  | .tStr g x u d a b t k => Sys2Proof.Machine.execTStr g x u d a b t k s
  | .tAmoAdd g x u d a b t k => Sys2Proof.Machine.execTAmoAdd g x u d a b t k s
  | .tAmoMinI g x u d a b t k => Sys2Proof.Machine.execTAmoMinI g x u d a b t k s
  | .tAmoMaxI g x u d a b t k => Sys2Proof.Machine.execTAmoMaxI g x u d a b t k s
  | .tAmoMinN g x u d a b t k => Sys2Proof.Machine.execTAmoMinN g x u d a b t k s
  | .tAmoMaxN g x u d a b t k => Sys2Proof.Machine.execTAmoMaxN g x u d a b t k s
  | .tAmoAnd g x u d a b t k => Sys2Proof.Machine.execTAmoAnd g x u d a b t k s
  | .tAmoOr g x u d a b t k => Sys2Proof.Machine.execTAmoOr g x u d a b t k s
  | .tAmoXor g x u d a b t k => Sys2Proof.Machine.execTAmoXor g x u d a b t k s
  | .tAmoSwap g x u d a b t k => Sys2Proof.Machine.execTAmoSwap g x u d a b t k s
  | .tAmoCas g x u d a b t k => Sys2Proof.Machine.execTAmoCas g x u d a b t k s
  | .tAmoFadd g x u d a b t k => Sys2Proof.Machine.execTAmoFadd g x u d a b t k s
  | .tSteer g x u a ix => Sys2Proof.Machine.execTSteer g x u a ix s
  | .tMsel g x u a q => Sys2Proof.Machine.execTMsel g x u a q s
  | .tSig g x u a l => Sys2Proof.Machine.execTSig g x u a l s
  | .tHalt g x u => Sys2Proof.Machine.execTHalt g x u s
  | .tSig2 g x u a b l => Sys2Proof.Machine.execTSig2 g x u a b l s
  | .powerOn => Sys2Proof.Machine.execPowerOn s
  | .firstStageImageCheck => Sys2Proof.Machine.execFirstStageImageCheck s
  | .qset => Sys2Proof.Machine.execQset s
  | .winset => Sys2Proof.Machine.execWinset s
  | .swround => Sys2Proof.Machine.execSwround s
  | .careread => Sys2Proof.Machine.execCareread s
  | .attest => Sys2Proof.Machine.execAttest s
  | .setid => Sys2Proof.Machine.execSetid s
  | .stage => Sys2Proof.Machine.execStage s
  | .fetch => Sys2Proof.Machine.execFetch s
  | .idkey => Sys2Proof.Machine.execIdkey s
  | .alertRead => Sys2Proof.Machine.execAlertRead s
  | .qerrRead => Sys2Proof.Machine.execQerrRead s
  | .widxWrite => Sys2Proof.Machine.execWidxWrite s
  | .registerWrite => Sys2Proof.Machine.execRegisterWrite s
  | .asidsWrite => Sys2Proof.Machine.execAsidsWrite s
  | .gstatResumeWrite => Sys2Proof.Machine.execGstatResumeWrite s
  | .lpchWrite => Sys2Proof.Machine.execLpchWrite s
  | .lpchQuiesceDone => Sys2Proof.Machine.execLpchQuiesceDone s
  | .reladvWrite => Sys2Proof.Machine.execReladvWrite s
  | .hqcfgWrite => Sys2Proof.Machine.execHqcfgWrite s
  | .groupTableWrite => Sys2Proof.Machine.execGroupTableWrite s
  | .launchRecordRead => Sys2Proof.Machine.execLaunchRecordRead s
  | .launchAdmit => Sys2Proof.Machine.execLaunchAdmit s
  | .stitchInject => Sys2Proof.Machine.execStitchInject s
  | .stitchArrival => Sys2Proof.Machine.execStitchArrival s
  | .stitchAnswerArrival => Sys2Proof.Machine.execStitchAnswerArrival s
  | .stitchReturnArrival => Sys2Proof.Machine.execStitchReturnArrival s
  | .localRefusalReturn => Sys2Proof.Machine.execLocalRefusalReturn s
  | .resumeMarkerArrival => Sys2Proof.Machine.execResumeMarkerArrival s
  | .pick => Sys2Proof.Machine.execPick s
  | .stealRequestTimeout => Sys2Proof.Machine.execStealRequestTimeout s
  | .plogReplayTimeout => Sys2Proof.Machine.execPlogReplayTimeout s
  | .budgetExpiry => Sys2Proof.Machine.execBudgetExpiry s
  | .lateRefusalArrival => Sys2Proof.Machine.execLateRefusalArrival s
  | .lateRefusalTrap => Sys2Proof.Machine.execLateRefusalTrap s
  | .needleMemoryReply => Sys2Proof.Machine.execNeedleMemoryReply s
  | .storeAck => Sys2Proof.Machine.execStoreAck s
  | .feRequestRetry => Sys2Proof.Machine.execFeRequestRetry s
  | .tlbWalk => Sys2Proof.Machine.execTlbWalk s
  | .invalidationArrival => Sys2Proof.Machine.execInvalidationArrival s
  | .extentPatch => Sys2Proof.Machine.execExtentPatch s
  | .residentLoadComplete => Sys2Proof.Machine.execResidentLoadComplete s
  | .rowDeliver => Sys2Proof.Machine.execRowDeliver s
  | .islandFire => Sys2Proof.Machine.execIslandFire s
  | .islandRefire => Sys2Proof.Machine.execIslandRefire s
  | .resultPortSend => Sys2Proof.Machine.execResultPortSend s
  | .foldCombine => Sys2Proof.Machine.execFoldCombine s
  | .foldDrainIncomplete => Sys2Proof.Machine.execFoldDrainIncomplete s
  | .compactStep => Sys2Proof.Machine.execCompactStep s
  | .mergeStep => Sys2Proof.Machine.execMergeStep s
  | .copySrcRead => Sys2Proof.Machine.execCopySrcRead s
  | .copyDstWrite => Sys2Proof.Machine.execCopyDstWrite s
  | .ctTokenIn => Sys2Proof.Machine.execCtTokenIn s
  | .ctTokenOut => Sys2Proof.Machine.execCtTokenOut s
  | .burstBeat => Sys2Proof.Machine.execBurstBeat s
  | .predicateSquash => Sys2Proof.Machine.execPredicateSquash s
  | .elementMemCompletion => Sys2Proof.Machine.execElementMemCompletion s
  | .ldrReply => Sys2Proof.Machine.execLdrReply s
  | .drainWaveDown => Sys2Proof.Machine.execDrainWaveDown s
  | .drainWaveAnswer => Sys2Proof.Machine.execDrainWaveAnswer s
  | .reconfigToken => Sys2Proof.Machine.execReconfigToken s
  | .configSwap => Sys2Proof.Machine.execConfigSwap s
  | .tackPrefetch => Sys2Proof.Machine.execTackPrefetch s
  | .launchComplete => Sys2Proof.Machine.execLaunchComplete s
  | .groupStartByLoader => Sys2Proof.Machine.execGroupStartByLoader s
  | .groupStreamingStart => Sys2Proof.Machine.execGroupStreamingStart s
  | .weftFrameSend => Sys2Proof.Machine.execWeftFrameSend s
  | .weftFrameReceive => Sys2Proof.Machine.execWeftFrameReceive s
  | .weftHeldDrain => Sys2Proof.Machine.execWeftHeldDrain s
  | .replayRequestArrival => Sys2Proof.Machine.execReplayRequestArrival s
  | .weftWatchdog => Sys2Proof.Machine.execWeftWatchdog s
  | .memberCompletionReport => Sys2Proof.Machine.execMemberCompletionReport s
  | .receiverLock => Sys2Proof.Machine.execReceiverLock s
  | .ringRangeEnd => Sys2Proof.Machine.execRingRangeEnd s
  | .ringRelockDone => Sys2Proof.Machine.execRingRelockDone s
  | .weftStatusReturn => Sys2Proof.Machine.execWeftStatusReturn s
  | .copyComplete => Sys2Proof.Machine.execCopyComplete s
  | .matComplete => Sys2Proof.Machine.execMatComplete s
  | .leaveGrant => Sys2Proof.Machine.execLeaveGrant s
  | .thermalSample => Sys2Proof.Machine.execThermalSample s
  | .tileClockGate => Sys2Proof.Machine.execTileClockGate s
  | .tileWake => Sys2Proof.Machine.execTileWake s
  | .careLogFlush => Sys2Proof.Machine.execCareLogFlush s
  | .careCheckpoint => Sys2Proof.Machine.execCareCheckpoint s
  | .swatchRound => Sys2Proof.Machine.execSwatchRound s
  | .swatchTestEnd => Sys2Proof.Machine.execSwatchTestEnd s
  | .swatchTestAbandon => Sys2Proof.Machine.execSwatchTestAbandon s
  | .elementParityError => Sys2Proof.Machine.execElementParityError s
  | .routerFlitArrival => Sys2Proof.Machine.execRouterFlitArrival s
  | .linkFailure => Sys2Proof.Machine.execLinkFailure s
  | .pathHoldTimeout => Sys2Proof.Machine.execPathHoldTimeout s
  | .drainMarkerArrival => Sys2Proof.Machine.execDrainMarkerArrival s
  | .clockSourceLoss => Sys2Proof.Machine.execClockSourceLoss s
  | .clockSwitchHoldEnd => Sys2Proof.Machine.execClockSwitchHoldEnd s
  | .bankReweave => Sys2Proof.Machine.execBankReweave s
  | .bankReweaveDone => Sys2Proof.Machine.execBankReweaveDone s
  | .tileFwdToDead => Sys2Proof.Machine.execTileFwdToDead s
  | .darnPlanTimeout => Sys2Proof.Machine.execDarnPlanTimeout s
  | .linkPortUp => Sys2Proof.Machine.execLinkPortUp s
  | .linkLaneFence => Sys2Proof.Machine.execLinkLaneFence s
  | .linkFarEndTimeout => Sys2Proof.Machine.execLinkFarEndTimeout s
  | .linkPortDown => Sys2Proof.Machine.execLinkPortDown s
  | .linkTokenArrival => Sys2Proof.Machine.execLinkTokenArrival s
  | .peerTrafficForward => Sys2Proof.Machine.execPeerTrafficForward s
  | .stopWave => Sys2Proof.Machine.execStopWave s
  | .stopFiringTimeout => Sys2Proof.Machine.execStopFiringTimeout s
  | .quietWave => Sys2Proof.Machine.execQuietWave s
  | .saveWave => Sys2Proof.Machine.execSaveWave s
  | .resumeWave => Sys2Proof.Machine.execResumeWave s
  | .actcmdEvict => Sys2Proof.Machine.execActcmdEvict s
  | .actcmdRestore => Sys2Proof.Machine.execActcmdRestore s
  | .ret => Sys2Proof.Machine.execRet s
  | .eret => Sys2Proof.Machine.execEret s
  | .hend => Sys2Proof.Machine.execHend s
  | .ifence => Sys2Proof.Machine.execIfence s
  | .reservedEncoding => Sys2Proof.Machine.execReservedEncoding s
  | .fetchFault => Sys2Proof.Machine.execFetchFault s
  | .earlySpillOrFill => Sys2Proof.Machine.execEarlySpillOrFill s
  | .generatorAccessRefused => Sys2Proof.Machine.execGeneratorAccessRefused s
  | .snapComplete => Sys2Proof.Machine.execSnapComplete s
  | .allocationQueryAnswer => Sys2Proof.Machine.execAllocationQueryAnswer s
  | .loadZeroConfigured => Sys2Proof.Machine.execLoadZeroConfigured s
  | .powerLoss => Sys2Proof.Machine.execPowerLoss s

end Sys2Proof.Machine
end

