-- ==== Sys2Proof/Machine/Schedule.lean ====
section
/-!
DEFINITION. The order of steps (log 1): the head of the agenda names the next turn, and with an empty agenda a fixed round
serves what is due. Also the program that a test of one instruction places (log 5).
-/
namespace Sys2Proof.Machine

/-! ### The turn of an element (R263, R264, R173) -/

/-- The turn of an element: the next beat of its burst, or the lowest slot whose guard holds, unless a stop wave has ended firing
(R484). -/
def State.elemTurn (s : State) (t e : Nat) : Pick :=
  if tileCount ≤ t ∨ 16 ≤ e then .absent
  else if s.elemStopped t || s.fabricHeld t then .pass s
  else if ((s.tile t).fabric.elem e).beat.isSome then
    .run .burstBeat { s with focus := .elem t e 0, ev := { EvArgs.none with tile := t, unit := e } }
  else if (s.part t).firingStopped then .pass s
  else
    match s.pickSlot t e with
    | some (k, i) => .run i { s.wakePart t with focus := .elem t e k }
    | none => .pass s

/-! ### Steps of the hardware, the host and the management plane -/

/-- Steps that come about only within a turn of a needle slot or an element. -/
def inTurn (i : Instr) : Bool :=
  match i with
  | .reservedEncoding | .fetchFault | .lateRefusalTrap | .budgetExpiry | .burstBeat => true
  | _ => false

/-- How many units a step's first operand may name: silicon, ports, panels, host ports, or logical tiles (log 20). -/
def eventUnits (i : Instr) : Nat :=
  match i with
  | .linkFailure | .pathHoldTimeout | .tileFwdToDead | .clockSourceLoss | .clockSwitchHoldEnd => 140 * 192
  | .linkPortUp | .linkLaneFence | .linkFarEndTimeout | .linkPortDown | .linkTokenArrival | .peerTrafficForward => 80
  | .lpchWrite | .lpchQuiesceDone => 80
  | .thermalSample | .leaveGrant => 56
  | .widxWrite | .qerrRead => 8
  | _ => tileCount

/-- How many things a step's `n` may name where it is a number of the part's own: work queues, address-space identifiers (R1). -/
def eventNumbers (i : Instr) : Option Nat :=
  match i with
  | .widxWrite | .qerrRead => some (4096 * 4096)
  | .launchRecordRead => some queueCount
  | .asidsWrite => some 4096
  | _ => none

/-- A step of the units of tile `ev.tile`, which takes the tile's clock (R44). -/
def takesClock (i : Instr) : Bool :=
  match i with
  | .needleMemoryReply | .tlbWalk | .earlySpillOrFill | .extentPatch | .residentLoadComplete | .matComplete => true
  | .rowDeliver | .islandFire | .islandRefire | .resultPortSend | .foldCombine | .foldDrainIncomplete => true
  | .compactStep | .mergeStep | .copySrcRead | .copyDstWrite | .copyComplete | .ctTokenIn | .ctTokenOut => true
  | .elementMemCompletion | .ldrReply | .weftHeldDrain | .stitchInject | .pick | .localRefusalReturn => true
  | .drainWaveDown | .drainWaveAnswer | .reconfigToken | .configSwap | .tackPrefetch => true
  | .stopWave | .quietWave | .saveWave | .resumeWave | .actcmdEvict | .actcmdRestore | .swatchRound => true
  | _ => false

/-- The turn of a step without an encoding: an instruction that has one comes only by its own unit's turn. -/
def State.eventTurn (s : State) (i : Instr) (a : EvArgs) : Pick :=
  if (encode i).isSome || inTurn i then .pass s
  else if takesClock i && (s.silicon a.tile).dark then .pass s
  else if eventUnits i ≤ a.tile || ((eventNumbers i).any fun n => decide (n ≤ a.n)) then .absent
  else .run i { s with ev := a }

/-! ### Errors in a slot's registers (R488, R489) -/

/-- An error strikes register `r` of a slot: a single-bit error is corrected and counted (which unit it is counted under the spec does not
say: a free value, log 15); one of two bits stays until the register is written, and an instruction that reads it traps. -/
def State.registerError (s : State) (t k r : Nat) (double : Bool) : Pick :=
  if tileCount ≤ t ∨ 8 ≤ k ∨ r = 0 ∨ 32 ≤ r then .absent
  else if !(s.slot t k).runs || s.stopped t then .pass s
  else if !double then .pass (s.useFree.care1 t 0x0001 (get s.freeVal 15 0))
  else .pass (s.modSlot t k fun sl => { sl with bad := natInsert (sl.absReg (BitVec.ofNat 5 r)) sl.bad })

/-! ### With an empty agenda -/

/-- The step that serves a message. -/
def arrivalOf (s : State) (f : Flight) : Instr :=
  if !s.arrived f then
    (match f.msg with
    | .drain _ _ => if f.hops.isEmpty && (s.phy f.at_).state != 4 then .drainMarkerArrival else .routerFlitArrival
    | _ => .routerFlitArrival)
  else
    match f.msg with
    | .stitch _ => .stitchArrival
    | .answer _ => .stitchAnswerArrival
    | .returned _ _ => .stitchReturnArrival
    | .marker _ => .resumeMarkerArrival
    | .drain _ _ => .drainMarkerArrival
    | .frame _ _ => .weftFrameReceive
    | .replay _ _ _ _ => .replayRequestArrival
    | .report _ _ => .memberCompletionReport
    | .inval _ _ _ _ _ => .invalidationArrival
    | .peer _ _ => .peerTrafficForward
    | .tokens _ _ => .routerFlitArrival
    | .fold _ _ _ => .routerFlitArrival

/-- What is due at tile `t` besides its needle slots: the oldest store, the oldest stitch to inject, the reply a slot awaits,
a ready pocket. -/
def State.dueAt (s : State) (t : Nat) : Option (Instr × EvArgs) :=
  let T := s.tile t
  let a := { EvArgs.none with tile := t }
  let reply := (List.range 8).findSome? fun k =>
    ((T.slot k).pend.find? fun p => !p.fe && p.kind != .result).map fun p => (k, p.id)
  match s.behind.head? with
  | some b => some (.storeAck, { a with tile := b.tile, n := b.id })
  | none =>
  match T.stores, reply with
  | e :: _, _ => some (.storeAck, { a with n := e.id })
  | [], some (k, id) => some (.needleMemoryReply, { a with unit := k, n := id })
  | [], none =>
    if !T.router.inj.isEmpty then some (.stitchInject, a)
    else if !T.readyLabels.isEmpty then some (.pick, a)
    else none

/-- The fixed round: a message, what is due at the tile of the last turn, an element of it, else its next needle slot. -/
def State.idleTurn (s : State) : Pick :=
  let t := s.ft
  let needle := s.needleTurn t (((s.tile t).cycles.toNat + 1) % 8)
  match s.turns % 4 with
  | 0 =>
    match s.flights[s.turns / 4 % s.flights.length]?.filter fun f => !f.held with
    | some f => .run (arrivalOf s f) { s with ev := { EvArgs.none with n := f.id, flag := true } }
    | none => needle
  | 1 =>
    match s.dueAt t with
    | some (i, a) => .run i { s with ev := a }
    | none => needle
  | 2 => s.elemTurn t (s.turns / 4 % 16)
  | _ => needle

/-- The next turn. -/
def State.nextUp (s0 : State) : Pick :=
  let s := { s0 with turns := s0.turns + 1 }
  match s0.agenda with
  | [] => s.idleTurn
  | x :: r =>
    let s1 := { s with agenda := r }
    match x with
    | .needle t k => s1.needleTurn t k
    | .elem t e => s1.elemTurn t e
    | .event i a => s1.eventTurn i a
    | .upset loc double => if memWord loc then .pass (s1.memError loc double) else .absent
    | .register t k r double => s1.registerError t k r double
    | .core n op loc => if 16 ≤ n then .absent else .pass (s1.coreDarn n op loc)
    | .outside p op loc => if 96 ≤ p then .absent else .pass (s1.outside p op loc)
    | .link p x => if 80 ≤ p then .absent else .pass (s1.linkStep p x)

/-! ### Placing one instruction (log 5) -/

/-- Where the placed needle instruction lies: offset 0x1_0000 of tile 0's local store, at the same virtual address. -/
def placedAt : Nat := 0x10000

/-- The translation of the page the placed instruction lies in: the tile's own store, every permission (R352, R355). -/
def placedPage (g : BitVec 4) : TlbEnt := ⟨0, g, 0, 1, 0x1003F⟩

/-- A slot about to run the placed instruction: a handler of the system actor. -/
def Slot.placed (sl : Slot) (g : BitVec 4) : Slot :=
  { sl with run := .handler .sys, mode := .system, pc := BitVec.ofNat 64 placedAt, ext := none, asid := 0, gen := g
            budgetDue := false, waiting := false, late := [], held := none, cut := false, bad := [], dying := none }

/-- Tile 0 with the placed instruction's slot, translation and bytes in force. -/
def Tile.placed (T : Tile) (g : BitVec 4) : Tile :=
  { T.modSlot 0 fun sl => sl.placed g with
    tlb := placedPage g :: T.tlb
    stores := T.stores.filter fun e => !(decide (e.loc < localLoc 0 placedAt + 4) && decide (localLoc 0 placedAt < e.loc + e.bytes.length))
    gated := false, level := 8 }

/-- A needle word is placed where tile 0's slot 0 fetches next. -/
def State.placeNeedle (s : State) (w : Nat) : State :=
  let s1 := s.write (localLoc 0 placedAt) (wordBytes w)
  let s2 := { s1 with marks := natErase (wordOf (localLoc 0 placedAt)) s1.marks, agenda := .needle 0 0 :: s1.agenda }
  ((s2.modTile 0 fun T => T.placed (s.asid 0).gen).modPanel (s2.panelOf 0) fun p => { p with level := 8 }).modPhy (s2.physOf 0)
    fun P => { P with hold := false, dark := false, banks := 0xFFFF }

/-- An element whose slot 0 holds a word, with its trigger, operands and channels set so that its guard holds. -/
def placedElem (w : Nat) : Elem :=
  let x := BitVec.ofNat 3 (w / 2 ^ 27)
  let k : Token := ⟨false, x, 0⟩
  { Elem.reset with
    slots := [(0, BitVec.ofNat 32 w)], burst := 1, q := if w / 2 ^ 30 % 4 = 2 then 0 else 0xFF, d := Vector.replicate 8 k
    chans := [(0, [k]), (1, [k]), (2, [k]), (3, [k])] }

/-- The fabric of a tile in a running load whose one element is the placed one; the element path has an extent for page 0. -/
def placedFabric (w : Nat) (g : BitVec 4) : Fabric :=
  { Fabric.reset with
    elems := [(0, placedElem w)]
    path := { Stream.reset with ext := [⟨0, 0, 0, true, true, false, 0, g, false, 0⟩], gen := g }
    part := { Part.reset with state := .running } }

/-- An element word is placed in slot 0 of element 0 of tile 0. -/
def State.placeElem (s : State) (w : Nat) : State :=
  let s1 := { s with agenda := .elem 0 0 :: s.agenda }
  ((s1.modTile 0 fun T => { T with fabric := placedFabric w (s.asid 0).gen, gated := false, level := 8 }).modPanel (s1.panelOf 0) fun p =>
    { p with level := 8 }).modPhy (s1.physOf 0) fun P => { P with hold := false, dark := false }

/-- A word is read as an element's: it decodes as one, and not as a needle word that a bare word may stand for (log 5). -/
def placesElem (w : Nat) : Bool :=
  match decodeS w, decodeT w with
  | .ok _, .ok _ => isExtWord w
  | .error _, .ok _ => true
  | _, _ => false

/-- A word placed for the next step. -/
def State.placeWord (s : State) (w : Nat) : State := if placesElem w then s.placeElem w else s.placeNeedle w

end Sys2Proof.Machine
end

