-- ==== Sys2Proof/Machine/Step.lean ====
section
/-!
DEFINITION. One step of the machine: the unit whose turn it is runs one instruction, or one step of the hardware, the host or
the management plane happens.
-/
namespace Sys2Proof.Machine

/-- One step. -/
def step (s : State) : Host.Outcome State Fault Refusal :=
  match s.nextUp with
  | .pass s1 => .next s1
  | .run i s1 => exec i s1
  | .absent => .fault .noSuchUnit

/-- The instruction of a table word where the next step fetches it (log 5). -/
def State.withFetchWord (s : State) (_nbits w : Nat) : State := s.placeWord w

end Sys2Proof.Machine
end

