-- ==== Sys2Proof/Machine/Mapping.lean ====
section
/-!
DEFINITION. The manufacturing mapper (R19-R23): which silicon holds each logical tile of a part with dead tiles, the routes
between them, and the fuses that hold the map. Also which wafer of an optimiser group owns a page (R465).
-/
namespace Sys2Proof.Machine

/-! ### Rows (R19, R20) -/

/-- Segment `g` of physical row `py`: 34 positions of its 35, all but the spare or all but its one dead tile (R20). -/
def segmentMap (dead : List Nat) (py g : Nat) : Option (List Nat) :=
  let xs := (List.range 35).map fun i => 35 * g + i
  match xs.filter fun px => dead.contains (physKey px py) with
  | [] => some (xs.take 34)
  | [px] => some (xs.filter fun x => x != px)
  | _ => none

/-- The positions of the 136 logical tiles of a physical row, from west to east; none where R20 cannot map it. -/
def rowMap (dead : List Nat) (py : Nat) : Option (List Nat) :=
  match segmentMap dead py 0, segmentMap dead py 1, segmentMap dead py 2, segmentMap dead py 3 with
  | some a, some b, some c, some d => some (a ++ b ++ c ++ d)
  | _, _, _, _ => none

/-! ### Routes (R22, R24) -/

/-- The routes of `n` hops from `p` to `q` that enter no dead tile, in the order of their hop codes. -/
def routesOf (dead : List Nat) (q : Nat) : Nat → Nat → List (List Nat)
  | 0, p => if p = q then [[]] else []
  | n + 1, p => (List.range 4).flatMap fun d =>
    match physNext p d with
    | none => []
    | some r => if dead.contains r then [] else (routesOf dead q n r).map fun l => d :: l

/-- The seam links of a route from silicon `p` (R17). -/
def seamsOf : Nat → List Nat → Nat
  | _, [] => 0
  | p, d :: r =>
    match physNext p d with
    | none => 0
    | some q => (if physPanel p = physPanel q then 0 else 1) + seamsOf q r

/-- The routes with the fewest seams of the shortest that 1 to 4 hops allow (R22, R34; log 51). -/
def bestRoutes (dead : List Nat) (p q : Nat) : List (List Nat) :=
  match [1, 2, 3, 4].find? fun n => !(routesOf dead q n p).isEmpty with
  | none => []
  | some n =>
    let l := routesOf dead q n p
    let least := (l.map (seamsOf p)).foldl min 8
    l.filter fun r => seamsOf p r == least

/-- The route that the mapper gives a logical link from silicon `p` to `q`: of equals, one the spec leaves open (log 51). -/
def mappedRoute (dead : List Nat) (p q : Nat) : Option (List Nat) :=
  match bestRoutes dead p q with
  | [] => none
  | [r] => some r
  | l => l[Config.routeTie p q % l.length]?

/-! ### The wafer (R21, R22) -/

/-- A mapped physical row: its py and the positions of its logical tiles. -/
abbrev MappedRow := Nat × List Nat

/-- Two physical tiles have routes within R22's limit, both ways. -/
def linked (dead : List Nat) (p q : Nat) : Bool := !(bestRoutes dead p q).isEmpty && !(bestRoutes dead q p).isEmpty

/-- Every horizontal link of a row, and every vertical link to the row mapped before it, has a route (R22). -/
def rowLinks (dead : List Nat) (prev : Option MappedRow) (row : MappedRow) : Bool :=
  ((row.2.zip (row.2.drop 1)).all fun e => linked dead (physKey e.1 row.1) (physKey e.2 row.1))
    && match prev with
      | none => true
      | some u => (u.2.zip row.2).all fun e => linked dead (physKey e.1 u.1) (physKey e.2 row.1)

/-- The next `n` logical rows from physical rows in ascending py: a row that cannot be mapped, or whose links break R22's
limit, is skipped (R21). -/
def mapRows (dead : List Nat) : List Nat → Option MappedRow → Nat → Option (List MappedRow)
  | _, _, 0 => some []
  | [], _, _ + 1 => none
  | py :: r, prev, n + 1 =>
    match rowMap dead py with
    | none => mapRows dead r prev (n + 1)
    | some xs =>
      if rowLinks dead prev (py, xs) then (mapRows dead r (some (py, xs)) n).map fun l => (py, xs) :: l
      else mapRows dead r prev (n + 1)

/-- The bands from `b` to 3, 47 logical rows of 48 physical rows each: a band absorbs one skipped row (R19, R21). -/
def mapBands (dead : List Nat) : List Nat → Option MappedRow → Option (List MappedRow)
  | [], _ => some []
  | b :: r, prev =>
    match mapRows dead ((List.range 48).map fun i => 48 * b + i) prev 47 with
    | none => none
    | some l => (mapBands dead r l.getLast?).map fun m => l ++ m

/-- The map of a wafer with dead tiles: its 188 logical rows from north to south; none where the part is not shipped (R22). -/
def mapWafer (dead : List Nat) : Option (List MappedRow) := mapBands dead [0, 1, 2, 3] none

/-- The silicon of a logical tile in a map. -/
def siliconOf (m : List MappedRow) (t : Nat) : Option Nat :=
  (m[tileY t]?).bind fun row => (row.2[tileX t]?).map fun px => physKey px row.1

/-- The logical tile that a map puts at silicon `p`. -/
def logicalOf (m : List MappedRow) (p : Nat) : Option Nat :=
  (m.findIdx? fun row => row.1 == p / 140 && row.2.contains (p % 140)).bind fun y =>
    (m[y]?).bind fun row => (row.2.findIdx? fun px => px == p % 140).map fun x => tileKey x y

/-! ### The fuses (R23, R29, R30, R34) -/

/-- A route entry of some hops (R30). -/
def hopsEntry (l : List Nat) : Nat :=
  0x8000 + (l.length - 1) * 2 ^ 13 + (l.zipIdx.map fun e => e.1 * 2 ^ (5 + 2 * e.2)).sum

/-- The route and measure entries of logical tile `t` in direction `d`; zero where the mesh ends. -/
def linkEntry (dead : List Nat) (m : List MappedRow) (t d : Nat) : Nat × Nat :=
  match siliconOf m t, (tileNext t d).bind (siliconOf m) with
  | some p, some q =>
    (match mappedRoute dead p q with
    | some l => (hopsEntry l, l.length * 2 ^ 5 + seamsOf p l * 2 ^ 3)
    | none => (0, 0))
  | _, _ => (0, 0)

/-- What the fuses hold for silicon `p`: DSELF, both route registers and both measure registers. Silicon without a logical
tile, fused off or spare, is IDLE (R29). -/
def fuseOf (dead : List Nat) (m : List MappedRow) (p : Nat) : BitVec 32 × Word × Word × BitVec 32 × BitVec 32 :=
  match logicalOf m p with
  | none => (0, 0, 0, 0, 0)
  | some t =>
    let e := fun d => linkEntry dead m t d
    let route : Word := put 0 16 (e 0).1 + put 16 16 (e 1).1 + put 32 16 (e 2).1 + put 48 16 (e 3).1
    let meas : Word := put 0 8 (e 0).2 + put 8 8 (e 1).2 + put 16 8 (e 2).2 + put 24 8 (e 3).2
    (BitVec.ofNat 32 (2 ^ 29 + tileY t * 256 + tileX t), route, route, meas.setWidth 32, meas.setWidth 32)

/-- A part with dead tiles as it leaves manufacturing; POWER_ON applies its fuses (R23). -/
def State.made (dead : List Nat) : Option State :=
  (mapWafer dead).map fun m =>
    { State.reset with
      mgmt := { Mgmt.reset with fuses := (List.range (140 * 192)).map fun p => (p, fuseOf dead m p), fuseDead := dead } }

/-! ### Pages of an optimiser group (R465) -/

/-- mix64 of R465. -/
def mix64 (x : Word) : Word :=
  let a := (x ^^^ (x >>> 31)) * 0xA3B195C46D27E0F1
  let b := (a ^^^ (a >>> 29)) * 0x5C8E2B17D94F36A5
  b ^^^ (b >>> 32)

/-- The wafer, of a group of `n`, that owns the page of the byte at a virtual address (R465). -/
def shard (n : Nat) (va : Word) : Nat := (mix64 (va >>> 12)).toNat % n

end Sys2Proof.Machine
end

