-- ==== Sys2Proof/Safety.lean ====
section
/-!
DEFINITION. What a safe run is: no step names a unit the part does not have, and the machine's own form holds after every
step.
-/
namespace Sys2Proof.Machine

/-- The agenda names only units that the part has (R1, R2, R6, R7, R433, R503). -/
def State.agendaOk (s : State) : Bool :=
  s.agenda.all fun x => match x with
    | .needle t k => decide (t < tileCount ∧ k < 8)
    | .elem t e => decide (t < tileCount ∧ e < 16)
    | .event i a => decide (a.tile < eventUnits i) && (eventNumbers i).all fun n => decide (a.n < n)
    | .upset loc _ => memWord loc
    | .register t k r _ => decide (t < tileCount ∧ k < 8 ∧ 1 ≤ r ∧ r < 32)
    | .core n _ _ => decide (n < 16)
    | .outside p _ _ => decide (p < 96)
    | .link p _ => decide (p < 80)

/-- The form that every step keeps: memory in canonical form. -/
def State.Inv (s : State) : Prop := Memory.wf s.mem = true

/-- `n` steps end in a next state. -/
def State.runs : Nat → State → Prop
  | 0, _ => True
  | n + 1, s => ∃ t, step s = .next t ∧ State.runs n t

/-- A safe run: it goes on for ever. -/
def State.safe (s : State) : Prop := ∀ n, s.runs n

end Sys2Proof.Machine
end

