-- ==== Sys2Proof/Certificates/Slice0/Obligations.lean ====
section
/-!
DEFINITION. What is claimed of the model: statements in the terms of the spec's rules, for the provers. The first part
names what the statements share: a slot that can issue, and what an instruction leaves as it was.
-/
namespace Sys2Proof.Rules
open Sys2Proof.Machine

/-- No register in the list waits for a result (R209). -/
abbrev ready (s : State) (rs : List (BitVec 5)) : Prop := s.cur.pendsOn rs = false

/-- The machine outside the running slot is as it was: memory, every tile but the slot's, and in that tile everything but
the slot. -/
def sameOutsideSlot (s t : State) : Prop :=
  t = { s with tiles := t.tiles } ∧ (∀ x, x ≠ s.ft → t.tile x = s.tile x)
    ∧ t.tile s.ft = { s.tile s.ft with slots := (t.tile s.ft).slots }
    ∧ ∀ k, k % 8 ≠ s.fk % 8 → t.slot s.ft k = s.slot s.ft k

/-- Every byte of memory, every presence bit and every mark is as it was. -/
def sameMemory (s t : State) : Prop :=
  (∀ a, t.byte a = s.byte a) ∧ t.empties = s.empties ∧ t.marks = s.marks

/-- Of a slot, only scalar registers in the list, the pc, the EXT payload and the loop entries may differ; an error in a
register
ends where the register is written (R488), and none begins. -/
def onlyRegs (rs : List (BitVec 5)) (x y : Slot) : Prop :=
  y = { x with file := y.file, pc := y.pc, ext := y.ext, top := y.top, below := y.below, bad := y.bad }
    ∧ (∀ r, r ∉ rs → y.sreg r = x.sreg r) ∧ ∀ n ∈ y.bad, n ∈ x.bad

/-- As `onlyRegs`, with FPCS.FLAGS and RCTR, which a floating-point instruction writes too (R54, R57). -/
def onlyRegsFp (rs : List (BitVec 5)) (x y : Slot) : Prop :=
  y = { x with file := y.file, pc := y.pc, ext := y.ext, top := y.top, below := y.below, bad := y.bad,
               fpcs := { x.fpcs with flags := y.fpcs.flags }, rctr := y.rctr }
    ∧ (∀ r, r ∉ rs → y.sreg r = x.sreg r) ∧ ∀ n ∈ y.bad, n ∈ x.bad

/-- As `onlyRegs`, for predicates. -/
def onlyPreds (ps : List (BitVec 3)) (x y : Slot) : Prop :=
  y = { x with preds := y.preds, pc := y.pc, ext := y.ext, top := y.top, below := y.below }
    ∧ ∀ p, p ∉ ps → y.pred p = x.pred p

/-- The outcome is a next state of which `P` holds. -/
def nextWith (o : Host.Outcome State Fault Refusal) (P : State → Prop) : Prop := ∃ t, o = .next t ∧ P t

/-- The outcome is the machine whose running slot `f` changed, gone on to the next word (R228). -/
def slotDone (i : Instr) (s : State) (f : Slot → Slot) : Prop :=
  exec i s = .next (s.modCur fun sl => (f sl).advance)

/-- The completion `i` of tile `t` has come to the slot that waits for it, as `f` leaves that slot, and the register it names
holds `v` (R209, R307). -/
def awarded (s u : State) (t i : Nat) (v : Word) (f : Slot → Slot) : Prop :=
  ∀ k < 8, ∀ p, (s.slot t k).pend? i = some p → (∀ m < k, (s.slot t m).pend? i = none) →
    u.slot t k = (f (s.slot t k)).complete i [v]
    ∧ ∀ r : BitVec 5, r ≠ 0 → p.dst = [(s.slot t k).absReg r] → (u.slot t k).sreg r = v

/-- Token `k` has gone down the wire of a source of tile `t`: into the channel of an element there, or in a flit to the tile
at the
wire's other end. -/
def tookWire (s u : State) (t : Nat) (src : Source) (k : Token) : Prop :=
  ∀ w, (s.tile t).fabric.wire? src = some w →
    (∀ e c, w.ends = [(t, .elem e c)] →
      ((u.tile t).fabric.elem e).chans.get [] c = ((s.tile t).fabric.elem e).chans.get [] c ++ [k])
    ∧ ∀ d, w.ends = [d] → d.1 ≠ t → ∃ q ∈ u.flights, q.src = t ∧ q.dst = d.1 ∧ ∃ ks, q.msg = .tokens d.2 (ks ++ [k])

/-- A report of R179 was made for a unit of tile `t`: the first of a load goes to the return pocket at once, a later one is
counted. -/
def reported (s u : State) (t unit what : Nat) (origin : Word) : Prop :=
  let r := (s.tile t).fabric.sinks.get SinkRep.reset unit
  let x := (u.tile t).fabric.sinks.get SinkRep.reset unit
  x.first = true
  ∧ (r.first = true → x.count = if r.count = 65535 then 65535 else r.count + 1)
  ∧ (r.first = false → (s.tile t).router.returnRoom = true → ((s.tile t).router.pocket 0).held = false →
      ∃ st ∈ ((u.tile t).router.pocket 0).store, st.status = 3 ∧ st.src = t ∧ st.w0 = origin ∧ st.w1 = reportWord 1 unit what)

end Sys2Proof.Rules

open Sys2Proof Sys2Proof.Machine Sys2Proof.Rules

/-! ### Integer instructions of the needle core (R212-R217) -/

/-- R212: the value of every two-operand row of the ALU major whose result is one expression, written to s[d] (to nothing
for s0), after which the slot goes on to the next word. -/
def Sys2Proof.Rules.IntegerResults : Prop :=
  ∀ (s : State) (d a b : BitVec 5), ready s [d, a, b] →
    let x := s.cur.sreg a
    let y := s.cur.sreg b
    ∀ e ∈ ([(.add d a b, x + y), (.sub d a b, x - y), (.mul d a b, x * y),
        (.mulh d a b, BitVec.ofInt 64 (x.toInt * y.toInt / 2 ^ 64)),
        (.mulhu d a b, BitVec.ofNat 64 (x.toNat * y.toNat / 2 ^ 64)),
        (.and d a b, x &&& y), (.or d a b, x ||| y), (.xor d a b, x ^^^ y), (.andn d a b, x &&& ~~~y),
        (.shl d a b, BitVec.ofNat 64 (x.toNat * 2 ^ (y.toNat % 64))),
        (.shr d a b, BitVec.ofNat 64 (x.toNat / 2 ^ (y.toNat % 64))),
        (.sra d a b, BitVec.ofInt 64 (x.toInt / 2 ^ (y.toNat % 64))),
        (.min d a b, BitVec.ofInt 64 (min x.toInt y.toInt)), (.max d a b, BitVec.ofInt 64 (max x.toInt y.toInt)),
        (.minu d a b, BitVec.ofNat 64 (min x.toNat y.toNat)), (.maxu d a b, BitVec.ofNat 64 (max x.toNat y.toNat))]
        : List (Instr × Word)),
      slotDone e.1 s fun sl => sl.setSreg d e.2

/-- R212: division truncates toward zero, a remainder has the sign of its dividend, a zero divisor gives all ones as a
quotient and the dividend as a remainder; no operand traps. -/
def Sys2Proof.Rules.DivisionResults : Prop :=
  ∀ (s : State) (d a b : BitVec 5), ready s [d, a, b] →
    let x := s.cur.sreg a
    let y := s.cur.sreg b
    ∀ e ∈ ([(.div d a b, if y = 0 then BitVec.allOnes 64 else BitVec.ofInt 64 (x.toInt.tdiv y.toInt)),
        (.divu d a b, if y = 0 then BitVec.allOnes 64 else BitVec.ofNat 64 (x.toNat / y.toNat)),
        (.rem d a b, if y = 0 then x else BitVec.ofInt 64 (x.toInt.tmod y.toInt)),
        (.remu d a b, if y = 0 then x else BitVec.ofNat 64 (x.toNat % y.toNat))] : List (Instr × Word)),
      slotDone e.1 s fun sl => sl.setSreg d e.2

/-- R212: CLZ and CTZ count the zero bits above the highest and below the lowest set bit, 64 for zero; POPC counts the set
bits. -/
def Sys2Proof.Rules.BitCounts : Prop :=
  ∀ (s : State) (d a : BitVec 5), ready s [d, a] →
    let x := s.cur.sreg a
    (∃ n ≤ 64, (slotDone (.clz d a) s fun sl => sl.setSreg d (BitVec.ofNat 64 n))
        ∧ (∀ i < n, x.getLsbD (63 - i) = false) ∧ (n < 64 → x.getLsbD (63 - n) = true))
    ∧ (∃ n ≤ 64, (slotDone (.ctz d a) s fun sl => sl.setSreg d (BitVec.ofNat 64 n))
        ∧ (∀ i < n, x.getLsbD i = false) ∧ (n < 64 → x.getLsbD n = true))
    ∧ (slotDone (.popc d a) s fun sl => sl.setSreg d (BitVec.ofNat 64 ((List.range 64).countP fun i => x.getLsbD i)))

/-- R213, R214: the immediate forms, with the immediate widened by an EXT payload above it (R136), the shifts by an
immediate, and LEA. -/
def Obligations.ImmediateResults : Prop :=
  ∀ (s : State) (d a b : BitVec 5) (i : BitVec 15) (n : BitVec 6) (h : BitVec 3), ready s [d, a, b] →
    let x := s.cur.sreg a
    let sx : Word := match s.cur.ext with
      | none => i.signExtend 64
      | some p => (p ++ i).signExtend 64
    let zx : Word := match s.cur.ext with
      | none => i.zeroExtend 64
      | some p => (p ++ i).zeroExtend 64
    ∀ e ∈ ([(.addi d a i, x + sx), (.andi d a i, x &&& zx), (.ori d a i, x ||| zx), (.xori d a i, x ^^^ zx),
        (.muli d a i, x * sx),
        (.shli d a n, BitVec.ofNat 64 (x.toNat * 2 ^ n.toNat)), (.shri d a n, BitVec.ofNat 64 (x.toNat / 2 ^ n.toNat)),
        (.srai d a n, BitVec.ofInt 64 (x.toInt / 2 ^ n.toNat)),
        (.lea d a b h, x + BitVec.ofNat 64 ((s.cur.sreg b).toNat * 2 ^ h.toNat))] : List (Instr × Word)),
      slotDone e.1 s fun sl => sl.setSreg d e.2

/-- R142, R215: CMP and CMPI write p[p] with the integer condition that their code names; codes 10, 11, 14 and 15 are no
integer condition. -/
def Sys2Proof.Rules.IntegerCompares : Prop :=
  ∀ (s : State) (p : BitVec 3) (a b : BitVec 5) (i : BitVec 11), ready s [a, b] →
    let x := s.cur.sreg a
    let sx : Word := match s.cur.ext with
      | none => i.signExtend 64
      | some q => (q ++ i).signExtend 64
    ∀ y ∈ [s.cur.sreg b, sx], ∀ e ∈ ([(0, decide (x = y)), (1, decide (x ≠ y)), (2, decide (x.toInt < y.toInt)),
        (3, decide (x.toInt ≥ y.toInt)), (4, decide (x.toInt ≤ y.toInt)), (5, decide (x.toInt > y.toInt)),
        (6, decide (x.toNat < y.toNat)), (7, decide (x.toNat ≥ y.toNat)), (8, decide (x.toNat ≤ y.toNat)),
        (9, decide (x.toNat > y.toNat)), (12, true), (13, false)] : List (BitVec 4 × Bool)),
      (y = s.cur.sreg b → slotDone (.cmp p a b e.1) s fun sl => sl.setPred p e.2)
        ∧ (y = sx → slotDone (.cmpi p a e.1 i) s fun sl => sl.setPred p e.2)

/-- R216, R217: logic on predicates, and the selection of one of two registers by a predicate or its complement. -/
def Sys2Proof.Rules.PredicateLogicAndSelect : Prop :=
  ∀ (s : State) (p q r : BitVec 3),
    (∀ e ∈ ([(.pand p q r, s.cur.pred q && s.cur.pred r), (.por p q r, s.cur.pred q || s.cur.pred r),
        (.pxor p q r, s.cur.pred q ^^ s.cur.pred r), (.pandn p q r, s.cur.pred q && !s.cur.pred r)] : List (Instr × Bool)),
      slotDone e.1 s fun sl => sl.setPred p e.2)
    ∧ ∀ (d a b : BitVec 5), ready s [d, a, b] →
        (slotDone (.sel d a b 0 p) s fun sl => sl.setSreg d (if s.cur.pred p then s.cur.sreg a else s.cur.sreg b))
        ∧ (slotDone (.sel d a b 1 p) s fun sl => sl.setSreg d (if s.cur.pred p then s.cur.sreg b else s.cur.sreg a))

/-- The frame of the integer instructions: nothing outside the slot, no byte of memory, and of the slot only the destination
register (or predicate), the pc, the EXT payload and the loop entries (R228) may differ. -/
def Sys2Proof.Rules.IntegerFrame : Prop :=
  ∀ (s t : State) (d a b : BitVec 5) (p q r : BitVec 3) (i : BitVec 15) (n : BitVec 6) (h : BitVec 3) (c : BitVec 4)
    (j : BitVec 11) (o : BitVec 1),
    (∀ x ∈ ([.add d a b, .sub d a b, .mul d a b, .mulh d a b, .mulhu d a b, .div d a b, .divu d a b, .rem d a b,
        .remu d a b, .and d a b, .or d a b, .xor d a b, .andn d a b, .shl d a b, .shr d a b, .sra d a b, .min d a b,
        .max d a b, .minu d a b, .maxu d a b, .clz d a, .ctz d a, .popc d a, .addi d a i, .andi d a i, .ori d a i,
        .xori d a i, .shli d a n, .shri d a n, .srai d a n, .muli d a i, .sel d a b o p, .lea d a b h] : List Instr),
      exec x s = .next t → sameOutsideSlot s t ∧ sameMemory s t ∧ onlyRegs [d] s.cur t.cur)
    ∧ (∀ x ∈ ([.cmp p a b c, .cmpi p a c j, .pand p q r, .por p q r, .pxor p q r, .pandn p q r] : List Instr),
      exec x s = .next t → sameOutsideSlot s t ∧ sameMemory s t ∧ onlyPreds [p] s.cur t.cur)

/-- R132: a write to a scalar register is read back, s0 reads zero whatever is written, p0 reads true, m0 reads all ones,
and no other register of the kind changes. -/
def Sys2Proof.Rules.RegisterFiles : Prop :=
  ∀ (x : Slot),
    (∀ (d r : BitVec 5) (v : Word), (x.setSreg d v).sreg r = if r = 0 then 0 else if r = d then v else x.sreg r)
    ∧ (∀ (d r : BitVec 3) (v : Bool), (x.setPred d v).pred r = if r = 0 then true else if r = d then v else x.pred r)
    ∧ (∀ (d r : BitVec 3) (v : BitVec 4096), (x.setVreg d v).vreg r = if r = d then v else x.vreg r)
    ∧ (∀ (d r : BitVec 2) (v : BitVec 1024),
        (x.setMreg d v).mreg r = if r = 0 then BitVec.allOnes 1024 else if r = d then v else x.mreg r)
    ∧ x.sreg 0 = 0 ∧ x.pred 0 = true ∧ x.mreg 0 = BitVec.allOnes 1024

/-- R209: while a register that the instruction names waits for a result, the instruction does not issue: the machine is as it
was. -/
def Sys2Proof.Rules.PendingRegisterStalls : Prop :=
  ∀ (s : State) (d a b : BitVec 5) (i : BitVec 15) (t : BitVec 2) (m : BitVec 3) (z : BitVec 3) (o : BitVec 2) (x : BitVec 10),
    (s.cur.pendsOn [d, a, b] = true →
      ∀ e ∈ ([.add d a b, .mul d a b, .div d a b, .fadd d a b t m, .ffma d a b t m, .lea d a b z] : List Instr),
        exec e s = .next s)
    ∧ (s.cur.pendsOn [d, a] = true → exec (.addi d a i) s = .next s ∧ exec (.clz d a) s = .next s)
    ∧ (s.cur.pendsOn (b :: sizeRegs d (sizeBytes z)) = true →
        exec (.ld d b z o x) s = .next s ∧ exec (.st d b z o x) s = .next s)

/-! ### Floating point of the needle core (R218-R221) -/

/-- R219-R221, R56, R57: with no enabled exception, a scalar floating-point instruction writes its result, ORs its exceptions
into FLAGS, uses one draw where it rounds under RSR, and goes on to the next word. The result of each instruction is that of
the operation on the operands' low bits, in the format of its type and its rounding mode; FNEG and FABS change the sign bit
alone, and FCMP writes a predicate. -/
def Obligations.FloatResults : Prop :=
  ∀ (s : State) (d a b : BitVec 5) (t : BitVec 2) (r : BitVec 3), ready s [d, a, b, 0] →
    let f : FFmt := match t with
      | 0 => f64
      | 1 => f32
      | 2 => f16
      | 3 => bf16
    let rm : Nat := if r = 7 then s.cur.fpcs.rm.toNat else r.toNat
    let x := (s.cur.sreg a).toNat
    let y := (s.cur.sreg b).toNat
    let z := (s.cur.sreg d).toNat
    let w := s.cur.draw 0
    (∀ e ∈ ([(.fadd d a b t r, f.add rm w x y), (.fsub d a b t r, f.sub rm w x y), (.fmul d a b t r, f.mul rm w x y),
        (.ffma d a b t r, f.fma rm w x y z), (.fdiv d a b t r, f.div rm w x y), (.fsqrt d a t r, f.sqrt rm w x)]
        : List (Instr × FRes)), e.2.exc &&& s.cur.fpcs.en = 0 →
      slotDone e.1 s fun sl => ((sl.raise e.2.exc).consume rm 1).setSreg d (BitVec.ofNat 64 e.2.bits))
    ∧ (∀ e ∈ ([(.fmin d a b t, f.minmax false x y), (.fmax d a b t, f.minmax true x y), (.fabs d a t, f.abs x),
        (.fneg d a t, f.negate x)] : List (Instr × FRes)), e.2.exc &&& s.cur.fpcs.en = 0 →
      slotDone e.1 s fun sl => (sl.raise e.2.exc).setSreg d (BitVec.ofNat 64 e.2.bits))
    ∧ (∀ c : BitVec 4, (f.compare c.toNat x y).2 &&& s.cur.fpcs.en = 0 → ∀ p : BitVec 3,
      slotDone (.fcmp p a b t c) s fun sl => (sl.raise (f.compare c.toNat x y).2).setPred p (f.compare c.toNat x y).1)
    ∧ ∀ (g h : BitVec 5), let e := convert (etype h.toNat) (etype g.toNat) rm w x
      e.exc &&& s.cur.fpcs.en = 0 →
        slotDone (.fcvt d a g h r) s fun sl => ((sl.raise e.exc).consume rm 1).setSreg d ((etype h.toNat).image e.bits)

/-- R58: where an exception that FPCS enables arises, the instruction writes no result, ORs its exceptions into FLAGS, and
traps with EFP whose TRAPVAL holds the exceptions. -/
def Sys2Proof.Rules.FloatExceptionTraps : Prop :=
  ∀ (s : State) (d a b : BitVec 5) (t : BitVec 2) (r : BitVec 3) (p : BitVec 3) (c : BitVec 4), ready s [d, a, b, 0] →
    let f := scalarFmt t
    let rm := s.cur.mode3 r
    let x := (s.cur.sreg a).toNat
    let y := (s.cur.sreg b).toNat
    let w := s.cur.draw 0
    ∀ e ∈ ([(.fadd d a b t r, (f.add rm w x y).exc), (.fsub d a b t r, (f.sub rm w x y).exc),
        (.fmul d a b t r, (f.mul rm w x y).exc), (.ffma d a b t r, (f.fma rm w x y (s.cur.sreg d).toNat).exc),
        (.fdiv d a b t r, (f.div rm w x y).exc), (.fsqrt d a t r, (f.sqrt rm w x).exc),
        (.fmin d a b t, (f.minmax false x y).exc), (.fmax d a b t, (f.minmax true x y).exc), (.fabs d a t, (f.abs x).exc),
        (.fneg d a t, (f.negate x).exc), (.fcmp p a b t c, (f.compare c.toNat x y).2)] : List (Instr × Exc)),
      e.2 &&& s.cur.fpcs.en ≠ 0 →
        exec e.1 s = .next ((s.modCur fun sl => { sl with fpcs := { sl.fpcs with flags := sl.fpcs.flags ||| e.2 } }).trap
          0x07 0 (e.2.zeroExtend 64))

/-- The frame of the scalar floating-point instructions that do not trap: beside what an integer instruction changes, only
FPCS.FLAGS and RCTR. -/
def Sys2Proof.Rules.FloatFrame : Prop :=
  ∀ (s t : State) (d a b : BitVec 5) (f : BitVec 2) (r : BitVec 3) (g h : BitVec 5), s.cur.fpcs.en = 0 →
    ∀ x ∈ ([.fadd d a b f r, .fsub d a b f r, .fmul d a b f r, .ffma d a b f r, .fdiv d a b f r, .fsqrt d a f r,
        .fmin d a b f, .fmax d a b f, .fabs d a f, .fneg d a f, .fcvt d a g h r] : List Instr),
      exec x s = .next t → sameOutsideSlot s t ∧ sameMemory s t ∧ onlyRegsFp [d] s.cur t.cur

/-- R54: under RNE a magnitude goes to the nearest multiple of the unit, to the even one of two equally near; RTZ, and RUP
and RDN toward zero, truncate; RUP and RDN away from zero go to the next multiple unless the magnitude is one. -/
def Sys2Proof.Rules.RoundingModes : Prop :=
  ∀ (x : Exact) (q : Int), x.e < q → x.sticky = false →
    let u := 2 ^ (q - x.e).toNat
    (∀ r, r = (x.roundAt 0 0 q).1 →
      2 * (r * u) ≤ 2 * x.m + u ∧ 2 * x.m ≤ 2 * (r * u) + u ∧ (2 * (r * u) = 2 * x.m + u ∨ 2 * x.m = 2 * (r * u) + u → r % 2 = 0))
    ∧ (∀ rm, rm = 1 ∨ (rm = 2 ∧ x.neg = true) ∨ (rm = 3 ∧ x.neg = false) →
        (x.roundAt rm 0 q).1 * u ≤ x.m ∧ x.m < ((x.roundAt rm 0 q).1 + 1) * u)
    ∧ (∀ rm, (rm = 2 ∧ x.neg = false) ∨ (rm = 3 ∧ x.neg = true) →
        x.m ≤ (x.roundAt rm 0 q).1 * u ∧ (x.roundAt rm 0 q).1 * u < x.m + u)

/-! ### Control flow of the needle core (R222-R228, R136-R138) -/

/-- R228: how an instruction that selects `next` moves the pc and the loop entries: outside a body that ends here it goes to
`next`; at the end of a body it goes back to the start until the count is used up; a transfer out of the body disarms the
entry; an inner body that ends with its outer one hands over to it. -/
def Sys2Proof.Rules.LoopBoundary : Prop :=
  ∀ (x : Slot) (next : Word), next.toNat % 4 = 0 →
    (∀ taken, x.loopHere = false → x.goto next taken = { x with pc := next, ext := none })
    ∧ (x.loopHere = true → x.pc ≠ x.top.stop → x.goto next false = { x with pc := next, ext := none })
    ∧ (x.loopHere = true → x.pc = x.top.stop → x.top.count ≠ 1 → x.top.start.toNat % 4 = 0 →
        x.goto next false = { x with pc := x.top.start, ext := none, top := { x.top with count := x.top.count - 1 } })
    ∧ (x.loopHere = true → x.pc = x.top.stop → x.top.count = 1 → x.below.armed = false →
        x.goto next false = { x with pc := next, ext := none, top := { x.top with count := 0, armed := false } })
    ∧ (x.loopHere = true → x.top.start ≤ next → next ≤ x.top.stop → x.goto next true = { x with pc := next, ext := none })
    ∧ (x.loopHere = true → ¬(x.top.start ≤ next ∧ next ≤ x.top.stop) → x.below.armed = false →
        x.goto next true = { x with pc := next, ext := none, top := { x.top with armed := false } })
    ∧ (x.loopHere = true → x.pc = x.top.stop → x.top.count = 1 → x.below.armed = true → x.below.depth = x.depth →
        x.below.sysMode = decide (x.mode = Mode.system) → x.below.stop = x.pc → x.below.count ≠ 1 →
        x.below.start.toNat % 4 = 0 →
        x.goto next false = { x with pc := x.below.start, ext := none,
                                     top := { x.below with count := x.below.count - 1 },
                                     below := { x.below with armed := false } })

/-- R222, R131: B goes to its own address plus four times its offset, which an EXT widens; BC does so where its predicate
differs from its polarity and else goes on; BR goes to an aligned register value and traps with EALIGN on another. -/
def Sys2Proof.Rules.BranchTargets : Prop :=
  ∀ (s : State) (p : BitVec 3) (n : BitVec 1) (o : BitVec 21) (a : BitVec 5),
    let off : Word := match s.cur.ext with
      | none => o.signExtend 64
      | some q => (q ++ o).signExtend 64
    let target := s.cur.pc + 4 * off
    exec (.b o) s = .next (s.modCur fun sl => sl.goto target true)
    ∧ ((s.cur.pred p = true ↔ n = 0) → exec (.bc p n o) s = .next (s.modCur fun sl => sl.goto target true))
    ∧ (¬(s.cur.pred p = true ↔ n = 0) → exec (.bc p n o) s = .next (s.modCur Slot.advance))
    ∧ (ready s [a] → (s.cur.sreg a).toNat % 4 = 0 → exec (.br a) s = .next (s.modCur fun sl => sl.goto (s.cur.sreg a) true))
    ∧ (ready s [a] → (s.cur.sreg a).toNat % 4 ≠ 0 → exec (.br a) s = .next (s.trap 0x02 0 (s.cur.sreg a)))

/-- R223: a call with a window to spare makes the caller's s24-s31 the callee's s8-s15, clears s16-s31, leaves the return
address in s15, counts the depth up and goes to its target, which CALLR needs aligned; at depth 65535 it is illegal. The
place of the misaligned target among the checks is the model's choice (log 64). -/
def Sys2Proof.Rules.CallRotatesWindow : Prop :=
  ∀ (s : State) (o : BitVec 21) (a : BitVec 5), ready s [a, 31] → s.cur.loopHere = false →
    let off : Word := match s.cur.ext with
      | none => o.signExtend 64
      | some q => (q ++ o).signExtend 64
    ∀ e ∈ ([(.call o, s.cur.pc + 4 * off), (.callr a, s.cur.sreg a)] : List (Instr × Word)),
      (s.cur.depth = 65535 → exec e.1 s = .next (s.trapIllegal e.1))
      ∧ (s.cur.depth ≠ 65535 → e.2.toNat % 4 ≠ 0 → exec e.1 s = .next (s.trap 0x02 0 e.2))
      ∧ (s.cur.depth ≠ 65535 → e.2.toNat % 4 = 0 → s.cur.frames.length < 5 →
          nextWith (exec e.1 s) fun t =>
            sameOutsideSlot s t ∧ sameMemory s t ∧ t.cur.pc = e.2 ∧ t.cur.depth = s.cur.depth + 1 ∧ t.cur.ext = none
            ∧ t.cur.sreg 15 = s.cur.pc + 4 ∧ t.cur.frames.length = s.cur.frames.length + 1
            ∧ (∀ r : BitVec 5, r.toNat < 8 → t.cur.sreg r = s.cur.sreg r)
            ∧ (∀ r : BitVec 5, 8 ≤ r.toNat → r.toNat < 15 → t.cur.sreg r = s.cur.sreg (r + 16))
            ∧ (∀ r : BitVec 5, 16 ≤ r.toNat → t.cur.sreg r = 0))

/-- R223: RET with a resident caller gives the caller's s8-s23 back, shows the callee's s8-s15 as s24-s31, counts the depth
down and goes to s15, which must be aligned; at depth 0 it is illegal. -/
def Sys2Proof.Rules.RetRestoresWindow : Prop :=
  ∀ (s : State), ready s [15] →
    (s.cur.depth = 0 → exec .ret s = .next (s.trapIllegal .ret))
    ∧ (s.cur.depth ≠ 0 → (s.cur.sreg 15).toNat % 4 ≠ 0 → exec .ret s = .next (s.trap 0x02 0 (s.cur.sreg 15)))
    ∧ ∀ (f : Vector Word 16) (rest : List (Vector Word 16)), s.cur.depth ≠ 0 → (s.cur.sreg 15).toNat % 4 = 0 →
        s.cur.frames = f :: rest →
        nextWith (exec .ret s) fun t =>
          sameOutsideSlot s t ∧ sameMemory s t ∧ t.cur.pc = s.cur.sreg 15 ∧ t.cur.depth = s.cur.depth - 1
          ∧ t.cur.ext = none ∧ t.cur.frames = rest
          ∧ (∀ r : BitVec 5, r.toNat < 8 → t.cur.sreg r = s.cur.sreg r)
          ∧ (∀ r : BitVec 5, 8 ≤ r.toNat → r.toNat < 24 → t.cur.sreg r = f[r.toNat - 8]!)
          ∧ (∀ r : BitVec 5, 24 ≤ r.toNat → t.cur.sreg r = s.cur.sreg (r - 16))

/-- R227: LOOP with a count of zero skips its body; else it arms an entry whose body starts at the next word and ends at its
offset, with the depth and mode of the slot. With two entries armed, or a body that reaches beyond the body around it, it
is illegal. -/
def Sys2Proof.Rules.LoopArms : Prop :=
  ∀ (s : State) (a : BitVec 5) (o : BitVec 15), ready s [a] →
    let stop := s.cur.pc + 4 * o.zeroExtend 64
    let bad := (s.cur.top.armed ∧ s.cur.below.armed) ∨ (s.cur.loopHere ∧ s.cur.top.stop < stop)
    (bad → exec (.loop a o) s = .next (s.trapIllegal (.loop a o)))
    ∧ (¬bad → s.cur.sreg a = 0 →
        exec (.loop a o) s = .next (s.modCur fun sl => { sl with pc := stop }.goto (stop + 4) false))
    ∧ (¬bad → s.cur.sreg a ≠ 0 → nextWith (exec (.loop a o) s) fun t =>
        sameOutsideSlot s t ∧ sameMemory s t
        ∧ t.cur = { s.cur with pc := s.cur.pc + 4, ext := none,
                               top := ⟨s.cur.pc + 4, stop, s.cur.sreg a, s.cur.depth, decide (s.cur.mode = .system), true⟩,
                               below := t.cur.below }
        ∧ t.cur.below = if s.cur.top.armed then s.cur.top else s.cur.below)

/-- R136-R138, R135: EXT before a word that takes one keeps its payload and goes to that word; before another word, or at the
end of an armed body, it is illegal, a word that cannot be fetched traps with what the fetch met, and a fetch that must wait leaves
the EXT for a later turn. -/
def Sys2Proof.Rules.ExtPrefix : Prop :=
  ∀ (s s1 : State) (p : BitVec 25) (w : Nat),
    (s.fetch s.ft s.fk (s.cur.pc + 4) = .word s1 w →
      (¬(s.cur.loopHere = true ∧ s.cur.pc = s.cur.top.stop) → (∃ i, decodeS w = .ok i ∧ takesExt i = true) →
        exec (.ext p) s = .next (s1.modCur fun sl => { sl with ext := some p, pc := sl.pc + 4 }))
      ∧ ((s.cur.loopHere = true ∧ s.cur.pc = s.cur.top.stop) ∨ (∀ i, decodeS w = .ok i → takesExt i = false) →
        exec (.ext p) s = .next (s1.trapIllegal (.ext p))))
    ∧ (s.fetch s.ft s.fk (s.cur.pc + 4) = .wait s1 → exec (.ext p) s = .next s1)
    ∧ ∀ c sub, s.fetch s.ft s.fk (s.cur.pc + 4) = .trap s1 c sub →
        exec (.ext p) s = .next (s1.trap c sub (s.cur.pc + 4))

/-! ### Traps and the end of a handler (R240, R404-R407, R477, R481) -/

/-- R405, R310, R419: with a trap vector and outside a trap handler, taking a trap saves the mode in PMODE, sets INTRAP, writes
TRAPCAUSE, TRAPPC and TRAPVAL, withdraws a waiting full-empty request and a leave request, enters system mode and goes to
TVEC; every register, mask, predicate and loop entry of the slot keeps its value, and so does memory. -/
def Sys2Proof.Rules.TrapEntry : Prop :=
  ∀ (s : State) (t k : Nat) (cause pc raiser val : Word), (s.slot t k).inTrap = false → (s.tile t).tvec ≠ 0 →
    let u := s.takeTrap t k cause pc raiser val
    u.slot t k = { s.slot t k with
        mode := .system, pMode := (s.slot t k).mode, inTrap := true, trapCause := cause, trapPc := pc, trapVal := val,
        pc := (s.tile t).tvec, ext := none, waiting := false, asked := none, granted := false, held := none, cut := false,
        pend := (s.slot t k).pend.filter fun p => !p.fe }
    ∧ sameMemory s u ∧ (∀ x, x ≠ t → u.tile x = s.tile x) ∧ ∀ j, j % 8 ≠ k % 8 → u.slot t j = s.slot t j

/-- R404, R481: without a trap vector, or inside a trap handler, a trap stops a slot of the system actor for good and raises
the tile's alert, and ends a pattern actor's handler as HEND does: at once where no access of the slot is outstanding and no
thief waits (R240, R393), and otherwise, with no further instruction, once HEND may end it. That the end waits for the
handler's accesses is read by inference (log 66). -/
def Sys2Proof.Rules.DoubleTrap : Prop :=
  ∀ (s : State) (t k : Nat) (cause pc raiser val : Word), (s.slot t k).inTrap = true ∨ (s.tile t).tvec = 0 →
    let u := s.takeTrap t k cause pc raiser val
    ((s.slot t k).run = .handler .sys → (u.slot t k).run = .stopped ∧ u.mgmt.alert.getLsbD 0 = true)
    ∧ (∀ n, (s.slot t k).run = .handler (.actor n) →
      ((s.slot t k).accesses.filter (fun p => !p.fe) = [] → ((s.tile t).router.pocket 126).store = [] → (u.slot t k).run = .free)
      ∧ (((s.slot t k).accesses.filter (fun p => !p.fe) ≠ [] ∨ ((s.tile t).router.pocket 126).store ≠ []) →
          (u.slot t k).dying = some (cause, raiser) ∧ (u.slot t k).run = .handler (.actor n)))
    ∧ ∀ (n : Nat) (c r : Word), s.cur.run = .handler (.actor n) → s.cur.dying = some (c, r) → s.cur.accesses = [] →
        s.stealStalls s.ft s.fk = false → nextWith (exec .hend s) fun v => v.cur.run = .free
          ∧ v.flights ≠ []

/-- R406: TRAP completes, then takes a trap with ETRAP: TRAPPC is the word after it, where no armed body ends here, and
TRAPVAL its immediate. -/
def Sys2Proof.Rules.TrapInstruction : Prop :=
  ∀ (s : State) (c : BitVec 15), s.cur.inTrap = false → (s.tile s.ft).tvec ≠ 0 → s.cur.loopHere = false →
    s.cur.pc.toNat % 4 = 0 →
    nextWith (exec (.trap c) s) fun t => sameMemory s t
      ∧ t.cur = { s.cur with
          mode := .system, pMode := s.cur.mode, inTrap := true, trapCause := 0x0C, trapPc := s.cur.pc + 4,
          trapVal := c.zeroExtend 64, pc := (s.tile s.ft).tvec, ext := none, waiting := false, asked := none,
          granted := false, held := none, cut := false, pend := s.cur.pend.filter fun p => !p.fe }

/-- R407: ERET in system mode inside a trap handler goes to TRAPPC with the mode of PMODE and clears INTRAP; a TRAPPC that
is not
aligned traps with EALIGN; outside a trap handler ERET is illegal, and in user mode it is privileged. -/
def Sys2Proof.Rules.EretReturns : Prop :=
  ∀ (s : State),
    (s.cur.mode = .user → exec .eret s = .next (s.trapPriv .eret))
    ∧ (s.cur.mode = .system → s.cur.inTrap = false → exec .eret s = .next (s.trapIllegal .eret))
    ∧ (s.cur.mode = .system → s.cur.inTrap = true → s.cur.trapPc.toNat % 4 ≠ 0 →
        exec .eret s = .next (s.trap 0x02 0 s.cur.trapPc))
    ∧ (s.cur.mode = .system → s.cur.inTrap = true → s.cur.trapPc.toNat % 4 = 0 → nextWith (exec .eret s) fun t =>
        sameOutsideSlot s t ∧ sameMemory s t
        ∧ t.cur = { s.cur with pc := s.cur.trapPc, mode := s.cur.pMode, inTrap := false, ext := none })

/-- R240, R314, R315: HEND with no access of its slot outstanding frees the slot, and an actor may be picked again; FENCE waits
for the slot's loads and atomic operations, at panel scope or wider for its entries of the pending-store table, and at system
scope until its stores beyond the local stores are performed there (R329), then goes on; IFENCE goes on. -/
def Sys2Proof.Rules.HandlerEndAndFences : Prop :=
  ∀ (s : State) (c : BitVec 3),
    (s.cur.run = .handler .sys → s.cur.accesses = [] → s.stealStalls s.ft s.fk = false →
      nextWith (exec .hend s) fun t => t.cur.run = .free ∧ t.cur.pend = [] ∧ t.cur.late = [] ∧ t.cur.top.armed = false
        ∧ t.cur.below.armed = false ∧ (t.tile s.ft).router.sysActor.state = .bound)
    ∧ (∀ n, s.cur.run = .handler (.actor n) → s.cur.accesses = [] → s.stealStalls s.ft s.fk = false →
      nextWith (exec .hend s) fun t => t.cur.run = .free ∧ t.cur.pend = [] ∧ t.cur.top.armed = false
        ∧ ((t.tile s.ft).router.actor n).state ≠ .running)
    ∧ (s.cur.accesses = [] → c.toNat < 2 ∨ (∀ e ∈ (s.tile s.ft).stores, e.slot ≠ s.fk % 8) →
        c ≠ 4 ∨ (∀ b ∈ s.behind, b.tile = s.ft → b.slot ≠ s.fk % 8) →
        exec (.fence c) s = .next (s.modCur Slot.advance))
    ∧ (s.cur.accesses ≠ [] ∨ (2 ≤ c.toNat ∧ ∃ e ∈ (s.tile s.ft).stores, e.slot = s.fk % 8)
        ∨ (c = 4 ∧ ∃ b ∈ s.behind, b.tile = s.ft ∧ b.slot = s.fk % 8) → exec (.fence c) s = .next s)
    ∧ exec .ifence s = .next (s.modCur Slot.advance)

/-! ### Memory of the needle core (R230-R232, R308-R313, R329, R423-R425, R480) -/

/-- R45: bytes written to memory in its canonical form are read back, and every other byte keeps its value; so are their
little-endian numbers. -/
def Obligations.MemoryReadAfterWrite : Prop :=
  ∀ (s : State) (loc : Nat) (bs : List Byte), s.Inv →
    (∀ i, i < bs.length → (s.write loc bs).byte (loc + i) = bs[i]!)
    ∧ (∀ a, a < loc ∨ loc + bs.length ≤ a → (s.write loc bs).byte a = s.byte a)
    ∧ ∀ n v, v < 256 ^ n → (s.write loc (natBytes n v)).readNat loc n = v

/-- R355: what a leaf's attribute bits permit to each kind of access, in user mode only on a page with U. -/
def Sys2Proof.Rules.PagePermissions : Prop :=
  ∀ (e : Word) (user : Bool),
    let r := e.getLsbD 2
    let w := e.getLsbD 3
    let x := e.getLsbD 4
    let ok := !user || e.getLsbD 5
    ∀ q ∈ ([(.load, r), (.store, w), (.amo, r && w), (.ldf, r && w), (.stf, w), (.ste, w), (.fetch, x)] : List (AccKind × Bool)),
      permitted e q.1 user = (ok && q.2)

/-- R231, R477: the checks of an access come in order: alignment before the translation, whose fault is EPAGE with its kind;
then the tile's own size, a peer out of reach, and control space in user mode. A check that fails is a precise trap of the access: of
LD, LDS, ST, LDF, STF, STE and every AMO, and, where the trap is taken by the handler's vector, of XST and every XAMO. A check that must
wait for a held read leaves the instruction for a later turn. -/
def Sys2Proof.Rules.AccessChecks : Prop :=
  ∀ (s s1 : State) (i : Instr) (kind : AccKind) (va : Word) (n : Nat) (f pa off wid loc : Nat) (fe : Bool),
    (va.toNat % n ≠ 0 → s.check s.ft s.fk i kind va n = .trap s 0x02 0 va)
    ∧ (va.toNat % n = 0 → s.needleTr s.ft s.fk kind va = (s1, .fault f) →
        s.check s.ft s.fk i kind va n = .trap s1 0x04 f va)
    ∧ (va.toNat % n = 0 → s.needleTr s.ft s.fk kind va = (s1, .ok (.store s.ft off) fe pa) →
        s.check s.ft s.fk i kind va n = if s.lsize s.ft ≤ off then .trap s1 0x05 0 va else .ok s1 (.store s.ft off) fe)
    ∧ (va.toNat % n = 0 → s.needleTr s.ft s.fk kind va = (s1, .ok (.peer wid loc) fe pa) →
        s.check s.ft s.fk i kind va n = if s.reaches wid then .ok s1 (.peer wid loc) fe else .trap s1 0x06 wid va)
    ∧ (va.toNat % n = 0 → s.needleTr s.ft s.fk kind va = (s1, .ok (.control loc) fe pa) →
        s.check s.ft s.fk i kind va n = if s.cur.mode = .user then .trap s1 0x03 0 (s.cur.instrWord i)
          else .ok s1 (.control loc) fe)
    ∧ ∀ (d a b : BitVec 5) (z : BitVec 3) (o : BitVec 2) (x : BitVec 10) (w : BitVec 1) (sc : BitVec 3),
        let n := 2 ^ z.toNat
        let ra := s.cur.sreg b + s.cur.immS x * BitVec.ofNat 64 n
        let rd := s.cur.sreg b + s.cur.immS x * 8
        let any : Nat → Place → Bool := fun _ _ => true
        let rw := if w = 0 then [a, d, b] else [a, d, d + 1, b, b + 1]
        let nw := if w = 0 then 8 else 16
        (s.cur.storeBytes d n).length = n →
        (∀ q ∈ ([(.ld d b z o x, .load, any, ra, n, b :: sizeRegs d n), (.lds d b z o x, .load, any, ra, n, b :: sizeRegs d n),
            (.st d b z o x, .store, any, ra, n, b :: sizeRegs d n), (.ldf d b x, .ldf, any, rd, 8, [d, b]),
            (.stf d b x, .stf, any, rd, 8, [d, b]), (.ste d b x, .ste, any, rd, 8, [d, b]),
            (.amoAdd d a b w o sc, .amo, amoPlace, s.cur.sreg a, nw, rw), (.amoMinI d a b w o sc, .amo, amoPlace, s.cur.sreg a, nw, rw),
            (.amoMaxI d a b w o sc, .amo, amoPlace, s.cur.sreg a, nw, rw), (.amoMinN d a b w o sc, .amo, amoPlace, s.cur.sreg a, nw, rw),
            (.amoMaxN d a b w o sc, .amo, amoPlace, s.cur.sreg a, nw, rw), (.amoAnd d a b w o sc, .amo, amoPlace, s.cur.sreg a, nw, rw),
            (.amoOr d a b w o sc, .amo, amoPlace, s.cur.sreg a, nw, rw), (.amoXor d a b w o sc, .amo, amoPlace, s.cur.sreg a, nw, rw),
            (.amoSwap d a b w o sc, .amo, amoPlace, s.cur.sreg a, nw, rw), (.amoCas d a b w o sc, .amo, amoPlace, s.cur.sreg a, nw, rw),
            (.amoFadd d a b o sc, .amo, amoPlace, s.cur.sreg a, 4, [a, d, b])]
            : List (Instr × AccKind × (Nat → Place → Bool) × Word × Nat × List (BitVec 5))),
          ready s q.2.2.2.2.2 →
          (∀ c sub v, s.checkIn s.ft s.fk q.1 q.2.1 q.2.2.1 q.2.2.2.1 q.2.2.2.2.1 = .trap s1 c sub v →
            exec q.1 s = .next (s1.trap c sub v))
          ∧ (s.checkIn s.ft s.fk q.1 q.2.1 q.2.2.1 q.2.2.2.1 q.2.2.2.2.1 = .wait s1 → exec q.1 s = .next s1))
        ∧ ∀ q ∈ ([(.xst d b z o x, .store, ra, n, b :: sizeRegs d n), (.xamoAdd d a b w o sc, .amo, s.cur.sreg a, nw, rw),
            (.xamoMinI d a b w o sc, .amo, s.cur.sreg a, nw, rw), (.xamoMaxI d a b w o sc, .amo, s.cur.sreg a, nw, rw),
            (.xamoMinN d a b w o sc, .amo, s.cur.sreg a, nw, rw), (.xamoMaxN d a b w o sc, .amo, s.cur.sreg a, nw, rw),
            (.xamoAnd d a b w o sc, .amo, s.cur.sreg a, nw, rw), (.xamoOr d a b w o sc, .amo, s.cur.sreg a, nw, rw),
            (.xamoXor d a b w o sc, .amo, s.cur.sreg a, nw, rw), (.xamoSwap d a b w o sc, .amo, s.cur.sreg a, nw, rw),
            (.xamoCas d a b w o sc, .amo, s.cur.sreg a, nw, rw), (.xamoFadd d a b o sc, .amo, s.cur.sreg a, 4, [a, d, b])]
            : List (Instr × AccKind × Word × Nat × List (BitVec 5))),
          ready s q.2.2.2.2 → s1.seq = s.seq → s1.cur.inTrap = false → (s1.tile s1.ft).tvec ≠ 0 →
          ∀ c sub v, s.checkIn s.ft s.fk q.1 q.2.1 peerPlace q.2.2.1 q.2.2.2.1 = .trap s1 c sub v →
            exec q.1 s = .next (s1.trap c sub v)

/-- R351, R353, R354, R357, R365: a needle translation faults on an address that is not canonical (kind 1) and on a stale
generation (kind 6); a page in the TLB is used without a walk, under the permissions and the full-empty attribute of its
leaf (kinds 4 and 5). -/
def Sys2Proof.Rules.TranslationFaults : Prop :=
  ∀ (s : State) (t k : Nat) (kind : AccKind) (va : Word) (e : TlbEnt),
    let sl := s.slot t k
    let user := decide (sl.mode = .user)
    (canonical va = false → s.needleTr t k kind va = (s, .fault 1))
    ∧ (canonical va = true → sl.gen ≠ (s.asid sl.asid).gen → s.needleTr t k kind va = (s, .fault 6))
    ∧ (canonical va = true → sl.gen = (s.asid sl.asid).gen →
        ((s.tile t).tlb.find? fun e => e.hits sl.asid sl.gen va) = some e →
        (permitted e.leaf kind user = false → s.needleTr t k kind va = (s, .fault 4))
        ∧ (permitted e.leaf kind user = true → kind = .ldf ∨ kind = .stf ∨ kind = .ste → e.leaf.getLsbD 6 = false →
            s.needleTr t k kind va = (s, .fault 5))
        ∧ ∀ p, permitted e.leaf kind user = true → (e.leaf.getLsbD 6 = true ∨ (kind ≠ .ldf ∧ kind ≠ .stf ∧ kind ≠ .ste)) →
            s.place t (leafPa e.leaf e.level va) = some p →
            s.needleTr t k kind va = (s, .ok p (e.leaf.getLsbD 6) (leafPa e.leaf e.level va)))

/-- The value a load of `n` ≤ 8 bytes puts into a register (R230). -/
def Sys2Proof.Rules.loaded (sgn : Bool) (n v : Nat) : Word :=
  if sgn then BitVec.ofInt 64 (if v < 2 ^ (8 * n - 1) then (v : Int) else (v : Int) - 2 ^ (8 * n)) else BitVec.ofNat 64 v

/-- R230, R209: LD and LDS whose checks pass and which may leave. From the tile's own store the bytes arrive with the
instruction: one register zero- or sign-extended, two or four for the wide sizes. From another place the access stays
outstanding and its registers wait. A load from control space reads the registers. No byte of memory changes. That a load
from the tile's own store completes with its instruction is the model's choice (log 11). -/
def Obligations.LoadsComplete : Prop :=
  ∀ (s s1 : State) (d b : BitVec 5) (z : BitVec 3) (o : BitVec 2) (x : BitVec 10) (p : Place) (sgn : Bool),
    let n := 2 ^ z.toNat
    let i : Instr := if sgn then .lds d b z o x else .ld d b z o x
    let va := s.cur.sreg b + s.cur.immS x * BitVec.ofNat 64 n
    ready s (b :: sizeRegs d n) → s.check s.ft s.fk i .load va n = .ok s1 p false → s1.mayAccess s1.ft s1.fk p.loc n = true →
    s1.ft = s.ft → s1.fk = s.fk →
    (∀ off, p = .store s.ft off → s1.cur.pend = [] → s1.refusal p.loc = none → s1.marked p.loc n = false →
      nextWith (exec i s) fun t => sameMemory s1 t ∧ t.cur.pend = [] ∧ t.cur.late = s1.cur.late
        ∧ t.cur.pc = s1.cur.advance.pc
        ∧ (n ≤ 8 → d ≠ 0 → t.cur.sreg d = loaded sgn n (s1.readNat p.loc n))
        ∧ (8 < n → n ≤ 32 → ∀ j, 8 * j < n → d + BitVec.ofNat 5 j ≠ 0 →
            t.cur.sreg (d + BitVec.ofNat 5 j) = s1.read64 (p.loc + 8 * j))
        ∧ ∀ r, r ∉ sizeRegs d n → t.cur.sreg r = s1.cur.sreg r)
    ∧ ((∀ off, p ≠ .store s.ft off) → (∀ pa, p ≠ .control pa) →
      exec i s = .next ({ s1 with seq := s1.seq + 1 }.modCur fun (sl : Slot) =>
        { sl.advance with pend := sl.pend ++
          [(⟨s1.seq, (sizeRegs d n).map s1.cur.absReg, .load n sgn, va, p.loc, false, o == 1⟩ : Pend)] }))
    ∧ (∀ pa, p = .control pa → n ≤ 8 →
      exec i s = .next (s1.modCur fun sl => (sl.setSreg d ((loadWords sgn (s1.ctlBytes pa n)).headD 0)).advance))

/-- R230, R329, R331: ST and XST whose checks pass and which may leave: the bytes enter the tile's pending-store table with
the store's number, slot, address and location, and the slot goes on; memory is as it was until the owner acknowledges. A
store to control space takes effect at once. When a store's bytes reach memory is the model's choice (log 11). -/
def Sys2Proof.Rules.StoresEnterTable : Prop :=
  ∀ (s s1 : State) (d b : BitVec 5) (z : BitVec 3) (o : BitVec 2) (x : BitVec 10) (p : Place) (fe : Bool),
    let n := 2 ^ z.toNat
    let va := s.cur.sreg b + s.cur.immS x * BitVec.ofNat 64 n
    let bs := s.cur.storeBytes d n
    ready s (b :: sizeRegs d n) → bs.length = n → s1.ft = s.ft → s1.fk = s.fk → s1.mayAccess s1.ft s1.fk p.loc n = true →
    (∀ i ∈ [Instr.st d b z o x, .xst d b z o x],
      (i = .st d b z o x → s.check s.ft s.fk i .store va n = .ok s1 p fe
        ∧ (o = 2 ∨ fe = true → s1.releasedTo s1.ft s1.fk p.loc false = true)) →
      (i = .xst d b z o x → s.checkIn s.ft s.fk i .store peerPlace va n = .ok s1 p fe
        ∧ (o = 2 ∨ fe = true → s1.releasedTo s1.ft s1.fk p.loc (o == 2) = true)) →
      (∀ pa, p ≠ .control pa) → entriesOf (s1.tile s1.ft).stores < 64 →
      nextWith (exec i s) fun t => sameMemory s1 t
        ∧ (t.tile s.ft).stores = (s1.tile s.ft).stores ++ [⟨s1.seq, s.fk, va, p.loc, bs, fe, .bytes, s1.seq, false, o == 2 || fe⟩]
        ∧ t.cur = s1.cur.advance ∧ ∀ u, u ≠ s.ft → t.tile u = s1.tile u)
    ∧ (∀ pa, p = .control pa → s.check s.ft s.fk (.st d b z o x) .store va n = .ok s1 p fe →
      (o = 2 ∨ fe = true → s1.releasedTo s1.ft s1.fk p.loc false = true) →
      exec (.st d b z o x) s = .next ((s1.ctlStore pa bs).modCur Slot.advance))

/-- R329, R231, R488, R308, R295: an access that is acknowledged leaves the table and its bytes reach memory, and no other
byte changes (for a page without full-empty words); an STE leaves its word empty, and a lane of .L4 keeps the other half of
its byte; one whose owner refuses it becomes a late refusal of its slot, once for the lanes of an instruction (R297), and
changes no byte. While an older request of the tile to its bytes is on its way, or something holds it there, it stays (R25,
R31, R32, R39). A store that has left the table to memory beyond the local stores is performed at system scope by a later
acknowledgement: a release after every older one (R332, R334), another one after the older ones to its bytes, and one to a
host port after its tile's older ones to a host port (R344). Without `ev.flag` the lanes of an instruction are acknowledged
together, which is the model's choice (log 11). What a release at system scope waits for is the model's choice (log 11). -/
def Sys2Proof.Rules.StoreAcknowledged : Prop :=
  ∀ (s : State), s.Inv →
    (((s.tile s.ev.tile).stores.find? fun e => e.id == s.ev.n) = none →
      ∀ b, (s.behind.find? fun b => b.id == s.ev.n && b.tile == s.ev.tile) = some b →
        let older := s.behind.takeWhile fun x => x.id != b.id
        (older = [] ∨ (b.rel = false ∧ ∀ x ∈ older, x.tile ≠ b.tile ∧ overlaps x.loc x.old.length b.loc b.old.length = false) →
          exec .storeAck s = .next { s with behind := s.behind.filter fun x => x.id != b.id })
        ∧ ((∃ x ∈ older, b.rel = true ∨ overlaps x.loc x.old.length b.loc b.old.length = true
            ∨ (x.tile = b.tile ∧ 2 ^ 64 ≤ x.loc ∧ 2 ^ 64 ≤ b.loc)) → exec .storeAck s = .next s))
    ∧ ∀ (e : StoreEnt), ((s.tile s.ev.tile).stores.find? fun e => e.id == s.ev.n) = some e →
    (s.ev.flag = false → exec .storeAck s = .next
      (((s.tile s.ev.tile).stores.filter fun x => x.entry == e.entry).foldl (fun a x => a.ackOne s.ev.tile x.id) s))
    ∧ (s.ev.flag = true → s.mayPerform s.ev.tile e.id [(e.loc, e.bytes.length)] = false → exec .storeAck s = .next s)
    ∧ (s.ev.flag = true → s.mayPerform s.ev.tile e.id [(e.loc, e.bytes.length)] = true →
      (s.refusal e.loc = none → s.narrowMarked e.loc e.bytes.length = false →
        (e.fe = false → e.how = .bytes → nextWith (exec .storeAck s) fun t =>
          (∀ i, i < e.bytes.length → t.byte (e.loc + i) = e.bytes[i]!)
          ∧ (∀ a, a < e.loc ∨ e.loc + e.bytes.length ≤ a → t.byte a = s.byte a)
          ∧ (t.tile s.ev.tile).stores = (s.tile s.ev.tile).stores.filter fun x => x.id != e.id)
        ∧ (∀ h b, e.fe = false → e.how = .nibble h → e.bytes = [b] → nextWith (exec .storeAck s) fun t =>
          (t.byte e.loc).toNat = (if h then b.toNat % 16 * 16 + (s.byte e.loc).toNat % 16
            else (s.byte e.loc).toNat / 16 * 16 + b.toNat % 16)
          ∧ ∀ a, a ≠ e.loc → t.byte a = s.byte a)
        ∧ (e.how = .empty → s.feWait = [] → s.empties = [] → nextWith (exec .storeAck s) fun t =>
          t.mem = cellWrite s.mem e.loc e.bytes ∧ t.empties = [e.loc]))
      ∧ (∀ c sub, s.refusal e.loc = some (c, sub) →
        nextWith (exec .storeAck s) fun t => sameMemory s t
          ∧ ∀ o, (s.slot s.ev.tile e.slot).run = .handler o →
              (t.slot s.ev.tile e.slot).late = (s.slot s.ev.tile e.slot).late
                ++ (if e.quiet then [] else [⟨trapWord c sub true, e.va⟩])))

/-- R209, R231, R295, R312: a load or atomic operation that is outstanding is performed at its owner and its registers get
their values: a load's bytes, an atomic operation's old value, whose word gets the new one, a vector load's lanes. An atomic operation
on memory beyond the local stores, where a store is still on its way to system scope, is seen there after it. -/
def Sys2Proof.Rules.NeedleReplies : Prop :=
  ∀ (s : State) (p : Pend),
    let t := s.ev.tile
    let k := s.ev.unit
    (s.slot t k).pend? s.ev.n = some p → p.fe = false →
    s.mayPerform t p.id p.spans = true → s.refusal p.loc = none →
    (∀ n sgn, p.kind = .load n sgn → s.marked p.loc n = false →
      exec .needleMemoryReply s = .next (s.modSlot t k fun sl => sl.complete p.id (loadWords sgn (s.bytes p.loc n))))
    ∧ (∀ op n x e, p.kind = .amo op n x e → s.marked p.loc n = false →
      let old := s.readNat p.loc n
      let u := if s.behind = [] ∨ p.loc / 2 ^ 56 = 1 then s
        else { s with behind := s.behind ++ [⟨p.id, t, k, p.loc, s.bytes p.loc n, true⟩] }
      (∀ v, amoNew op n old x.toNat e.toNat = some v →
        exec .needleMemoryReply s = .next ((u.write p.loc (natBytes n v)).modSlot t k fun sl =>
          sl.complete p.id (pairWords n old)))
      ∧ (amoNew op n old x.toNat e.toNat = none →
        exec .needleMemoryReply s = .next (u.modSlot t k fun sl => sl.complete p.id (pairWords n old))))
    ∧ (∀ v n z l got, p.kind = .vec v n z l got → s.ev.flag = false →
      (∀ e ∈ l, s.refusal e.loc = none ∧ s.marked e.loc ((n + 7) / 8) = false) →
      exec .needleMemoryReply s = .next (s.modSlot t k fun sl =>
        (sl.setVreg v (ofLanes n (4096 / n) fun j =>
          match (got ++ l.map fun e => (e.k, if n = 4 then s.readNat e.loc 1 / 2 ^ (4 * (e.k % 2)) % 16
            else s.readNat e.loc (n / 8))).find? fun e => e.1 == j with
          | some e => e.2
          | none => if z then 0 else lane n (sl.vreg v) j)).dropPend p.id))

/-- R153, R312: the new value of each atomic operation on `b` bytes: modular addition, signed and unsigned minimum and maximum,
the bitwise operations, the exchange, and the compare-and-swap, which writes only where the old value is the expected one. -/
def Sys2Proof.Rules.AtomicValues : Prop :=
  ∀ (b : Nat) (o x e : BitVec (8 * b)), 0 < b →
    (∀ q ∈ ([(0, (o + x).toNat), (3, min o.toNat x.toNat), (4, max o.toNat x.toNat), (5, (o &&& x).toNat),
        (6, (o ||| x).toNat), (7, (o ^^^ x).toNat), (8, x.toNat),
        (1, if x.toInt < o.toInt then x.toNat else o.toNat), (2, if o.toInt < x.toInt then x.toNat else o.toNat)]
        : List (Nat × Nat)),
      amoNew q.1 b o.toNat x.toNat e.toNat = some q.2)
    ∧ amoNew 9 b o.toNat x.toNat e.toNat = (if o = e then some x.toNat else none)

/-- R311-R313, R209: an AMO whose checks pass and which may leave. At its own tile's store it is performed with the
instruction: its register gets the old value and the word the new one; elsewhere it stays outstanding. That an atomic
operation on the tile's own store is performed with its instruction is the model's choice (log 11). -/
def Obligations.AtomicsIssue : Prop :=
  ∀ (s s1 : State) (d a b : BitVec 5) (w : BitVec 1) (o : BitVec 2) (c : BitVec 3) (p : Place),
    let va := s.cur.sreg a
    let regs : List (BitVec 5) := if w = 0 then [a, d, b] else [a, d, d + 1, b, b + 1]
    ready s regs →
    ∀ q ∈ ([(.amoAdd d a b w o c, 0), (.amoMinI d a b w o c, 1), (.amoMaxI d a b w o c, 2), (.amoMinN d a b w o c, 3),
        (.amoMaxN d a b w o c, 4), (.amoAnd d a b w o c, 5), (.amoOr d a b w o c, 6), (.amoXor d a b w o c, 7),
        (.amoSwap d a b w o c, 8), (.amoCas d a b w o c, 9), (.amoFadd d a b o c, 10)] : List (Instr × Nat)),
    (q.2 = 10 → w = 0) →
    let n := if q.2 = 10 then 4 else if w = 0 then 8 else 16
    let x : BitVec 128 := if w = 0 then (s.cur.sreg b).zeroExtend 128 else s.cur.sreg (b + 1) ++ s.cur.sreg b
    let e : BitVec 128 := if w = 0 then (s.cur.sreg d).zeroExtend 128 else s.cur.sreg (d + 1) ++ s.cur.sreg d
    s.checkIn s.ft s.fk q.1 .amo amoPlace va n = .ok s1 p false → s1.ft = s.ft → s1.fk = s.fk →
    s1.mayAccess s1.ft s1.fk p.loc n = true → (o.getLsbD 1 = true → s1.releasedTo s1.ft s1.fk p.loc (c == 4) = true) →
    (∀ off, p = .store s.ft off → s1.cur.pend = [] → s1.refusal p.loc = none → s1.marked p.loc n = false →
      nextWith (exec q.1 s) fun t =>
        (d ≠ 0 → t.cur.sreg d = BitVec.ofNat 64 (s1.readNat p.loc n))
        ∧ (w = 1 → d + 1 ≠ 0 → t.cur.sreg (d + 1) = BitVec.ofNat 64 (s1.readNat p.loc n / 2 ^ 64))
        ∧ (∀ r, r ≠ d → w = 0 ∨ r ≠ d + 1 → t.cur.sreg r = s1.cur.sreg r) ∧ t.cur.pc = s1.cur.advance.pc
        ∧ t.mem = match amoNew q.2 n (s1.readNat p.loc n) x.toNat e.toNat with
            | some v => (s1.write p.loc (natBytes n v)).mem
            | none => s1.mem)
    ∧ ((∀ off, p ≠ .store s.ft off) →
      exec q.1 s = .next ({ s1 with seq := s1.seq + 1 }.modCur fun (sl : Slot) =>
        { sl.advance with pend := sl.pend ++ [(⟨s1.seq, (if w = 0 then [d] else [d, d + 1]).map s1.cur.absReg,
            .amo q.2 n x e, va, p.loc, false, o.getLsbD 0⟩ : Pend)] }))

/-- R423, R425: an XAMO whose checks pass, on a word of a peer wafer: it stays outstanding until the peer's reply, and its
number
joins those whose order the tile keeps. -/
def Obligations.PeerAtomicsIssue : Prop :=
  ∀ (s s1 : State) (d a b : BitVec 5) (w : BitVec 1) (o : BitVec 2) (c : BitVec 3) (wid loc : Nat),
    let va := s.cur.sreg a
    let regs : List (BitVec 5) := if w = 0 then [a, d, b] else [a, d, d + 1, b, b + 1]
    ready s regs → s1.seq = s.seq →
    ∀ q ∈ ([(.xamoAdd d a b w o c, 0), (.xamoMinI d a b w o c, 1), (.xamoMaxI d a b w o c, 2), (.xamoMinN d a b w o c, 3),
        (.xamoMaxN d a b w o c, 4), (.xamoAnd d a b w o c, 5), (.xamoOr d a b w o c, 6), (.xamoXor d a b w o c, 7),
        (.xamoSwap d a b w o c, 8), (.xamoCas d a b w o c, 9), (.xamoFadd d a b o c, 10)] : List (Instr × Nat)),
    (q.2 = 10 → w = 0) →
    let n := if q.2 = 10 then 4 else if w = 0 then 8 else 16
    let x : BitVec 128 := if w = 0 then (s.cur.sreg b).zeroExtend 128 else s.cur.sreg (b + 1) ++ s.cur.sreg b
    let e : BitVec 128 := if w = 0 then (s.cur.sreg d).zeroExtend 128 else s.cur.sreg (d + 1) ++ s.cur.sreg d
    s.checkIn s.ft s.fk q.1 .amo peerPlace va n = .ok s1 (.peer wid loc) false → s1.ft = s.ft → s1.fk = s.fk →
    s1.mayAccess s1.ft s1.fk loc n = true → (o.getLsbD 1 = true → s1.releasedTo s1.ft s1.fk loc (c == 4) = true) →
      let u : State := { s1 with seq := s1.seq + 1 }.modCur fun (sl : Slot) =>
        { sl.advance with pend := sl.pend ++ [(⟨s1.seq, (if w = 0 then [d] else [d, d + 1]).map s1.cur.absReg,
            .amo q.2 n x e, va, loc, false, o.getLsbD 0⟩ : Pend)] }
      nextWith (exec q.1 s) fun t => t = { u with tiles := t.tiles } ∧ (∀ y, y ≠ s.ft → t.tile y = u.tile y)
        ∧ t.tile s.ft = { u.tile s.ft with xids := (t.tile s.ft).xids } ∧ s.seq ∈ (t.tile s.ft).xids

/-- R308-R310, R232: the full-empty instructions on a word that no request waits for. LDF of a full word takes its value and
leaves it empty; STF of an empty word writes it and leaves it full; STE enters the pending-store table, from which it
writes the word and leaves it empty whatever it was (R329); LDF of an empty word and STF of a full one wait out of the rotation with a request at the word. -/
def Obligations.FullEmptyWords : Prop :=
  ∀ (s s1 : State) (d b : BitVec 5) (x : BitVec 10) (p : Place),
    let va := s.cur.sreg b + s.cur.immS x * 8
    ready s [d, b] → s1.ft = s.ft → s1.fk = s.fk → s1.mayAccess s1.ft s1.fk p.loc 8 = true → s1.refusal p.loc = none →
    p.loc % 8 = 0 → s1.cur.pend = [] → s1.feWait = [] → s1.isMarked p.loc = false → s1.nodeFull p.loc = false →
    s1.pathOpen s.ft p.loc = true →
    (s.check s.ft s.fk (.ldf d b x) .ldf va 8 = .ok s1 p true →
      (s1.empties = [] → nextWith (exec (.ldf d b x) s) fun t =>
          (d ≠ 0 → t.cur.sreg d = s1.read64 p.loc) ∧ t.empties = [p.loc] ∧ t.cur.waiting = false
          ∧ t.cur.pc = s1.cur.advance.pc ∧ ∀ a, t.byte a = s1.byte a)
      ∧ (s1.empties = [p.loc] → nextWith (exec (.ldf d b x) s) fun t =>
          t.cur.waiting = true ∧ t.cur.pc = s1.cur.pc ∧ t.empties = [p.loc]
          ∧ t.feWait = [⟨.needle s.ft s.fk s1.seq, p.loc, false⟩]))
    ∧ (s.check s.ft s.fk (.stf d b x) .stf va 8 = .ok s1 p true → s1.releasedTo s1.ft s1.fk p.loc false = true →
      (s1.empties = [p.loc] → nextWith (exec (.stf d b x) s) fun t =>
          t.mem = cellWrite s1.mem p.loc (natBytes 8 (s.cur.sreg d).toNat) ∧ t.empties = [] ∧ t.cur.waiting = false
          ∧ t.cur.pc = s1.cur.advance.pc)
      ∧ (s1.empties = [] → nextWith (exec (.stf d b x) s) fun t =>
          t.cur.waiting = true ∧ t.cur.pc = s1.cur.pc ∧ t.mem = s1.mem
          ∧ t.feWait = [⟨.needle s.ft s.fk s1.seq, p.loc, false⟩]))
    ∧ (s.check s.ft s.fk (.ste d b x) .ste va 8 = .ok s1 p true → entriesOf (s1.tile s1.ft).stores < 64 →
      nextWith (exec (.ste d b x) s) fun t => sameMemory s1 t ∧ t.cur = s1.cur.advance
        ∧ (t.tile s.ft).stores = (s1.tile s.ft).stores
          ++ [⟨s1.seq, s.fk, va, p.loc, natBytes 8 (s.cur.sreg d).toNat, true, .empty, s1.seq, false, false⟩])

/-- R295-R297, R329: a vector load or gather whose lanes all pass their checks, on plain pages, puts the lanes' values into
their lanes of the register and keeps the others (a gather with z = 1 clears them): with the instruction where every lane
lies in the tile's own store, else when the owners answer. The active lanes of a vector store or scatter enter the
pending-store table in ascending order. The addresses are those of the lanes in a run of 512 bytes, or the base plus the
index times the lane's bytes. A lane that fails its check traps before any access. That the lanes of a load are one
outstanding entry, performed with the instruction in the tile's own store, and those of a store one entry of the table, is
the model's choice (log 11). -/
def Obligations.VectorMemory : Prop :=
  ∀ (s s1 : State) (m : BitVec 2) (v a c : BitVec 3) (b : BitVec 5) (w : BitVec 3) (x : BitVec 10) (z : BitVec 1)
    (ps : List (Word × Place × Bool)),
    ready s [b, c.zeroExtend 5] → s1.ft = s.ft → s1.fk = s.fk → (∀ q ∈ ps, q.2.2 = false) →
    let n := 4 * 2 ^ w.toNat
    let run := (s.cur.activeLanes m (4096 / n)).map fun k =>
      (k, s.cur.sreg b + s.cur.immS x * 512 + BitVec.ofNat 64 (n * k / 8))
    let idx := (s.cur.activeLanes m (4096 / n)).map fun k =>
      (k, s.cur.sreg (c.zeroExtend 5) + BitVec.ofNat 64 (lane n (s.cur.vreg a) k * (n / 8)))
    (∀ q ∈ ([(.vld m v b w x, run, v, false), (.vgather v a c m z w, idx, v, z == 1)]
        : List (Instr × List (Nat × Word) × BitVec 3 × Bool)),
      s.checkLanes q.1 .load n q.2.1 = .ok s1 ps →
      let l : List LaneAcc := (q.2.1.map fun e => e.1).zip ps
      s1.lanesMay n l = true →
      ((∀ e ∈ l, ∃ off, e.2.2.1 = .store s.ft off) → s1.cur.pend = [] → s1.laneRefused l = none →
        (∀ e ∈ l, s1.marked e.2.2.1.loc (laneLen n) = false) →
        nextWith (exec q.1 s) fun t => sameMemory s1 t ∧ t.cur.pend = [] ∧ t.cur.late = s1.cur.late
          ∧ t.cur.pc = s1.cur.advance.pc ∧ t.cur.file = s1.cur.file ∧ t.cur.m = s1.cur.m
          ∧ (∀ u, u ≠ q.2.2.1 → t.cur.vreg u = s1.cur.vreg u)
          ∧ t.cur.vreg q.2.2.1 = ofLanes n (4096 / n) fun k =>
            match l.find? fun e => e.1 == k with
            | some e => if n = 4 then s1.readNat e.2.2.1.loc 1 / 2 ^ (4 * (k % 2)) % 16 else s1.readNat e.2.2.1.loc (n / 8)
            | none => if q.2.2.2 then 0 else lane n (s1.cur.vreg q.2.2.1) k)
      ∧ ((∃ e ∈ l, ∀ off, e.2.2.1 ≠ .store s.ft off) → (∀ e ∈ l, ∀ pa, e.2.2.1 ≠ .control pa) →
        exec q.1 s = .next ({ s1 with seq := s1.seq + 1 }.modCur fun (sl : Slot) =>
          { sl.advance with pend := sl.pend ++ [(⟨s1.seq, [], .vec q.2.2.1 n q.2.2.2
              (l.map fun (e : LaneAcc) => (⟨e.1, e.2.2.1.loc, e.2.1, false⟩ : Lane)) [], (l.map fun (e : LaneAcc) => e.2.1).headD 0,
              (l.map fun (e : LaneAcc) => e.2.2.1.loc).headD 0, false, false⟩ : Pend)] })))
    ∧ (∀ q ∈ ([(.vst m v b w x, run), (.vscatter v a c m z w, idx)] : List (Instr × List (Nat × Word))),
      s.checkLanes q.1 .store n q.2 = .ok s1 ps →
      let l : List LaneAcc := (q.2.map fun e => e.1).zip ps
      s1.lanesMay n l = true → (∀ e ∈ l, ∀ pa, e.2.2.1 ≠ .control pa) → entriesOf (s1.tile s1.ft).stores < 64 →
        nextWith (exec q.1 s) fun t => sameMemory s1 t ∧ t.cur = s1.cur.advance ∧ (∀ u, u ≠ s.ft → t.tile u = s1.tile u)
          ∧ (t.tile s.ft).stores = (s1.tile s.ft).stores ++ l.zipIdx.map fun y =>
            let k := y.1.1
            let val := lane n (s.cur.vreg v) k
            (⟨s1.seq + y.2, s.fk, y.1.2.1, y.1.2.2.1.loc, if n = 4 then [BitVec.ofNat 8 (val % 16)] else natBytes (n / 8) val,
              false, if n = 4 then .nibble (k % 2 == 1) else .bytes, s1.seq, false, false⟩ : StoreEnt))
    ∧ ∀ q ∈ ([(.vld m v b w x, .load, run), (.vgather v a c m z w, .load, idx), (.vst m v b w x, .store, run),
        (.vscatter v a c m z w, .store, idx)] : List (Instr × AccKind × List (Nat × Word))),
      (∀ (cc sub : Nat) (va : Word), s.checkLanes q.1 q.2.1 n q.2.2 = .trap s1 cc sub va →
        exec q.1 s = .next (s1.trap cc sub va))
      ∧ ∀ (k cc sub : Nat) (va va' : Word) (r : List (Nat × Word)), q.2.2 = (k, va) :: r →
          s.check s.ft s.fk q.1 q.2.1 va ((n + 7) / 8) = .trap s1 cc sub va' → exec q.1 s = .next (s1.trap cc sub va')

/-- R480, R391, R479: a held late refusal is taken at an instruction boundary, oldest first, with its cause and value; a spent
budget traps with EBUDGET; a fetch that fails traps with its cause; a reserved word traps with EILLEGAL and the word. -/
def Sys2Proof.Rules.BoundaryTraps : Prop :=
  ∀ (s : State),
    let t := s.ev.tile
    let k := s.ev.unit
    let sl := s.slot t k
    (∀ x r, sl.late = x :: r → sl.inTrap = false →
      exec .lateRefusalTrap s = .next ((s.modSlot t k fun sl => { sl with late := r }).takeTrap t k x.cause sl.instrPc
        sl.instrPc x.val))
    ∧ (sl.budgetDue = true → sl.inTrap = false →
      exec .budgetExpiry s = .next ((s.modSlot t k fun sl => { sl with budgetDue := false }).takeTrap t k 0x08 sl.instrPc
        sl.instrPc 0))
    ∧ exec .fetchFault s = .next (s.takeTrap s.ft s.fk (trapWord s.ev.n s.ev.unit false) s.cur.instrPc s.cur.instrPc
        (s.ev.v.setWidth 64))
    ∧ (s.cur.ext = none → exec .reservedEncoding s = .next (s.takeTrap s.ft s.fk 0x01 s.cur.pc s.cur.pc
        (s.ev.v.setWidth 64)))
    ∧ ∀ p, s.cur.ext = some p → exec .reservedEncoding s = .next (s.takeTrap s.ft s.fk 0x01 (s.cur.pc - 4) (s.cur.pc - 4)
        (BitVec.ofNat 64 (0x02000000 + p.toNat)))

/-- R231, R480, R309, R357, R358, R224: an access that comes back refused for a cause that holds of it is held as a late
refusal with its cause and address; a refused full-empty request that nothing holds on its way and whose word is ready or
whose node has room is made again; a walk fills the caches, and a level of a walk alone changes no memory, tile or cache; a
window is spilled or filled early where that would not fault; a read that a failed path has held for its time is cut off
(R32). Which entry of a full TLB or walk cache gives way is the model's choice (log 16). -/
def Sys2Proof.Rules.MemoryHardwareSteps : Prop :=
  ∀ (s : State),
    let t := s.ev.tile
    let k := s.ev.unit
    (∀ p o, (s.slot t k).pend? s.ev.n = some p → p.fe = false → p.kind ≠ .result → (s.slot t k).run = .handler o →
      let loc := (p.place s.ev.v.toNat).1
      s.causeHolds t loc ((p.pieces.head?.map Piece.n).getD 8) false s.ev.cause = true →
      nextWith (exec .lateRefusalArrival s) fun u => sameMemory s u
        ∧ (u.slot t k).late = (s.slot t k).late ++
            [⟨trapWord (lateCode s.ev.cause loc).1 (lateCode s.ev.cause loc).2 true, (p.place s.ev.v.toNat).2⟩]
        ∧ (u.slot t k).pend = (s.slot t k).pend.filter fun q => q.id != p.id)
    ∧ (∀ q, s.feWait[s.ev.n]? = some q → q.retry = true → s.nodeFull q.word = false → s.pathOpen q.tile q.word = true →
      exec .feRequestRetry s = .next ({ s with feWait := s.feWait.eraseIdx s.ev.n }.feRequest q.who q.word))
    ∧ (s.ev.flag = true → nextWith (exec .tlbWalk s) fun u => sameMemory s u ∧ u.tiles = s.tiles ∧ u.panels = s.panels)
    ∧ (s.ev.flag = false → canonical (s.ev.v.setWidth 64) = true → (s.slot t k).gen = (s.asid (s.slot t k).asid).gen →
      ((s.tile t).tlb.find? fun e => e.hits (s.slot t k).asid (s.slot t k).gen (s.ev.v.setWidth 64)) = none →
      (∀ w ∈ s.walkers, w.tile ≠ t) →
      ∀ e l r, s.walk (some t) (s.panelOf t) (s.slot t k).asid (s.slot t k).gen (s.ev.v.setWidth 64) = .leaf e l r →
        exec .tlbWalk s = .next (s.cacheWalk t (s.slot t k).asid (s.slot t k).gen (s.ev.v.setWidth 64) e l r))
    ∧ (∀ u, (s.slot t k).runs = true → s.ev.flag = false → s.spill t k .ret = .done u → exec .earlySpillOrFill s = .next u)
    ∧ (∀ u, (s.slot t k).runs = true → s.ev.flag = true → (s.slot t k).frames.length < (s.slot t k).depth.toNat →
        (s.slot t k).frames.length < 5 → s.fillWindow t k .ret = .done u → exec .earlySpillOrFill s = .next u)
    ∧ ((s.slot t k).pend? s.ev.n = none → ((s.tile t).stores.find? fun e => e.id == s.ev.n && e.slot == k % 8) = none →
      s.ev.cause = .epath → (∃ loc, (s.slot t k).held = some loc ∧ s.pathFailed t loc = true) →
      exec .lateRefusalArrival s = .next (s.modSlot t k fun sl => { sl with cut := true }))

/-! ### Vector instructions on registers (R282-R294) -/

/-- Lane k of v[r] as a value of `n` bits (R282). -/
def Sys2Proof.Rules.vlane (sl : Slot) (n : Nat) (r : BitVec 3) (k : Nat) : BitVec n :=
  BitVec.ofNat n ((sl.vreg r).toNat / 2 ^ (n * k))

/-- R283: the instruction goes on to the next word with v[d] alone written: an active lane of the first `c` of `n` bits holds
`f`, an inactive one its old value or, with z = 1, zero, and the lanes from `c` up are zero. -/
def Sys2Proof.Rules.lanesBecome (i : Instr) (s : State) (d : BitVec 3) (m : BitVec 2) (z : BitVec 1) (n c : Nat)
    (f : Nat → BitVec n) : Prop :=
  nextWith (exec i s) fun t =>
    t = s.modCur (fun sl => (sl.setVreg d (t.cur.vreg d)).advance)
    ∧ (∀ k, k < c → vlane t.cur n d k = if s.cur.active m k then f k else if z = 1 then 0 else vlane s.cur n d k)
    ∧ ∀ k, c ≤ k → k < 4096 / n → vlane t.cur n d k = 0

/-- R283, R286: the lane-by-lane integer instructions, at every lane width. -/
def Obligations.VectorIntegerLanes : Prop :=
  ∀ (s : State) (d a b c : BitVec 3) (m : BitVec 2) (z : BitVec 1) (w : BitVec 3), w.toNat ≤ 4 →
    let n := 4 * 2 ^ w.toNat
    let lo : Int := -2 ^ (n - 1)
    let hi : Int := 2 ^ (n - 1) - 1
    let top : Int := 2 ^ n - 1
    (∀ e ∈ ([(.vadd d a b m z w, fun x y => x + y), (.vsub d a b m z w, fun x y => x - y),
        (.vmul d a b m z w, fun x y => x * y),
        (.vmulh d a b m z w, fun x y => BitVec.ofInt n (x.toInt * y.toInt / 2 ^ n)),
        (.vmulhu d a b m z w, fun x y => BitVec.ofNat n (x.toNat * y.toNat / 2 ^ n)),
        (.vand d a b m z w, fun x y => x &&& y), (.vor d a b m z w, fun x y => x ||| y),
        (.vxor d a b m z w, fun x y => x ^^^ y), (.vandn d a b m z w, fun x y => x &&& ~~~y),
        (.vshl d a b m z w, fun x y => x <<< (y.toNat % n)), (.vshr d a b m z w, fun x y => x >>> (y.toNat % n)),
        (.vsra d a b m z w, fun x y => x.sshiftRight (y.toNat % n)),
        (.vmin d a b m z w, fun x y => if x.slt y then x else y), (.vmax d a b m z w, fun x y => if x.slt y then y else x),
        (.vminu d a b m z w, fun x y => if x.ult y then x else y), (.vmaxu d a b m z w, fun x y => if x.ult y then y else x),
        (.vadds d a b m z w, fun x y => BitVec.ofInt n (max lo (min hi (x.toInt + y.toInt)))),
        (.vaddsu d a b m z w, fun x y => BitVec.ofInt n (min top (x.toNat + y.toNat))),
        (.vsubs d a b m z w, fun x y => BitVec.ofInt n (max lo (min hi (x.toInt - y.toInt)))),
        (.vsubsu d a b m z w, fun x y => BitVec.ofInt n (max 0 ((x.toNat : Int) - y.toNat))),
        (.vabs d a m z w, fun x _ => if x.slt 0 then -x else x), (.vmov d a m z w, fun x _ => x)]
        : List (Instr × (BitVec n → BitVec n → BitVec n))),
      lanesBecome e.1 s d m z n (4096 / n) fun k => e.2 (vlane s.cur n a k) (vlane s.cur n b k))
    ∧ lanesBecome (.vmad d a b c m z w) s d m z n (4096 / n)
        (fun k => vlane s.cur n a k * vlane s.cur n b k + vlane s.cur n c k)
    ∧ (ready s [c.zeroExtend 5] → lanesBecome (.vsplat d c m z w) s d m z n (4096 / n)
        (fun _ => (s.cur.sreg (c.zeroExtend 5)).setWidth n))

/-- R287, R142: VCMP writes one mask bit for each lane: the comparison of an active lane, an inactive one's old bit or, with
z = 1, zero, and zeros above; masks combine bit by bit (R294). -/
def Sys2Proof.Rules.VectorMasks : Prop :=
  ∀ (s : State) (a b : BitVec 3) (d m p q : BitVec 2) (z : BitVec 1) (w : BitVec 3), w.toNat ≤ 4 →
    let n := 4 * 2 ^ w.toNat
    (∀ e ∈ ([(0, fun x y => x == y), (1, fun x y => x != y), (2, fun x y => x.slt y), (3, fun x y => y.sle x),
        (4, fun x y => x.sle y), (5, fun x y => y.slt x), (6, fun x y => x.ult y), (7, fun x y => y.ule x),
        (8, fun x y => x.ule y), (9, fun x y => y.ult x), (12, fun _ _ => true), (13, fun _ _ => false)]
        : List (BitVec 4 × (BitVec n → BitVec n → Bool))),
      nextWith (exec (.vcmp d a b m z w e.1) s) fun t =>
        t = s.modCur (fun sl => (sl.setMreg d (t.cur.mreg d)).advance)
        ∧ (d ≠ 0 → ∀ k, k < 1024 → (t.cur.mreg d).getLsbD k =
            if 4096 / n ≤ k then false
            else if s.cur.active m k then e.2 (vlane s.cur n a k) (vlane s.cur n b k)
            else if z = 1 then false else (s.cur.mreg d).getLsbD k))
    ∧ ∀ e ∈ ([(.vmand d p q, s.cur.mreg p &&& s.cur.mreg q), (.vmor d p q, s.cur.mreg p ||| s.cur.mreg q),
        (.vmxor d p q, s.cur.mreg p ^^^ s.cur.mreg q), (.vmandn d p q, s.cur.mreg p &&& ~~~s.cur.mreg q),
        (.vmnot d p, ~~~s.cur.mreg p)] : List (Instr × BitVec 1024)),
      slotDone e.1 s fun sl => sl.setMreg d e.2

/-- R293: the permutes: a lane chosen by an index, slides, interleavings and their inverses, packing and spreading of active
lanes, and the lowest active lane into a global register. -/
def Sys2Proof.Rules.VectorPermutes : Prop :=
  ∀ (s : State) (d a b c : BitVec 3) (m : BitVec 2) (z : BitVec 1) (w : BitVec 3), w.toNat ≤ 4 → ready s [c.zeroExtend 5] →
    let n := 4 * 2 ^ w.toNat
    let l := 4096 / n
    let x := vlane s.cur n a
    let y := vlane s.cur n b
    let g := (s.cur.sreg (c.zeroExtend 5)).toNat
    let act := (List.range l).filter fun k => s.cur.active m k
    (∀ e ∈ ([(.vperm d a b m z w, fun k => if (y k).toNat < l then x (y k).toNat else 0),
        (.vslup d a c m z w, fun k => if g ≤ k then x (k - g) else 0),
        (.vsldn d a c m z w, fun k => if k + g < l then x (k + g) else 0),
        (.vziplo d a b m z w, fun k => if k % 2 = 0 then x (k / 2) else y (k / 2)),
        (.vziphi d a b m z w, fun k => if k % 2 = 0 then x (l / 2 + k / 2) else y (l / 2 + k / 2)),
        (.vunzlo d a b m z w, fun k => if k < l / 2 then x (2 * k) else y (2 * (k - l / 2))),
        (.vunzhi d a b m z w, fun k => if k < l / 2 then x (2 * k + 1) else y (2 * (k - l / 2) + 1)),
        (.vexpd d a m z w, fun k => x ((List.range k).countP fun j => s.cur.active m j))]
        : List (Instr × (Nat → BitVec n))),
      lanesBecome e.1 s d m z n l e.2)
    ∧ (nextWith (exec (.vcomp d a m w) s) fun t =>
        t = s.modCur (fun sl => (sl.setVreg d (t.cur.vreg d)).advance)
        ∧ ∀ k, k < l → vlane t.cur n d k = match act[k]? with
            | some j => x j
            | none => 0)
    ∧ slotDone (.vget a c m w) s fun sl => sl.setSreg (c.zeroExtend 5) (match act with
        | k :: _ => (x k).setWidth 64
        | [] => 0)

/-- R292: an integer reduction folds the active lanes into a 64-bit lane 0 with zeros above; with no active lane it gives the
identity of its operation. -/
def Sys2Proof.Rules.VectorReductions : Prop :=
  ∀ (s : State) (d a : BitVec 3) (m : BitVec 2) (w : BitVec 3), w.toNat ≤ 4 →
    let n := 4 * 2 ^ w.toNat
    let vs := ((List.range (4096 / n)).filter fun k => s.cur.active m k).map fun k => vlane s.cur n a k
    ∀ e ∈ ([(.vradd d a m w, BitVec.ofInt 64 (vs.map fun x => x.toInt).sum),
        (.vrmin d a m w, BitVec.ofInt 64 ((vs.map fun x => x.toInt).foldl min (2 ^ (n - 1) - 1))),
        (.vrmax d a m w, BitVec.ofInt 64 ((vs.map fun x => x.toInt).foldl max (-2 ^ (n - 1)))),
        (.vrminu d a m w, BitVec.ofNat 64 ((vs.map fun x => x.toNat).foldl min (2 ^ n - 1))),
        (.vrmaxu d a m w, BitVec.ofNat 64 ((vs.map fun x => x.toNat).foldl max 0)),
        (.vrand d a m w, (vs.foldl (fun x y => x &&& y) (BitVec.allOnes n)).setWidth 64),
        (.vror d a m w, (vs.foldl (fun x y => x ||| y) 0).setWidth 64),
        (.vrxor d a m w, (vs.foldl (fun x y => x ^^^ y) 0).setWidth 64)] : List (Instr × Word)),
      slotDone e.1 s fun sl => sl.setVreg d (e.2.zeroExtend 4096)

/-- R285, R288, R289, R57: a floating-point vector instruction none of whose active lanes raises an enabled exception writes
the lanes' results, ORs their exceptions into FLAGS and, where it rounds under RSR, uses one draw for each lane, lane k the
k-th. A comparison writes mask bits. -/
def Sys2Proof.Rules.VectorFloatLanesHold : Prop :=
  ∀ (s : State) (d a b c : BitVec 3) (m : BitVec 2) (z : BitVec 1) (t r : BitVec 3), 2 ≤ t.toNat → t.toNat ≤ 5 →
    let f := vectorFmt t
    let n := f.width
    let l := 4096 / n
    let rm := s.cur.mode3 r
    let u := s.cur
    let x := fun k => (vlane u n a k).toNat
    let y := fun k => (vlane u n b k).toNat
    let e := fun k => (vlane u n c k).toNat
    let w := fun k => u.draw k
    let exc := fun (g : Nat → FRes) => ((List.range l).filter fun k => u.active m k).foldl (fun q k => q ||| (g k).exc) 0
    let res := fun (g : Nat → FRes) => u.merged n d m z fun k => (g k).bits
    (∀ q ∈ ([(.vfadd d a b m z t r, fun k => f.add rm (w k) (x k) (y k)),
        (.vfsub d a b m z t r, fun k => f.sub rm (w k) (x k) (y k)),
        (.vfmul d a b m z t r, fun k => f.mul rm (w k) (x k) (y k)),
        (.vfdiv d a b m z t r, fun k => f.div rm (w k) (x k) (y k)),
        (.vffma d a b c m z t r, fun k => f.fma rm (w k) (x k) (y k) (e k)),
        (.vfsqrt d a m z t r, fun k => f.sqrt rm (w k) (x k))] : List (Instr × (Nat → FRes))),
      exc q.2 &&& u.fpcs.en = 0 → slotDone q.1 s fun sl => ((sl.raise (exc q.2)).consume rm l).setVreg d (res q.2))
    ∧ (∀ q ∈ ([(.vfmin d a b m z t, fun k => f.minmax false (x k) (y k)),
        (.vfmax d a b m z t, fun k => f.minmax true (x k) (y k)), (.vfabs d a m z t, fun k => f.abs (x k)),
        (.vfneg d a m z t, fun k => f.negate (x k))] : List (Instr × (Nat → FRes))),
      exc q.2 &&& u.fpcs.en = 0 → slotDone q.1 s fun sl => (sl.raise (exc q.2)).setVreg d (res q.2))
    ∧ ∀ (p : BitVec 2) (cc : BitVec 4),
        let g : Nat → FRes := fun k => ⟨0, (f.compare cc.toNat (x k) (y k)).2⟩
        exc g &&& u.fpcs.en = 0 →
          slotDone (.vfcmp p a b m z t cc) s fun sl => (sl.raise (exc g)).setMreg p
            (u.mergedMask l p m z fun k => (f.compare cc.toNat (x k) (y k)).1)

/-- R290, R144: VCVT between types that are no mx forms converts each lane, as far as the wider lane reaches, and writes zeros
above; a floating-point reduction combines adjacent lanes in a tree (R61, R292), inactive lanes entering as its identity. -/
def Sys2Proof.Rules.VectorConversionsAndFloatReductions : Prop :=
  ∀ (s : State) (d a : BitVec 3) (m : BitVec 2) (z : BitVec 1) (r : BitVec 3),
    let u := s.cur
    let rm := u.mode3 r
    (∀ (f t : BitVec 5), f.toNat < 0x13 → t.toNat < 0x13 →
      let src := etype f.toNat
      let dst := etype t.toNat
      let l := 4096 / max src.laneW dst.laneW
      let g := fun k => convert dst src rm (u.draw k) (lane src.laneW (u.vreg a) k)
      let exc := ((List.range l).filter fun k => u.active m k).foldl (fun q k => q ||| (g k).exc) 0
      exc &&& u.fpcs.en = 0 →
        slotDone (.vcvt d a f m z r t) s fun sl => ((sl.raise exc).consume rm l).setVreg d
          (ofLanes dst.laneW l fun k => if u.active m k then dst.lane (g k).bits
            else if z = 1 then 0 else lane dst.laneW (u.vreg d) k))
    ∧ ∀ (t : BitVec 3), 2 ≤ t.toNat → t.toNat ≤ 5 →
      let f := vectorFmt t
      let l := 4096 / f.width
      let tree := fun (ident : Nat) (op : Nat → Nat → Nat → FRes) =>
        reduceTree op (Nat.log2 l) ((List.range l).map fun k => if u.active m k then lane f.width (u.vreg a) k else ident) 0 0
      let add := tree (2 ^ (f.width - 1)) fun i x y => f.add rm (u.draw i) x y
      let low := tree (f.maxBits + 1) fun _ x y => f.minmax false x y
      let high := tree (2 ^ (f.width - 1) + (f.maxBits + 1)) fun _ x y => f.minmax true x y
      (add.2.2 &&& u.fpcs.en = 0 → slotDone (.vrfadd d a m t r) s fun sl =>
        ((sl.raise add.2.2).consume rm (l - 1)).setVreg d (BitVec.ofNat 4096 (add.1.headD 0)))
      ∧ (low.2.2 &&& u.fpcs.en = 0 → slotDone (.vrfmin d a m t) s fun sl =>
        (sl.raise low.2.2).setVreg d (BitVec.ofNat 4096 (low.1.headD 0)))
      ∧ (high.2.2 &&& u.fpcs.en = 0 → slotDone (.vrfmax d a m t) s fun sl =>
        (sl.raise high.2.2).setVreg d (BitVec.ofNat 4096 (high.1.headD 0)))

/-! ### Special registers and system instructions (R234, R403, R409, R410, R419-R422, R477, R495) -/

/-- R234, R403: MFS of a register that its mode may read writes the register's value and goes on: each of the registers that the
tables list. In user mode a privileged register traps with EPRIV, and a number that no table lists is no instruction's. -/
def Sys2Proof.Rules.SpecialRegisterReads : Prop :=
  ∀ (s : State) (d : BitVec 5) (n : BitVec 10), ready s [d] →
    let u := s.cur
    let T := s.tile s.ft
    let o := s.allocOf (s.launchOf s.ft s.fk)
    let bit := fun (x : Bool) (i : Nat) => if x then 2 ^ i else 0
    (s.cur.mode = .user → n ∈ [0x020, 0x021, 0x022, 0x030, 0x100, 0x101, 0x102, 0x110] →
      exec (.mfs d n) s = .next (s.trapPriv (.mfs d n)))
    ∧ (n ∉ [0x000, 0x001, 0x002, 0x003, 0x004, 0x005, 0x006, 0x007, 0x008, 0x009, 0x00A, 0x00B, 0x00C, 0x010, 0x011, 0x012, 0x013,
          0x014, 0x015, 0x016, 0x018, 0x019, 0x020, 0x021, 0x022, 0x030, 0x100, 0x101, 0x102, 0x110] →
        (∀ w < 2 ^ 32, decodeS w ≠ .ok (.mfs d n)) ∧ ∀ w < 2 ^ 32, decodeS w ≠ .ok (.mts d n))
    ∧ (∀ e ∈ ([(0x000, BitVec.ofNat 64 ((tileX s.ft + 256 - o.x) % 256)), (0x001, BitVec.ofNat 64 ((tileY s.ft + 256 - o.y) % 256)),
        (0x002, BitVec.ofNat 64 (s.panelOf s.ft)), (0x003, BitVec.ofNat 64 (s.lsize s.ft)), (0x004, 0x1020),
        (0x005, BitVec.ofNat 64 (s.fk % 8)), (0x006, T.cycles), (0x007, BitVec.ofNat 64 (u.asid.toNat + 2 ^ 12 * u.gen.toNat)),
        (0x009, u.budget.zeroExtend 64),
        (0x00A, BitVec.ofNat 64 (u.fpcs.flags.toNat + 2 ^ 5 * u.fpcs.rm.toNat + 2 ^ 8 * u.fpcs.en.toNat)), (0x00B, u.rseed),
        (0x00C, u.rctr), (0x010, u.top.start), (0x011, u.top.stop), (0x012, u.top.count),
        (0x013, BitVec.ofNat 64 (bit u.top.armed 0 + bit u.below.armed 1 + bit u.top.sysMode 2 + bit u.below.sysMode 3
          + 2 ^ 8 * u.top.depth.toNat + 2 ^ 24 * u.below.depth.toNat)),
        (0x014, u.below.start), (0x015, u.below.stop), (0x016, u.below.count), (0x018, u.wsp),
        (0x019, BitVec.ofNat 64 (u.depth.toNat + 2 ^ 16 * ((u.frames.length + 1) % 8))), (0x020, u.trapCause), (0x021, u.trapPc),
        (0x022, u.trapVal), (0x030, BitVec.ofNat 64 (tileX s.ft % 256 + 2 ^ 8 * (tileY s.ft % 256))), (0x100, T.tvec),
        (0x101, BitVec.ofNat 64 (bit (decide (u.pMode = .system)) 0 + bit u.inTrap 1)), (0x102, u.tscr),
        (0x110, T.actcmd.zeroExtend 64)] : List (BitVec 10 × Word)),
      e.1.toNat < 0x020 ∨ u.mode = .system → slotDone (.mfs d e.1) s fun sl => sl.setSreg d e.2)
    ∧ (∀ m, u.run = .handler (.actor m) →
        slotDone (.mfs d 0x008) s fun sl => sl.setSreg d ((handleOf s.ft m (T.router.actor m).inc).zeroExtend 64))
    ∧ ((∀ m, u.run ≠ .handler (.actor m)) → slotDone (.mfs d 0x008) s fun sl => sl.setSreg d 0)

/-- R234, R403, R225, R226, R477, R478: MTS writes the register for the slot's next instruction: each of the registers that
a mode
may write. A read-only register is illegal, a privileged one traps with EPRIV in user mode, a WSP or TVEC that is not aligned
traps with EALIGN and its value; a reserved rounding mode and a malformed command of ACTCMD are illegal. -/
def Sys2Proof.Rules.SpecialRegisterWrites : Prop :=
  ∀ (s : State) (a : BitVec 5) (n : BitVec 10), ready s [a] →
    let v := s.cur.sreg a
    let wrote := fun (n : BitVec 10) (f : Slot → Slot) => exec (.mts a n) s = .next (s.modCur fun sl => f sl.advance)
    (s.cur.mode = .user → n ∈ [0x020, 0x021, 0x022, 0x030, 0x100, 0x101, 0x102, 0x110] →
      exec (.mts a n) s = .next (s.trapPriv (.mts a n)))
    ∧ (n.toNat ≤ 0x006 ∨ n = 0x008 ∨ n = 0x019 ∨ (s.cur.mode = .system ∧ n = 0x030) →
        exec (.mts a n) s = .next (s.trapIllegal (.mts a n)))
    ∧ (s.cur.mode = .user → n = 0x007 ∨ n = 0x009 → exec (.mts a n) s = .next (s.trapIllegal (.mts a n)))
    ∧ (v.toNat % 32 ≠ 0 → exec (.mts a 0x018) s = .next (s.trap 0x02 0 v))
    ∧ (v.toNat % 32 = 0 → wrote 0x018 fun sl => { sl with wsp := v })
    ∧ (v.toNat / 32 % 8 ≤ 4 → wrote 0x00A fun sl =>
        { sl with fpcs := { flags := v.setWidth 5, rm := (v >>> 5).setWidth 3, en := (v >>> 8).setWidth 5 } })
    ∧ (4 < v.toNat / 32 % 8 → exec (.mts a 0x00A) s = .next (s.trapIllegal (.mts a 0x00A)))
    ∧ (wrote 0x00B fun sl => { sl with rseed := v })
    ∧ (wrote 0x00C fun sl => { sl with rctr := v })
    ∧ (wrote 0x010 fun sl => { sl with top := { sl.top with start := v } })
    ∧ (wrote 0x011 fun sl => { sl with top := { sl.top with stop := v } })
    ∧ (wrote 0x012 fun sl => { sl with top := { sl.top with count := v } })
    ∧ (wrote 0x013 fun sl =>
        { sl with top := { sl.top with armed := v.getLsbD 0, sysMode := v.getLsbD 2, depth := (v >>> 8).setWidth 16 },
                  below := { sl.below with armed := v.getLsbD 1, sysMode := v.getLsbD 3, depth := (v >>> 24).setWidth 16 } })
    ∧ (wrote 0x014 fun sl => { sl with below := { sl.below with start := v } })
    ∧ (wrote 0x015 fun sl => { sl with below := { sl.below with stop := v } })
    ∧ (wrote 0x016 fun sl => { sl with below := { sl.below with count := v } })
    ∧ (s.cur.mode = .system →
        (v.toNat % 4 ≠ 0 → exec (.mts a 0x100) s = .next (s.trap 0x02 0 v))
        ∧ (v.toNat % 4 = 0 → nextWith (exec (.mts a 0x100) s) fun t =>
            (t.tile s.ft).tvec = v ∧ t.cur = s.cur.advance ∧ sameMemory s t ∧ ∀ x, x ≠ s.ft → t.tile x = s.tile x)
        ∧ (wrote 0x020 fun sl => { sl with trapCause := v &&& 0x00000000FF0080FF })
        ∧ (wrote 0x021 fun sl => { sl with trapPc := v })
        ∧ (wrote 0x022 fun sl => { sl with trapVal := v })
        ∧ (wrote 0x101 fun sl =>
            { sl with inTrap := v.getLsbD 1, pMode := if v.getLsbD 0 = true then Mode.system else Mode.user })
        ∧ (wrote 0x102 fun sl => { sl with tscr := v })
        ∧ (wrote 0x009 fun sl => { sl with budget := v.setWidth 32 })
        ∧ (wrote 0x007 fun sl => { sl with asid := v.setWidth 12, gen := (v >>> 12).setWidth 4 })
        ∧ ((get v 63 60 ≠ 1 ∧ get v 63 60 ≠ 2) ∨ get v 59 48 ≠ 0 ∨ v.getLsbD 5 = true →
            exec (.mts a 0x110) s = .next (s.trapIllegal (.mts a 0x110))))

/-- R135, R477: the system instructions in user mode trap with EPRIV, with the instruction's word in TRAPVAL, and do nothing
else. -/
def Obligations.PrivilegedInUserMode : Prop :=
  ∀ (s : State) (d a b : BitVec 5), ready s [d, a, b] → s.cur.mode = .user →
    ∀ i ∈ ([.tlbinvAll a, .tlbinvAsid a, .tlbinvVa a b, .asidret d a, .swatchRun d a, .swatchStat d a, .swatchStop d a,
        .darnPrep d a, .darnCommit d, .darnAbort d, .darnBank d a] : List Instr),
      exec i s = .next (s.takeTrap s.ft s.fk 0x03 s.cur.instrPc s.cur.instrPc (s.cur.instrWord i))

/-- R419: LEAVE with a count above 65535, of zero, or that would lift the balance beyond 65535 returns its status with the
balance; with .TRY it returns 1 where the grant is not to be had at once; a grant that is raises the balance and the panel's
bookings; and without .TRY the request waits in the panel's queue, the instruction not yet complete. That leave is booked
exactly is read by inference (log 30). -/
def Sys2Proof.Rules.LeaveResults : Prop :=
  ∀ (s : State) (d a : BitVec 5) (y : BitVec 1) (cls : BitVec 2), ready s [d, a] → s.cur.asked = none →
    let i : Instr := match cls with
      | 0 => .leaveMatrix d a y
      | 1 => .leaveSwap d a y
      | 2 => .leaveStream d a y
      | 3 => .leaveSwatch d a y
    let cost : Nat := match cls with
      | 0 => 125
      | 1 => 400
      | 2 => 360
      | 3 => 40
    let n := (s.cur.sreg a).toNat
    let b := s.cur.balance cls
    let p := s.panel (s.panelOf s.ft)
    (65535 < n → slotDone i s fun sl => sl.setSreg d (leaveWord b 2))
    ∧ (n = 0 → slotDone i s fun sl => sl.setSreg d (leaveWord b 0))
    ∧ (0 < n → n ≤ 65535 → 65535 < b.toNat + n → slotDone i s fun sl => sl.setSreg d (leaveWord b 3))
    ∧ (0 < n → b.toNat + n ≤ 65535 → p.reqs = [] → p.booked + cost * n ≤ p.budget.toNat →
        nextWith (exec i s) fun t => (t.panel (s.panelOf s.ft)).booked = p.booked + cost * n
          ∧ (t.cur.balance cls).toNat = b.toNat + n ∧ t.cur.pc = s.cur.advance.pc
          ∧ (d ≠ 0 → t.cur.sreg d = leaveWord (b + BitVec.ofNat 16 n) 0) ∧ sameMemory s t)
    ∧ (0 < n → b.toNat + n ≤ 65535 → p.budget.toNat < p.booked + cost * n → p.booked ≠ 0 →
        (y = 1 → slotDone i s fun sl => sl.setSreg d (leaveWord b 1))
        ∧ (y = 0 → nextWith (exec i s) fun t =>
            (t.panel (s.panelOf s.ft)).reqs = p.reqs ++ [⟨s.ft, some s.fk, cls, n⟩] ∧ t.cur.pc = s.cur.pc
            ∧ t.cur.asked = some ⟨s.ft, some s.fk, cls, n⟩))

/-- R495: the oldest request of a panel is granted once it fits its budget: it leaves the queue and is booked; a slot's
request completes when its LEAVE runs again, the loader's joins what the loader holds. That leave is booked exactly is read
by inference (log 30). -/
def Sys2Proof.Rules.LeaveGranted : Prop :=
  ∀ (s : State) (q : LeaveReq) (r : List LeaveReq), (s.panel s.ev.tile).reqs = q :: r →
    ((s.panel s.ev.tile).booked + q.cost ≤ (s.panel s.ev.tile).budget.toNat →
      nextWith (exec .leaveGrant s) fun t => (t.panel s.ev.tile).reqs = r
        ∧ (t.panel s.ev.tile).booked = (s.panel s.ev.tile).booked + q.cost ∧ sameMemory s t
        ∧ (∀ k, q.slot = some k → (t.slot q.tile k).granted = true)
        ∧ (q.slot = none → (t.tile q.tile).fabric.part.leave = (s.tile q.tile).fabric.part.leave ++ [q]))
    ∧ ((s.panel s.ev.tile).budget.toNat < (s.panel s.ev.tile).booked + q.cost → (s.panel s.ev.tile).booked ≠ 0 →
      exec .leaveGrant s = .next s)

/-- R359, R409: TLBINV in system mode with a well-formed operand and no store of its slot outstanding drops what it names
from the walk caches of its scope, sends a message to every tile of the scope that holds any state, and waits; a malformed
operand is illegal; a message that arrives waits while the tile has an access in flight under an extent that it names, and
then drops what it names from the tile's TLB and from its panel's walk cache. The order of an invalidation's parts is read
by inference (log 31). -/
def Sys2Proof.Rules.Invalidations : Prop :=
  ∀ (s : State) (a b : BitVec 5), ready s [a, b] → s.cur.mode = .system →
    let x := s.cur.sreg a
    let scope := get x 18 16
    let asid : BitVec 12 := x.setWidth 12
    (∀ i ∈ ([.tlbinvAll a, .tlbinvAsid a, .tlbinvVa a b] : List Instr), scope ≠ 2 → scope ≠ 3 →
      exec i s = .next (s.trapIllegal i))
    ∧ (get x 63 19 = 0 → get x 15 12 = 0 → scope = 2 ∨ scope = 3 → (∀ e ∈ (s.tile s.ft).stores, e.slot ≠ s.fk % 8) →
      ∀ e ∈ ([(.tlbinvAll a, .all), (.tlbinvAsid a, .asid asid), (.tlbinvVa a b, .page asid (s.cur.sreg b))]
          : List (Instr × InvKind)),
        (e.2 = .all → get x 11 0 = 0) →
        exec e.1 s = .next (s.tlbinv e.2 (scope == 3))
        ∧ (s.tlbinv e.2 (scope == 3)).cur.waiting = true ∧ sameMemory s (s.tlbinv e.2 (scope == 3))
        ∧ (scope = 3 → ∀ p, ∀ w ∈ ((s.tlbinv e.2 true).panel p).walk,
            e.2.hits w.asid w.level w.page = false))
    ∧ ∀ f k ad va wafer who, s.flight? s.ev.n = some f → f.msg = .inval k ad va wafer who → s.arrived f = true →
        (s.invBusy f.dst (invOf k ad va) = true → exec .invalidationArrival s = .next s)
        ∧ (s.invBusy f.dst (invOf k ad va) = false →
          nextWith (exec .invalidationArrival s) fun t =>
            (∀ w ∈ (t.tile f.dst).tlb, (invOf k ad va).hits w.asid w.level w.page = false)
            ∧ (∀ w ∈ (t.panel (s.panelOf f.dst)).walk, (invOf k ad va).hits w.asid w.level w.page = false)
            ∧ sameMemory s t)

/-- R365, R410: ASIDRET advances the generation of its ASID and returns LOW and the new GEN; where a sweep is required first, or
the operand is malformed, it is illegal. -/
def Sys2Proof.Rules.AsidRetires : Prop :=
  ∀ (s : State) (d a : BitVec 5), ready s [d, a] → s.cur.mode = .system →
    let x : BitVec 12 := (s.cur.sreg a).setWidth 12
    let A := s.asid x
    (12 ≤ (s.cur.sreg a).toNat.log2 ∨ A.gen + 1 = A.low → exec (.asidret d a) s = .next (s.trapIllegal (.asidret d a)))
    ∧ ((s.cur.sreg a).toNat < 4096 → A.gen + 1 ≠ A.low → nextWith (exec (.asidret d a) s) fun t =>
        t.asid x = { A with gen := A.gen + 1 } ∧ (∀ y, y ≠ x → t.asid y = s.asid y) ∧ sameMemory s t
        ∧ (d ≠ 0 → t.cur.sreg d = BitVec.ofNat 64 (A.low.toNat * 16 + (A.gen + 1).toNat)))

/-- R420-R422, R490: SWATCH.RUN of a valid descriptor on a unit that is not cordoned, on a tile with fewer than four tests,
spends a unit of leave, takes the tile's next ticket and returns it; SWATCH.STAT of a running test reads FF, of an unknown
one FE; SWATCH.STOP of an unknown test reads the same; a test that ends without a fail leaves the unit, frees its ticket's
place and reports its descriptor and result to the tile that asked for it; a test of a busy unit does not end. The order of
SWATCH.RUN's checks is read by inference (log 29). -/
def Sys2Proof.Rules.SwatchTests : Prop :=
  ∀ (s : State) (d a : BitVec 5), ready s [d, a] → s.cur.mode = .system →
    let x := s.cur.sreg a
    let t := descTile x
    let w := (s.tile t).swatch
    (s.cur.balance 3 ≠ 0 → s.swatchStatus x = 0 → nextWith (exec (.swatchRun d a) s) fun u =>
        (u.tile t).swatch.next = w.next + 1 ∧ (u.tile t).swatch.running.length = w.running.length + 1
        ∧ u.cur.balance 3 = s.cur.balance 3 - 1 ∧ u.cur.pc = s.cur.advance.pc ∧ sameMemory s u
        ∧ (d ≠ 0 → u.cur.sreg d = BitVec.ofNat 64 (w.next.toNat * 256)))
    ∧ (s.cur.balance 3 ≠ 0 → s.swatchStatus x ≠ 0 →
        slotDone (.swatchRun d a) s fun sl => sl.setSreg d (BitVec.ofNat 64 (s.swatchStatus x)))
    ∧ (descOk x = true → (∃ y ∈ w.running, y.booked = true ∧ y.ticket = BitVec.ofNat 16 (get x 47 32)) →
        slotDone (.swatchStat d a) s fun sl => sl.setSreg d 0xFF)
    ∧ (descOk x = false → ∀ i ∈ ([.swatchStat d a, .swatchStop d a] : List Instr),
        slotDone i s fun sl => sl.setSreg d 0xFE)
    ∧ (∀ (n : Nat) (y : Test), descOk x = true → w.running[n]? = some y → y.booked = true → y.targeted = false →
        (w.running.findIdx? fun y => y.booked && y.ticket.toNat == get x 47 32) = some n →
        nextWith (exec (.swatchStop d a) s) fun u => (u.tile t).swatch.running.length + 1 = w.running.length
          ∧ u.cur.pc = s.cur.advance.pc ∧ (d ≠ 0 → u.cur.sreg d &&& 0xFF = 2))
    ∧ ∀ y, (s.tile s.ev.tile).swatch.running[s.ev.n]? = some y → (s.unitBusy s.ev.tile y.desc = true → exec .swatchTestEnd s = .next s)
      ∧ (y.targeted = false → s.ev.unit = 0 → s.unitBusy s.ev.tile y.desc = false →
        nextWith (exec .swatchTestEnd s) fun u =>
          (u.tile s.ev.tile).swatch.running.length + 1 = (s.tile s.ev.tile).swatch.running.length ∧ sameMemory s u
          ∧ (y.booked = true → ∃ f ∈ u.flights, f.dst = y.issuer ∧ f.src = s.ev.tile))

/-- R421, R422, R490, R492: a targeted test whose unit is in use is counted and runs once more; a test whose unit is in use
a second
time, or is retired, ends abandoned and reports so; a test of a unit that is neither goes on. A round starts a structure
test of every element, copy island, fold unit and router and a residue test of every island without a block. -/
def Sys2Proof.Rules.SwatchHardware : Prop :=
  ∀ (s : State),
    let t := s.ev.tile
    let w := (s.tile t).swatch
    (∀ x, w.running[s.ev.n]? = some x →
      let gone := s.unitRetired t x.desc
      let used := s.unitActive t x.desc
      (gone = false → used = false → exec .swatchTestAbandon s = .next s)
      ∧ (gone = false → used = true → x.targeted = true → x.tries = 0 → nextWith (exec .swatchTestAbandon s) fun u =>
          (u.tile t).swatch.running[s.ev.n]? = some { x with tries := 1 } ∧ (u.tile t).swatch.running.length = w.running.length
          ∧ u.care.buf.length = s.care.buf.length + 1 ∧ sameMemory s u)
      ∧ (gone = true ∨ (used = true ∧ (x.targeted = false ∨ x.tries ≠ 0)) → nextWith (exec .swatchTestAbandon s) fun u =>
          (u.tile t).swatch.running.length + 1 = w.running.length ∧ sameMemory s u
          ∧ (x.booked = true → (u.tile t).swatch.reports.head? = some (x.ticket, x.desc, resultWord 0 s.ev.v.toNat 3))))
    ∧ nextWith (exec .swatchRound s) fun u => sameMemory s u
        ∧ (u.tile t).swatch.running.length = w.running.length + 20
          + ((List.range 4).filter fun i => !((s.tile t).fabric.islands.get Island.reset i).valid).length

/-! ### Stitches, pockets and actors (R236-R240, R371-R402) -/

/-- R236, R237, R239, R381: a SEND whose target is in its allocation, whose pair is not refused and for which the injection
queue
has room puts its stitch at the queue's end, counts it in its pair's counter and goes on; the release forms keep their order. One
whose pair is refused locally leaves no stitch for the mesh: it waits for the return pocket in an overflow entry, with STATUS 1, and no byte
of memory outside the overflow entries changes.
A target that fails its checks traps with ESTITCH and the target word. -/
def Sys2Proof.Rules.SendInjects : Prop :=
  ∀ (s : State) (d a b : BitVec 5), ready s [d, a, b] →
    let w := s.cur.sreg a
    let r := (s.tile s.ft).router
    ∀ e ∈ ([(.send a b, false, 0, true), (.sendNr a b, false, 0, false), (.send2 d a b, true, s.cur.sreg d, true),
        (.send2Nr d a b, true, s.cur.sreg d, false)] : List (Instr × Bool × Word × Bool)),
      (s.sendTarget s.ft s.fk w = none → exec e.1 s = .next (s.trap 0x09 0 w))
      ∧ (∀ dst label h, s.sendTarget s.ft s.fk w = some (dst, label, h) → r.refusedHere dst label = true → r.ovfFree = true →
          nextWith (exec e.1 s) fun t =>
            (∃ x i, (t.tile s.ft).router.localRef.getLast? = some x
              ∧ x = ⟨s.ft, false, s.fk, dst, label, h, e.2.1, s.cur.sreg b, e.2.2.1, 1, s.launchOf s.ft s.fk, some i⟩)
            ∧ (t.tile s.ft).router.localRef.length = r.localRef.length + 1
            ∧ (t.tile s.ft).router.inj = r.inj ∧ t.cur = s.cur.advance
            ∧ (∀ p, (∀ i ≤ r.ovfUsed, p < r.ovfAt s.ft i ∨ r.ovfAt s.ft i + 16 ≤ p) → t.byte p = s.byte p)
            ∧ t.empties = s.empties ∧ t.marks = s.marks)
      ∧ ∀ dst label h, s.sendTarget s.ft s.fk w = some (dst, label, h) → r.refusedHere dst label = false →
          (16 ≤ r.inj.length → exec e.1 s = .next s)
          ∧ (r.inj.length < 16 → nextWith (exec e.1 s) fun t =>
              (t.tile s.ft).router.inj = r.inj ++
                [⟨⟨s.ft, false, s.fk, dst, label, h, e.2.1, s.cur.sreg b, e.2.2.1, 0, s.launchOf s.ft s.fk, none⟩, e.2.2.2, s.fk, s.seq⟩]
              ∧ (t.tile s.ft).router.inFlight.get 0 (flightCounter dst label)
                  = r.inFlight.get 0 (flightCounter dst label) + 1
              ∧ t.cur = s.cur.advance ∧ sameMemory s t)

/-- R236, R237: which target words name a tile: a relative position inside the allocation, or a well-formed handle; user
code may
not name the labels 0, 125, 126 and 127. -/
def Sys2Proof.Rules.StitchTargets : Prop :=
  ∀ (a : Alloc) (x y label : Nat) (s : State) (w : Word), x < 256 → y < 256 → label < 128 →
    (x < a.w → y < a.h → a.target (BitVec.ofNat 64 (label * 2 ^ 32 + y * 2 ^ 8 + x)) = some (tileKey (a.x + x) (a.y + y), label, none))
    ∧ (a.w ≤ x ∨ a.h ≤ y → a.target (BitVec.ofNat 64 (label * 2 ^ 32 + y * 2 ^ 8 + x)) = none)
    ∧ (s.cur.mode = .user → get w 38 32 = 0 ∨ get w 38 32 = 125 ∨ get w 38 32 = 126 ∨ get w 38 32 = 127 →
        s.sendTarget s.ft s.fk w = none)

/-- R238, R378, R380, R381: the journey of a stitch. A stitch that may leave goes from the injection queue onto the mesh; one
that arrives for a live pocket with room, at a tile that delivers, enters the pocket and is answered; an answer lowers its
pair's counter; a stitch that comes back with status 1 enters the return pocket and refuses its pair. -/
def Sys2Proof.Rules.StitchJourney : Prop :=
  ∀ (s : State),
    (∀ i e, (s.silicon s.ev.tile).dark = false → s.injNext s.ev.tile = some i → (s.tile s.ev.tile).router.inj[i]? = some e →
      nextWith (exec .stitchInject s) fun t =>
        (t.tile s.ev.tile).router.inj = (s.tile s.ev.tile).router.inj.eraseIdx i
        ∧ ∃ f ∈ t.flights, f.id = s.seq ∧ f.msg = .stitch e.st ∧ f.src = s.ev.tile ∧ f.dst = e.st.dst)
    ∧ (∀ f st, s.flight? s.ev.n = some f → f.msg = .stitch st → s.arrived f = true → f.dst < tileCount →
        (s.silicon f.dst).state = 1 → (s.silicon f.dst).dark = false → (s.tile f.dst).router.holdStall = false →
        st.label < 125 → st.handle = none → st.ent = none →
        let r := (s.tile f.dst).router
        let p := r.pocket st.label
        p.state = .idle ∨ p.state = .ready → p.held = false → p.store.length ≤ p.depthM1 → r.ovfList = [] →
        (∀ x ∈ p.store, x.ent = none) → p.ovf = [] → r.storeUsed < 256 → r.refusal.contains (st.src, st.label) = false → st.launch = none →
        nextWith (exec .stitchArrival s) fun t =>
          ((t.tile f.dst).router.pocket st.label).store = p.store ++ [st]
          ∧ ((t.tile f.dst).router.pocket st.label).state = .ready ∧ sameMemory s t
          ∧ (st.src < tileCount → ∃ g ∈ t.flights, g.msg = .answer st ∧ g.dst = st.src))
    ∧ (∀ f st, s.flight? s.ev.n = some f → f.msg = .answer st → s.arrived f = true → f.dst < tileCount →
        nextWith (exec .stitchAnswerArrival s) fun t =>
          (t.tile f.dst).router.inFlight.get 0 (flightCounter st.dst st.label)
            = (s.tile f.dst).router.inFlight.get 0 (flightCounter st.dst st.label) - 1)
    ∧ (∀ f st, s.flight? s.ev.n = some f → f.msg = .returned st true → s.arrived f = true → f.dst < tileCount →
        (s.tile f.dst).router.returnFits = true → st.status = 1 → (s.tile f.dst).router.sender = [] →
        nextWith (exec .stitchReturnArrival s) fun t => (t.tile f.dst).router.sender = [(st.dst, st.label)])

/-- R381, R383, R400: RESUME of a pair whose counter reads zero and of which no refused stitch is left clears the pair's
entry and
sends a marker, which clears the refusal at its destination when it arrives; else it waits; a stitch refused locally enters
the return pocket when its pair's counter reads zero. -/
def Sys2Proof.Rules.ResumeClearsRefusal : Prop :=
  ∀ (s : State) (a : BitVec 5) (dst label : Nat) (h : Option (BitVec 32)),
    let r := (s.tile s.ft).router
    (ready s [a] → s.sendTarget s.ft s.fk (s.cur.sreg a) = some (dst, label, h) →
      (r.inFlight.get 0 (flightCounter dst label) ≠ 0 → exec (.resume a) s = .next s)
      ∧ (r.inFlight.get 0 (flightCounter dst label) = 0 → (∀ st ∈ r.localRef, st.dst ≠ dst ∨ st.label ≠ label) →
        nextWith (exec (.resume a) s) fun t => (dst, label) ∉ (t.tile s.ft).router.sender ∧ t.cur = s.cur.advance
          ∧ ∃ f ∈ t.flights, f.msg = .marker label ∧ f.src = s.ft ∧ f.dst = dst))
    ∧ (∀ f l, s.flight? s.ev.n = some f → f.msg = .marker l → s.arrived f = true →
        nextWith (exec .resumeMarkerArrival s) fun t => (f.src, l) ∉ (t.tile f.dst).router.refusal)
    ∧ (∀ st, (s.tile s.ev.tile).router.localRef = [st] → (s.tile s.ev.tile).router.counterZero st.dst st.label = true →
        (s.tile s.ev.tile).router.returnRoom = true → ((s.tile s.ev.tile).router.pocket 0).held = false →
        ((s.tile s.ev.tile).router.pocket 0).state ≠ .away →
        nextWith (exec .localRefusalReturn s) fun t => (t.tile s.ev.tile).router.localRef = []
          ∧ s.unload s.ev.tile st ∈ ((t.tile s.ev.tile).router.pocket 0).store)

/-- R210, R387, R388: a pick takes the oldest stitch of the pocket it chooses into a free slot: the slot runs the owner's
handler in the owner's mode at the pocket's entry, s1 holds the state region, s8 and s9 the stitch's words, every other
register but s10 reads zero, and WSP is the region's end; the trap registers and TSCR keep their values. The order in which
units take their turns is the model's choice (log 1). -/
def Sys2Proof.Rules.PickStartsHandler : Prop :=
  ∀ (s : State) (k l : Nat) (st : Stitch),
    let t := s.ev.tile
    let r := (s.tile t).router
    let p := r.pocket l
    let A := if p.sys then r.sysActor else r.actor p.owner
    let words := s.unload t st
    s.pickNow t = some (k, l) → p.store.head? = some st → l ≠ 125 →
    nextWith (exec .pick s) fun u =>
      let x := u.slot t k
      x.run = .handler (if p.sys then .sys else .actor p.owner) ∧ x.mode = (if p.sys then .system else .user)
      ∧ x.pc = p.entry &&& ~~~3 ∧ x.sreg 1 = A.sbase ∧ x.sreg 8 = words.w0 ∧ x.sreg 9 = p.word1 words
      ∧ (∀ i : BitVec 5, i ≠ 1 → i ≠ 8 → i ≠ 9 → i ≠ 10 → x.sreg i = 0) ∧ x.wsp = A.sbase + A.ssize ∧ x.depth = 0
      ∧ x.preds = 0 ∧ x.inTrap = false ∧ x.trapCause = (s.slot t k).trapCause ∧ x.trapPc = (s.slot t k).trapPc
      ∧ x.trapVal = (s.slot t k).trapVal ∧ x.tscr = (s.slot t k).tscr

/-- R397-R399: PBIND of a block that fails its checks returns status 1 and binds nothing; PFREE of a pocket the caller's launch
owns frees it, and of another label returns its status; PSTAT reads a pocket's state word in system mode, and zero in user
mode for a pocket that is not the caller's; a malformed operand is illegal. -/
def Sys2Proof.Rules.PocketInstructions : Prop :=
  ∀ (s s1 : State) (d a : BitVec 5) (bs : List Byte), ready s [d, a] →
    let w := s.cur.sreg a
    let l := get w 6 0
    let r := (s.tile s.ft).router
    (s.readBlock (.pbind d a) w 64 64 = .got s1 bs →
      (bindOk bs = false → exec (.pbind d a) s = .next (s1.modCur fun sl => (sl.setSreg d (BitVec.ofNat 64 (2 ^ 56))).advance))
      ∧ (∀ n m, bindOk bs = true → s1.bindRecord bs = .inr n → (s1.tile s1.ft).router.bindLabel (blkField bs 1 1) = .inr m →
        s1.ft = s.ft → blkField bs 0 1 = 0 →
        nextWith (exec (.pbind d a) s) fun t =>
          ((t.tile s.ft).router.pocket m).state ≠ .unbound ∧ ((t.tile s.ft).router.actor n).state = .bound
          ∧ ((t.tile s.ft).router.actor n).inc = ((s1.tile s.ft).router.actor n).inc + 1
          ∧ t.cur.pc = s1.cur.advance.pc
          ∧ (d ≠ 0 → t.cur.sreg d = BitVec.ofNat 64 (m * 2 ^ 32
              + (handleOf s.ft n (((t.tile s.ft).router.actor n).inc)).toNat))))
    ∧ (w.toNat < 128 → l ≠ 0 → l < 125 → r.ownedBy l s.callerLaunch = true → (r.pocket l).state ≠ .freed →
        nextWith (exec (.pfree d a) s) fun t => ((t.tile s.ft).router.pocket l).state = .freed ∧ t.cur.pc = s.cur.advance.pc
          ∧ (d ≠ 0 → t.cur.sreg d = 0))
    ∧ (w.toNat < 128 → l ≠ 0 → l < 125 → r.ownedBy l s.callerLaunch = false →
        slotDone (.pfree d a) s fun sl => sl.setSreg d 2)
    ∧ (w.toNat < 128 → s.cur.mode = .system → slotDone (.pstatPocket d a) s fun sl =>
        sl.setSreg d (if l = 127 then r.orphanWord else (r.pocket l).wordA))
    ∧ (w.toNat < 128 → s.cur.mode = .user → r.ownedBy l s.callerLaunch = false →
        slotDone (.pstatPocket d a) s fun sl => sl.setSreg d 0)
    ∧ (128 ≤ w.toNat → exec (.pstatPocket d a) s = .next (s.trapIllegal (.pstatPocket d a)))

/-- R399: PSTAT of a waiting stitch returns its words in four registers, zeros where there is none; PSTAT of an allocation
leaves a
query, whose answer arrives in its register later: the handle of the actor it names in the asking launch's allocation, or zero; where
the handler was evicted meanwhile, in its image. -/
def Sys2Proof.Rules.PocketQueries : Prop :=
  ∀ (s : State) (d a : BitVec 5),
    let w := s.cur.sreg a
    (ready s (a :: [d, d + 1, d + 2, d + 3]) → s.cur.mode = .system → get w 63 62 = 1 → get w 61 48 = 0 → get w 31 7 = 0 →
      d.toNat % 4 = 0 →
      ((s.tile s.ft).router.waiting (get w 6 0))[get w 47 32]? = none →
      nextWith (exec (.pstatWaiting d a) s) fun t => t.cur.pc = s.cur.advance.pc ∧ sameMemory s t ∧ sameOutsideSlot s t
        ∧ ∀ j < 4, t.cur.sreg (d + BitVec.ofNat 5 j) = 0)
    ∧ (∀ st, ready s (a :: [d, d + 1, d + 2, d + 3]) → s.cur.mode = .system → get w 63 62 = 1 → get w 61 48 = 0 →
      get w 31 7 = 0 → d.toNat % 4 = 0 →
      ((s.tile s.ft).router.waiting (get w 6 0))[get w 47 32]? = some st →
      nextWith (exec (.pstatWaiting d a) s) fun t => t.cur.sreg (d + 1) = (s.unload s.ft st).w0 ∧ t.cur.sreg (d + 3) = 0)
    ∧ (ready s [d, a] → get w 63 62 = 2 → get w 61 21 = 0 → nextWith (exec (.pstatAllocation d a) s) fun t =>
        t.queries = s.queries ++ [⟨s.ft, s.fk, s.seq, w, 0, s.callerLaunch, s.launchOf s.ft s.fk, true⟩]
        ∧ t.cur.pc = s.cur.advance.pc
        ∧ t.cur.pend = s.cur.pend ++ [⟨s.seq, [s.cur.absReg d], .result, 0, 0, false, false⟩])
    ∧ ∀ q, (s.queries.find? fun q => q.tile == s.ev.tile && q.slot == s.ev.unit) = some q →
        let x := get q.a 7 0
        let y := get q.a 15 8
        let al := s.allocOf q.alloc
        let t := tileKey (al.x + x) (al.y + y)
        let A := (s.tile t).router.actor (get q.a 20 16)
        let v : Word := if x < al.w ∧ y < al.h ∧ A.state ∈ [ActorState.bound, .running, .away] ∧ A.launch = q.launch then
          (handleOf t (get q.a 20 16) A.inc).zeroExtend 64 else 0
        (∀ k, ((List.range 8).find? fun k => ((s.slot q.tile k).pend? q.pend).isSome) = some k →
          exec .allocationQueryAnswer s =
            .next ({ s with queries := s.queries.filter fun x => x.pend != q.pend }.modSlot q.tile k fun sl => sl.complete q.pend [v]))
        ∧ ((∀ k < 8, (s.slot q.tile k).pend? q.pend = none) → ∀ n A' p,
          ((s.tile q.tile).router.actors.find? fun e => e.2.savedPend.any fun p => p.id == q.pend) = some (n, A') →
          (A'.savedPend.find? fun p => p.id == q.pend) = some p →
          exec .allocationQueryAnswer s =
            .next ({ s with queries := s.queries.filter fun x => x.pend != q.pend }.completeImage q.tile n A' p [v]))

/-- R392, R393, R401, R402: SPAWN of a pattern actor with no thief waiting and room in its deque stores the task at TAIL and
counts TAIL up; a full deque returns 2. STEAL of the actor's own deque takes the task at TAIL − 1, or zeros from an empty
one, and traps with ESTITCH where its second target fails its checks. Outside a pattern actor SPAWN is illegal. The oldest
unmatched request of a thief is answered with zeros after its time. That a target of STEAL with a label is refused is read
by inference (log 27). -/
def Sys2Proof.Rules.TasksAndThieves : Prop :=
  ∀ (s : State) (d a b : BitVec 5) (n : Nat), ready s [d, d + 1, a, b] →
    let r := (s.tile s.ft).router
    let A := r.actor n
    (s.cur.run = .handler .sys → exec (.spawn d a b) s = .next (s.trapIllegal (.spawn d a b)))
    ∧ (s.cur.run = .handler (.actor n) → A.dqOk = true → (r.pocket 126).store = [] →
        (A.tasks = 2 ^ A.dqLog.toNat → slotDone (.spawn d a b) s fun sl => sl.setSreg d 2)
        ∧ (A.tasks ≠ 2 ^ A.dqLog.toNat → A.dqAt A.tail.toNat + 16 ≤ s.lsize s.ft →
            s.mayAccess s.ft s.fk (localLoc s.ft (A.dqAt A.tail.toNat)) 16 = true → entriesOf (s.tile s.ft).stores < 64 →
            nextWith (exec (.spawn d a b) s) fun t =>
              ((t.tile s.ft).router.actor n).tail = A.tail + 1 ∧ ((t.tile s.ft).router.actor n).head = A.head
              ∧ (t.tile s.ft).stores.length = (s.tile s.ft).stores.length + 1
              ∧ t.cur = (s.cur.setSreg d 0).advance ∧ sameMemory s t))
    ∧ (s.cur.run = .handler (.actor n) → A.dqOk = true → d.toNat % 2 = 0 →
        (s.allocOf (s.launchOf s.ft s.fk)).target (s.cur.sreg a) = some (s.ft, 0, some (handleOf s.ft n A.inc)) →
        (s.sendTarget s.ft s.fk (s.cur.sreg b) = none → exec (.steal d a b) s = .next (s.trap 0x09 0 (s.cur.sreg b)))
        ∧ (s.sendTarget s.ft s.fk (s.cur.sreg b) ≠ none → A.tasks = 0 → slotDone (.steal d a b) s fun sl => (sl.setSreg d 0).setSreg (d + 1) 0)
        ∧ (s.sendTarget s.ft s.fk (s.cur.sreg b) ≠ none → A.tasks ≠ 0 → A.dqAt (A.tail - 1).toNat + 16 ≤ s.lsize s.ft →
            let loc := localLoc s.ft (A.dqAt (A.tail - 1).toNat)
            s.mayAccess s.ft s.fk loc 16 = true → s.marked loc 16 = false →
            nextWith (exec (.steal d a b) s) fun t =>
              ((t.tile s.ft).router.actor n).tail = A.tail - 1 ∧ sameMemory s t ∧ (d ≠ 0 → t.cur.sreg d = s.read64 loc)
              ∧ t.cur.sreg (d + 1) = s.read64 (loc + 8)))
    ∧ ∀ q rest dst l h, ((s.tile s.ev.tile).router.pocket 126).store = q :: rest →
        (q :: rest).findIdx? (s.tile s.ev.tile).router.stealDead = none →
        q.ent = none → (s.allocOf q.launch).target q.w0 = some (dst, l, h) →
        nextWith (exec .stealRequestTimeout s) fun t =>
          ∃ f ∈ t.flights, ∃ st, f.msg = .stitch st ∧ f.dst = dst ∧ st.w0 = 0 ∧ st.w1 = 0 ∧ st.label = l

/-- R395, R408: a replay whose next entry's condition fails for too long ends with MODE 00 and DIV 1, and one whose entry
can be taken goes on; an EVICT or RESTORE command that waits is tried again by the hardware and is done once it has taken
effect; with no command waiting nothing happens. Errors in parameter blocks are read by inference (log 28). -/
def Sys2Proof.Rules.ReplayAndActorCommands : Prop :=
  ∀ (s : State),
    let t := s.ev.tile
    ((s.tile t).router.plogMode = 2 → s.plogHolds t = false → nextWith (exec .plogReplayTimeout s) fun u =>
      (u.tile t).router.plogMode = 0 ∧ (u.tile t).router.ploga.getLsbD 61 = true ∧ sameMemory s u)
    ∧ ((s.tile t).router.plogMode ≠ 2 ∨ s.plogHolds t = true → exec .plogReplayTimeout s = .next s)
    ∧ (∀ i ∈ ([.actcmdEvict, .actcmdRestore] : List Instr), (s.tile t).actWait = none → exec i s = .next s)
    ∧ (∀ e ∈ ([(.actcmdEvict, 1), (.actcmdRestore, 2)] : List (Instr × Nat)), ∀ w, (s.tile t).actWait = some w →
        get w.cmd 63 60 = e.2 → w.done = false →
        ((s.actTry t w.slot w.cmd).2 = false → exec e.1 s = .next (s.actTry t w.slot w.cmd).1)
        ∧ ((s.actTry t w.slot w.cmd).2 = true → s.actSelf t w.slot w.cmd = false →
          exec e.1 s = .next ((s.actTry t w.slot w.cmd).1.setWait t (some { w with moving := false, done := true }))))

/-- R373, R408, R482: what an EVICT or a RESTORE does. A command that the record's state does not accept has STATUS 1 and
one whose save area cannot be reached STATUS 2, with the record as it was. EVICT of a BOUND record without pockets makes it
AWAY and writes the header of an idle image, and no other byte; EVICT of a running one writes its slot's image, frees the
slot and keeps where the image lies. RESTORE of an idle image makes the record BOUND; of a running one it starts the handler
again on the lowest free slot with the registers of the image; and where no slot is free the command waits. The image of an
idle actor is read by inference (log 28). -/
def Sys2Proof.Rules.EvictAndRestore : Prop :=
  ∀ (s : State) (a : BitVec 5), ready s [a] → s.cur.mode = .system → (s.tile s.ft).actWait = none →
    let v := s.cur.sreg a
    let n := get v 4 0
    let t := s.ft
    let k := s.fk
    let r := (s.tile t).router
    let A := r.actor n
    let base := ((v &&& 0x0000FFFFFFFFFFC0).setWidth 48).signExtend 64
    let kind : AccKind := if get v 63 60 = 1 then .store else .load
    get v 59 48 = 0 → v.getLsbD 5 = false → s.cur.run ≠ .handler (.actor n) → s.cur.run ≠ .free →
    (get v 63 60 = 1 → A.state ≠ .bound → A.state ≠ .running → nextWith (exec (.mts a 0x110) s) fun u =>
      (u.tile t).actcmd = 1 ∧ (u.tile t).router = r ∧ u.cur = s.cur.advance ∧ sameMemory s u)
    ∧ (get v 63 60 = 2 → A.state ≠ .away → nextWith (exec (.mts a 0x110) s) fun u =>
      (u.tile t).actcmd = 1 ∧ (u.tile t).router = r ∧ u.cur = s.cur.advance ∧ sameMemory s u)
    ∧ (∀ s1, (get v 63 60 = 1 ∧ A.state = .bound) ∨ (get v 63 60 = 2 ∧ A.state = .away) →
      s.area t k kind base = .unreachable s1 → (s1.tile t).router.ringFull n = false ∨ get v 63 60 = 2 →
      nextWith (exec (.mts a 0x110) s) fun u =>
        (u.tile t).actcmd = 2 ∧ (u.tile t).router = (s1.tile t).router ∧ u.cur = s1.cur.advance ∧ sameMemory s1 u)
    ∧ (∀ s1 ps, s.area t k kind base = .places s1 ps → s1.tile t = { s.tile t with tlb := (s1.tile t).tlb } →
      (∀ e ∈ r.pockets, e.2.sys = true ∨ e.2.owner ≠ n) → (∀ st ∈ r.ovfList, st.ent ≠ none) → r.holdq = [] →
      (get v 63 60 = 1 → A.state = .bound → ∀ p qs, ps = p :: qs → nextWith (exec (.mts a 0x110) s) fun u =>
        ((u.tile t).router.actor n).state = .away ∧ ((u.tile t).router.actor n).saved = some base
        ∧ ((u.tile t).router.actor n).savedRun = false ∧ (u.tile t).actcmd = 0 ∧ u.cur = s.cur.advance
        ∧ u.bytes p 64 = idleImage ∧ (∀ b, b < p ∨ p + 64 ≤ b → u.byte b = s1.byte b))
      ∧ (get v 63 60 = 1 → A.state = .running → A.slot < 8 → A.slot ≠ k →
        (s.slot t A.slot).ext = none → (s.slot t A.slot).dying = none → (s.slot t A.slot).accesses = [] →
        let s2 := (s1.withdrawAll t A.slot).takeDue t A.slot
        (s2.tile t).router = (s1.tile t).router → (s2.slot t A.slot).dying = none →
        nextWith (exec (.mts a 0x110) s) fun u =>
          ((u.tile t).router.actor n).state = .away ∧ ((u.tile t).router.actor n).saved = some base
          ∧ ((u.tile t).router.actor n).savedRun = true ∧ (u.tile t).actcmd = 0 ∧ (u.slot t A.slot).run = .free
          ∧ (ps.Pairwise (fun p q => p + 64 ≤ q ∨ q + 64 ≤ p) → ∀ (i p : Nat), ps[i]? = some p →
              u.bytes p 64 = (((s2.slot t A.slot).image (s2.actorWord t A.slot)).drop (64 * i)).take 64))
      ∧ (get v 63 60 = 2 → A.state = .away →
        let bs := ps.flatMap fun p => s1.bytes p 64
        ((imgWord bs 0x008).getLsbD 3 = false → nextWith (exec (.mts a 0x110) s) fun u =>
          ((u.tile t).router.actor n).state = .bound ∧ ((u.tile t).router.actor n).saved = none ∧ (u.tile t).actcmd = 0
          ∧ u.cur = s.cur.advance ∧ sameMemory s1 u)
        ∧ ((imgWord bs 0x008).getLsbD 3 = true → (∀ j < 8, (s.slot t j).run ≠ .free) →
            nextWith (exec (.mts a 0x110) s) fun u =>
              (u.tile t).actWait = some ⟨k, v, false, false⟩ ∧ u.cur = s.cur ∧ (u.tile t).router = r ∧ sameMemory s u)
        ∧ ∀ j < 8, (imgWord bs 0x008).getLsbD 3 = true → (s.slot t j).run = .free → (∀ i < j, (s.slot t i).run ≠ .free) →
          nextWith (exec (.mts a 0x110) s) fun u =>
            let x := u.slot t j
            ((u.tile t).router.actor n).state = .running ∧ ((u.tile t).router.actor n).slot = j ∧ (u.tile t).actcmd = 0
            ∧ x.run = .handler (.actor n) ∧ x.pc = imgWord bs 0 &&& ~~~3
            ∧ x.mode = (if (imgWord bs 0x008).getLsbD 0 = true then Mode.system else Mode.user)
            ∧ x.wsp = imgWord bs 0x090 ∧ x.trapPc = imgWord bs 0x0B8 ∧ x.tscr = imgWord bs 0x0C8 ∧ sameMemory s1 u))

/-! ### Matrix islands (R63-R74, R298-R302, R448, R496) -/

/-- R298-R302, R496: MLOAD, MROW (with a MATRIX unit of leave at hand) and MDRAIN whose operands are aligned, in range and
within the tile's size, on an island that no load claims, join the island's queue with their status register waiting; MRES
reads the island's map and, with bit 0 of its operand, releases the island, of which a queued job ends with status 3. An
operand that is not aligned traps with EALIGN, one beyond the size with ELSIZE, a bad format or count is illegal, and a
claimed island gives status 1. That a trap comes before status 1 is the model's choice (log 64). -/
def Sys2Proof.Rules.MatrixInstructionsHold : Prop :=
  ∀ (s : State) (d a b : BitVec 5) (f : BitVec 3) (n : BitVec 2), ready s [d, a, b] →
    let x := (s.cur.sreg a).toNat
    let y := (s.cur.sreg b).toNat
    let I := (s.tile s.ft).fabric.island n.toNat
    let queued := fun (i : Instr) (j : MatJob) => nextWith (exec i s) fun t =>
      ((t.tile s.ft).fabric.island n.toNat).jobs = I.jobs ++ [j] ∧ sameMemory s t ∧ t.cur.pc = s.cur.advance.pc
      ∧ t.cur.pend = s.cur.pend ++ [⟨s.seq, [s.cur.absReg d], .result, 0, 0, false, false⟩]
    let map : Word := BitVec.ofNat 64 (I.mism.toNat * 2 ^ 48 + I.rows.length % 32 * 2 ^ 16 + I.results.length % 4 * 2 ^ 14
      + I.rowFmt.toNat * 2 ^ 11 + I.fmt.toNat * 2 ^ 8 + I.src.toNat * 2 + if I.valid then 1 else 0)
    (4 ≤ f.toNat → ∀ i ∈ ([.mload d a b f n, .mrow d a b f n] : List Instr), exec i s = .next (s.trapIllegal i))
    ∧ (f.toNat < 4 →
        (x % 64 ≠ 0 → exec (.mload d a b f n) s = .next (s.trap 0x02 0 (s.cur.sreg a)))
        ∧ (x % 64 = 0 → y % 64 ≠ 0 → exec (.mload d a b f n) s = .next (s.trap 0x02 0 (s.cur.sreg b)))
        ∧ (x % 64 = 0 → y % 64 = 0 → s.lsize s.ft < x + 32768 →
            exec (.mload d a b f n) s = .next (s.trap 0x05 0 (s.cur.sreg a)))
        ∧ (x % 64 = 0 → y % 64 = 0 → x + 32768 ≤ s.lsize s.ft → s.lsize s.ft < y + 4 * mxColumns f →
            exec (.mload d a b f n) s = .next (s.trap 0x05 0 (s.cur.sreg b)))
        ∧ (x % 64 = 0 → y % 64 = 0 → x + 32768 ≤ s.lsize s.ft → y + 4 * mxColumns f ≤ s.lsize s.ft →
            (I.claimBlock = true → slotDone (.mload d a b f n) s fun sl => sl.setSreg d 1)
            ∧ (I.claimBlock = false → ∀ o, s.cur.run = .handler o →
                queued (.mload d a b f n) ⟨.load, f, x, y, 0, 0, false, false, s.seq, s.fk, o, s.cur.asid⟩))
        ∧ (x % 8 ≠ 0 → exec (.mrow d a b f n) s = .next (s.trap 0x02 0 (s.cur.sreg a)))
        ∧ (x % 8 = 0 → y = 0 ∨ 65535 < y → exec (.mrow d a b f n) s = .next (s.trapIllegal (.mrow d a b f n)))
        ∧ (x % 8 = 0 → 1 ≤ y → y ≤ 65535 → s.lsize s.ft < x + y * rowBytes f →
            exec (.mrow d a b f n) s = .next (s.trap 0x05 0 (s.cur.sreg a)))
        ∧ (x % 8 = 0 → 1 ≤ y → y ≤ 65535 → x + y * rowBytes f ≤ s.lsize s.ft →
            (I.claimRows = true → slotDone (.mrow d a b f n) s fun sl => sl.setSreg d 1)
            ∧ (I.claimRows = false → s.cur.balance 0 ≠ 0 → ∀ o, s.cur.run = .handler o →
                queued (.mrow d a b f n) ⟨.row, f, x, 0, y, 0, false, false, s.seq, s.fk, o, s.cur.asid⟩)))
    ∧ (x % 32 ≠ 0 → exec (.mdrain d a b n) s = .next (s.trap 0x02 0 (s.cur.sreg a)))
    ∧ (x % 32 = 0 → y = 0 ∨ 65535 < y → exec (.mdrain d a b n) s = .next (s.trapIllegal (.mdrain d a b n)))
    ∧ (x % 32 = 0 → 1 ≤ y → y ≤ 65535 → s.lsize s.ft < x + y * (4 * mxColumns I.fmtAhead) →
        exec (.mdrain d a b n) s = .next (s.trap 0x05 0 (s.cur.sreg a)))
    ∧ (x % 32 = 0 → 1 ≤ y → y ≤ 65535 → x + y * (4 * mxColumns I.fmtAhead) ≤ s.lsize s.ft →
        (I.claimResults = true → slotDone (.mdrain d a b n) s fun sl => sl.setSreg d 1)
        ∧ (I.claimResults = false → ∀ o, s.cur.run = .handler o →
            queued (.mdrain d a b n) ⟨.drain, 0, x, 0, y, 0, false, false, s.seq, s.fk, o, s.cur.asid⟩))
    ∧ (x % 2 = 0 ∨ I.claimBlock = true ∨ I.claimRows = true ∨ I.claimResults = true →
        slotDone (.mres d a n) s fun sl => sl.setSreg d map)
    ∧ (x % 2 = 1 → I.claimBlock = false → I.claimRows = false → I.claimResults = false →
        (∀ q ∈ s.feWait, q.who ≠ .poll s.ft (16 + n.toNat)) → nextWith (exec (.mres d a n) s) fun t =>
          ((t.tile s.ft).fabric.island n.toNat).valid = false ∧ ((t.tile s.ft).fabric.island n.toNat).rows = []
          ∧ ((t.tile s.ft).fabric.island n.toNat).results = []
          ∧ (∀ j ∈ ((t.tile s.ft).fabric.island n.toNat).jobs, j.kind = .load)
          ∧ (I.jobs = [] → t.cur = (s.cur.setSreg d map).advance ∧ sameMemory s t)
          ∧ ∀ j, I.jobs = [j] → j.kind ≠ .load →
              awarded (s.modCur fun sl => (sl.setSreg d map).advance) t s.ft j.pend
                (BitVec.ofNat 64 (j.done % 2 ^ 32 * 2 ^ 8 + 3)) id)

/-- R63, R69-R72: an island with a block, a row, a free result slot and its route fires: without an error of the array the row
leaves and its result row, the exact sums rounded once, takes the slot; an error whose residues do not agree keeps the row
for a second firing, which either succeeds or poisons the whole result row with a report, and is counted either way. -/
def Sys2Proof.Rules.IslandFiringsHold : Prop :=
  ∀ (s : State) (r : Row) (rest : List Row),
    let t := s.ev.tile
    let i := s.ev.unit
    let I := (s.tile t).fabric.island i
    I.rows = r :: rest → s.mayFire t i = true →
    (I.refire = false → residueOk I r s.ev.upset = true → nextWith (exec .islandFire s) fun u =>
        (u.tile t).fabric.island i = { I with rows := rest, results := I.results ++ [islandRow t i I r s.ev.upset], refire := false }
        ∧ sameMemory s u)
    ∧ (I.refire = false → residueOk I r s.ev.upset = false → nextWith (exec .islandFire s) fun u =>
        (u.tile t).fabric.island i = { I with refire := true } ∧ sameMemory s u)
    ∧ (I.refire = true → nextWith (exec .islandRefire s) fun u =>
        let J := (u.tile t).fabric.island i
        J.rows = rest ∧ J.refire = false ∧ J.results.length = I.results.length + 1
        ∧ (residueOk I r s.ev.upset = true → J.results = I.results ++ [islandRow t i I r s.ev.upset])
        ∧ (residueOk I r s.ev.upset = false →
            J.results = I.results ++ [List.replicate (mxColumns I.fmt) ⟨true, 0, originWord t (16 + i) 8⟩]
            ∧ reported s u t (16 + i) 7 (originWord t (16 + i) 8))
        ∧ J.mism = if I.mism = 0xFFFF then I.mism else I.mism + 1)

/-- R63, R71: with no error the values of a result row are the exact block sums, scaled by the sums of the streamed and resident
scales, rounded once to f32, or poisoned with cause 3 where that overflows; a row whose scales are not numbers gives poisoned values in
every column, a column whose scales are not numbers in that column, and a poisoned row its own origin in each. -/
def Sys2Proof.Rules.IslandValues : Prop :=
  ∀ (t i c : Nat) (I : Island) (r : Row), c < mxColumns I.fmt →
    (∀ w, r.poison = some w → (islandRow t i I r [])[c]? = some ⟨true, 0, w⟩)
    ∧ (r.poison = none → (∃ b < 4, r.scale b = 0xFF ∨ I.scale c b = 0xFF) →
        (islandRow t i I r [])[c]? = some ⟨true, 0, originWord t (16 + i) 1⟩)
    ∧ (r.poison = none → (∀ b < 4, r.scale b ≠ 0xFF ∧ I.scale c b ≠ 0xFF) → ∀ m : Nat, (∀ b < 4, m ≤ r.scale b + I.scale c b) →
      let sum : Int := ((List.range 4).map fun b => I.block r c b * (2 ^ (r.scale b + I.scale c b - m) : Nat)).sum
      let v := f32.round 0 0 ⟨decide (sum < 0), sum.natAbs, (m : Int) - 254, false⟩
      (islandRow t i I r [])[c]? = some (if v.exc.getLsbD 2 = true then ⟨true, 0, originWord t (16 + i) 3⟩
        else ⟨false, 0, BitVec.ofNat 64 v.bits⟩))

/-- R66-R68, R300, R302: the MLOAD at the head of an island's queue takes its block from the local store as it stands, and
completes with status 0 in the register it names; an MROW hands its rows over one by one into free row-buffer entries; an element's
row enters whole; an MROW or MDRAIN that has done all its rows is over, with their number and status 0, or 2 where a row was poisoned,
in its register, and leaves memory as it was where its slot still runs. -/
def Sys2Proof.Rules.IslandQueues : Prop :=
  ∀ (s : State) (j : MatJob) (rest : List MatJob),
    let t := s.ev.tile
    let i := s.ev.unit
    let I := (s.tile t).fabric.island i
    let quiet := ∀ q ∈ s.feWait, q.who ≠ FeWho.poll t (16 + i)
    (I.jobs = j :: rest → quiet → j.kind = .load → I.loading = false → I.valid = false ∨ I.rows = [] → I.refire = false →
        s.stops t = false → s.storeReads t i [(j.a, 32768), (j.b, 4 * mxColumns j.fmt)] = true →
        nextWith (exec .residentLoadComplete s) fun u =>
          let J := (u.tile t).fabric.island i
          J.loading = true ∧ J.valid = false ∧ J.fmt = j.fmt ∧ J.ebase = j.a ∧ J.sbase = j.b
          ∧ J.elems = s.bytes (localLoc t j.a) 32768 ∧ J.scales = s.bytes (localLoc t j.b) (4 * mxColumns j.fmt) ∧ sameMemory s u)
    ∧ (I.jobs = j :: rest → j.kind = .load → j.started = true → I.loading = true → I.cordoned = false →
        nextWith (exec .residentLoadComplete s) fun u =>
          let J := (u.tile t).fabric.island i
          J.loading = false ∧ J.valid = true ∧ J.mism = 0 ∧ J.jobs = rest ∧ awarded s u t j.pend 0 id)
    ∧ (I.jobs = j :: rest → quiet → (s.tile t).fabric.elemRowWire t i = none → j.kind = .row → j.done < j.count →
        I.rows.length < 16 → s.storeReads t i [(j.a + j.done * rowBytes j.fmt, rowBytes j.fmt)] = true →
        nextWith (exec .rowDeliver s) fun u =>
          let J := (u.tile t).fabric.island i
          let loc := localLoc t (j.a + j.done * rowBytes j.fmt)
          J.rows.length = I.rows.length + 1 ∧ (J.jobs.head?.map fun k => k.done) = some (j.done + 1) ∧ J.rowFmt = j.fmt
          ∧ (s.marked loc (rowBytes j.fmt - 4) = false → J.rows = I.rows ++ [rowOf j.fmt (s.bytes loc (rowBytes j.fmt)) none])
          ∧ sameMemory s u)
    ∧ (∀ e w, (s.tile t).fabric.elemRowWire t i = some (e, w) → rowTokens I.rowFmt ≤ I.parts.length → w.sel = none →
        (t, Sink.island i) ∈ w.dsts → (s.tile t).fabric.rowRoom w = true → nextWith (exec .rowDeliver s) fun u =>
          let J := (u.tile t).fabric.island i
          J.parts = I.parts.drop (rowTokens I.rowFmt) ∧ rowOfTokens I.rowFmt (I.parts.take (rowTokens I.rowFmt)) ∈ J.rows ∧ I.rows <+: J.rows)
    ∧ (I.jobs = j :: rest → s.ev.n = 0 → j.kind ≠ .load → j.done = j.count → nextWith (exec .matComplete s) fun u =>
        ((u.tile t).fabric.island i).jobs = rest
        ∧ awarded s u t j.pend (BitVec.ofNat 64 (j.done % 2 ^ 32 * 2 ^ 8 + if j.poisoned then 2 else 0)) id
        ∧ ((∃ k < 8, ((s.slot t k).pend? j.pend).isSome = true) → sameMemory s u))

/-- R74, R247, R300: the oldest result row of an island that no load claims is written by the MDRAIN at the head of its
queue, as f32 values, a poisoned one as a NaN, with a report; where a load claims the results, with one route that is a wire
with room, two values leave as one token, and the row is gone after the last. The numbering of result routes is read by
inference (log 34). -/
def Sys2Proof.Rules.ResultPort : Prop :=
  ∀ (s : State) (vals : List Token) (more : List (List Token)),
    let t := s.ev.tile
    let i := s.ev.unit
    let I := (s.tile t).fabric.island i
    I.results = vals :: more →
    (∀ j rest, I.claimResults = false → I.sent = 0 → I.jobs = j :: rest → j.kind = .drain → j.done < j.count →
        s.storeQuiet t (j.a + j.done * (4 * vals.length)) (4 * vals.length) = true →
        j.a + j.done * (4 * vals.length) + 4 * vals.length ≤ s.lsize t →
        nextWith (exec .resultPortSend s) fun u =>
          ((u.tile t).fabric.island i).results = more
          ∧ u.mem = cellWrite s.mem (localLoc t (j.a + j.done * (4 * vals.length)))
              (vals.flatMap fun v => natBytes 4 (if v.poison then 0x7FC00000 else v.data.toNat))
          ∧ (((u.tile t).fabric.island i).jobs.head?.map fun k => (k.done, k.poisoned))
              = some (j.done + 1, j.poisoned || vals.any fun v => v.poison)
          ∧ ∀ w, (vals.filter fun v => v.poison) = [w] → reported s u t (16 + i) 6 w.data)
    ∧ (∀ ds routes, I.claimResults = true → I.routes ≤ 1 → (s.tile t).fabric.routesOf i = (ds :: routes) → ds ≠ [] →
        (∀ d ∈ ds, s.sinkRoom t d 1 = true) → nextWith (exec .resultPortSend s) fun u =>
          (vals.length ≤ 2 * I.sent + 2 → ((u.tile t).fabric.island i).results = more ∧ ((u.tile t).fabric.island i).sent = 0)
          ∧ (2 * I.sent + 2 < vals.length →
            ((u.tile t).fabric.island i).results = I.results ∧ ((u.tile t).fabric.island i).sent = I.sent + 1)
          ∧ ∀ e c, ds = [(t, .elem e c)] → ((u.tile t).fabric.elem e).chans.get [] c
              = ((s.tile t).fabric.elem e).chans.get [] c ++ [pairToken vals vals.length I.sent])

/-! ### The fold (R92-R99, R243-R245, R429) -/

/-- R243-R245, R92: FOLD.PUT on a slot that takes the needle, with room, adds a flit of its four registers; FOLD.CFG of a valid
value on an empty slot writes it; FOLD.STAT reads the rows, the overflow and the valid bit. FOLD.PUT of a misaligned group, or on
a slot that does not take the needle, and FOLD.CFG of a slot of the pattern or of an invalid value, are illegal; FOLD.PUT without
room and FOLD.CFG of a slot that holds a row wait. -/
def Obligations.FoldInstructions : Prop :=
  ∀ (s : State) (d a b : BitVec 5) (n : BitVec 4),
    let f := (s.tile s.ft).fabric.fold n.toNat
    let v := s.cur.sreg a
    let o := (s.cur.sreg b).toNat
    let free := f.v = false ∨ (f.empty = true ∧ ∀ k ∈ f.inDirs, s.foldsOnWay s.ft n.toNat k = 0)
    (b.toNat % 4 ≠ 0 ∨ f.v = false ∨ f.srcs.getLsbD 0 = false → exec (.foldPut b n) s = .next (s.trapIllegal (.foldPut b n)))
    ∧ (ready s [b, b + 1, b + 2, b + 3] → b.toNat % 4 = 0 → f.v = true → f.srcs.getLsbD 0 = true →
        (4 ≤ (f.inq.get [] 13).length → exec (.foldPut b n) s = .next s)
        ∧ ((f.inq.get [] 13).length < 4 → nextWith (exec (.foldPut b n) s) fun t =>
          ∃ fl : FoldFlit, (((t.tile s.ft).fabric.fold n.toNat).inq.get [] 13) = f.inq.get [] 13 ++ [fl]
            ∧ fl.row = f.pushed.get 0 5 / f.flits ∧ fl.k = f.pushed.get 0 5 % f.flits
            ∧ fl.vals = flitValues f.op [s.cur.sreg b, s.cur.sreg (b + 1), s.cur.sreg (b + 2), s.cur.sreg (b + 3)]
            ∧ t.cur = s.cur.advance ∧ sameMemory s t))
    ∧ (ready s [a, b] → (f.v = true ∧ f.pattern = true) ∨ foldValueOk s.ft v = false ∨ (get v 53 51 ≠ 4 ∧ o ≠ 0) →
        exec (.foldCfg a b n) s = .next (s.trapIllegal (.foldCfg a b n)))
    ∧ (ready s [a, b] → f.v = false ∨ f.pattern = false → foldValueOk s.ft v = true →
        (get v 53 51 = 4 → o % 32 ≠ 0 → exec (.foldCfg a b n) s = .next (s.trap 0x02 0 (s.cur.sreg b)))
        ∧ (get v 53 51 = 4 → o % 32 = 0 → s.lsize s.ft ≤ o → exec (.foldCfg a b n) s = .next (s.trap 0x05 0 (s.cur.sreg b)))
        ∧ ((get v 53 51 = 4 ∧ o % 32 = 0 ∧ o < s.lsize s.ft) ∨ (get v 53 51 ≠ 4 ∧ o = 0) →
            (¬free → exec (.foldCfg a b n) s = .next s)
            ∧ (free → nextWith (exec (.foldCfg a b n) s) fun t =>
                (t.tile s.ft).fabric.fold n.toNat = foldOfWord v (if get v 53 51 = 4 then some o else none)
                ∧ t.cur = s.cur.advance ∧ sameMemory s t)))
    ∧ (ready s [d] → slotDone (.foldStat d n) s fun sl => sl.setSreg d
        (BitVec.ofNat 64 (f.rows.toNat * 2 ^ 32 + (if f.ovf then 2 else 0) + if f.v then 1 else 0)))

/-- R93, R94, R98: a slot under order=ports whose inputs all hold a flit combines them value by value, local sources first, and
sends the result over the data mesh to its parent's slot of the same number where that has room, its own inputs popped; a slot
without one of them waits. A flit that arrives joins its input. The token at the head of a root's queue goes down its wire. -/
def Sys2Proof.Rules.FoldCombinesHold : Prop :=
  ∀ (s : State),
    let t := s.ev.tile
    let n := s.ev.unit
    let f := (s.tile t).fabric.fold n
    let d := f.out.toNat
    let u := neighbour t d
    let g := (s.tile u).fabric.fold n
    (f.outq = [] → f.idx = false → (∃ k ∈ f.inputs, f.inq.get [] k = []) → exec .foldCombine s = .next s)
    ∧ (∀ fl, f.v = true → s.stopped t = false → f.outq = [] → f.idx = false → f.ready t = some fl → d < 4 →
        hasNeighbour t d = true → g.v = true → g.ins.getLsbD (inBit (opposite d)) = true →
        (s.part u).launch = (s.part t).launch → (s.part u).load = (s.part t).load →
        (g.inq.get [] (opposite d)).length + s.foldsOnWay u n (opposite d) < 4 → nextWith (exec .foldCombine s) fun x =>
          (∃ q ∈ x.flights, q.msg = .fold n (opposite d) fl ∧ q.src = t ∧ q.dst = u ∧ q.data = true)
          ∧ (∀ k ∈ f.inputs, ((x.tile t).fabric.fold n).inq.get [] k = (f.inq.get [] k).drop 1) ∧ sameMemory s x)
    ∧ (∀ i fl, f.v = true → f.ins.getLsbD (inBit i) = true →
        ((s.foldArrive t n i fl).tile t).fabric.fold n = { f with inq := f.inq.put i (f.inq.get [] i ++ [fl]) })
    ∧ (∀ k r, f.v = true → s.stopped t = false → f.outq = k :: r → s.wireRoom t (.fold n) 1 = true →
        nextWith (exec .foldCombine s) fun x => ((x.tile t).fabric.fold n).outq = r ∧ tookWire s x t (.fold n) k ∧ sameMemory s x)

/-- R62, R93, R97: what a fold makes of two values: the operations of its table, a poisoned operand passing its origin on, an
f32 sum, maximum or minimum that raises NV, or OF, a poisoned value of cause 1, or 3, of the fold unit, and under add.l128 a sum
modulo 2^128. -/
def Sys2Proof.Rules.FoldValues : Prop :=
  ∀ (t : Nat) (a b : FoldVal),
    (∀ op w, a.poison = some w → foldCombine2 t op a b = ⟨0, some w⟩)
    ∧ (∀ op w, a.poison = none → b.poison = some w → foldCombine2 t op a b = ⟨0, some w⟩)
    ∧ (a.poison = none → b.poison = none →
        foldCombine2 t 1 a b = ⟨a.x + b.x, none⟩ ∧ foldCombine2 t 4 a b = ⟨max a.x b.x, none⟩
        ∧ foldCombine2 t 5 a b = ⟨min a.x b.x, none⟩ ∧ foldCombine2 t 6 a b = ⟨(a.x + b.x) % 2 ^ 128, none⟩
        ∧ (∀ op r, (op, r) ∈ ([(0, f32.add 0 0 a.x.toNat b.x.toNat), (2, f32.minmax true a.x.toNat b.x.toNat),
              (3, f32.minmax false a.x.toNat b.x.toNat)] : List (BitVec 3 × FRes)) →
            (r.exc.getLsbD 4 = true → foldCombine2 t op a b = ⟨0, some (originWord t 22 1)⟩)
            ∧ (r.exc.getLsbD 4 = false → r.exc.getLsbD 2 = true → foldCombine2 t op a b = ⟨0, some (originWord t 22 3)⟩)
            ∧ (r.exc.getLsbD 4 = false → r.exc.getLsbD 2 = false → foldCombine2 t op a b = ⟨r.bits, none⟩)))

/-- R99: a row of a load that is in on all its tiles, which one input of a slot has and every other one has ended without,
goes on
poisoned with the incomplete origin, and is reported where it begins; under order=index the root delivers it so. With an input
still open nothing happens. Which sources have ended, and the case of order=index, are read by inference (log 49). -/
def Sys2Proof.Rules.FoldIncompleteRows : Prop :=
  ∀ (s s1 : State) (m : Nat) (l : Launch),
    let t := s.ev.tile
    let n := s.ev.unit
    let f := (s.tile t).fabric.fold n
    let held := f.inputs.filter fun k => !(f.inq.get [] k).isEmpty
    let w := originWord t 22 9
    let fl : FoldFlit := ⟨f.rows.toNat, f.nextK, List.replicate (foldPer f.op) ⟨0, some w⟩, 0, 255⟩
    let isOver := fun (k : Nat) => s.inputOver m l (s.ended m l) t n k
    (s.part t).launch = some m → s.launch? m = some l →
    (f.v = false ∨ f.pattern = false ∨ s.loadIn m l (s.part t).load = false ∨ f.outq ≠ []
        ∨ (∃ k ∈ f.inputs, k ∉ held ∧ isOver k = false) → exec .foldDrainIncomplete s = .next s)
    ∧ (f.v = true → f.pattern = true → s.loadIn m l (s.part t).load = true → f.outq = [] →
        (∀ k ∈ f.inputs, k ∈ held ∨ isOver k = true) →
        let told := fun (x : State) => if f.nextK = 0 ∨ f.short = false then
          (x.sinkReport t 22 9 w).modFold t n fun y => { y with short := true } else x
        (f.idx = false → held ≠ [] → held.length ≠ f.inputs.length → s.foldOut t n fl = some s1 →
          exec .foldDrainIncomplete s = .next (told (s1.modFold t n fun x => held.foldl FoldSlot.pop x)))
        ∧ (f.idx = true → held = [] → s.drainIndex t n fl = some s1 → exec .foldDrainIncomplete s = .next (told s1)))

/-! ### Copies, compaction, merge and corner turn (R269-R275, R303-R307, R455-R460, R498) -/

/-- R303-R305, R340: a COPY whose block is readable and writable and valid, with the slot's older accesses and every store
of its tile performed, takes a free stream, its register waiting for the completion word; an empty box completes at once
with status 2, an invalid block with status 3, and without a free stream, or before those accesses, it waits. A block that
may not be read or written traps with EPAGE, one that is misaligned, marked or behind a lost path with that cause. That a
COPY waits for its slot's stores is read by inference (log 35), and that an invalid block comes before an empty box is the
model's choice (log 64). -/
def Sys2Proof.Rules.CopyIssues : Prop :=
  ∀ (s s1 s2 : State) (d a : BitVec 5) (bs : List Byte), ready s [d, a] →
    let va := s.cur.sreg a
    let notify : Word := BitVec.ofNat 64 (blkField bs 0x60 8)
    let box := (copyBoxes bs).1
    let valid := box.ok = true ∧ (copyBoxes bs).2.ok = true ∧ blkField bs 0x78 8 = 0 ∧ s2.notifyOk notify = true
    (∀ c sub v, s.readBlock (.copy d a) va 64 128 = .trap s1 c sub v → exec (.copy d a) s
        = .next (if c = 0x02 ∨ c = 0x0D ∨ c = 0x0E then s1.trap c sub v else s1.trap 0x04 (blockKind c sub) va))
    ∧ (s.readBlock (.copy d a) va 64 128 = .wait s1 → exec (.copy d a) s = .next s1)
    ∧ (s.readBlock (.copy d a) va 64 128 = .got s1 bs → s1.blockWritable (.copy d a) va = .wait s2 → exec (.copy d a) s = .next s2)
    ∧ (∀ c sub v, s.readBlock (.copy d a) va 64 128 = .got s1 bs → s1.blockWritable (.copy d a) va = .trap s2 c sub v →
        exec (.copy d a) s = .next (if c = 0x0E then s2.trap c sub v else s2.trap 0x04 (blockKind c sub) va))
    ∧ (s.readBlock (.copy d a) va 64 128 = .got s1 bs → s1.blockWritable (.copy d a) va = .got s2 [] →
        (s2.released s2.ft s2.fk = false → exec (.copy d a) s = .next s2)
        ∧ (s2.released s2.ft s2.fk = true →
          (¬valid → exec (.copy d a) s = .next (s2.modCur fun sl => (sl.setSreg d 3).advance))
          ∧ (valid → box.size = 0 → exec (.copy d a) s
              = .next ((s2.modCur fun sl => (sl.setSreg d 2).advance).notify s2.ft s2.fk (s2.slotAlloc s2.ft s2.fk) notify 2
                  (BitVec.ofNat 64 (blkField bs 0x68 8))))
          ∧ (valid → box.size ≠ 0 → (s2.tile s2.ft).fabric.freeStream = none → exec (.copy d a) s = .next s2)
          ∧ ∀ g, valid → box.size ≠ 0 → (s2.tile s2.ft).fabric.freeStream = some g → nextWith (exec (.copy d a) s) fun t =>
              let G := (t.tile s2.ft).fabric.gen g
              G.used = true ∧ G.box = box ∧ G.pos = 0 ∧ (∃ j, G.job = some j ∧ j.dst = (copyBoxes bs).2 ∧ j.pend = s2.seq ∧ j.buf = [])
              ∧ t.cur.pend = s2.cur.pend ++ [⟨s2.seq, [s2.cur.absReg d], .result, 0, 0, false, false⟩]
              ∧ t.cur.pc = s2.cur.advance.pc ∧ sameMemory s2 t))

/-- R272: the address of a position of a box: positions run along runs of 8-byte words, rows, planes and cubes in that order. -/
def Sys2Proof.Rules.BoxAddresses : Prop :=
  ∀ (b : Box) (w r p c : Nat), w < b.per → r < b.rows → p < b.planes → c < b.cubes →
    let n := ((c * b.planes + p) * b.rows + r) * b.per + w
    n < b.size
    ∧ b.addr n = b.base + BitVec.ofNat 64 c * b.cpitch + BitVec.ofNat 64 p * b.ppitch + BitVec.ofNat 64 r * b.pitch
        + BitVec.ofNat 64 (8 * w)
    ∧ (b.runEnd n = true ↔ w + 1 = b.per)

/-- R273, R305, R306, R498: a declared source stream under its extents, with a full bucket and room on its wire, pushes the
word of
its next position, TAG 1 at the end of a run; a destination stream with its next unit's token writes it and moves on; a COPY
reads the next position of a unit into what it holds, writes the unit when it is whole, and, having moved its last position, with what
it wrote performed at system scope, frees its stream and delivers its completion word. -/
def Sys2Proof.Rules.StreamSteps : Prop :=
  ∀ (s : State) (loc : Nat),
    let t := s.ev.tile
    let g := s.ev.unit
    let G := (s.tile t).fabric.gen g
    let quiet := ∀ q ∈ s.feWait, q.who ≠ FeWho.poll t g
    g < 8 →
    (quiet → s.streamRuns t g = true → 256 ≤ ((s.tile t).copyBucket g).count → G.job = none → G.isDst = false →
        s.streamUse t g false (G.box.addr G.pos) = .ok loc false → s.unitAccess t loc 8 = true →
        s.wireRoom t (.stream g) 1 = true → s.isMarked loc = false → nextWith (exec .copySrcRead s) fun u =>
          ((u.tile t).fabric.gen g).pos = G.pos + 1 ∧ sameMemory s u
          ∧ ((u.tile t).copyBucket g).count = ((s.tile t).copyBucket g).count - 256
          ∧ ∀ w e c, (s.tile t).fabric.wire? (.stream g) = some w → w.ends = [(t, .elem e c)] →
              ((u.tile t).fabric.elem e).chans.get [] c = ((s.tile t).fabric.elem e).chans.get [] c
                ++ [⟨false, if G.box.runEnd G.pos then 1 else 0, s.read64 loc⟩])
    ∧ (∀ k, s.partner t = none → s.dstReady t g = true → G.box.unitLen G.pos = 1 → G.inq.take 1 = [k] →
        k.poison = false → k.gap = false → s.streamUse t g true (G.box.addr G.pos) = .ok loc false →
        s.covered t (loc / 32 * 32) 32 = false → s.unitAccess t loc 8 = true →
        nextWith (exec .copyDstWrite s) fun u =>
          ((u.tile t).fabric.gen g).pos = G.pos + 1 ∧ ((u.tile t).fabric.gen g).inq = G.inq.drop 1
          ∧ u.mem = cellWrite s.mem (unitLoc loc (G.box.addr G.pos) (G.box.addr G.pos)) (natBytes 8 k.data.toNat))
    ∧ (∀ j dl fb, quiet → s.streamRuns t g = true → 256 ≤ ((s.tile t).copyBucket g).count → G.job = some j → j.ended = none →
        j.buf.length < j.dst.unitLen G.pos → s.copyPos t g j.dst (G.pos + j.buf.length) = .move loc false dl fb →
        s.unitAccess t loc 8 = true → s.isMarked loc = false → nextWith (exec .copySrcRead s) fun u =>
          ((u.tile t).fabric.gen g).pos = G.pos
          ∧ (((u.tile t).fabric.gen g).job.map fun i => i.buf) = some (j.buf ++ [s.read64 loc]) ∧ sameMemory s u)
    ∧ (∀ j v, s.streamRuns t g = true → 256 ≤ ((s.tile t).copyBucket g).count → G.job = some j → j.ended = none →
        j.buf = [v] → j.dst.unitLen G.pos = 1 → s.streamUse t g true (j.dst.addr G.pos) = .ok loc false →
        s.covered t (loc / 32 * 32) 32 = false → s.unitAccess t loc 8 = true → nextWith (exec .copySrcRead s) fun u =>
          ((u.tile t).fabric.gen g).pos = G.pos + 1 ∧ (((u.tile t).fabric.gen g).job.map fun i => i.buf) = some []
          ∧ u.mem = cellWrite s.mem (unitLoc loc (j.dst.addr G.pos) (j.dst.addr G.pos)) (natBytes 8 v.toNat)
          ∧ ((u.tile t).copyBucket g).count = ((s.tile t).copyBucket g).count - 256)
    ∧ (∀ j, G.job = some j → (∃ b ∈ s.behind, b.tile = t ∧ b.slot = 8 + g) → exec .copyComplete s = .next s)
    ∧ (∀ j k, quiet → G.job = some j → j.ended = none → G.box.size ≤ G.pos → (∀ b ∈ s.behind, b.tile ≠ t ∨ b.slot ≠ 8 + g) → k < 8 → ((s.slot t k).pend? j.pend).isSome = true →
        (∀ m < k, (s.slot t m).pend? j.pend = none) → nextWith (exec .copyComplete s) fun u =>
          ((u.tile t).fabric.gen g).used = false ∧ u.slot t k = (s.slot t k).complete j.pend [copyWord G.pos 1] ∧ sameMemory s u)

/-- R269-R271: the compaction unit passes a token on down its wire and drops a gap, counting both, and after its width sends the
count, TAG 6; without room on its wire a token waits. The merge unit places a token under its index, and the record under the index
that is due goes down the wire, or is dropped where it is a gap, and the next index is due. -/
def Sys2Proof.Rules.CompactAndMerge : Prop :=
  ∀ (s : State) (k : Token) (r : List Token),
    let t := s.ev.tile
    let C := (s.tile t).fabric.cmp
    let M := (s.tile t).fabric.mrg
    s.unitRuns t = true →
    (C.width ≠ 0 → C.due = true → s.wireRoom t .cmp 1 = true → nextWith (exec .compactStep s) fun u =>
        let D := (u.tile t).fabric.cmp
        D.due = false ∧ D.seen = 0 ∧ D.passed = 0 ∧ tookWire s u t .cmp ⟨false, 6, BitVec.ofNat 64 C.passed⟩ ∧ sameMemory s u)
    ∧ (C.width ≠ 0 → C.due = false → C.inq = k :: r → k.gap = true → nextWith (exec .compactStep s) fun u =>
        (u.tile t).fabric.cmp = { C with inq := r, seen := C.seen + 1, due := C.seen + 1 == C.width } ∧ u.flights = s.flights)
    ∧ (C.width ≠ 0 → C.due = false → C.inq = k :: r → k.gap = false → s.wireRoom t .cmp 1 = true →
        nextWith (exec .compactStep s) fun u =>
          let D := (u.tile t).fabric.cmp
          D.seen = C.seen + 1 ∧ D.passed = C.passed + 1 ∧ D.due = (C.seen + 1 == C.width) ∧ r <+: D.inq ∧ tookWire s u t .cmp k
          ∧ sameMemory s u)
    ∧ (C.width ≠ 0 → C.due = true ∨ (C.inq = k :: r ∧ k.gap = false) → s.wireRoom t .cmp 1 = false →
        exec .compactStep s = .next s)
    ∧ (M.keys ≠ 0 → M.in0 = k :: r → M.in1 = [] → k.poison = false → M.spent = [] → M.entries = [] →
        nextWith (exec .mergeStep s) fun u =>
          (u.tile t).fabric.mrg.entries.get Token.zero (get k.data 63 54 % M.keys) = k ∧ (u.tile t).fabric.mrg.in0 = r
          ∧ (u.tile t).fabric.mrg.n = M.n)
    ∧ (M.keys ≠ 0 → M.in0 = [] → M.in1 = [] → M.entries = [(M.n, k)] →
        (∀ w, (s.tile t).fabric.wire? .mrg = some w → ∀ d ∈ w.ends, ∀ x, d ≠ (t, .mrg x)) →
        (k.gap = true ∨ s.wireRoom t .mrg 1 = true → nextWith (exec .mergeStep s) fun u =>
          (u.tile t).fabric.mrg.entries = [] ∧ (u.tile t).fabric.mrg.n = (M.n + 1) % M.keys
          ∧ (k.gap = false → tookWire s u t .mrg k) ∧ (k.gap = true → u.flights = s.flights) ∧ sameMemory s u)
        ∧ (k.gap = false → s.wireRoom t .mrg 1 = false → exec .mergeStep s = .next s))

/-- R455-R457: the corner-turn buffer's writer places a token in its half, which is full with its last token or an end-of-stream
token, and then turns to the other half; the reader turns to the older full half and sends its tokens down its wire in column order,
where there is room, and the half is empty after the last. In a plain half, token `q` of column `c` holds in its lanes the elements of
column `c` in rows `per * q` on, where `per` elements make a token. -/
def Sys2Proof.Rules.CornerTurn : Prop :=
  ∀ (s : State) (k : Token) (r : List Token),
    let t := s.ev.tile
    let C := (s.tile t).fabric.ct
    s.unitRuns t = true →
    (C.inq = k :: r → C.writing.state = .empty ∨ C.writing.state = .filling → nextWith (exec .ctTokenIn s) fun u =>
        let D := (u.tile t).fabric.ct
        let h := if C.wr then D.h1 else D.h0
        D.inq = r ∧ h.toks = C.writing.toks ++ [k] ∧ sameMemory s u
        ∧ (k.tag = 1 ∨ C.writing.toks.length + 1 = C.rows * C.rowIn → h.state = .full ∧ D.wr = !C.wr)
        ∧ (k.tag ≠ 1 → C.writing.toks.length + 1 ≠ C.rows * C.rowIn → h.state = .filling ∧ D.wr = C.wr))
    ∧ (∀ b h, C.reading = some (b, h) → h.state = .full → nextWith (exec .ctTokenOut s) fun u =>
        (if b then (u.tile t).fabric.ct.h1 else (u.tile t).fabric.ct.h0) = { h with state := .draining })
    ∧ (∀ b h, C.reading = some (b, h) → h.state = .draining →
        (s.wireRoom t .ct 1 = false → exec .ctTokenOut s = .next s)
        ∧ (s.wireRoom t .ct 1 = true → nextWith (exec .ctTokenOut s) fun u =>
          (if b then (u.tile t).fabric.ct.h1 else (u.tile t).fabric.ct.h0)
            = (if h.pos + 1 = C.columns * C.perColumn then Half.reset else { h with pos := h.pos + 1 })
          ∧ tookWire s u t .ct (C.out h h.pos) ∧ sameMemory s u))
    ∧ ∀ (h : Half) (c q : Nat), C.mx = false → c < C.columns → q < C.perColumn →
        let e := laneWidth C.fmt
        let per := 64 / e
        (∀ j < per, ∀ x, h.toks[16 * (per * q + j) + c / per]? = some x → x.poison = false) →
        (C.out h (c * C.perColumn + q)).poison = false
        ∧ ∀ j < per, (C.out h (c * C.perColumn + q)).data.toNat / 2 ^ (e * j) % 2 ^ e
            = (match h.toks[16 * (per * q + j) + c / per]? with
               | some x => if x.gap then 0 else x.data.toNat
               | none => 0) / 2 ^ (e * (c % per)) % 2 ^ e

/-! ### The weft (R77-R89, R241, R242, R511) -/

/-- R241: a WEFT of a slot that holds a unit of leave that no other WEFT of it uses, and whose earlier stores are performed,
leaves its request with its register waiting; before they are performed, at system scope for those to the spools, and while
an acquiring access of it waits, it waits. Without a unit at hand it asks for one. The answer under status 0 arms the group
with a new epoch, spends the unit and returns the epoch, and under another status returns that. That a WEFT waits for its
slot's stores is read by inference (log 35), and which of several refusals it returns is the model's choice (log 64). -/
def Sys2Proof.Rules.WeftRequests : Prop :=
  ∀ (s : State) (d a b : BitVec 5),
    let held := (∃ e ∈ (s.tile s.ft).stores, e.slot = s.fk % 8) ∨ (∃ b ∈ s.behind, b.tile = s.ft ∧ b.slot = s.fk % 8)
      ∨ ∃ p ∈ s.cur.pend, p.acq = true
    (ready s [d, a, b] → s.weftsOf s.ft s.fk < (s.cur.balance 2).toNat → ¬held →
      nextWith (exec (.weft d a b) s) fun t =>
        t.wefts = s.wefts ++ [⟨s.ft, s.fk, s.seq, s.cur.sreg a, s.cur.sreg b, s.callerLaunch, s.launchOf s.ft s.fk,
          decide (get (s.cur.sreg b) 63 62 = 3) || (s.sendTarget s.ft s.fk (s.cur.sreg b)).isSome⟩]
        ∧ t.cur.pend = s.cur.pend ++ [⟨s.seq, [s.cur.absReg d], .result, 0, 0, false, false⟩]
        ∧ t.cur.pc = s.cur.advance.pc ∧ sameMemory s t)
    ∧ (ready s [d, a, b] → s.weftsOf s.ft s.fk < (s.cur.balance 2).toNat → held → exec (.weft d a b) s = .next s)
    ∧ (∀ s1, ready s [d, a, b] → (s.cur.balance 2).toNat ≤ s.weftsOf s.ft s.fk → s.takeLeave s.ft s.fk 2 1 = (s1, false) →
        exec (.weft d a b) s = .next s1)
    ∧ ∀ q, (s.wefts.find? fun q => q.tile == s.ev.tile && q.slot == s.ev.unit) = some q →
        ((s.weftStatus q).1 ≠ 0 → exec .weftStatusReturn s =
          .next (({ s with wefts := s.wefts.filter fun x => x != q }.keepWeft s.ev.tile q.pend).deliver s.ev.tile q.pend
            [BitVec.ofNat 64 ((s.weftStatus q).1 % 256)]))
        ∧ ((s.weftStatus q).1 = 0 → nextWith (exec .weftStatusReturn s) fun t =>
            (t.group (s.weftStatus q).2).state = .armed ∧ (t.group (s.weftStatus q).2).seq = 0
            ∧ (t.group (s.weftStatus q).2).epoch = (s.group (s.weftStatus q).2).epoch + 1
            ∧ (t.group (s.weftStatus q).2).starter = some (s.ev.tile, s.ev.unit, q.b, q.alloc) ∧ q ∉ t.wefts
            ∧ awarded s t s.ev.tile q.pend (BitVec.ofNat 64 (((s.group (s.weftStatus q).2).epoch + 1).toNat * 2 ^ 8)) (·.spend 2)
            ∧ ∀ x : Slot, (x.spend 2).balance 2 = x.balance 2 - 1)

/-- R13, R75, R80, R81, R85, R87: the states of a multicast group at the selvedge: a group the loader starts becomes armed
once its
members are ready, an armed group whose members are all ready streams, its row at SEQ goes to every member that its light reaches
and SEQ counts up, past the last row it closes, and with every member's completion it is idle; a replay request moves SEQ back. -/
def Sys2Proof.Rules.WeftGroups : Prop :=
  ∀ (s : State),
    let n := s.ev.n
    let g := s.group n
    (g.v = true → g.state = .idle → g.byWeft = false → g.ended = false → (∀ m ∈ g.members, s.memberReady n m = true) →
        (s.part (g.members.head?.getD 0)).wanted = [] → g.minPace ≤ g.pace → s.launchRuns g.launch = true →
        s.launchStored g.launch = true →
        nextWith (exec .groupStartByLoader s) fun t => (t.group n).state = .armed ∧ (t.group n).epoch = g.epoch + 1)
    ∧ (g.state = .armed → (∀ m ∈ g.members, s.memberReady n m = true) → s.launchRuns g.launch = true →
        nextWith (exec .groupStreamingStart s) fun t => t.group n = { g with state := .streaming })
    ∧ (∀ bs bad, g.state = .streaming → s.launchRuns g.launch = true → g.seq.toNat < g.last.toNat →
        (s.tile s.ev.tile).router.plogMode = 0 →
        s.weftRow g g.seq.toNat = some (bs, bad) → nextWith (exec .weftFrameSend s) fun t =>
          (t.group n).seq = g.seq + 1 ∧ (t.group n).state = .streaming ∧ sameMemory s t
          ∧ ∀ m ∈ g.members, s.lit g m = true → ∀ r, (s.tile m).fabric.rxOf n (g.seq.toNat % g.lanes) = some r →
              ∃ q ∈ t.flights, q.dst = m ∧ q.msg = .frame ((⟨n, g.fmt, false, g.epoch, bs.length / 8, g.seq, bs⟩ : Frame).wire bad) r)
    ∧ (∀ bs bad, g.state = .streaming → s.launchRuns g.launch = true → g.seq = g.last → s.weftRow g g.seq.toNat = some (bs, bad) →
        (s.tile s.ev.tile).router.plogMode = 0 →
        (∃ m ∈ g.members, m ∉ g.completed) → nextWith (exec .weftFrameSend s) fun t => (t.group n).state = .closing)
    ∧ (∀ bs bad, g.state = .streaming → s.launchRuns g.launch = true → g.seq.toNat ≤ g.last.toNat →
        (s.tile s.ev.tile).router.plogMode = 2 → s.weftRow g g.seq.toNat = some (bs, bad) →
        let e := s.read64 (localLoc s.ev.tile ((s.tile s.ev.tile).router.plogAt (get (s.tile s.ev.tile).router.plogb 63 32)))
        get e 63 60 ≠ 2 ∨ get e 59 50 ≠ n → exec .weftFrameSend s = .next s)
    ∧ (∀ f e, s.flight? n = some f → f.msg = .report s.ev.unit e → e = (s.group s.ev.unit).epoch →
        ((s.group s.ev.unit).state = .streaming → nextWith (exec .memberCompletionReport s) fun t =>
          f.src ∈ (t.group s.ev.unit).completed)
        ∧ ((s.group s.ev.unit).state = .closing →
          (∀ m ∈ (s.group s.ev.unit).members, m ∈ (s.group s.ev.unit).completed ∨ m = f.src) →
          nextWith (exec .memberCompletionReport s) fun t => (t.group s.ev.unit).state = .idle))
    ∧ (∀ f first, s.flight? n = some f → f.msg = .replay s.ev.unit (s.group s.ev.unit).epoch first false →
        (s.group s.ev.unit).state ≠ .idle → (∀ r, s.weftRow (s.group s.ev.unit) first.toNat = some r → r.2 = false) →
        ((s.group s.ev.unit).state ≠ .closing → nextWith (exec .replayRequestArrival s) fun t =>
          (t.group s.ev.unit).seq.toNat = min first.toNat (s.group s.ev.unit).seq.toNat
          ∧ (t.group s.ev.unit).state = (s.group s.ev.unit).state)
        ∧ ((s.group s.ev.unit).state = .closing → first.toNat ≤ (s.group s.ev.unit).last.toNat →
          nextWith (exec .replayRequestArrival s) fun t =>
            (t.group s.ev.unit).seq = first ∧ (t.group s.ev.unit).state = .streaming))

/-- R77, R84, R86, R89, R490: receivers and ports. A receiver that searches locks; at the end of its range it searches again
and a
test of it starts; a relock succeeds or, at the third failure, the receiver is cordoned. A frame that reaches a receiver
that is not locked is lost, one whose CRC does not match asks for a replay. The frame that the port waits for enters what its group is
wired to, an island's row buffer whole or an element's channel token by token, the port waits for the next, and the last one is
reported to the selvedge; an earlier frame is lost, a later one that a lane can hold is held, and one that finds no room asks for a
replay. A port that has waited asks again, and after a while
may ask once more. -/
def Sys2Proof.Rules.WeftReceivers : Prop :=
  ∀ (s : State),
    let t := s.ev.tile
    let x := s.ev.unit
    let r := (s.tile t).fabric.rings.get Ring.reset x
    (r.st = 1 → r.cordoned = false → nextWith (exec .receiverLock s) fun u => (u.tile t).fabric.rings.get Ring.reset x = { r with st := 2 })
    ∧ (r.st = 2 → nextWith (exec .ringRangeEnd s) fun u =>
        (u.tile t).fabric.rings.get Ring.reset x = { r with st := 3, fails := 0 }
        ∧ (u.tile t).swatch.running.length = (s.tile t).swatch.running.length + 1)
    ∧ (r.st = 3 → s.ev.flag = true → nextWith (exec .ringRelockDone s) fun u =>
        (u.tile t).fabric.rings.get Ring.reset x = { r with st := 2, fails := 0 })
    ∧ (r.st = 3 → s.ev.flag = false → r.fails < 2 → nextWith (exec .ringRelockDone s) fun u =>
        (u.tile t).fabric.rings.get Ring.reset x = { r with fails := r.fails + 1 })
    ∧ (r.st = 3 → s.ev.flag = false → 2 ≤ r.fails → nextWith (exec .ringRelockDone s) fun u =>
        (u.tile t).fabric.rings.get Ring.reset x = { r with st := 0, fails := 0, cordoned := true })
    ∧ (∀ fl bs rx, s.flight? s.ev.n = some fl → fl.msg = .frame bs rx →
        ((s.tile fl.dst).fabric.rings.get Ring.reset rx).st ≠ 2 → exec .weftFrameReceive s = .next (s.dropFlight s.ev.n))
    ∧ (∀ fl bs rx, s.flight? s.ev.n = some fl → fl.msg = .frame bs rx → (s.part fl.dst).state ≠ .saved →
        let q := (s.tile fl.dst).fabric.rings.get Ring.reset rx
        let p := (s.tile fl.dst).fabric.portGroup q.group
        q.st = 2 → p.bound = true → p.done = false → p.asked = none →
        readFrame (flipBytes bs s.ev.unit s.ev.v.toNat) = none →
        nextWith (exec .weftFrameReceive s) fun u => ((u.tile fl.dst).fabric.portGroup q.group).asked = some p.n
          ∧ ((u.tile fl.dst).fabric.portGroup q.group).n = p.n
          ∧ ∃ m ∈ u.flights, m.msg = .replay q.group p.e p.n false ∧ m.src = fl.dst)
    ∧ (∀ fl bs rx f, s.flight? s.ev.n = some fl → fl.msg = .frame bs rx → (s.part fl.dst).state ≠ .saved →
        let F := (s.tile fl.dst).fabric
        let q := F.rings.get Ring.reset rx
        let p := F.portGroup q.group
        q.st = 2 → p.bound = true → readFrame (flipBytes bs s.ev.unit s.ev.v.toNat) = some f → f.group = q.group → f.fmt = p.fmt →
        f.len = p.units → f.payload.length = 8 * p.units → f.epoch = p.e →
        (f.seq.toNat < p.n.toNat → exec .weftFrameReceive s = .next (s.dropFlight s.ev.n))
        ∧ (f.seq.toNat % p.lanes = q.lane → p.n.toNat < f.seq.toNat → f.seq.toNat < p.n.toNat + p.lanes →
          (∀ e ∈ p.held, e.1 ≠ q.lane) → nextWith (exec .weftFrameReceive s) fun u =>
            (u.tile fl.dst).fabric.portGroup q.group = { p with held := p.held.put q.lane f } ∧ sameMemory s u)
        ∧ (f.seq.toNat % p.lanes = q.lane → f.seq = p.n → s.weftRoom fl.dst q.group = false → p.asked = none →
          nextWith (exec .weftFrameReceive s) fun u => ((u.tile fl.dst).fabric.portGroup q.group).asked = some p.n
            ∧ ((u.tile fl.dst).fabric.portGroup q.group).n = p.n
            ∧ ∃ m ∈ u.flights, m.msg = .replay q.group p.e p.n true ∧ m.src = fl.dst)
        ∧ (f.seq.toNat % p.lanes = q.lane → f.seq = p.n → s.weftRoom fl.dst q.group = true → p.held = [] →
          nextWith (exec .weftFrameReceive s) fun u =>
            (u.tile fl.dst).fabric.portGroup q.group = { p with n := p.n + 1, done := f.last, asked := none } ∧ sameMemory s u
            ∧ (f.last = true → ∃ m ∈ u.flights, m.msg = .report q.group p.e ∧ m.src = fl.dst)
            ∧ (∀ w i, f.fmt ≠ 4 → F.rowWires q.group = [w] → w.sel = none → w.dsts = [(fl.dst, .island i)] →
                ((u.tile fl.dst).fabric.island i).rows = (F.island i).rows
                  ++ [⟨f.fmt, f.payload.take (rowBytes f.fmt - 8), (f.payload.drop (rowBytes f.fmt - 8)).take 4, none⟩])
            ∧ ∀ e c, f.fmt = 4 → c < 4 → F.rawEnds q.group = [(e, c)] →
                let G := (u.tile fl.dst).fabric
                (G.elem e).chans.get [] c ++ G.raw.get [] (4 * e + c)
                  = (F.elem e).chans.get [] c ++ F.raw.get [] (4 * e + c) ++ rawTokens f.payload))
    ∧ (let p := (s.tile t).fabric.portGroup x
      (s.ev.flag = false → p.bound = true → p.done = false → p.asked = none → (s.group x).state = .streaming →
        t ∈ (s.group x).members →
        nextWith (exec .weftWatchdog s) fun u => ∃ m ∈ u.flights, m.msg = .replay x p.e p.n false ∧ m.src = t)
      ∧ (s.ev.flag = true → nextWith (exec .weftWatchdog s) fun u =>
          (u.tile t).fabric.portGroup x = { p with asked := none }))
    ∧ (let p := (s.tile t).fabric.portGroup x
      ∀ f, p.bound = true → (p.held.find? fun e => e.1 == p.n.toNat % p.lanes) = some (p.n.toNat % p.lanes, f) → f.seq = p.n →
        s.weftRoom t x = true → p.lanes = 1 → f.group = x → nextWith (exec .weftHeldDrain s) fun u =>
          ((u.tile t).fabric.portGroup x).n ≠ p.n)

/-! ### Elements of the fabric (R161-R207, R263, R264) -/

/-- The state after a firing (R170-R173, R193, R266): what it pops leaves its channels, the firing is counted, the draws are
used where no operand is a gap or poisoned, `n` copies of the result go to the destination (or bit q[p] of the predicates), and
a burst has begun where the slot asks for one. -/
def Sys2Proof.Rules.fired (s : State) (k : Nat) (f : TForm) (clean : Bool) (draws n : Nat) (p : BitVec 3) (v : Token) : State :=
  ((((s.popAll s.ft s.fk f).modElem s.ft s.fk fun E => (if clean then E.useDraws draws else E).fired).putDest s.ft s.fk f.dest p
    n v).modElem s.ft s.fk fun E => E.startBurst k f)

/-- A token that is neither poisoned nor a gap (R169). -/
def Sys2Proof.Rules.plain (k : Token) : Bool := !k.poison && k.tag != 7

/-- R171: the token of a result: the first poisoned operand's origin goes on under the first operand's tag, then a gap gives a
gap, then an exception of NV, DZ or OF gives poison of this unit, else the value has the first operand's tag. -/
def Sys2Proof.Rules.resultRule (t u : Nat) (a : Token) (rest : List Token) (x : Exc) (v : Word) (k : Token) : Prop :=
  (∀ p, (a :: rest).find? (fun o => o.poison) = some p → k = ⟨true, a.tag, p.data⟩)
    ∧ ((∀ o ∈ a :: rest, o.poison = false) → (∃ o ∈ a :: rest, o.tag = 7) → k = ⟨false, 7, 0⟩)
    ∧ ((∀ o ∈ a :: rest, plain o = true) →
      (x.getLsbD 4 = true → k = ⟨true, a.tag, originWord t u 1⟩)
      ∧ (x.getLsbD 4 = false → x.getLsbD 3 = true → k = ⟨true, a.tag, originWord t u 2⟩)
      ∧ (x.getLsbD 4 = false → x.getLsbD 3 = false → x.getLsbD 2 = true → k = ⟨true, a.tag, originWord t u 3⟩)
      ∧ (x.getLsbD 4 = false → x.getLsbD 3 = false → x.getLsbD 2 = false → k = ⟨false, a.tag, v⟩))

/-- R180-R185, R192, R195: a slot of an element whose guard holds fires: the result token is formed by R171 from the value of
its instruction on 64 bits (on eight lanes of 8 bits where the form has them) and goes to its destination. -/
def Obligations.ElementIntegerFirings : Prop :=
  ∀ (s : State) (t e k : Nat) (g : BitVec 2) (x : BitVec 3) (u : BitVec 1) (d a b c : BitVec 4) (w : BitVec 2) (z o : BitVec 1)
    (p : BitVec 3), s.focus = .elem t e k →
    let E := (s.tile t).fabric.elem e
    let A := E.opnd (some a)
    let B := E.opnd (some b)
    let X := A.data
    let Y := B.data
    let F : TForm := ⟨g, x, u, d, some a, some b, none, false, false, false⟩
    let lane := fun (h : Nat → Nat → Nat) => BitVec.ofNat 64 (((List.range 8).map fun i =>
      h (X.toNat / 256 ^ i % 256) (Y.toNat / 256 ^ i % 256) % 256 * 256 ^ i).sum)
    let sg := fun (v : Nat) => (BitVec.ofNat 8 v).toInt
    (∀ q ∈ ([(.tAdd g x u d a b 0, X + Y), (.tSub g x u d a b 0, X - Y), (.tMul g x u d a b 0, X * Y),
        (.tMulh g x u d a b, BitVec.ofInt 64 (X.toInt * Y.toInt / 2 ^ 64)),
        (.tAnd g x u d a b, X &&& Y), (.tOr g x u d a b, X ||| Y), (.tXor g x u d a b, X ^^^ Y),
        (.tShl g x u d a b, BitVec.ofNat 64 (X.toNat * 2 ^ (Y.toNat % 64))),
        (.tShr g x u d a b, BitVec.ofNat 64 (X.toNat / 2 ^ (Y.toNat % 64))),
        (.tSra g x u d a b, BitVec.ofInt 64 (X.toInt / 2 ^ (Y.toNat % 64))),
        (.tMin g x u d a b 0, BitVec.ofInt 64 (min X.toInt Y.toInt)), (.tMax g x u d a b 0, BitVec.ofInt 64 (max X.toInt Y.toInt)),
        (.tMinu g x u d a b 0, BitVec.ofNat 64 (min X.toNat Y.toNat)), (.tMaxu g x u d a b 0, BitVec.ofNat 64 (max X.toNat Y.toNat)),
        (.tAdd g x u d a b 1, lane fun i j => i + j), (.tSub g x u d a b 1, lane fun i j => 256 + i - j),
        (.tMul g x u d a b 1, lane fun i j => i * j), (.tMinu g x u d a b 1, lane min), (.tMaxu g x u d a b 1, lane max),
        (.tMin g x u d a b 1, lane fun i j => if sg i < sg j then i else j),
        (.tMax g x u d a b 1, lane fun i j => if sg i < sg j then j else i),
        (.tCrng g x u d a b, (crng X Y).2), (.tMaskb g x u d a b w z, maskbVal w z X Y)] : List (Instr × Word)),
      s.guardOk t e F none 1 = true →
        ∃ v, resultRule t e A [B] 0 q.2 v ∧ exec q.1 s = .next (fired s k F (plain A && plain B) 0 1 0 v))
    ∧ (s.guardOk t e { F with pred := true } none 1 = true →
        ∃ v, resultRule t e A [B] 0 (BitVec.ofNat 64 (if intCompare c.toNat X Y then 1 else 0)) v
          ∧ exec (.tCmp g x u d a b c p) s = .next (fired s k { F with pred := true } (plain A && plain B) 0 1 p v))
    ∧ (s.guardOk t e F none 1 = true →
        exec (.tSel g x u d a b o p) s = .next (fired s k F (plain A && plain B) 0 1 0
          (if E.q.getLsbD p.toNat = decide (o = 0) then A else B)))
    ∧ (s.guardOk t e { F with b := none, pred := true } none 1 = true →
        ∃ v, resultRule t e A [] 0 X v
          ∧ exec (.tMov g x u d a p) s = .next (fired s k { F with b := none, pred := true } (plain A) 0 1 p v))
    ∧ (s.guardOk t e { F with b := none } none 1 = true →
        exec (.tTag g x u d a p) s = .next (fired s k { F with b := none } (plain A) 0 1 0
          ⟨A.poison, p, if A.poison = false ∧ A.tag = 7 then 0 else A.data⟩))
    ∧ ∀ n : BitVec 2, s.guardOk t e { F with b := none } none (n.toNat + 1) = true →
        ∃ v, resultRule t e A [] 0 X v
          ∧ exec (.tDup g x u d a n) s = .next (fired s k { F with b := none } (plain A) 0 (n.toNat + 1) 0 v)

/-- R186-R190: the floating-point instructions of an element: every lane of the form is the operation in the lane's format,
rounded once in the instruction's mode with the lane's draw, and the token is formed by R171 from the lanes' exceptions. -/
def Obligations.ElementFloatFirings : Prop :=
  ∀ (s : State) (t e k : Nat) (g : BitVec 2) (x : BitVec 3) (u : BitVec 1) (m : BitVec 2) (d a b c : BitVec 4) (r h p : BitVec 3)
    (cc : BitVec 7), s.focus = .elem t e k →
    let E := (s.tile t).fabric.elem e
    let A := E.opnd (some a)
    let B := E.opnd (some b)
    let C := E.d[h.toNat]'h.isLt
    let F : TForm := ⟨g, x, u, d, some a, some b, none, false, false, false⟩
    let W := if m = 0 then 64 else if m = 3 then 16 else 32
    let N := if m = 3 then 4 else if m = 2 then 2 else 1
    let G : FFmt := if m = 0 then f64 else if m = 3 then bf16 else f32
    let ln := fun (v : Token) (i : Nat) => v.data.toNat / 2 ^ (W * i) % 2 ^ W
    let dr := s.elemDraw t e
    let D := if r = 4 then N else 0
    let all := fun (o : Nat → FRes) => (((List.range N).foldl (fun y i => y ||| (o i).exc) 0 : Exc),
      BitVec.ofNat 64 (((List.range N).map fun i => (o i).bits % 2 ^ W * 2 ^ (W * i)).sum))
    (s.guardOk t e F none 1 = true →
      (∀ q ∈ ([(.tFadd g x u m d a b r, fun i => G.add r.toNat (dr i) (ln A i) (ln B i)),
          (.tFsub g x u m d a b r, fun i => G.sub r.toNat (dr i) (ln A i) (ln B i)),
          (.tFmul g x u m d a b r, fun i => G.mul r.toNat (dr i) (ln A i) (ln B i))] : List (Instr × (Nat → FRes))),
        ∃ v, resultRule t e A [B] (all q.2).1 (all q.2).2 v
          ∧ exec q.1 s = .next (fired s k F (plain A && plain B) D 1 0 v))
      ∧ (∀ q ∈ ([(.tFmin g x u m d a b, fun i => G.minmax false (ln A i) (ln B i)),
          (.tFmax g x u m d a b, fun i => G.minmax true (ln A i) (ln B i))] : List (Instr × (Nat → FRes))),
        ∃ v, resultRule t e A [B] (all q.2).1 (all q.2).2 v
          ∧ exec q.1 s = .next (fired s k F (plain A && plain B) 0 1 0 v)))
    ∧ (s.guardOk t e F (some h) 1 = true →
        let o := all fun i => G.fma r.toNat (dr i) (ln A i) (ln B i) (ln C i)
        ∃ v, resultRule t e A [B, C] o.1 o.2 v
          ∧ exec (.tFfma g x u m d a b r h) s = .next (fired s k F (plain A && plain B && plain C) D 1 0 v))
    ∧ (s.guardOk t e { F with pred := true } none 1 = true →
        ∀ q ∈ ([(.tFcmpF64 g x u d a b c p, f64), (.tFcmpF32 g x u d a b c p, f32)] : List (Instr × FFmt)),
        let o := q.2.compare c.toNat A.data.toNat B.data.toNat
        ∃ v, resultRule t e A [B] o.2 (BitVec.ofNat 64 (if o.1 then 1 else 0)) v
          ∧ exec q.1 s = .next (fired s k { F with pred := true } (plain A && plain B) 0 1 p v))
    ∧ (s.guardOk t e { F with b := none } none 1 = true →
        let q := convCode cc
        let o := fun i => convert q.2.2.2.1 q.2.2.2.2 r.toNat (dr i) (A.data.toNat / 2 ^ (q.2.2.1 * i) % 2 ^ q.2.2.1)
        ∃ v, resultRule t e A [] ((List.range q.1).foldl (fun y i => y ||| (o i).exc) 0)
            (BitVec.ofNat 64 (((List.range q.1).map fun i => (o i).bits % 2 ^ q.2.1 * 2 ^ (q.2.1 * i)).sum)) v
          ∧ exec (.tFcvt g x u d a r cc) s = .next
              (fired s k { F with b := none } (plain A) (if r = 4 then q.1 else 0) 1 0 v))

/-- R172: where the result of a firing goes: to a data register, to one output channel, to o0 and o1, to all four, to a
predicate bit (a gap leaves it, poison clears it), or nowhere; a channel without a wire takes and loses it. -/
def Sys2Proof.Rules.ElementDestinations : Prop :=
  ∀ (s : State) (t e n : Nat) (d : BitVec 4) (p : BitVec 3) (v : Token),
    let E := (s.tile t).fabric.elem e
    (∀ h : d.toNat < 8, s.putDest t e d p n v = s.modElem t e fun E => { E with d := E.d.set d.toNat v h })
    ∧ (∀ i : Nat, i < 4 → d.toNat = 8 + i → s.putDest t e d p 1 v = s.wirePush t (.elem e i) v)
    ∧ s.putDest t e 12 p 1 v = (s.wirePush t (.elem e 0) v).wirePush t (.elem e 1) v
    ∧ s.putDest t e 15 p 1 v = (((s.wirePush t (.elem e 0) v).wirePush t (.elem e 1) v).wirePush t (.elem e 2) v).wirePush t
        (.elem e 3) v
    ∧ s.putDest t e 14 p n v = s
    ∧ (v.poison = false → v.tag = 7 → s.putDest t e 13 p n v = s)
    ∧ (plain v = true → ∃ (q : BitVec 8) (b : Bool), s.putDest t e 13 p n v = s.modElem t e (fun E => { E with q := q, resolved := b })
        ∧ (b = (E.resolved || E.q.getLsbD p.toNat != decide (v.data ≠ 0))) ∧ (∀ i < 8, q.getLsbD i = if i = p.toNat then decide (v.data ≠ 0) else E.q.getLsbD i))
    ∧ (v.poison = true → (((s.putDest t e 13 p n v).tile t).fabric.elem e).q.getLsbD p.toNat = false)

/-- R263: a slot whose guard does not hold does not fire: an element that is halted, stopped or inside a burst, whose trigger
does not hold or whose channels are empty leaves the machine as it is. -/
def Sys2Proof.Rules.ElementGuards : Prop :=
  ∀ (s : State) (t e k : Nat) (g : BitVec 2) (x : BitVec 3) (u : BitVec 1) (d a b : BitVec 4) (l : BitVec 1) (m : BitVec 2)
    (q : BitVec 2) (n : BitVec 7) (r h : BitVec 3), s.focus = .elem t e k →
    let E := (s.tile t).fabric.elem e
    (E.halted = true ∨ E.stopped = true ∨ E.beat.isSome = true ∨ (g = 1 ∧ E.q.getLsbD x.toNat = false)
      ∨ (g = 2 ∧ E.q.getLsbD x.toNat = true) ∨ (8 ≤ a.toNat ∧ E.burst ≠ 0 ∧ E.chans.get [] (a.toNat % 4) = [])) →
    ∀ i ∈ ([.tAdd g x u d a b l, .tAnd g x u d a b, .tFadd g x u m d a b r, .tFfma g x u m d a b r h, .tTag g x u d a r,
        .tStr g x u d a b l q, .tSteer g x u a q, .tMsel g x u a q, .tSig g x u a n, .tSig2 g x u a b n] : List Instr),
      exec i s = .next s

/-- R173, R265, R266: a burst goes on with the next beat, which fires the slot again where its tokens and room are there, and
ends after BURST beats; a squash, which follows a write of a q bit to another value, leaves nothing but the count of its
firings, which saturates; how many firings there were the spec leaves open, up to the two cycles that a write of a q bit takes
(log 18). -/
def Sys2Proof.Rules.BurstsAndSquashes : Prop :=
  ∀ (s : State) (k n : Nat) (i : Instr) (v : ValOp),
    let t := s.ev.tile
    let e := s.ev.unit
    let E := (s.tile t).fabric.elem e
    (E.beat = some (k, n) → decodeT (E.slots.get 0 k).toNat = .ok i → valOp i = some v →
      (s.operandsOk t e v.form v.addend 1 v.copies = true →
        exec .burstBeat s = .next ((s.valFire t e v).modElem t e fun E =>
          { E with beat := if n + 1 < E.burst then some (k, n + 1) else none }))
      ∧ (s.operandsOk t e v.form v.addend 1 v.copies = false → exec .burstBeat s = .next s))
    ∧ (E.resolved = true → exec .predicateSquash s = .next (s.modElem t e fun E =>
        { E with resolved := false, squash := BitVec.ofNat 32 (min (2 ^ 32 - 1) (E.squash.toNat + min s.ev.n 2)) }))
    ∧ (E.resolved = false → nextWith (exec .predicateSquash s) fun u => (u.tile t).fabric.elem e = E)

/-- R202-R206, R178: STEER, MSEL, SIG, SIG2 and HALT whose guard holds and whose queue or pocket takes what they send: a plain
operand enters its queue with its fields, or leaves as a stitch from this element; a gap sends nothing; poison is reported,
and enters a queue as a token that discards; HALT stops the element. -/
def Obligations.ElementSends : Prop :=
  ∀ (s : State) (t e k : Nat) (g : BitVec 2) (x : BitVec 3) (u : BitVec 1) (a b : BitVec 4) (i : BitVec 2) (l : BitVec 7),
    s.focus = .elem t e k →
    let E := (s.tile t).fabric.elem e
    let A := E.opnd (some a)
    let B := E.opnd (some b)
    let f1 := fixedForm g x u (some a) none
    let f2 := fixedForm g x u (some a) (some b)
    let f0 := fixedForm g x u none none
    let go := fun f => (s.popAll t e f).modElem t e Elem.fired
    let token : QTok := if A.poison then ⟨0, 0, some A.data⟩ else ⟨get A.data 17 16, get A.data 15 0, none⟩
    let selTok : QTok := if A.poison then ⟨0, 0, some A.data⟩ else ⟨get A.data 19 16, get A.data 15 0, none⟩
    (s.guardOk t e f1 none 0 = true → s.steerRoom t i.toNat = true →
      exec (.tSteer g x u a i) s = .next (if A.poison = false ∧ A.tag = 7 then go f1 else
        let s1 := (go f1).modIsland t i.toNat fun I => { I with steer := I.steer ++ [token] }
        if A.poison then s1.sinkReport t e 4 A.data else s1))
    ∧ (s.guardOk t e f1 none 0 = true → s.mselRoom t i.toNat = true →
      exec (.tMsel g x u a i) s = .next (if A.poison = false ∧ A.tag = 7 then go f1 else
        let s1 := (go f1).modFabric t fun F => { F with selq := F.selq.put i.toNat (F.selq.get [] i.toNat ++ [selTok]) }
        if A.poison then s1.sinkReport t e 4 A.data else s1))
    ∧ (s.guardOk t e f1 none 0 = true → s.sigFits l.toNat = true →
      exec (.tSig g x u a l) s = .next (if A.poison then (go f1).sinkReport t e 3 A.data
        else if A.tag = 7 then go f1 else (go f1).elemSend l.toNat false A.data 0))
    ∧ (s.guardOk t e f2 none 0 = true → s.sigFits l.toNat = true →
      exec (.tSig2 g x u a b l) s = .next (if A.poison then (go f2).sinkReport t e 3 A.data
        else if B.poison then (go f2).sinkReport t e 3 B.data
        else if A.tag = 7 ∨ B.tag = 7 then go f2 else (go f2).elemSend l.toNat true A.data B.data))
    ∧ (s.guardOk t e f0 none 0 = true →
      exec (.tHalt g x u) s = .next ((go f0).modElem t e fun E => { E with halted := true }))

/-- R196-R201: LDR, STR and the AMOs whose guard holds: on plain operands with an aligned address that the extents let pass, the
operation enters the path with its place reserved and its operands; poison, a gap and a misaligned address make no access
and deliver at once what the spec gives; an address off the extents, or one that the access may not use, is not taken and stops
the path; while the path is stopped the access waits. -/
def Obligations.ElementMemoryFirings : Prop :=
  ∀ (s : State) (t e k : Nat) (g : BitVec 2) (x : BitVec 3) (u : BitVec 1) (d a b n : BitVec 4) (h : BitVec 1) (c m : BitVec 2),
    s.focus = .elem t e k →
    let E := (s.tile t).fabric.elem e
    let tok := if h = 1 then some c else none
    let fL : TForm := ⟨g, x, u, d, some a, none, tok, true, false, false⟩
    let fS : TForm := ⟨g, x, u, d, some a, some b, tok, true, false, false⟩
    ∀ q ∈ ([(.tLdr g x u d a n h c m, fL, .ldr n.toNat m.toNat), (.tStr g x u d a b h c, fS, .str),
        (.tAmoAdd g x u d a b h c, fS, .amo 0), (.tAmoMinI g x u d a b h c, fS, .amo 1),
        (.tAmoMaxI g x u d a b h c, fS, .amo 2), (.tAmoMinN g x u d a b h c, fS, .amo 3),
        (.tAmoMaxN g x u d a b h c, fS, .amo 4), (.tAmoAnd g x u d a b h c, fS, .amo 5), (.tAmoOr g x u d a b h c, fS, .amo 6),
        (.tAmoXor g x u d a b h c, fS, .amo 7), (.tAmoSwap g x u d a b h c, fS, .amo 8), (.tAmoCas g x u d a b h c, fS, .amo 9),
        (.tAmoFadd g x u d a b h c, fS, .amo 10)] : List (Instr × TForm × ElemOpKind)),
    let f := q.2.1
    let K := q.2.2
    let A := E.opnd f.a
    let B := E.opnd f.b
    let z := if K = .amo 10 then 4 else 8
    let what := match K with
      | .ldr _ _ => 2
      | _ => 1
    let o : ElemOp := ⟨s.seq, e, K, A.data, 0, false, B.data, ((E.src d).getD Token.zero).data, d, A.tag, false, none, false, false⟩
    let go := (s.popAll t e f).modElem t e Elem.fired
    s.memReady t e f K = true → s.stops t = false →
    (∀ p, [A, B].find? (fun v => v.poison) = some p →
      exec q.1 s = .next ((go.sinkReport t e what p.data).atOnce t o ⟨true, A.tag, p.data⟩))
    ∧ (A.poison = false → B.poison = false →
      (A.tag = 7 ∨ B.tag = 7 → exec q.1 s = .next (go.atOnce t o ⟨false, 7, 0⟩))
      ∧ (A.tag ≠ 7 → B.tag ≠ 7 →
        (A.data.toNat % z ≠ 0 → exec q.1 s = .next ((go.sinkReport t e what (originWord t e 4)).atOnce t o
          ⟨true, A.tag, originWord t e 4⟩))
        ∧ (A.data.toNat % z = 0 → s.pathFree t = false → exec q.1 s = .next s)
        ∧ (A.data.toNat % z = 0 → s.pathFree t = true →
          (s.pathUse t K A.data = .off → exec q.1 s = .next ((s.modElem t e fun E => { E with off := true }).modFabric t fun F =>
            F.modGen 8 fun y => { y with reason := 1, gfva := A.data }))
          ∧ (∀ r kk, s.pathUse t K A.data = .stop r kk → exec q.1 s = .next
            ((s.modElem t e fun E => { E with stopped := true }).stopGen t 8 r kk A.data))
          ∧ ∀ loc fe, s.pathUse t K A.data = .ok loc fe →
            exec q.1 s = .next ((go.useExtent t 8 A.data).enterOp t { o with loc := loc, fe := fe }))))

/-- The operation of tile `t` that stood in the path as `o` is performed: it has read `got`, and has told its destination
register
or output channel of its completion, `c`. -/
def Sys2Proof.Rules.opTold (s u : State) (t : Nat) (o : ElemOp) (got c : Token) : Prop :=
  (∀ x, (u.tile t).fabric.op? o.id = some x → x.got = some got ∧ x.told = true)
  ∧ (∀ h : o.dest.toNat < 8, ((u.tile t).fabric.elem o.elem).d[o.dest.toNat] = c)
  ∧ ∀ i : Nat, i < 4 → o.dest.toNat = 8 + i → tookWire s u t (.elem o.elem i) c

/-- R196-R200, R308, R309, R328, R489: an outstanding element operation is performed, once no older access of a slot is on
its bytes
and its way is open: LDR reads the word, STR writes the operand, an AMO writes what its operation makes of the old value, and
uncorrectable data is read as poison; then the completion goes to DEST: the old value of an AMO, else a plain token. On a full-empty
page STR marks its word full, and LDR waits at an empty one. One to bytes beyond a store's size, or to a lost peer, stops the path; one
that came back refused is made again at its address. The reply at the head of its channel is delivered once read. An element with a
parity error halts. -/
def Sys2Proof.Rules.ElementMemoryStepsHold : Prop :=
  ∀ (s : State),
    let t := s.ev.tile
    let F := (s.tile t).fabric
    (∀ o, F.op? s.ev.n = some o → (∀ x ∈ F.ops, x.id = o.id → x = o) → o.told = false → o.refused = false →
      (∀ v, o.got = some v → nextWith (exec .elementMemCompletion s) fun u => sameMemory s u
        ∧ opTold s u t o v (match o.kind with
          | .amo _ => v
          | _ => ⟨false, 0, 0⟩))
      ∧ (o.got = none →
        let clear := s.olderNeedle t o.id [(o.loc, o.kind.size)] = false ∧ s.pathOpen t o.loc = true ∧ ∀ q ∈ s.feWait, q.who ≠ .elem t o.id
        let bad : Token := ⟨true, o.tag, markOrigin t o.loc⟩
        let word : Token := if s.isMarked o.loc then bad else ⟨false, o.tag, s.read64 o.loc⟩
        (¬clear → exec .elementMemCompletion s = .next s)
        ∧ (clear → s.refusal o.loc = none → o.fe = false →
          (∀ e c, o.kind = .ldr e c → nextWith (exec .elementMemCompletion s) fun u => sameMemory s u ∧ opTold s u t o word ⟨false, 0, 0⟩)
          ∧ (o.kind = .str → nextWith (exec .elementMemCompletion s) fun u => opTold s u t o ⟨false, 0, 0⟩ ⟨false, 0, 0⟩
              ∧ u.mem = cellWrite s.mem o.loc (natBytes 8 o.data.toNat) ∧ u.empties = s.empties)
          ∧ ∀ op, o.kind = .amo op →
            let b := if op = 10 then 4 else 8
            let old := s.readNat o.loc b
            (s.isMarked (wordOf o.loc) = true → nextWith (exec .elementMemCompletion s) fun u => sameMemory s u ∧ opTold s u t o bad bad)
            ∧ (s.isMarked (wordOf o.loc) = false → nextWith (exec .elementMemCompletion s) fun u =>
                opTold s u t o ⟨false, o.tag, BitVec.ofNat 64 old⟩ ⟨false, o.tag, BitVec.ofNat 64 old⟩ ∧ u.empties = s.empties
                ∧ u.mem = match amoNew op b old o.data.toNat o.exp.toNat with
                  | some v => cellWrite s.mem o.loc (natBytes b v)
                  | none => s.mem))
        ∧ (clear → s.refusal o.loc = none → o.fe = true → s.feWait = [] → o.loc % 8 = 0 →
          (o.kind = .str → s.olderStores t o.loc o.id = false → systemOwner o.loc = false → nextWith (exec .elementMemCompletion s) fun u =>
            opTold s u t o ⟨false, 0, 0⟩ ⟨false, 0, 0⟩ ∧ u.mem = cellWrite s.mem o.loc (natBytes 8 o.data.toNat)
            ∧ o.loc ∉ u.empties ∧ ∀ w, w ≠ o.loc → (w ∈ u.empties ↔ w ∈ s.empties))
          ∧ (o.kind = .str → s.olderStores t o.loc o.id = true → exec .elementMemCompletion s = .next s)
          ∧ ∀ e c, o.kind = .ldr e c →
            (s.isEmpty o.loc = false → nextWith (exec .elementMemCompletion s) fun u => sameMemory s u ∧ opTold s u t o word ⟨false, 0, 0⟩)
            ∧ (s.isEmpty o.loc = true → nextWith (exec .elementMemCompletion s) fun u =>
                sameMemory s u ∧ u.tiles = s.tiles ∧ ∃ r, u.feWait = [⟨.elem t o.id, o.loc, r⟩]))
        ∧ (clear → ∀ c d, s.refusal o.loc = some (c, d) → F.path.reason.toNat < 2 ∨ 4 < F.path.reason.toNat →
          nextWith (exec .elementMemCompletion s) fun u => sameMemory s u ∧ ((u.tile t).fabric.elem o.elem).stopped = true
            ∧ (u.tile t).fabric.path.reason = (if c = 0x06 then 4 else 3) ∧ (u.tile t).fabric.path.gfva = o.va
            ∧ ∃ x, (u.tile t).fabric.op? o.id = some x ∧ x.refused = true)))
    ∧ (∀ o loc fe, F.op? s.ev.n = some o → o.told = false → o.refused = true → F.path.reason = 0 →
        (∀ x ∈ F.ops, x.refused = true → o.id ≤ x.id) → s.stops t = false → o.got = none → s.pathUse t o.kind o.va = .ok loc fe →
        nextWith (exec .elementMemCompletion s) fun u => sameMemory s u
          ∧ (u.tile t).fabric.op? o.id = some { o with refused := false, loc := loc, fe := fe })
    ∧ (∀ o v, (((F.elem s.ev.unit).replies.get [] s.ev.n).head?.bind F.op?) = some o → o.got = some v →
      exec .ldrReply s = .next ((s.modFabric t fun F =>
        ((F.modElem s.ev.unit fun E =>
          { E with
            replies := E.replies.put s.ev.n ((E.replies.get [] s.ev.n).drop 1)
            chans := E.chans.put s.ev.n (E.chans.get [] s.ev.n ++ [v]) }).modOp
              (((F.elem s.ev.unit).replies.get [] s.ev.n).headD 0) fun x => { x with replied := true }).sweepOps).wakePart t))
    ∧ (∀ o, s.ev.unit = 8 → F.op? s.ev.n = some o → o.told = false → o.refused = false → o.got = none →
        s.causeHolds t o.loc o.kind.size (!o.kind.isAmo) s.ev.cause = true →
        (s.ev.cause = .elsize ∨ s.ev.cause = .epeer → nextWith (exec .generatorAccessRefused s) fun w =>
          sameMemory s w ∧ ((w.tile t).fabric.elem o.elem).stopped = true
          ∧ (F.path.reason.toNat < 2 ∨ 4 < F.path.reason.toNat → (w.tile t).fabric.path.gfva = o.va
            ∧ (w.tile t).fabric.path.reason = if s.ev.cause = .elsize then 3 else 4))
        ∧ (s.ev.cause = .epath → (∀ x ∈ F.ops, x.id = o.id → x = o) → nextWith (exec .generatorAccessRefused s) fun w =>
            let lost : Token := ⟨true, o.tag, originWord (s.ev.v.toNat % tileCount) 28 6⟩
            sameMemory s w ∧ opTold s w t o lost (match o.kind with
              | .amo _ => lost
              | _ => ⟨false, 0, 0⟩)))
    ∧ nextWith (exec .elementParityError s) fun w => sameMemory s w
        ∧ ((w.tile t).fabric.elem (s.ev.unit % 16)).halted = true

/-- R360-R364: the loader serves a generator that is off its extents: it gets the extent of the run that its address is on,
where
the translation permits user mode, and runs again; else it stops with REASON 2 and the fault's kind, and so does the element
whose access it was. While the walk is held on its way it waits. One that an invalidation paused has its affected extents patched again in place. -/
def Sys2Proof.Rules.ExtentsPatched : Prop :=
  ∀ (s : State),
    let t := s.ev.tile
    let g := s.ev.unit
    let G := (s.tile t).fabric.gen g
    let run := s.genRun t g G.asid G.gen G.gfva (s.ahead t g G.gfva)
    let quiet := ∀ q ∈ s.feWait, q.who ≠ FeWho.poll t g
    g < 9 → s.ev.flag = false →
    (∀ x, G.reason = 1 → run = .ok x → nextWith (exec .extentPatch s) fun w =>
      ((w.tile t).fabric.gen g).ext = extentPut G.ext (extentCap g) { x with used := s.turns }
      ∧ ((w.tile t).fabric.gen g).reason = 0 ∧ sameMemory s w)
    ∧ (G.reason = 1 → run = .error heldKind → exec .extentPatch s = .next s)
    ∧ (∀ n, G.reason = 1 → run = .error n → n ≠ heldKind → G.job = none → quiet → nextWith (exec .extentPatch s) fun w =>
      ((w.tile t).fabric.gen g).reason = 2 ∧ ((w.tile t).fabric.gen g).kind = BitVec.ofNat 3 n
      ∧ ((w.tile t).fabric.gen g).gfva = G.gfva ∧ sameMemory s w
      ∧ (g = 8 → ∀ e, ((s.tile t).fabric.elem e).off = true → ((w.tile t).fabric.elem e).stopped = true))
    ∧ (∀ l, G.reason = 5 → s.repatch t g G.ext = .ok l → nextWith (exec .extentPatch s) fun w =>
      ((w.tile t).fabric.gen g).ext = l ∧ ((w.tile t).fabric.gen g).reason = 0 ∧ sameMemory s w)
    ∧ (∀ n va, G.reason = 5 → s.repatch t g G.ext = .error (n, va) → n ≠ heldKind → G.job = none → quiet → nextWith (exec .extentPatch s) fun w =>
      ((w.tile t).fabric.gen g).reason = 2 ∧ ((w.tile t).fabric.gen g).kind = BitVec.ofNat 3 n
      ∧ ((w.tile t).fabric.gen g).gfva = va ∧ sameMemory s w)

/-! ### Launches, fabric loads and pre-emption (R253-R262, R276-R281, R483-R487) -/

/-- R253-R257: a port reads the next record of a queue that is enabled, has one and is not busy: a faulty record completes
with BADREC and its code, a no-op with status 0, and a launch joins those that wait, with the record's words; otherwise
nothing happens. A completion advances CIDX and frees the queue, and sets BADDONE where the record at DONE cannot be
written. The order of the steps is read by inference (log 38). -/
def Sys2Proof.Rules.LaunchRecords : Prop :=
  ∀ (s : State),
    let n := s.ev.n
    let q := s.queue n
    let bs := s.bytes (q.recordLoc q.ridx) 64
    let word := fun (o : Nat) => (BitVec.ofNat 64 (bytesNat ((bs.drop o).take 8)) : Word)
    let a := q.alloc
    let e : Ending := ⟨n, q.ridx, q.asid, q.gen, a, word 0x18, word 0x20, word 0x28⟩
    let s1 := s.modQueue n fun x => { x with ridx := x.ridx + 1, busy := true }
    (q.enabled = false ∨ q.busy = true ∨ q.ridx = q.widx → exec .launchRecordRead s = .next s)
    ∧ (q.enabled = true → q.busy = false → q.ridx ≠ q.widx →
      (∀ c, s.recordCode q bs = some c →
        exec .launchRecordRead s = .next (s1.endRecord e (tileKey a.x a.y) 3 c 0))
      ∧ (s.recordCode q bs = none →
        (bytesNat (bs.take 1) = 0 → exec .launchRecordRead s = .next (s1.endRecord e (tileKey a.x a.y) 0 0 0))
        ∧ (bytesNat (bs.take 1) = 1 → nextWith (exec .launchRecordRead s) fun t =>
          sameMemory s t ∧ t.queue n = { q with ridx := q.ridx + 1, busy := true }
          ∧ ∃ l, t.launch? s.seq = some l ∧ l.state = .waiting ∧ l.queue = n ∧ l.index = q.ridx ∧ l.prio = q.prio
            ∧ l.asid = q.asid ∧ l.gen = q.gen ∧ l.patternVa = word 8 ∧ l.arg = word 0x10 ∧ l.done = word 0x18
            ∧ l.cookie = word 0x20 ∧ l.notify = word 0x28 ∧ (l.ax, l.ay, l.aw, l.ah) = (a.x, a.y, a.w, a.h))))
    ∧ ∀ (f : Ending) (t st c : Nat) (cy : Word),
      let w0 := BitVec.ofNat 64 (2 ^ 63 + f.queue % 2 ^ 15 * 2 ^ 48 + c % 256 * 256 + st % 256)
      let r := s.writeVirt t f.asid f.gen f.done (natBytes 8 w0.toNat ++ natBytes 8 f.cookie.toNat
        ++ natBytes 8 f.index.toNat ++ natBytes 8 cy.toNat)
      (r.2 = true → s.endRecord f t st c cy =
        (r.1.notify t 0 f.alloc f.notify w0 f.cookie).modQueue f.queue fun q => { q with cidx := f.index + 1, busy := false })
      ∧ (r.2 = false → s.endRecord f t st c cy = s.modQueue f.queue fun q =>
          { q with cidx := f.index + 1, busy := false, qerr := q.qerr ||| 4 })

/-- R258, R259, R484: a waiting launch whose wafer has its identity, that no overlapping one comes before and that meets no
running one of its priority or a higher: on a free allocation it is placed and started, or rejected with the code of the
check that fails; a saved one resumes; over running launches of lower priority it makes those that can be saved stop. One
that must wait changes nothing. That admission may name a root tile is the model's choice (log 53). The order of the steps
is read by inference (log 38), and a choice among equals is the model's (log 8). -/
def Sys2Proof.Rules.LaunchAdmission : Prop :=
  ∀ (s : State) (l : Launch),
    let n := s.ev.n
    let named := if s.ev.flag then some (s.ev.unit % 256, s.ev.unit / 256) else none
    s.launch? n = some l →
    (l.waits = false ∨ s.mgmt.idSet = false ∨ s.comesFirst n l = true ∨ (∃ e ∈ s.rivals n l, l.prio ≤ e.2.prio) →
      exec .launchAdmit s = .next s)
    ∧ (s.mgmt.idSet = true → s.comesFirst n l = false →
      (l.state = .waiting → s.rivals n l = [] →
        (∀ s1 l1, s.placeLaunch n l named = (s1, .ok l1) → nextWith (exec .launchAdmit s) fun t =>
          (t.launch? n).map (·.state) = some .running
          ∧ ∃ f ∈ t.flights, f.dst = l1.root ∧ ∃ st, f.msg = .stitch st ∧ st.label = 125 ∧ st.w1 = BitVec.ofNat 64 (spoolAt n 0))
        ∧ ∀ s1 c, s.placeLaunch n l named = (s1, .error c) → exec .launchAdmit s = .next (s1.rejectLaunch n l 1 c))
      ∧ (l.state = .saved → s.rivals n l = [] → nextWith (exec .launchAdmit s) fun t =>
        (t.launch? n).map (·.state) = some .resuming ∧ sameMemory s t)
      ∧ ∀ m x, l.waits = true → s.rivals n l = [(m, x)] → x.prio < l.prio → x.state = .running → s.saveable x = true →
        s.launch? m = some x → nextWith (exec .launchAdmit s) fun t =>
          (t.launch? m).map (·.state) = some .stopping ∧ sameMemory s t)

/-- R130, R261, R279, R280, R497: a tile about to configure a load whose checks hold asks for the leave that the load needs;
with the leave granted, its blocks readable and no COPY on its streams it configures the load and runs it, load 0 when its
configuration is there and a later one by a swap while no bank is re-woven; a load whose checks fail ends the launch with
their code; the next load's configuration may be tacked before. The order of the steps is read by inference (log 38). -/
def Sys2Proof.Rules.LoadsConfigured : Prop :=
  ∀ (s s1 : State) (n : Nat) (l0 l : Launch) (L : Load) (i : Instr),
    let t := s.ev.tile
    let P := s.part t
    P.launch = some n → s.launch? n = some l0 →
    ((i = .loadZeroConfigured ∧ P.load = 0)
      ∨ (i = .configSwap ∧ P.load ≠ 0 ∧ (s.tile t).reweaving = false ∧ (s.tile t).reweave = none ∧ P.wanted.any LeaveReq.swap = false)) →
    (P.state = .config → l0.live = true → s.streamsFree t P.load l0 = true →
      (∀ c, s.readyLoad n P.load l0 = (s1, .error c) → exec i s = .next (s1.failLaunch n l0 1 c))
      ∧ (s.readyLoad n P.load l0 = (s1, .ok l) → l.pat.loads[P.load]? = some L →
        (L.site l.alloc t = none → nextWith (exec i s) fun u =>
          (u.part t).state = .running ∧ (u.part t).load = P.load ∧ (u.part t).launch = some n)
        ∧ ∀ o p, L.site l.alloc t = some (o, p) → P.wanted = [] →
          let needs := s1.loadLeave t n P.load (s1.fabricFor t n l P.load L o p)
          ((P.leave.filter fun q => !q.swap) ≠ needs → nextWith (exec i s) fun u => (u.part t).state = .config
            ∧ (u.panel (u.panelOf t)).reqs.drop ((u.panel (u.panelOf t)).reqs.length - needs.length) = needs)
          ∧ ((P.leave.filter fun q => !q.swap) = needs → s1.blocksReady t L p = true → nextWith (exec i s) fun u =>
            (u.part t).state = .running ∧ (u.part t).load = P.load ∧ (u.part t).launch = some n)))
    ∧ (P.state = .running ∨ P.state = .settled → P.load + 1 < l0.pat.loads.length →
      exec .tackPrefetch s = .next (s.modPart t fun p => { p with tacked := true }))

/-- R276-R279: a settled tile that the drain wave has reached passes it to its children; a tile whose children have answered
answers its parent with the sums of its subtree; at the root two waves with equal, balanced sums and nothing dirty, and no group of
the load armed or streaming, let the load end, and otherwise the next wave starts; the token clears a tile but for its elements'
counts of firings, which then waits for its next load, or after the last one
is idle. -/
def Sys2Proof.Rules.DrainWaves : Prop :=
  ∀ (s : State) (n : Nat) (l : Launch),
    let t := s.ev.tile
    let P := s.part t
    let A := P.s + (P.answers.map fun x => x.2.1).sum
    let B := P.a + (P.answers.map fun x => x.2.2.1).sum
    let D := P.dirty || P.answers.any fun x => x.2.2.2
    P.launch = some n → s.launch? n = some l →
    (P.state = .running ∨ P.state = .settled → s.settledNow t = true → P.waveDown = false → l.state = .running →
      P.waveHere = true ∨ t = l.root →
      (∀ c ∈ l.children t, (s.part c).launch = some n ∧ (s.part c).load = P.load ∧ (s.part c).tokenHere = false) →
      nextWith (exec .drainWaveDown s) fun u => (u.part t).state = .settled
        ∧ (u.part t).waveDown = true ∧ (∀ c ∈ l.children t, (u.part c).waveHere = true) ∧ sameMemory s u)
    ∧ (P.state = .settled → s.settledNow t = false → nextWith (exec .drainWaveDown s) fun u =>
        (u.part t).state = .running ∧ (u.part t).dirty = true)
    ∧ (l.state = .running → (P.state = .settled → s.settledNow t = true) → P.waveDown = true →
      (∀ c ∈ l.children t, ∃ x ∈ P.answers, x.1 = c) →
      (∀ p, l.parent t = some p → p ≠ t → nextWith (exec .drainWaveAnswer s) fun u =>
        (u.part p).answers = (s.part p).answers ++ [(t, A, B, D)] ∧ (u.part t).dirty = false
        ∧ (u.part t).waveDown = false ∧ sameMemory s u)
      ∧ (l.parent t = none → D = false → A = B → P.lastSum = some (A, B) →
        (∀ e ∈ s.groups, e.2.launch = some n → e.2.load = P.load → e.2.state = .idle) → nextWith (exec .drainWaveAnswer s) fun u =>
        (u.part t).tokenHere = true ∧ sameMemory s u)
      ∧ (l.parent t = none → D = false → A = B → P.lastSum = some (A, B) →
        (∃ e ∈ s.groups, e.2.launch = some n ∧ e.2.load = P.load ∧ e.2.state ≠ .idle) → nextWith (exec .drainWaveAnswer s) fun u =>
        (u.part t).tokenHere = P.tokenHere ∧ (u.part t).waveHere = true ∧ sameMemory s u)
      ∧ (l.parent t = none → D = true ∨ A ≠ B ∨ P.lastSum ≠ some (A, B) → nextWith (exec .drainWaveAnswer s) fun u =>
        (u.part t).waveHere = true ∧ (u.part t).waveDown = false ∧ (u.part t).lastSum = some (A, B) ∧ sameMemory s u))
    ∧ (P.tokenHere = true → l.state = .running ∨ l.state = .stopping → nextWith (exec .reconfigToken s) fun u =>
        (∀ e, (u.tile t).fabric.elem e = { Elem.reset with fires := ((s.tile t).fabric.elem e).fires,
                                                           squash := ((s.tile t).fabric.elem e).squash })
        ∧ (u.tile t).fabric.wires = [] ∧ (u.part t).tokenHere = false
        ∧ (∀ c ∈ l.children t, c ≠ t → (s.part c).load = P.load → (u.part c).tokenHere = true)
        ∧ if P.load + 1 < l.pat.loads.length then (u.part t).state = .config ∧ (u.part t).load = P.load + 1
          else (u.part t).state = .idle ∧ (t = l.root → (u.launch? n).map (·.loadsDone) = some true))

/-- R257, R262: a launch that has passed its last boundary, whose stitches have all arrived and whose actors, stores and
copies are quiet on every tile, with the loader's leave given back, ends: its queue's CIDX passes its record, and the launch
is gone. System software may abort a launch: a waiting or saved one ends at once, another gives up its loads, its completion
to follow. The order of the steps is read by inference (log 38). -/
def Sys2Proof.Rules.LaunchCompletes : Prop :=
  ∀ (s : State) (l : Launch),
    let n := s.ev.n
    let isOver := fun (t : State) => t.launch? n = none ∧ (t.queue l.queue).cidx = l.index + 1 ∧ (t.queue l.queue).busy = false
    s.launch? n = some l →
    (s.ev.flag = false → l.state = .running ∨ l.state = .stopping → l.loadsDone = true → l.sent = l.received →
      (∀ t ∈ l.tiles, s.actorsQuiet t n = true ∧ (s.part t).launch = some n ∧ (s.part t).state = .idle
        ∧ (s.part t).wanted = [] ∧ (s.part t).leave = [] ∧ ∀ b ∈ s.behind, b.tile ≠ t) →
      nextWith (exec .launchComplete s) isOver)
    ∧ (s.ev.flag = true →
      (l.state = .waiting ∨ l.state = .saved → nextWith (exec .launchComplete s) isOver)
      ∧ (l.state = .running ∨ l.state = .stopping ∨ l.state = .resuming → nextWith (exec .launchComplete s) fun t =>
        (t.launch? n).map (fun x => (x.fault, x.loadsDone)) = some (some (4, s.ev.unit % 256), true)))

/-- R484-R487: the stop wave reaches a tile whose parent it has reached, and its system actor is told; later it stops the
firing; a quiet tile passes the quiet wave on, and with the root's last answer the save may start; a quiet tile saves its
fabric image to FSAVE's place in its store; a resumed tile asks for its leave again, and with it reads its elements back
from the image and its blocks from their bases, has its fold slots as they were, and runs. That what the image has no places
for is taken up as it was saved is read by inference (log 39). -/
def Obligations.Preemption : Prop :=
  ∀ (s : State) (n : Nat) (l : Launch),
    let t := s.ev.tile
    let P := s.part t
    ((s.part t).stopping = true → exec .stopFiringTimeout s = .next (s.modPart t fun p => { p with firingStopped := true }))
    ∧ (P.launch = some n → s.launch? n = some l → l.state = .stopping →
      (P.stopping = false → (t = l.root ∨ ∃ p, l.parent t = some p ∧ (s.part p).stopping = true) →
        exec .stopWave s = .next ((s.modPart t fun p =>
          { p with waveHere := false, waveDown := false, answers := [], lastSum := none, stopping := true }).hwStitch t t 0 false 0 4
            0x53544F50 l.word none))
      ∧ (s.quietNow t n = true → P.quiet = false → P.waveDown = false → P.waveHere = true ∨ t = l.root →
        exec .quietWave s = .next (s.waveOn t n l))
      ∧ (s.quietNow t n = true → P.quiet = false → P.waveDown = true → l.children t = [] → P.answers = [] →
        l.parent t = none → P.dirty = false → P.s = P.a → P.lastSum = some (P.s, P.a) →
        nextWith (exec .quietWave s) fun u => (u.part t).quiet = true ∧ sameMemory s u)
      ∧ (s.quietNow t n = true → s.nothingComes t = true → t = l.root → P.quiet = true → s.Inv → nextWith (exec .saveWave s) fun u =>
        (u.part t).state = .saved
        ∧ (∀ i, i < 0x18000 → u.byte (localLoc t (get (s.tile t).fsave 51 32) + i) =
            ((s.tile t).fabric.imageByte l.word (Config.imageFill n t) i))
        ∧ (u.launch? n).map (fun x => x.saved.get Fabric.reset t) = some (s.tile t).fabric))
    ∧ ∀ F, s.launch? s.ev.n = some l → l.state = .resuming → (l.saved.find? fun e => e.1 == t) = some (t, F) → t = l.root → P.wanted = [] →
      (P.leave ≠ s.loadLeave t s.ev.n F.part.load F → nextWith (exec .resumeWave s) fun u =>
        (u.part t).wanted = s.loadLeave t s.ev.n F.part.load F ∧ (u.part t).state = .saved ∧ sameMemory s u)
      ∧ (P.leave = s.loadLeave t s.ev.n F.part.load F → nextWith (exec .resumeWave s) fun u =>
        (∀ e E, (F.elems.find? fun x => x.1 == e) = some (e, E) →
          let b := fun (o n : Nat) => s.readNat (localLoc t (get (s.tile t).fsave 51 32) + 0x400 + 0x200 * e + o) n
          let X := (u.tile t).fabric.elem e
          (∀ k : Fin 8, X.d[k] = ⟨decide (b (16 * k.val + 8) 1 / 8 % 2 = 1), BitVec.ofNat 3 (b (16 * k.val + 8) 1),
            BitVec.ofNat 64 (b (16 * k.val) 8)⟩)
          ∧ X.q = BitVec.ofNat 8 (b 0x180 8) ∧ X.halted = decide (b 0x180 8 / 2 ^ 24 % 2 = 1) ∧ X.ctr = BitVec.ofNat 64 (b 0x188 8))
        ∧ (∀ i < 4, (F.island i).valid = true → ((u.tile t).fabric.island i).elems = s.bytes (localLoc t (F.island i).ebase) 32768)
        ∧ (u.tile t).fabric.folds = F.folds ∧ (u.part t).stopping = false
        ∧ (u.part t).state = (if F.part.state = .idle then .idle else .running)
        ∧ ((u.launch? s.ev.n).map (·.state) = some (if l.saved.del t = [] then .running else .resuming)))

/-! ### The mesh, retirement, link ports (R24-R44, R411-R418, R426, R427, R433-R443, R470-R472) -/

/-- R24, R29, R31, R32: a message moves one physical hop: along the hop list in its head, to the target of a router in FWD,
or, at the router of its next logical hop, along that hop's route, x before y; at a failed link it is held. Tokens of a wire
and fold flits that have arrived enter their tile. What a fenced hop does is read by inference (log 40). -/
def Sys2Proof.Rules.RouterHops : Prop :=
  ∀ (s : State) (f : Flight),
    s.flight? s.ev.n = some f → f.src < tileCount → f.dst < tileCount → s.ev.upset = [] →
    let P := s.phy f.at_
    (∀ h r, f.hops = h :: r → P.dark = false →
      (P.badLinks.contains (linkKey h.toNat f.data) = true →
        exec .routerFlitArrival s = .next (s.modFlight f.id fun x => { x with held := true }))
      ∧ (P.badLinks.contains (linkKey h.toNat f.data) = false → ∀ q, physNext f.at_ h.toNat = some q →
        exec .routerFlitArrival s = .next (s.modFlight f.id fun x => { x with at_ := q, hops := r, held := false })))
    ∧ (s.arrived f = true → (s.silicon f.dst).dark = false →
        (∀ k ks, f.msg = .tokens k ks → exec .routerFlitArrival s = .next ((s.dropFlight f.id).tokensArrive (f.dst, k) ks))
        ∧ ∀ n i fl, f.msg = .fold n i fl → exec .routerFlitArrival s = .next ((s.dropFlight f.id).foldArrive f.dst n i fl))
    ∧ (f.hops = [] → s.arrived f = false ∨ f.msg.ofFabric = false → P.state = 4 → ∀ q, P.fwd = some q →
        exec .routerFlitArrival s = .next (s.modFlight f.id fun x => { x with at_ := q }))
    ∧ (f.hops = [] → s.arrived f = false ∨ f.msg.ofFabric = false → P.state ≠ 4 → (∀ d m, f.msg ≠ .drain d m) → ∀ d h r,
        ((tileX P.logical < tileX f.dst ∧ d = 0) ∨ (tileX f.dst < tileX P.logical ∧ d = 2)
          ∨ (tileX P.logical = tileX f.dst ∧ tileY P.logical < tileY f.dst ∧ d = 1)
          ∨ (tileX P.logical = tileX f.dst ∧ tileY f.dst < tileY P.logical ∧ d = 3)) →
        entryValid (entryOf (P.drt f.data) d) = true → s.draining P.logical d f.data = false →
        entryHops (entryOf (P.drt f.data) d) = h :: r →
        exec .routerFlitArrival s = .next (s.hopOn f h r))

/-- R31, R32, R35, R414, R415: a link fails for the router at its near end; the messages held at it, but an invalidation,
are discarded after the hold time; a drain marker ends at the end of its old route, and with the last of a commit all its
new entries come into force together and MGEN advances; silicon in FWD that nothing is on its way to is dead. That an
invalidation stays held is the model's choice (log 73). -/
def Sys2Proof.Rules.LinksAndMarkers : Prop :=
  ∀ (s : State) (f : Flight),
    let p := s.ev.tile
    let k := s.ev.unit + 4 * if s.ev.flag then 1 else 0
    (nextWith (exec .linkFailure s) fun t => (t.phy p).badLinks.contains k = true ∧ t.flights = s.flights ∧ sameMemory s t)
    ∧ (nextWith (exec .pathHoldTimeout s) fun t => sameMemory s t ∧ ((∀ q, s.plan = some q → q.due = []) →
        ∀ x, x ∈ t.flights ↔ x ∈ s.flights ∧
          ¬(x.held = true ∧ x.at_ = p ∧ x.data = s.ev.flag ∧ s.nextLink x = some s.ev.unit
            ∧ ∀ k asid va w who, x.msg ≠ .inval k asid va w who)))
    ∧ (∀ d data, s.flight? s.ev.n = some f → f.msg = .drain d data → f.hops = [] → (s.phy f.at_).state ≠ 4 →
        (nextWith (exec .drainMarkerArrival s) fun t => sameMemory s t ∧ t.flight? f.id = none)
        ∧ ((∃ x ∈ s.flights, x.id ≠ f.id ∧ ∃ d' data', x.msg = .drain d' data') →
          exec .drainMarkerArrival s = .next (s.dropFlight f.id))
        ∧ ∀ q, s.plan = some q → q.slot.isSome = true → q.due ≠ [] →
          (∀ x ∈ s.flights, x.id = f.id ∨ ∀ d' data', x.msg ≠ .drain d' data') →
          q.due.Pairwise (fun a b => (a.phys, a.data, a.dir) ≠ (b.phys, b.data, b.dir)) →
          (∀ c ∈ q.due, c.dir < 4 ∧ c.entry < 2 ^ 16) →
          nextWith (exec .drainMarkerArrival s) fun t => t.mgen = s.mgen + 1
            ∧ ∀ c ∈ q.due, entryOf ((t.phy c.phys).drt c.data) c.dir = c.entry)
    ∧ ((s.phy p).state = 4 → (∀ x ∈ s.flights, walkHops x.at_ x.hops ≠ some p) →
        nextWith (exec .tileFwdToDead s) fun t => (t.phy p).state = 5 ∧ (t.phy p).fwd = none)
    ∧ ((s.phy p).state ≠ 4 → exec .tileFwdToDead s = .next s)

/-- R42, R43, R44: silicon that loses its clock switches to its first later candidate that is alive and not deeper than itself,
takes that depth plus one, which the silicon that takes its clock from it follows, and holds its issue until the hold ends;
with no candidate left it has no clock, and its neighbours take their links to it as failed. The new source is not one that has
its own clock from this silicon, which the depths rule out (R43). -/
def Sys2Proof.Rules.ClockSources : Prop :=
  ∀ (s : State),
    let p := s.ev.tile
    let P := s.phy p
    (∀ j < 4, P.clockCur < j → s.eligible p j = true → (∀ i < j, P.clockCur < i → s.eligible p i = false) →
      (∀ q, physNext p (P.clockDir j) = some q → ¬Relation.ReflTransGen (fun x y => s.clockFrom x y = true) p q) →
      nextWith (exec .clockSourceLoss s) fun t =>
        (t.phy p).clockCur = j ∧ (t.phy p).depth = (s.clockDepth p j + 1) % 256 ∧ (t.phy p).hold = true
        ∧ (t.phy p).clockOk P.clockCur = false ∧ sameMemory s t
        ∧ ∀ q, s.clockFrom p q = true → (t.phy q).depth = min 255 ((t.phy p).depth + 1))
    ∧ ((∀ j < 4, P.clockCur < j → s.eligible p j = false) → nextWith (exec .clockSourceLoss s) fun t =>
        (t.phy p).hold = true ∧ (t.phy p).dark = true ∧ (t.phy p).clockOk P.clockCur = false ∧ sameMemory s t
        ∧ ∀ d < 4, ∀ q, physNext p d = some q → ∀ data, (t.phy q).badLinks.contains (linkKey (opposite d) data) = true)
    ∧ (P.dark = false → exec .clockSwitchHoldEnd s = .next (s.modPhy p fun Q => { Q with hold := false }))
    ∧ (P.dark = true → exec .clockSwitchHoldEnd s = .next s)

/-- R39, R40, R417: a bank that DARN.BANK asked for is re-woven at a boundary or with no load; when that is done the bank
has left the store, what lay above the new size is lost, and every other byte stays. What moves with a bank is read by
inference (log 41). -/
def Sys2Proof.Rules.BanksRewoven : Prop :=
  ∀ (s : State) (b : Nat),
    let t := s.ev.tile
    (s.tile t).reweave = some b →
    ((s.part t).state = .idle ∨ (s.part t).state = .config ∨ (s.part t).state = .saved →
      exec .bankReweave s = .next (s.modTile t fun T => { T with reweaving := true }))
    ∧ ((s.part t).state ≠ .idle → (s.part t).state ≠ .config → (s.part t).state ≠ .saved → exec .bankReweave s = .next s)
    ∧ ((s.tile t).reweaving = true → nextWith (exec .bankReweaveDone s) fun u =>
        let top := (s.modPhy (s.physOf t) fun P => { P with banks := P.banks &&& ~~~(1#16 <<< b) }).lsize t
        (u.phy (s.physOf t)).banks = (s.phy (s.physOf t)).banks &&& ~~~(1#16 <<< b)
        ∧ (u.tile t).reweave = none ∧ (u.tile t).reweaving = false
        ∧ ∀ a, u.byte a = if localLoc t top ≤ a ∧ a < localLoc t 0x100000 then unlisted else s.byte a)

/-- R413, R414, R416, R417, R470: the forms of DARN in system mode. PREP gives the status of the first check that fails, and
stages a plan that passes them all; ABORT and a timeout discard it; COMMIT without a plan of this tile (a management core's,
R503, or another tile's) gives 7, one whose checks fail now discards it with their status, one whose routes need no drain
takes effect at once with MGEN advanced, and another waits for its drain; BANK asks for the re-weave of a marked bank. Which
of several failing checks gives the status is read by inference (log 41). -/
def Sys2Proof.Rules.DarnForms : Prop :=
  ∀ (s : State) (d a : BitVec 5), ready s [d, a] → s.cur.mode = .system →
    let status := fun (u : State) (c i : Nat) => u.finish d (u.darnWord c i)
    (∀ s1 bs, s.readBlock (.darnPrep d a) (s.cur.sreg a) 64 16 = .got s1 bs →
      let n := bytesNat (bs.take 2)
      (s1.planBusy = true → exec (.darnPrep d a) s = .next (status s1 1 0))
      ∧ (s1.planBusy = false → BitVec.ofNat 32 (bytesNat ((bs.drop 8).take 4)) ≠ s1.mgen →
          exec (.darnPrep d a) s = .next (status s1 2 0))
      ∧ (s1.planBusy = false → BitVec.ofNat 32 (bytesNat ((bs.drop 8).take 4)) = s1.mgen →
          (n = 0 ∨ 4096 < n → exec (.darnPrep d a) s = .next (status s1 3 0))
          ∧ (1 ≤ n → n ≤ 4096 → bytesNat ((bs.drop 2).take 6) = 0 → bytesNat ((bs.drop 12).take 4) = 0 →
            ∀ s2 all, s1.readBlock (.darnPrep d a) (s.cur.sreg a) 64 (16 + 16 * n) = .got s2 all →
            let es := planEnts all (bytesNat (all.take 2))
            (∀ i, malformedAt 0 [] es = some i → exec (.darnPrep d a) s = .next (status s2 3 i))
            ∧ (malformedAt 0 [] es = none →
              let r := s2.checkPlan (es.map (·.2))
              exec (.darnPrep d a) s = .next (if r.1 = 0 then status { s2 with plan := some ⟨s2.ft, es.map (·.2), none, []⟩ } 0 0
                else status s2 r.1 r.2)))))
    ∧ (s.stagedHere = none → exec (.darnAbort d) s = .next (status s 7 0))
    ∧ (∀ p, s.stagedHere = some p → exec (.darnAbort d) s = .next (status { s with plan := none } 0 0))
    ∧ (s.plan = none → exec (.darnCommit d) s = .next (status s 7 0))
    ∧ (∀ p, s.plan = some p → p.owner ≠ s.ft → exec (.darnCommit d) s = .next (status s 7 0)
        ∧ exec (.darnAbort d) s = .next (status s 7 0))
    ∧ (∀ p, s.plan = some p → p.owner = s.ft → p.slot = none →
        let r := s.checkPlan p.ents
        let u := s.applyPlan { p with slot := some s.fk }
        exec (.darnCommit d) s = .next (if r.1 ≠ 0 then status { s with plan := none } r.1 r.2
          else if u.drained then status { u.settleDue with plan := none } 0 0 else u)
        ∧ u.settleDue.mgen = s.mgen + 1)
    ∧ (∀ p, s.plan = some p → p.owner = s.ft → p.slot = some s.fk →
        exec (.darnCommit d) s = .next (if s.drained then status { s with plan := none } 0 0 else s))
    ∧ (get (s.cur.sreg a) 63 20 ≠ 0 → exec (.darnBank d a) s = .next (s.trapIllegal (.darnBank d a)))
    ∧ (get (s.cur.sreg a) 63 20 = 0 →
        let x := get (s.cur.sreg a) 7 0
        let y := get (s.cur.sreg a) 15 8
        let b := get (s.cur.sreg a) 19 16
        (135 < x ∨ 187 < y ∨ b ∉ (s.tile (tileKey x y)).marked → exec (.darnBank d a) s = .next (status s 8 0))
        ∧ (x ≤ 135 → y ≤ 187 → b ∈ (s.tile (tileKey x y)).marked →
          (bankCount (s.silicon (tileKey x y)).banks < 13 → exec (.darnBank d a) s = .next (status s 9 0))
          ∧ (13 ≤ bankCount (s.silicon (tileKey x y)).banks → (s.tile (tileKey x y)).reweave ≠ none →
            exec (.darnBank d a) s = .next (status s 10 0))
          ∧ (13 ≤ bankCount (s.silicon (tileKey x y)).banks → (s.tile (tileKey x y)).reweave = none →
            exec (.darnBank d a) s = .next
              (status (s.modTile (tileKey x y) fun T => { T with reweave := some b }) 0 0))))
    ∧ (s.committing = false → exec .darnPlanTimeout s = .next { s with plan := none })
    ∧ (s.committing = true → exec .darnPlanTimeout s = .next s)

/-- A router of the map `M` has its route toward a logical direction on a mesh right: a valid entry whose hops end at the
silicon
that holds the neighbour and whose measure counts its hops and seams; no valid entry, and none measured, where the mesh ends. -/
def Sys2Proof.Rules.routeRight (M : Nat → Phys) (p d : Nat) (data : Bool) : Prop :=
  let P := M p
  let e := entryOf (P.drt data) d
  let m := (P.meas data).toNat / 2 ^ (8 * d) % 2 ^ 8
  (∀ u, tileNext P.logical d = some u → entryValid e = true
    ∧ ∃ q n, walkMap M data p 0 (entryHops e) = some (q, n) ∧ (M q).holds u = true
      ∧ m / 32 = (entryHops e).length ∧ m / 8 % 4 = n)
  ∧ (tileNext P.logical d = none → entryValid e = false ∧ m / 32 = 0)

/-- R413, R22: a plan whose DSELF entries keep the rules is refused with status 5 exactly where, in the map it gives, some
tile in
service would not have on both meshes, toward each neighbour it has, its right route. -/
def Sys2Proof.Rules.PlannedRoutes : Prop :=
  ∀ (s : State) (ents : List PlanEnt), (ents.findIdx? fun e => e.reg == 0 && !s.transOk ents e) = none →
    let M := s.planned ents
    ((s.checkPlan ents).1 = 5 ↔ ¬∀ p < 140 * 192, 1 ≤ (M p).state → (M p).state ≤ 3 → ∀ d < 4, ∀ data : Bool, routeRight M p d data)

/-- R434, R435, R443: a port comes up with its far end's numbers, which reach then follows; it goes down when its far end is
silent or it is brought down, and its home tile is told; a lane is fenced once, with LMGEN advanced. Which port traffic for
a peer takes is an open function of the configuration (log 10). -/
def Sys2Proof.Rules.PortStates : Prop :=
  ∀ (s : State),
    let n := s.ev.tile
    let p := s.port n
    (n < 80 → p.state ≠ 3 → p.outFence ≠ 0xFFFF → p.inFence ≠ 0xFFFF → nextWith (exec .linkPortUp s) fun t =>
      (t.port n).state = 2 ∧ (t.port n).farWid = s.ev.v.setWidth 8 ∧ (t.port n).farPort = BitVec.ofNat 7 s.ev.n
      ∧ (∀ k < 4, (t.port n).joined.contains k = s.ev.unit.testBit k) ∧ t.reach = t.reachNow ∧ sameMemory s t)
    ∧ (p.state ≠ 2 → exec .linkPortDown s = .next s ∧ exec .linkFarEndTimeout s = .next s)
    ∧ (p.state = 2 → ∀ i ∈ [Instr.linkPortDown, .linkFarEndTimeout], nextWith (exec i s) fun t =>
        (t.port n).state = 0 ∧ (t.port n).joined = [] ∧ t.reach = t.reachNow ∧ t.mem = s.mem
        ∧ ∃ f ∈ t.flights, f.dst = portHome n ∧ ∃ st, f.msg = .stitch st ∧ st.dst = portHome n ∧ st.label = 0 ∧ st.status = 4
          ∧ st.w0 = BitVec.ofNat 64 n ∧ st.w1 = (t.port n).stat)
    ∧ (n < 80 → s.ev.unit < 16 → p.outFence.getLsbD s.ev.unit = false → nextWith (exec .linkLaneFence s) fun t =>
        (t.port n).outFence = p.outFence ||| (1#16 <<< s.ev.unit) ∧ (t.port n).inFence = p.inFence
        ∧ (t.port n).lmgen = p.lmgen + 1)
    ∧ (n < 80 → 16 ≤ s.ev.unit → s.ev.unit < 32 → p.inFence.getLsbD (s.ev.unit - 16) = false →
        nextWith (exec .linkLaneFence s) fun t =>
          (t.port n).inFence = p.inFence ||| (1#16 <<< (s.ev.unit - 16)) ∧ (t.port n).outFence = p.outFence
          ∧ (t.port n).lmgen = p.lmgen + 1)

/-- R438-R442: a token that a joined receiving channel has room for enters it, a held one goes on along its wire, the credit
of the oldest token sent comes back to a sending channel and counts as received, and a token for a channel that is not
joined is counted; a new binding waits until its channel has quiesced; traffic for another wafer crosses to a port that its
WROUTE gives, but waits while older traffic is on its way by a port that WROUTE no longer gives. What the counts of a launch
take of a link token, and what an unjoined channel does with one, is read by inference (log 63). -/
def Sys2Proof.Rules.TokenChannels : Prop :=
  ∀ (s : State),
    let n := s.ev.tile
    let u := s.ev.unit
    let k := u % 4
    let p := s.port n
    (s.ev.flag = false →
      (p.joined? k false = true → (p.sent.get [] k = [] → exec .linkTokenArrival s = .next s)
        ∧ ∀ x r, p.sent.get [] k = x :: r → exec .linkTokenArrival s = .next
          ((s.modPort n fun p => { p with sent := p.sent.put k r }).modPart (portHome n) fun q => { q with a := q.a + 1 }))
      ∧ (p.joined? k false = false → p.joined? k true = true → (p.rq.get [] k).length < 256 →
        exec .linkTokenArrival s = .next (s.modPort n fun p => { p with rq := p.rq.put k (p.rq.get [] k ++ [s.ev.tok]) }))
      ∧ (p.joined? k false = false → p.joined? k true = false →
        exec .linkTokenArrival s = .next (s.care1 (portHome n) 0x000B n)))
    ∧ (s.ev.flag = true → ∀ x r, p.rq.get [] k = x :: r → s.wireRoom (portHome n) (.link n k) 1 = true →
        s.stops (portHome n) = false → exec .linkTokenArrival s = .next
          ((s.modPort n fun p => { p with rq := p.rq.put k r }).wirePush (portHome n) (.link n k) x))
    ∧ (n < 80 → u < 4 → exec .lpchWrite s = .next (s.modPort n fun p =>
        { p with pendCh := p.pendCh.put u (s.ev.v.setWidth 64 &&& 0xFFFFE00000000000) }))
    ∧ (∀ e, (p.pendCh.find? fun e => e.1 == u) = some e →
        (p.sent.get [] u = [] → p.rq.get [] u = [] → nextWith (exec .lpchQuiesceDone s) fun t =>
          (t.port n).lpch.get 0 u = e.2 ∧ (t.port n).joined.contains u = false)
        ∧ (p.sent.get [] u ≠ [] ∨ p.rq.get [] u ≠ [] → exec .lpchQuiesceDone s = .next s))
    ∧ (s.ev.flag = false → u % 256 ≠ s.mgmt.wid.toNat →
        let held := s.routeHeld s.seq (u % 256 * 2 ^ 54 + 2 ^ 62)
        (s.peerPorts (u % 256) = [] ∨ held = true → exec .peerTrafficForward s = .next s)
        ∧ (s.peerPorts (u % 256) ≠ [] → held = false → ∃ m ∈ s.peerPorts (u % 256), exec .peerTrafficForward s = .next
            (s.post (.peer (BitVec.ofNat 8 (u % 256)) (decide (256 ≤ u) || (s.wroute.get 0 (u % 256)).getLsbD 62))
              (portHome n) (portHome m) true)))

/-- R426, R427: SNAP of a port that is not there completes at once with status 3; of one that is there it latches 1,088
bytes that begin with the port's number and LMGEN and goes on; its completion writes each 32-byte piece of them that can
still be written, and nothing else, and gives status 1, or 4 where a piece can no longer be written. The order of SNAP's
checks is read by inference (log 43). -/
def Sys2Proof.Rules.Snapshots : Prop :=
  ∀ (s : State) (d a b : BitVec 5), ready s [d, a, b] →
    let v := s.cur.sreg a
    let va := s.cur.sreg b
    let n := get v 6 0
    (va.toNat % 64 ≠ 0 → exec (.snap d a b) s = .next (s.trap 0x02 0 va))
    ∧ (va.toNat % 64 = 0 → ∀ s1 ps, State.checkAll s.ft s.fk (.snap d a b) .store 1
          ((List.range 34).map fun j => va + BitVec.ofNat 64 (32 * j)) s [] = .ok s1 ps →
        (79 < n ∨ get v 63 7 ≠ 0 → exec (.snap d a b) s = .next (s1.finish d (snapWord 0 3)))
        ∧ (n < 80 → get v 63 7 = 0 → s1.ft = s.ft → s1.fk = s.fk → nextWith (exec (.snap d a b) s) fun t => sameMemory s1 t
            ∧ ∃ j, t.snaps = s1.snaps ++ [j] ∧ j.tile = s.ft ∧ j.bytes.length = 1088 ∧ j.lmgen = (s1.port n).lmgen
              ∧ bytesNat (j.bytes.take 2) = n ∧ bytesNat ((j.bytes.drop 4).take 4) = j.lmgen.toNat
              ∧ (t.cur.pend.any fun p => p.id == j.pend && p.dst == [s1.cur.absReg d]) = true))
    ∧ ∀ j r, s.snaps = j :: r → j.tile = s.ev.tile → j.slot = s.ev.unit % 8 →
        (∃ k < 8, ((s.slot j.tile k).pend? j.pend).isSome = true) → j.bytes.length = 32 * j.pieces.length →
        (∀ x ∈ j.pieces, x.2 = false ∧ x.1 / 2 ^ 56 ≠ 0xF0) →
        j.pieces.Pairwise (fun x y => x.1 + 32 ≤ y.1 ∨ y.1 + 32 ≤ x.1) →
        nextWith (exec .snapComplete s) fun t => t.snaps = r
          ∧ ((∀ x ∈ j.pieces, s.pieceRefused x.1 = false) → awarded s t j.tile j.pend (snapWord j.lmgen 1) id)
          ∧ ((∃ x ∈ j.pieces, s.pieceRefused x.1 = true) → awarded s t j.tile j.pend (snapWord j.lmgen 4) id)
          ∧ (∀ m x, j.pieces[m]? = some x → s.pieceRefused x.1 = false → ∀ a < 32, t.byte (x.1 + a) = j.bytes.getD (32 * m + a) 0)
          ∧ ∀ a, (∀ x ∈ j.pieces, s.pieceRefused x.1 = false → a < x.1 ∨ x.1 + 32 ≤ a) → t.byte a = s.byte a

/-! ### Power, boot, the management plane, heat and the care label (R23, R91, R253, R254, R493, R500-R510) -/

/-- R23, R507, R510: without power only the flash, the fuses and what is not the module's remain: no tile, launch or queue
state, no byte of the module's memory, no unwritten care record, the counters as last checkpointed; power-on without fuses
or field changes gives the map without defects. The map without defects is the model's choice (log 6), and what the flash
gives back is read by inference (log 46). -/
def Sys2Proof.Rules.PowerCycles : Prop :=
  ∀ (s : State),
    (∀ i ∈ [Instr.powerLoss, .powerOn], nextWith (exec i s) fun t =>
      t.tiles = [] ∧ t.launches = [] ∧ t.queues = [] ∧ t.flights = [] ∧ t.ports = [] ∧ t.mgmt.basted = false
      ∧ t.mgmt.idSet = false ∧ t.mgen = 0 ∧ (∀ a, t.byte a = if beyondWafer a = true then s.byte a else unlisted)
      ∧ t.care.buf = [] ∧ t.care.log = s.care.log ∧ t.care.total = s.care.total ∧ t.care.ctr = s.care.saved
      ∧ t.mgmt.fuses = s.mgmt.fuses ∧ t.mgmt.fuseHash = s.mgmt.fuseHash ∧ t.mgmt.fuseSvn = s.mgmt.fuseSvn)
    ∧ (s.mgmt.fuses = [] → s.mgmt.field = [] → s.phys = [] → s.plan = none →
        nextWith (exec .powerOn s) fun t => ∀ p, t.phy p = phys0State p)

/-- R507, R508: the first-stage image is checked once: one that passes is recorded with its digest and version and bastes
the part; without one that passes the part stays unbasted and ALERT bit 3 is set; a basted part checks none. The signature
check is an open function of the configuration (log 9). -/
def Sys2Proof.Rules.FirstStageImage : Prop :=
  ∀ (s : State),
    (s.mgmt.basted = true → exec .firstStageImageCheck s = .next s)
    ∧ (s.mgmt.basted = false →
      (∀ img, s.firstImage = some img → nextWith (exec .firstStageImageCheck s) fun t =>
        if s.mgmt.accepts img = true then t.mgmt.basted = true ∧ t.mgmt.imageHash = Config.sm3 img
          ∧ t.mgmt.svn = BitVec.ofNat 32 (bytesNat ((img.drop 4).take 4)) ∧ t.mgmt.alert = s.mgmt.alert
        else t.mgmt.basted = false ∧ t.mgmt.alert = s.mgmt.alert ||| 8 ∧ sameMemory s t)
      ∧ (s.firstImage = none → nextWith (exec .firstStageImageCheck s) fun t =>
          t.mgmt.basted = false ∧ t.mgmt.alert = s.mgmt.alert ||| 8 ∧ sameMemory s t))

/-- R253, R447, R492, R504, R505, R509, R510: the commands of the management plane run once asked for and leave their status
in word 7: 0 with the command's effect, 2 for arguments it does not take, and for a copy that stops 4 with the bytes copied
and the address in word 6. Corners of the commands are read by inference (log 44). -/
def Obligations.ManagementCommands : Prop :=
  ∀ (s : State),
    let w := s.mgmt.word
    let n := (w 1).toNat
    (∀ e ∈ ([(.qset, 1), (.winset, 2), (.swround, 3), (.careread, 4), (.attest, 5), (.setid, 6), (.stage, 7), (.fetch, 8),
        (.idkey, 9)] : List (Instr × Nat)), s.asked e.2 = false → exec e.1 s = .next s)
    ∧ (s.asked 1 = true →
        (n < 32768 → queueOk (w 2) (w 3) = true →
          exec .qset s = .next ((s.modQueue n fun q => { q with d0 := w 2, d1 := w 3 }).reply 0 0))
        ∧ (32768 ≤ n ∨ queueOk (w 2) (w 3) = false → exec .qset s = .next (s.reply 2 0)))
    ∧ (s.asked 2 = true →
        (n < 8 → nextWith (exec .winset s) fun t => t.mgmt.winBase.get 0 n = w 2 ∧ t.mgmt.winSize.get 0 n = w 3
          ∧ get (t.mgmt.word 7) 7 0 = 0)
        ∧ (8 ≤ n → exec .winset s = .next (s.reply 2 0)))
    ∧ (s.asked 3 = true →
        (32 ≤ n → n ≤ 40 → nextWith (exec .swround s) fun t => t.mgmt.swLog = n ∧ get (t.mgmt.word 7) 7 0 = 0)
        ∧ (n < 32 ∨ 40 < n → exec .swround s = .next (s.reply 2 0)))
    ∧ (s.asked 4 = true → nextWith (exec .careread s) fun t => get (t.mgmt.word 7) 7 0 = 0
        ∧ t.mem = (s.hostWrite (w 3) ((List.range (w 2).toNat).flatMap fun i => s.careAt (n + i))).mem)
    ∧ (s.asked 5 = true → nextWith (exec .attest s) fun t => get (t.mgmt.word 7) 7 0 = 0
        ∧ t.mem = (s.hostWrite (w 5) (s.attestation ++ natBytes 64 (Config.sm2Sign s.attestation).toNat)).mem)
    ∧ (s.asked 6 = true →
        (s.mgmt.idSet = false → n < 256 → nextWith (exec .setid s) fun t => t.mgmt.idSet = true
          ∧ t.mgmt.wid = BitVec.ofNat 8 n ∧ t.reach = t.reachNow ∧ get (t.mgmt.word 7) 7 0 = 0)
        ∧ (s.mgmt.idSet = true ∨ 256 ≤ n → exec .setid s = .next (s.reply 2 0)))
    ∧ (s.asked 7 = true →
        (s.copyOk = false → exec .stage s = .next (s.reply 2 0))
        ∧ (s.copyOk = true → ∀ s1 r, s.stageCopy (s.queue n) (w 2) (w 3) 0 (w 4).toNat (w 4).toNat = (s1, r) →
          (r = none → exec .stage s = .next (s1.reply 0 0))
          ∧ ∀ k, r = some k → exec .stage s = .next (s1.copyStopped k)))
    ∧ (s.asked 8 = true →
        (s.copyOk = false → exec .fetch s = .next (s.reply 2 0))
        ∧ (s.copyOk = true → ∀ bs, s.fetchBytes (s.queue n) (w 2) [] (w 4).toNat (w 4).toNat = .all bs →
          nextWith (exec .fetch s) fun t => t.mem = (s.hostWrite (w 3) bs).mem ∧ get (t.mgmt.word 7) 7 0 = 0))
    ∧ (s.asked 9 = true → nextWith (exec .idkey s) fun t => get (t.mgmt.word 7) 7 0 = 0
        ∧ t.mem = (s.hostWrite (w 1) (natBytes 64 Config.identityKey.toNat)).mem)

/-- R254, R446, R503, R504: what the host reads and writes: ALERT and QERR clear as they are read; queue q is on port q div
4096 with
its page at 4 KiB x (q mod 4096) of BAR0; a doorbell moves WIDX within the
ring, and sets OVR beyond it or the off bit for a queue that is off; words of the command block are written, and DOOR starts
a known command with 0xFF, or gives 3. -/
def Sys2Proof.Rules.HostRegisters : Prop :=
  ∀ (s : State),
    let n := s.ev.n
    let m := 4096 * s.ev.tile + n / 4096
    let q := s.queue m
    let v : BitVec 32 := s.ev.v.setWidth 32
    (exec .alertRead s = .next { s with mgmt := { s.mgmt with alert := 0 } })
    ∧ (32768 ≤ m ∨ n % 4096 ≠ 0x18 → exec .qerrRead s = .next s)
    ∧ (32768 ≤ m ∨ n % 4096 ≠ 0 → exec .widxWrite s = .next s)
    ∧ (m < 32768 → n % 4096 = 0x18 → exec .qerrRead s = .next (s.modQueue m fun q => { q with qerr := 0 }))
    ∧ (m < 32768 → n % 4096 = 0 →
      (q.enabled = false → exec .widxWrite s = .next (s.modQueue m fun q => { q with qerr := q.qerr ||| 2 }))
      ∧ (q.enabled = true → q.slots < (v - q.cidx).toNat →
        exec .widxWrite s = .next (s.modQueue m fun q => { q with qerr := q.qerr ||| 1 }))
      ∧ (q.enabled = true → (v - q.cidx).toNat ≤ q.slots → exec .widxWrite s = .next (s.modQueue m fun q => { q with widx := v })))
    ∧ (s.ev.flag = true →
        (∀ i < 8, n = 0x1000 + 8 * i → nextWith (exec .registerWrite s) fun t =>
          t.mgmt.word i = s.ev.v.setWidth 64 ∧ (∀ j < 8, j ≠ i → t.mgmt.word j = s.mgmt.word j) ∧ sameMemory s t)
        ∧ (n = 0x1040 → s.mgmt.basted = false → exec .registerWrite s = .next s)
        ∧ (n = 0x1040 → s.mgmt.basted = true → nextWith (exec .registerWrite s) fun t =>
          get (t.mgmt.word 7) 7 0 = if 1 ≤ get (s.mgmt.word 0) 7 0 ∧ get (s.mgmt.word 0) 7 0 ≤ 9 then 0xFF else 3))

/-- R28, R78, R79, R354, R362, R365, R376, R377, R469: the stores to control registers that have rows of their own: a management
core's store to a control address, ASIDS with its root and valid bit, a stopped generator's GSTAT, RELADV, HQCFG, and a
group's entry with its fibre's split mask where R79 allows it, whether it is valid or not. -/
def Sys2Proof.Rules.ControlStores : Prop :=
  ∀ (s : State),
    let n := s.ev.n
    let t := s.ev.tile
    let v : Word := s.ev.v.setWidth 64
    (∀ a, s.ev.flag = false → s.place 0 (0xF0 * 2 ^ 56 + n % 2 ^ 56) = some (.control a) →
        exec .registerWrite s = .next (s.ctlWrite a v))
    ∧ (nextWith (exec .asidsWrite s) fun u =>
        (u.asid (BitVec.ofNat 12 n)).root = BitVec.ofNat 52 (get v 63 12) ∧ (u.asid (BitVec.ofNat 12 n)).v = v.getLsbD 8
        ∧ (u.asid (BitVec.ofNat 12 n)).gen = (s.asid (BitVec.ofNat 12 n)).gen ∧ sameMemory s u)
    ∧ (s.ev.unit ≤ 8 → 2 ≤ ((s.tile t).fabric.gen s.ev.unit).reason.toNat → ((s.tile t).fabric.gen s.ev.unit).reason.toNat ≤ 4 →
        nextWith (exec .gstatResumeWrite s) fun u => ((u.tile t).fabric.gen s.ev.unit).reason = 1
          ∧ ((u.tile t).fabric.gen s.ev.unit).kind = 0
          ∧ ((u.tile t).fabric.gen s.ev.unit).gfva = ((s.tile t).fabric.gen s.ev.unit).gfva ∧ sameMemory s u)
    ∧ (nextWith (exec .reladvWrite s) fun u => (u.tile t).reliab.reladv = v &&& ~~~2 ∧ sameMemory s u)
    ∧ (nextWith (exec .hqcfgWrite s) fun u => sameMemory s u
        ∧ if get v 36 32 = 0 ∨ (10 ≤ get v 36 32 ∧ get v 36 32 ≤ 24) then (u.tile t).router.hqFull = false
            ∧ (u.tile t).router.hqLog = if (s.tile t).router.holdq = [] then BitVec.ofNat 5 (get v 36 32) else (s.tile t).router.hqLog
          else (u.tile t).router = (s.tile t).router)
    ∧ (n < 1024 → (s.group n).v = false ∨ (s.group n).state = .idle →
        let h := (s.group n).written s.ev.v
        (s.groupWriteOk n h = true → nextWith (exec .groupTableWrite s) fun u => u.group n = h ∧ sameMemory s u
          ∧ (s.setsSplit n h = true → u.splitMask h.fibre = h.split)
          ∧ (s.setsSplit n h = false → ∀ f, u.splitMask f = s.splitMask f))
        ∧ (s.groupWriteOk n h = false → exec .groupTableWrite s = .next s)
        ∧ (768 ≤ h.fibre ∨ 4 < h.fmt.toNat ∨ (h.w2 = true ∧ h.lambda.toNat % 2 = 1) → s.groupWriteOk n h = false))
    ∧ ((s.group n).v = true → (s.group n).state ≠ .idle → exec .groupTableWrite s = .next s)

/-- R498, R500-R502, R506: a panel's sample is its TNOW and moves its level: to 2 with an alert at TCRIT, two down after a
first sample at TALERT, two up after a tenth one cooler by THYST; the buckets of its silicon, a tile's or a spare's, take
the rate of that level, lowered in proportion where more is booked than the budget. That the model counts the spec's times
in samples is its choice (logs 2, 45), and that a measured temperature comes with the step (log 18). -/
def Sys2Proof.Rules.ThermalSamples : Prop :=
  ∀ (s : State),
    let p := s.ev.tile
    let P := s.panel p
    let n := s.ev.n
    nextWith (exec .thermalSample s) fun t =>
      let Q := t.panel p
      Q.tnow = BitVec.ofNat 8 n ∧ Q.budget = P.budget ∧ Q.booked = P.booked ∧ sameMemory s t
      ∧ (P.tcrit.toNat ≤ n → Q.level = 2 ∧ t.mgmt.alert.getLsbD 1 = true)
      ∧ (n < P.tcrit.toNat → t.mgmt.alert = s.mgmt.alert
        ∧ (P.talert.toNat ≤ n → 1 ≤ P.hotMs → Q.level = max 2 (P.level - 2))
        ∧ (P.talert.toNat ≤ n → P.hotMs = 0 → 1 ≤ P.thyst.toNat → Q.level = P.level)
        ∧ (n + P.thyst.toNat ≤ P.talert.toNat → n < P.talert.toNat → P.coolMs = 10 → Q.level = min 8 (P.level + 2))
        ∧ (n < P.talert.toNat → P.talert.toNat < n + P.thyst.toNat → Q.level = P.level))
      ∧ ∀ q < 140 * 192, 7 * (q / 140 / 24) + q % 140 / 20 = p →
        let r := BitVec.ofNat 16 (if P.budget.toNat < P.booked
          then 256 * P.budget.toNat * Q.level / (8 * P.booked) else 256 * Q.level / 8)
        let T := t.tile (if 1 ≤ (s.phy q).state ∧ (s.phy q).state ≤ 3 then (s.phy q).logical else spareKey q)
        T.buckW.rate = r ∧ T.buckC0.rate = r ∧ T.buckC1.rate = r ∧ T.buckW.depth = 64

/-- R91, R493, R510: an idle tile gates its clocks and one that is not wakes; buffered care records join the log, of which
the oldest go beyond 2^26 with ALERT bit 2 and an MSI-X where that bit was clear (R503); a checkpoint keeps the counters as
they stand. That a timed event comes when the model's agenda names it is the model's choice (log 2). -/
def Sys2Proof.Rules.GatingAndCare : Prop :=
  ∀ (s : State),
    let t := s.ev.tile
    (s.idleTile t = true → exec .tileClockGate s = .next (s.modTile t fun T => { T with gated := true })
      ∧ exec .tileWake s = .next s)
    ∧ (s.idleTile t = false → exec .tileClockGate s = .next s
      ∧ exec .tileWake s = .next (s.modTile t fun T => { T with gated := false }))
    ∧ (nextWith (exec .careLogFlush s) fun u => u.care.buf = [] ∧ u.care.total = s.care.total + s.care.buf.length
        ∧ (s.care.log.length + s.care.buf.length ≤ 2 ^ 26 → u.care.log = s.care.log ++ s.care.buf ∧ u.mgmt = s.mgmt)
        ∧ (2 ^ 26 < s.care.log.length + s.care.buf.length → u.care.log.length = 2 ^ 26 ∧ u.mgmt.alert.getLsbD 2 = true
          ∧ u.mgmt.msix = s.mgmt.msix + if s.mgmt.alert.getLsbD 2 = true then 0 else 1)
        ∧ sameMemory s u)
    ∧ exec .careCheckpoint s = .next { s with care := { s.care with saved := s.care.ctr, histSaved := s.care.hist } }

/-! ### Encodings, reset, the step, and what every step keeps -/

/-- A row whose word another row has too is read as that one (R399, log 19). -/
def Sys2Proof.Rules.asRead (i : Instr) : Instr :=
  match i with
  | .pstatWaiting d a => .pstatPocket d a
  | .pstatAllocation d a => .pstatPocket d a
  | j => j

/-- R133-R160: for every well-formed instruction of the needle core the decoder reads its word back as it, with every field;
a word below 2^32 that decodes is the word of what it decodes to, so no bit of it is ignored. The reading of the three PSTAT
rows, which share one word, is the model's choice (log 19). -/
def Sys2Proof.Rules.ScalarEncodings : Prop :=
  (∀ i w, i.wellFormed = true → i.tform = none → encode i = some w → w < 2 ^ 32 ∧ decodeS w = .ok (asRead i))
  ∧ ∀ i w, w < 2 ^ 32 → decodeS w = .ok i → i.wellFormed = true ∧ encode i = some w

/-- R161-R168: the same for the triggered instructions of the fabric's elements. -/
def Sys2Proof.Rules.FabricEncodings : Prop :=
  (∀ i w, i.wellFormed = true → i.tform.isSome = true → encode i = some w → w < 2 ^ 32 ∧ decodeT w = .ok i)
  ∧ ∀ i w, w < 2 ^ 32 → decodeT w = .ok i → i.wellFormed = true ∧ encode i = some w

/-- R145-R168 and the spec's own encoded examples: words of every format decode to the instruction they stand for. -/
def Obligations.DecodedWords : Prop :=
  (∀ e ∈ ([(0x20531C00, .add 5 6 7), (0x5044B008, .ld 4 9 3 0 8), (0x22C0789A, .addi 12 0 0x789A), (0x26000000, .ori 0 0 0),
      (0x18C00006, .mfs 12 6), (0x2CD50020, .shri 13 10 32), (0x10048003, .loop 9 3), (0x24D6FFFF, .andi 13 13 0x7FFF),
      (0x020C0000, .ext 0xC0000), (0x6006AC00, .send 13 11), (0x16000000, .hend), (0x1C000008, .ifence),
      (0x674A8000, .copy 20 21), (0x56533002, .ldf 5 6 2), (0x68C6B80A, .mload 12 13 14 2 2), (0x8134B002, .vld 2 3 9 3 2)]
      : List (Nat × Instr)), decodeS e.1 = .ok e.2)
  ∧ (∀ e ∈ ([(0x01CE0400, .tStr 0 0 0 12 0 8 0 0), (0x00344480, .tOr 0 0 0 8 8 9), (0x012C44C3, .tFfma 0 0 0 1 8 8 9 4 3),
      (0x0194D086, .tFcvt 0 0 0 9 10 1 6)] : List (Nat × Instr)), decodeT e.1 = .ok e.2)
  ∧ (∃ e, decodeS 0x200003FF = .error e) ∧ ∃ e, decodeT 0 = .error e

/-- The state after reset where the spec gives it: every panel's budget, level and thresholds (R501), the buckets (R501),
TVEC and
GATE.EN (R404, R91), free slots with disarmed loops and RSEED and RCTR zero (R193, R208, R210), full presence bits (R356), GEN
zero (R365), ports down (R434), MGEN zero (R35), reach to the wafer itself (R443), and an unbasted part (R508). -/
def Sys2Proof.Rules.ResetValues : Prop :=
  let s := State.reset
  (∀ p, (s.panel p).budget = 607142 ∧ (s.panel p).booked = 0 ∧ (s.panel p).level = 8 ∧ (s.panel p).talert = 95
    ∧ (s.panel p).thyst = 5 ∧ (s.panel p).tcrit = 110)
  ∧ (∀ t, (s.tile t).tvec = 0 ∧ (s.tile t).gateEn = true ∧ (s.tile t).buckW.rate = 256 ∧ (s.tile t).buckW.depth = 64)
  ∧ (∀ t k, (s.slot t k).run = .free ∧ (s.slot t k).rseed = 0 ∧ (s.slot t k).rctr = 0 ∧ (s.slot t k).top.armed = false
    ∧ (s.slot t k).below.armed = false)
  ∧ s.empties = [] ∧ s.marks = [] ∧ (∀ a, (s.asid a).gen = 0) ∧ (∀ p, (s.port p).state = 0) ∧ s.mgen = 0 ∧ s.reach = 1
  ∧ s.mgmt.basted = false ∧ s.launches = []

/-- R19-R22, R24, R29, R30, R34: what the manufacturing mapper gives a part with dead tiles. A row shifts the tiles at and
east of
the dead tile of a segment by one place, and is not mapped where a segment has two; of some physical rows it takes those it can, in
order; a link's route has 1 to 4 hops through live silicon; the fuses name each tile's silicon LIVE and leave other silicon IDLE.
The worked example of R35 has the routes and measures given there. Which of several routes is taken is read by inference
(log 51). -/
def Obligations.ManufacturingMap : Prop :=
  (∀ dead py xs, rowMap dead py = some xs → xs.length = 136 ∧ ∀ x, x < 136 →
    let first := 35 * (x / 34)
    dead.contains (physKey xs[x]! py) = false
    ∧ ((xs[x]! = first + x % 34 ∧ ∀ i, i ≤ x % 34 → dead.contains (physKey (first + i) py) = false)
      ∨ (xs[x]! = first + x % 34 + 1 ∧ ∃ i, i ≤ x % 34 ∧ dead.contains (physKey (first + i) py) = true)))
  ∧ (∀ dead py g a b, g < 4 → a < b → b < 35 → dead.contains (physKey (35 * g + a) py) = true →
      dead.contains (physKey (35 * g + b) py) = true → rowMap dead py = none)
  ∧ (∀ dead pys prev n m, mapRows dead pys prev n = some m → m.length = n ∧ (m.map Prod.fst).Sublist pys
      ∧ (∀ row ∈ m, rowMap dead row.1 = some row.2)
      ∧ ∀ (j : Nat) (u v : MappedRow), m[j]? = some u → m[j + 1]? = some v → ∀ x p q : Nat, u.2[x]? = some p → v.2[x]? = some q →
          (mappedRoute dead (physKey p u.1) (physKey q v.1)).isSome = true)
  ∧ (∀ dead p q l, mappedRoute dead p q = some l → 1 ≤ l.length ∧ l.length ≤ 4
      ∧ l.foldl (fun o d => o.bind fun r => (physNext r d).bind fun n => if dead.contains n then none else some n) (some p)
        = some q)
  ∧ (∀ dead m p, (logicalOf m p = none → fuseOf dead m p = (0, 0, 0, 0, 0))
      ∧ ∀ t, logicalOf m p = some t → t < tileCount →
        (fuseOf dead m p).1.toNat = 1 * 2 ^ 29 + tileY t * 2 ^ 8 + tileX t)
  ∧ (let dead := [physKey 39 24];
      (rowMap dead 24).map (fun xs => (xs[37]!, xs[38]!, xs[67]!)) = some (38, 40, 69)
      ∧ mappedRoute dead (physKey 38 24) (physKey 40 24) = some [1, 0, 0, 3]
      ∧ mappedRoute dead (physKey 40 24) (physKey 39 23) = some [3, 2]
      ∧ hopsEntry [1, 0, 0, 3] = 0xF820 ∧ seamsOf (physKey 38 24) [1, 0, 0, 3] = 1
      ∧ hopsEntry [3, 2] = 0xA160 ∧ seamsOf (physKey 40 24) [3, 2] = 2)

/-- The invariant that every step keeps holds after reset. -/
def Sys2Proof.Rules.ResetMeetsInvariant : Prop := State.Inv State.reset

/-- Whatever unit or event has its turn, a step that answers a next state keeps memory in its canonical form: addresses strictly
rising, no entry equal to what an unlisted address reads as. -/
def Obligations.StepKeepsInvariant : Prop := ∀ s t : State, s.Inv → step s = .next t → t.Inv

/-- A step of a needle slot with nothing due, whose page is its own tile's and in the TLB, executes the instruction that the
four bytes at its pc encode (R131, R137); a word that encodes none takes the reserved-encoding step, an instruction that
names a vector register which an outstanding load will write stalls (R209), one that reads a register with an error of two
bits traps (R488), and a slot with no handler, a stopped tile or a withheld cycle passes, but for the second word of an EXT
pair (R138, R502). Before an instruction a handler that a double trap ended goes on with its end (R481), and a held refusal
comes before a due budget (R479). Which unit has its turn is the model's choice (log 1). -/
def Sys2Proof.Rules.StepRunsDecodedInstructionHold : Prop :=
  ∀ (s : State) (t k : Nat) (r : List Turn), t < tileCount → k < 8 → s.agenda = .needle t k :: r →
    let u := { { s with turns := s.turns + 1, agenda := r }.modTile t (Tile.tick (s.panel (s.panelOf t)).level k) with
      focus := .needle t k }
    let x := u.slot t k
    let v := if x.held.isSome = true ∧ x.cut = false then u.modSlot t k fun sl => { sl with held := none } else u
    let due := { EvArgs.none with tile := t, unit := k }
    let open_ := u.withheld t k = false ∧ (x.ext = none ∨ x.waiting = true)
    ((s.silicon t).dark = true → step s = .next { s with turns := s.turns + 1, agenda := r })
    ∧ ((s.silicon t).dark = false → 
      u.stopped t = true ∨ x.runs = false ∨ (u.withheld t k = true ∧ x.ext = none ∧ x.dying = none) → step s = .next u)
    ∧ (u.stopped t = false → x.runs = true → x.dying ≠ none → step s = exec .hend u)
    ∧ (u.stopped t = false → x.runs = true → x.dying = none → open_ → x.inTrap = false →
      (x.late ≠ [] → step s = exec .lateRefusalTrap { u with ev := due })
      ∧ (x.late = [] → x.budgetDue = true → step s = exec .budgetExpiry { u with ev := due }))
    ∧ (u.stopped t = false → u.withheld t k = false ∨ x.ext ≠ none → x.runs = true → x.dying = none → x.waiting = false →
      x.late = [] → x.budgetDue = false →
      (∀ u1 w, v.fetch t k x.pc = .word u1 w →
        (∀ i, decodeS w = .ok i → (x.ext = none ∨ takesExt i = true) → (∀ d a, i ≠ .pstatPocket d a) →
          step s = if x.vecStalls i then .next u1
            else if ∃ q ∈ instrReads i, q ≠ 0 ∧ x.absReg q ∈ x.bad then .next (u1.registerTrap t) else exec i u1)
        ∧ ((∃ e, decodeS w = .error e) → step s = exec .reservedEncoding { u1 with ev := { EvArgs.none with v := BitVec.ofNat 128 w } }))
      ∧ ∀ off pa fe e, v.needleTr t k .fetch x.pc = (v, .ok (.store t off) fe pa) → v.lsizeRefused (localLoc t off) = false →
        v.covered t (localLoc t off) 4 = false → v.holdRead t k [localLoc t off] = none → v.marked (localLoc t off) 4 = false →
        decodeS (bytesNat (v.bytes (localLoc t off) 4)) = .ok e → (x.ext = none ∨ takesExt e = true) →
        (∀ d a, e ≠ .pstatPocket d a) → x.vecStalls e = false → x.bad = [] → step s = exec e v)

/-- R173, R264: a step of an element inside a burst runs its next beat, and otherwise the lowest slot whose guard holds.
Which unit has its turn is the model's choice (log 1). -/
def Sys2Proof.Rules.StepRunsElementSlot : Prop :=
  ∀ (s : State) (t e : Nat) (r : List Turn), t < tileCount → e < 16 → s.agenda = .elem t e :: r →
    let u := { s with turns := s.turns + 1, agenda := r }
    let E := (s.tile t).fabric.elem e
    u.elemStopped t = false → u.fabricHeld t = false →
    (E.beat.isSome = true → step s =
      exec .burstBeat { u with focus := .elem t e 0, ev := { EvArgs.none with tile := t, unit := e } })
    ∧ (E.beat = none → (s.part t).firingStopped = true → step s = .next u)
    ∧ (E.beat = none → (s.part t).firingStopped = false → ∀ a k w b i, E.slots = a ++ (k, w) :: b →
        (∀ y ∈ a, ∀ j, decodeT y.2.toNat = .ok j → u.slotReady t e j = false) →
        decodeT w.toNat = .ok i → u.slotReady t e i = true → step s = exec i { u.wakePart t with focus := .elem t e k })
    ∧ (E.beat = none → (∀ y ∈ E.slots, ∀ j, decodeT y.2.toNat = .ok j → u.slotReady t e j = false) → step s = .next u)

/-! ### The statements whose parts stand above -/

/-- R212: the results of every row of the ALU major: arithmetic and logic, division with its corners, counts of bits. -/
def Obligations.AluResults : Prop :=
  Sys2Proof.Rules.IntegerResults ∧ Sys2Proof.Rules.DivisionResults ∧ Sys2Proof.Rules.BitCounts

/-- R142, R215-R217: integer compares, logic on predicates, selection by a predicate. -/
def Obligations.ComparesAndPredicates : Prop :=
  Sys2Proof.Rules.IntegerCompares ∧ Sys2Proof.Rules.PredicateLogicAndSelect

/-- R132, R209: the frame of the integer instructions, the hard-wired registers, and the stall on a register that waits. -/
def Obligations.IntegerFrameAndRegisters : Prop :=
  Sys2Proof.Rules.IntegerFrame ∧ Sys2Proof.Rules.RegisterFiles ∧ Sys2Proof.Rules.PendingRegisterStalls

/-- R54, R56-R58: the enabled exceptions trap, what the floating-point instructions leave unchanged, and the rounding of a
magnitude. -/
def Obligations.FloatTrapsAndFrame : Prop :=
  Sys2Proof.Rules.FloatExceptionTraps ∧ Sys2Proof.Rules.FloatFrame ∧ Sys2Proof.Rules.RoundingModes

/-- R136-R138, R222, R225-R228: hardware loops, branches, the EXT prefix. -/
def Obligations.LoopsAndBranches : Prop :=
  Sys2Proof.Rules.LoopBoundary ∧ Sys2Proof.Rules.LoopArms ∧ Sys2Proof.Rules.BranchTargets ∧ Sys2Proof.Rules.ExtPrefix

/-- R222-R224: a call rotates the window and a return restores the caller's. -/
def Obligations.CallsAndReturns : Prop :=
  Sys2Proof.Rules.CallRotatesWindow ∧ Sys2Proof.Rules.RetRestoresWindow

/-- R404, R405, R407, R478, R481: what taking a trap saves and where it goes, the double trap, TRAP and ERET. -/
def Obligations.TrapsAndErets : Prop :=
  Sys2Proof.Rules.TrapEntry ∧ Sys2Proof.Rules.DoubleTrap ∧ Sys2Proof.Rules.TrapInstruction ∧ Sys2Proof.Rules.EretReturns

/-- R351-R357, R365: permissions of a page, the checks of an access in order, faults of a needle translation. -/
def Obligations.AccessesAndTranslation : Prop :=
  Sys2Proof.Rules.PagePermissions ∧ Sys2Proof.Rules.AccessChecks ∧ Sys2Proof.Rules.TranslationFaults

/-- R230, R231, R329, R488: a store enters the table and reaches memory, or comes back refused. -/
def Obligations.StoresComplete : Prop :=
  Sys2Proof.Rules.StoresEnterTable ∧ Sys2Proof.Rules.StoreAcknowledged

/-- R153, R209, R312: what an outstanding access returns, and the new value of each atomic operation. -/
def Obligations.RepliesAndAtomicValues : Prop :=
  Sys2Proof.Rules.NeedleReplies ∧ Sys2Proof.Rules.AtomicValues

/-- R224, R231, R357, R391, R479, R480: what an instruction boundary takes, and the memory hardware's own steps. -/
def Obligations.BoundaryTrapsAndWalks : Prop :=
  Sys2Proof.Rules.BoundaryTraps ∧ Sys2Proof.Rules.MemoryHardwareSteps

/-- R283, R286-R289, R292-R294: vector compares, masks, permutes and reductions. -/
def Obligations.VectorMasksAndPermutes : Prop :=
  Sys2Proof.Rules.VectorMasks ∧ Sys2Proof.Rules.VectorPermutes ∧ Sys2Proof.Rules.VectorReductions

/-- R284, R285, R290-R292: floating-point lanes, conversions and floating-point reductions. -/
def Obligations.VectorFloatLanes : Prop :=
  Sys2Proof.Rules.VectorFloatLanesHold ∧ Sys2Proof.Rules.VectorConversionsAndFloatReductions

/-- R234, R403: what MFS reads and MTS writes. -/
def Obligations.SpecialRegisters : Prop :=
  Sys2Proof.Rules.SpecialRegisterReads ∧ Sys2Proof.Rules.SpecialRegisterWrites

/-- R419-R422, R469, R489-R492, R495: leave and its grants, swatch tests. -/
def Obligations.LeaveAndSwatch : Prop :=
  Sys2Proof.Rules.LeaveResults ∧ Sys2Proof.Rules.LeaveGranted ∧ Sys2Proof.Rules.SwatchTests ∧ Sys2Proof.Rules.SwatchHardware

/-- R358, R359, R364-R366: invalidations and the retirement of an address space. -/
def Obligations.InvalidationsAndAsids : Prop :=
  Sys2Proof.Rules.Invalidations ∧ Sys2Proof.Rules.AsidRetires

/-- R236-R239, R380, R381: SEND and the targets of stitches. -/
def Obligations.StitchesSent : Prop :=
  Sys2Proof.Rules.SendInjects ∧ Sys2Proof.Rules.StitchTargets

/-- R24, R25, R375-R382: the way of a stitch from its injection to its answer, and the end of a refusal. -/
def Obligations.StitchesTravel : Prop :=
  Sys2Proof.Rules.StitchJourney ∧ Sys2Proof.Rules.ResumeClearsRefusal

/-- R240, R314, R386-R391: PICK starts a handler, HEND ends it, fences wait. -/
def Obligations.HandlersStartAndEnd : Prop :=
  Sys2Proof.Rules.PickStartsHandler ∧ Sys2Proof.Rules.HandlerEndAndFences

/-- R397-R399: the instructions of pockets and the queries of PSTAT. -/
def Obligations.PocketsAndQueries : Prop :=
  Sys2Proof.Rules.PocketInstructions ∧ Sys2Proof.Rules.PocketQueries

/-- R392-R394, R400-R402, R408: tasks, steals, replays and commands to actors. -/
def Obligations.TasksAndActors : Prop :=
  Sys2Proof.Rules.TasksAndThieves ∧ Sys2Proof.Rules.ReplayAndActorCommands ∧ Sys2Proof.Rules.EvictAndRestore

/-- R66-R74, R298-R302: the MAT instructions join an island's queue, which carries them out. -/
def Obligations.MatrixInstructions : Prop :=
  Sys2Proof.Rules.MatrixInstructionsHold ∧ Sys2Proof.Rules.IslandQueues

/-- R63, R69-R74: an island's firings, the values of a result row, and the port that sends them. -/
def Obligations.IslandFirings : Prop :=
  Sys2Proof.Rules.IslandFiringsHold ∧ Sys2Proof.Rules.IslandValues ∧ Sys2Proof.Rules.ResultPort

/-- R92-R99, R243-R245, R429: rows combined in a tree, the values of each operation, incomplete rows. -/
def Obligations.FoldCombines : Prop :=
  Sys2Proof.Rules.FoldCombinesHold ∧ Sys2Proof.Rules.FoldValues ∧ Sys2Proof.Rules.FoldIncompleteRows

/-- R272-R275, R303-R307: COPY, the addresses of a box, the steps of a stream. -/
def Obligations.CopiesAndStreams : Prop :=
  Sys2Proof.Rules.CopyIssues ∧ Sys2Proof.Rules.BoxAddresses ∧ Sys2Proof.Rules.StreamSteps

/-- R269-R271, R455-R460: compaction, merge and the corner-turn buffer. -/
def Obligations.StreamUnits : Prop :=
  Sys2Proof.Rules.CompactAndMerge ∧ Sys2Proof.Rules.CornerTurn

/-- R75-R89, R109, R241, R511: WEFT, the groups of the selvedge, the receivers of a tile. -/
def Obligations.WeftStreams : Prop :=
  Sys2Proof.Rules.WeftRequests ∧ Sys2Proof.Rules.WeftGroups ∧ Sys2Proof.Rules.WeftReceivers

/-- R172-R174, R263-R266: where a firing's result goes, when a slot does not fire, bursts and squashes. -/
def Obligations.ElementDestinationsAndGuards : Prop :=
  Sys2Proof.Rules.ElementDestinations ∧ Sys2Proof.Rules.ElementGuards ∧ Sys2Proof.Rules.BurstsAndSquashes

/-- R196-R200, R360-R364, R489: an element operation's completion, reply and refusal, and the patching of extents. -/
def Obligations.ElementMemorySteps : Prop :=
  Sys2Proof.Rules.ElementMemoryStepsHold ∧ Sys2Proof.Rules.ExtentsPatched

/-- R253-R259: records of a queue, completions, admission. -/
def Obligations.LaunchRecordsAndAdmission : Prop :=
  Sys2Proof.Rules.LaunchRecords ∧ Sys2Proof.Rules.LaunchAdmission

/-- R257, R261, R262, R276-R281: loads are configured and drained, a launch completes. -/
def Obligations.FabricLoads : Prop :=
  Sys2Proof.Rules.LoadsConfigured ∧ Sys2Proof.Rules.DrainWaves ∧ Sys2Proof.Rules.LaunchCompletes

/-- R24, R29-R32, R35, R43, R44, R415: hops, failed links, drain markers, clock sources. -/
def Obligations.MeshAndClocks : Prop :=
  Sys2Proof.Rules.RouterHops ∧ Sys2Proof.Rules.LinksAndMarkers ∧ Sys2Proof.Rules.ClockSources

/-- R22, R39, R40, R411-R418, R470: DARN, the routes a plan keeps, the re-weave of a bank. -/
def Obligations.DarningAndBanks : Prop :=
  Sys2Proof.Rules.DarnForms ∧ Sys2Proof.Rules.PlannedRoutes ∧ Sys2Proof.Rules.BanksRewoven

/-- R426, R427, R434-R443: ports, token channels, peer traffic, SNAP. -/
def Obligations.LinkPorts : Prop :=
  Sys2Proof.Rules.PortStates ∧ Sys2Proof.Rules.TokenChannels ∧ Sys2Proof.Rules.Snapshots

/-- R23, R507, R508, R510: power and the first-stage image. -/
def Obligations.PowerAndBoot : Prop :=
  Sys2Proof.Rules.PowerCycles ∧ Sys2Proof.Rules.FirstStageImage

/-- R28, R78, R79, R254, R354, R362, R376, R377, R469, R503, R504: the host's registers and stores with rows of their own. -/
def Obligations.HostAndControlRegisters : Prop :=
  Sys2Proof.Rules.HostRegisters ∧ Sys2Proof.Rules.ControlStores

/-- R91, R493, R498, R500-R502, R506, R510: a panel's samples, clock gating, the care label's storage. -/
def Obligations.HeatGatingAndCare : Prop :=
  Sys2Proof.Rules.ThermalSamples ∧ Sys2Proof.Rules.GatingAndCare

/-- R131-R168: decoding and encoding agree, in both directions, for both issue modes. -/
def Obligations.EncodingsRoundTrip : Prop :=
  Sys2Proof.Rules.ScalarEncodings ∧ Sys2Proof.Rules.FabricEncodings

/-- The values that the spec gives for reset, and the invariant of every step there. -/
def Obligations.ResetState : Prop :=
  Sys2Proof.Rules.ResetValues ∧ Sys2Proof.Rules.ResetMeetsInvariant

/-- R131, R135, R173, R264: a step executes what the bytes at the pc, or the slot that an element picks, encode. -/
def Obligations.StepRunsDecodedInstruction : Prop :=
  Sys2Proof.Rules.StepRunsDecodedInstructionHold ∧ Sys2Proof.Rules.StepRunsElementSlot
end

