-- ==== Sys2Proof/Laws/Tab.lean ====
section
/-!
SUPPORT. Laws of the sparse tables and of the fields that the state's update functions leave alone.
-/
namespace Sys2Proof.Machine

/-- An entry just put in is read back. -/
@[simp] theorem Tab.get_put_self {α : Type} (d : α) (t : Tab α) (n : Nat) (v : α) : (Tab.put t n v).get d n = v := by
  induction t with
  | nil => simp [Tab.put, Tab.get]
  | cons e r ih =>
    obtain ⟨k, w⟩ := e
    by_cases h1 : n < k
    · simp [Tab.put, h1, Tab.get]
    · by_cases h2 : n = k
      · simp [Tab.put, h2, Tab.get]
      · simp [Tab.put, h1, h2, Tab.get, ih]

/-- An entry put in leaves the entries of other keys alone. -/
theorem Tab.get_put_of_ne {α : Type} (d : α) (t : Tab α) {n m : Nat} (v : α) (h : m ≠ n) :
    (Tab.put t n v).get d m = Tab.get d t m := by
  induction t with
  | nil => simp [Tab.put, Tab.get, h]
  | cons e r ih =>
    obtain ⟨k, w⟩ := e
    by_cases h1 : n < k
    · simp [Tab.put, h1, Tab.get, h]
    · by_cases h2 : n = k
      · subst h2; simp [Tab.put, Tab.get, h]
      · simp [Tab.put, h1, h2, Tab.get, ih]

theorem Tab.get_put {α : Type} (d : α) (t : Tab α) (n m : Nat) (v : α) :
    (Tab.put t n v).get d m = if m = n then v else Tab.get d t m := by
  by_cases h : m = n
  · subst h; simp
  · simp [Tab.get_put_of_ne d t v h, h]

end Sys2Proof.Machine
end

