-- ==== Sys2Proof/Laws/State.lean ====
section
/-!
SUPPORT. What each update of a part of the machine changes and leaves alone: one lemma per field and update.
-/
namespace Sys2Proof.Machine

/-! ### Tiles -/

@[simp] theorem State.tile_modTile_self (s : State) (t : Nat) (f : Tile → Tile) : (s.modTile t f).tile t = f (s.tile t) :=
  Tab.get_put_self _ _ _ _

theorem State.tile_modTile_of_ne (s : State) {t u : Nat} (f : Tile → Tile) (h : u ≠ t) :
    (s.modTile t f).tile u = s.tile u := Tab.get_put_of_ne _ _ _ h

@[simp] theorem State.modTile_mem (s : State) (t : Nat) (f : Tile → Tile) : (s.modTile t f).mem = s.mem := rfl
@[simp] theorem State.modTile_empties (s : State) (t : Nat) (f : Tile → Tile) : (s.modTile t f).empties = s.empties := rfl
@[simp] theorem State.modTile_marks (s : State) (t : Nat) (f : Tile → Tile) : (s.modTile t f).marks = s.marks := rfl
@[simp] theorem State.modTile_focus (s : State) (t : Nat) (f : Tile → Tile) : (s.modTile t f).focus = s.focus := rfl
@[simp] theorem State.modTile_ev (s : State) (t : Nat) (f : Tile → Tile) : (s.modTile t f).ev = s.ev := rfl
@[simp] theorem State.modTile_phys (s : State) (t : Nat) (f : Tile → Tile) : (s.modTile t f).phys = s.phys := rfl
@[simp] theorem State.modTile_panels (s : State) (t : Nat) (f : Tile → Tile) : (s.modTile t f).panels = s.panels := rfl
@[simp] theorem State.modTile_ports (s : State) (t : Nat) (f : Tile → Tile) : (s.modTile t f).ports = s.ports := rfl
@[simp] theorem State.modTile_groups (s : State) (t : Nat) (f : Tile → Tile) : (s.modTile t f).groups = s.groups := rfl
@[simp] theorem State.modTile_queues (s : State) (t : Nat) (f : Tile → Tile) : (s.modTile t f).queues = s.queues := rfl
@[simp] theorem State.modTile_launches (s : State) (t : Nat) (f : Tile → Tile) : (s.modTile t f).launches = s.launches := rfl
@[simp] theorem State.modTile_flights (s : State) (t : Nat) (f : Tile → Tile) : (s.modTile t f).flights = s.flights := rfl
@[simp] theorem State.modTile_care (s : State) (t : Nat) (f : Tile → Tile) : (s.modTile t f).care = s.care := rfl
@[simp] theorem State.modTile_mgmt (s : State) (t : Nat) (f : Tile → Tile) : (s.modTile t f).mgmt = s.mgmt := rfl
@[simp] theorem State.modTile_plan (s : State) (t : Nat) (f : Tile → Tile) : (s.modTile t f).plan = s.plan := rfl
@[simp] theorem State.modTile_asids (s : State) (t : Nat) (f : Tile → Tile) : (s.modTile t f).asids = s.asids := rfl
@[simp] theorem State.modTile_mgen (s : State) (t : Nat) (f : Tile → Tile) : (s.modTile t f).mgen = s.mgen := rfl
@[simp] theorem State.modTile_seq (s : State) (t : Nat) (f : Tile → Tile) : (s.modTile t f).seq = s.seq := rfl
@[simp] theorem State.modTile_feWait (s : State) (t : Nat) (f : Tile → Tile) : (s.modTile t f).feWait = s.feWait := rfl
@[simp] theorem State.modTile_splits (s : State) (t : Nat) (f : Tile → Tile) : (s.modTile t f).splits = s.splits := rfl
@[simp] theorem State.modTile_behind (s : State) (t : Nat) (f : Tile → Tile) : (s.modTile t f).behind = s.behind := rfl
@[simp] theorem State.modTile_walkers (s : State) (t : Nat) (f : Tile → Tile) : (s.modTile t f).walkers = s.walkers := rfl
@[simp] theorem State.modTile_cache (s : State) (t : Nat) (f : Tile → Tile) : (s.modTile t f).cache = s.cache := rfl
@[simp] theorem State.modTile_wroute (s : State) (t : Nat) (f : Tile → Tile) : (s.modTile t f).wroute = s.wroute := rfl
@[simp] theorem State.modTile_rerouted (s : State) (t : Nat) (f : Tile → Tile) : (s.modTile t f).rerouted = s.rerouted := rfl
@[simp] theorem State.modTile_cores (s : State) (t : Nat) (f : Tile → Tile) : (s.modTile t f).cores = s.cores := rfl
@[simp] theorem State.modTile_reach (s : State) (t : Nat) (f : Tile → Tile) : (s.modTile t f).reach = s.reach := rfl
@[simp] theorem State.modTile_snaps (s : State) (t : Nat) (f : Tile → Tile) : (s.modTile t f).snaps = s.snaps := rfl
@[simp] theorem State.modTile_wefts (s : State) (t : Nat) (f : Tile → Tile) : (s.modTile t f).wefts = s.wefts := rfl
@[simp] theorem State.modTile_queries (s : State) (t : Nat) (f : Tile → Tile) : (s.modTile t f).queries = s.queries := rfl
@[simp] theorem State.modTile_agenda (s : State) (t : Nat) (f : Tile → Tile) : (s.modTile t f).agenda = s.agenda := rfl
@[simp] theorem State.modTile_free (s : State) (t : Nat) (f : Tile → Tile) : (s.modTile t f).free = s.free := rfl
@[simp] theorem State.modTile_turns (s : State) (t : Nat) (f : Tile → Tile) : (s.modTile t f).turns = s.turns := rfl

/-! ### Slots -/

@[simp] theorem Tile.slot_modSlot_self (T : Tile) (k : Nat) (f : Slot → Slot) : (T.modSlot k f).slot k = f (T.slot k) := by
  simp [Tile.modSlot, Tile.slot]

theorem Tile.slot_modSlot_of_ne (T : Tile) {k j : Nat} (f : Slot → Slot) (h : j % 8 ≠ k % 8) :
    (T.modSlot k f).slot j = T.slot j := by
  have h' : k % 8 ≠ j % 8 := fun e => h e.symm
  simp [Tile.modSlot, Tile.slot, h']

@[simp] theorem State.slot_modSlot_self (s : State) (t k : Nat) (f : Slot → Slot) :
    (s.modSlot t k f).slot t k = f (s.slot t k) := by
  simp [State.modSlot, State.slot]

/-- A change of one slot leaves every other slot alone. -/
theorem State.slot_modSlot_of_ne (s : State) {t k u j : Nat} (f : Slot → Slot) (h : u ≠ t ∨ j % 8 ≠ k % 8) :
    (s.modSlot t k f).slot u j = s.slot u j := by
  by_cases hu : u = t
  · subst hu
    have hj : j % 8 ≠ k % 8 := h.resolve_left (fun h => h rfl)
    simp [State.modSlot, State.slot, Tile.slot_modSlot_of_ne _ _ hj]
  · simp [State.modSlot, State.slot, State.tile_modTile_of_ne _ _ hu]

@[simp] theorem State.modSlot_mem (s : State) (t k : Nat) (f : Slot → Slot) : (s.modSlot t k f).mem = s.mem := rfl
@[simp] theorem State.modSlot_empties (s : State) (t k : Nat) (f : Slot → Slot) : (s.modSlot t k f).empties = s.empties := rfl
@[simp] theorem State.modSlot_marks (s : State) (t k : Nat) (f : Slot → Slot) : (s.modSlot t k f).marks = s.marks := rfl
@[simp] theorem State.modSlot_focus (s : State) (t k : Nat) (f : Slot → Slot) : (s.modSlot t k f).focus = s.focus := rfl
@[simp] theorem State.modSlot_ev (s : State) (t k : Nat) (f : Slot → Slot) : (s.modSlot t k f).ev = s.ev := rfl

/-! ### The running slot -/

@[simp] theorem State.ft_modTile (s : State) (t : Nat) (f : Tile → Tile) : (s.modTile t f).ft = s.ft := rfl
@[simp] theorem State.fk_modTile (s : State) (t : Nat) (f : Tile → Tile) : (s.modTile t f).fk = s.fk := rfl
@[simp] theorem State.ft_modSlot (s : State) (t k : Nat) (f : Slot → Slot) : (s.modSlot t k f).ft = s.ft := rfl
@[simp] theorem State.fk_modSlot (s : State) (t k : Nat) (f : Slot → Slot) : (s.modSlot t k f).fk = s.fk := rfl
@[simp] theorem State.ft_modCur (s : State) (f : Slot → Slot) : (s.modCur f).ft = s.ft := rfl
@[simp] theorem State.fk_modCur (s : State) (f : Slot → Slot) : (s.modCur f).fk = s.fk := rfl
@[simp] theorem State.modCur_mem (s : State) (f : Slot → Slot) : (s.modCur f).mem = s.mem := rfl
@[simp] theorem State.modCur_empties (s : State) (f : Slot → Slot) : (s.modCur f).empties = s.empties := rfl
@[simp] theorem State.modCur_marks (s : State) (f : Slot → Slot) : (s.modCur f).marks = s.marks := rfl
@[simp] theorem State.byte_modCur (s : State) (f : Slot → Slot) (a : Nat) : (s.modCur f).byte a = s.byte a := rfl

/-- The running slot after a change of it. -/
@[simp] theorem State.cur_modCur (s : State) (f : Slot → Slot) : (s.modCur f).cur = f s.cur := by
  simp [State.cur, State.modCur]

/-- A change of the running slot leaves everything but the tiles alone. -/
theorem State.modCur_eq (s : State) (f : Slot → Slot) : s.modCur f = { s with tiles := (s.modCur f).tiles } := rfl

/-- A change of the running slot leaves every other tile alone. -/
theorem State.tile_modCur_of_ne (s : State) (f : Slot → Slot) {x : Nat} (h : x ≠ s.ft) : (s.modCur f).tile x = s.tile x :=
  s.tile_modTile_of_ne _ h

/-- A change of the running slot leaves the rest of its tile alone. -/
theorem State.tile_modCur (s : State) (f : Slot → Slot) :
    (s.modCur f).tile s.ft = { s.tile s.ft with slots := ((s.modCur f).tile s.ft).slots } := by
  simp [State.modCur, State.modSlot, Tile.modSlot]

/-- A change of the running slot leaves the other slots of its tile alone. -/
theorem State.slot_modCur_of_ne (s : State) (f : Slot → Slot) {k : Nat} (h : k % 8 ≠ s.fk % 8) :
    (s.modCur f).slot s.ft k = s.slot s.ft k := s.slot_modSlot_of_ne f (.inr h)

/-- Two changes of the running slot are one. -/
theorem Tile.modSlot_modSlot (T : Tile) (k : Nat) (f g : Slot → Slot) :
    (T.modSlot k f).modSlot k g = T.modSlot k fun x => g (f x) := by
  simp [Tile.modSlot, Tile.slot]

/-! ### Registers of a slot -/

@[simp] theorem Slot.sreg_zero (x : Slot) : x.sreg 0#5 = 0#64 := rfl

@[simp] theorem Slot.setSreg_zero (x : Slot) (v : Word) : x.setSreg 0#5 v = x := rfl

theorem Slot.sreg_of_ne (x : Slot) {r : BitVec 5} (h : r ≠ 0#5) : x.sreg r = x.file[r.toNat]'r.isLt := if_neg h

theorem Slot.setSreg_of_ne (x : Slot) {d : BitVec 5} (v : Word) (h : d ≠ 0#5) :
    x.setSreg d v = { x with file := x.file.set d.toNat v d.isLt, bad := natErase (x.absReg d) x.bad } := if_neg h

/-- A scalar register written is read back; the others keep their values. -/
theorem Slot.sreg_setSreg (x : Slot) (d r : BitVec 5) (v : Word) :
    (x.setSreg d v).sreg r = if r = 0#5 then 0#64 else if r = d then v else x.sreg r := by
  by_cases hr : r = 0#5
  · subst hr; rfl
  · by_cases hd : d = 0#5
    · subst hd; simp [hr]
    · rw [Slot.setSreg_of_ne _ _ hd, Slot.sreg_of_ne _ hr, if_neg hr]
      by_cases h : r = d
      · subst h; simp
      · have h2 : d.toNat ≠ r.toNat := fun e => h (BitVec.eq_of_toNat_eq e.symm)
        rw [if_neg h, Slot.sreg_of_ne _ hr]
        exact Vector.getElem_set_ne d.isLt r.isLt h2

/-- Writing a scalar register changes the register file, and ends an error that the register held (R488). -/
theorem Slot.setSreg_eq (x : Slot) (d : BitVec 5) (v : Word) :
    x.setSreg d v = { x with file := (x.setSreg d v).file, bad := (x.setSreg d v).bad } := by
  unfold Slot.setSreg; split <;> rfl

@[simp] theorem Slot.pred_zero (x : Slot) : x.pred 0#3 = true := rfl

theorem Slot.pred_of_ne (x : Slot) {r : BitVec 3} (h : r ≠ 0#3) : x.pred r = x.preds.getLsbD r.toNat := by
  have h0 : decide (r = 0) = false := decide_eq_false h
  rw [Slot.pred, h0, Bool.false_or]

/-- A bit of a byte with one bit set or cleared. -/
theorem bit_of_setBit (b : BitVec 8) (d r : BitVec 3) (v : Bool) :
    (if v then b ||| (1#8 <<< d.toNat) else b &&& ~~~(1#8 <<< d.toNat)).getLsbD r.toNat
      = if r = d then v else b.getLsbD r.toNat := by
  have h : ∀ (d r : BitVec 3), (1#8 <<< d.toNat).getLsbD r.toNat = decide (r = d) := by decide
  have h8 : r.toNat < 8 := r.isLt
  cases v
  · rw [if_neg Bool.false_ne_true, BitVec.getLsbD_and, BitVec.getLsbD_not, h]
    by_cases hd : r = d <;> simp only [hd, h8, if_true, if_false, decide_true, decide_false, Bool.not_true, Bool.not_false,
      Bool.and_false, Bool.and_true]
  · rw [if_pos rfl, BitVec.getLsbD_or, h]
    by_cases hd : r = d <;> simp only [hd, if_true, if_false, decide_true, decide_false, Bool.or_true, Bool.or_false]

/-- A predicate written is read back; the others keep their values. -/
theorem Slot.pred_setPred (x : Slot) (d r : BitVec 3) (v : Bool) :
    (x.setPred d v).pred r = if r = 0#3 then true else if r = d then v else x.pred r := by
  by_cases hr : r = 0#3
  · subst hr; rfl
  · rw [if_neg hr]
    by_cases hd : d = 0#3
    · subst hd; rw [if_neg hr]; rfl
    · have hx : x.setPred d v = { x with preds := if v then x.preds ||| (1#8 <<< d.toNat)
          else x.preds &&& ~~~(1#8 <<< d.toNat) } := if_neg hd
      rw [Slot.pred_of_ne _ hr, Slot.pred_of_ne _ hr, hx]
      exact bit_of_setBit _ _ _ _

/-- Writing a predicate changes the predicates only. -/
theorem Slot.setPred_eq (x : Slot) (d : BitVec 3) (v : Bool) : x.setPred d v = { x with preds := (x.setPred d v).preds } := by
  unfold Slot.setPred; split <;> rfl

/-- A vector register written is read back; the others keep their values. -/
theorem Slot.vreg_setVreg (x : Slot) (d r : BitVec 3) (v : BitVec 4096) :
    (x.setVreg d v).vreg r = if r = d then v else x.vreg r := by
  by_cases h : r = d
  · subst h; simp [Slot.vreg, Slot.setVreg]
  · have h2 : d.toNat ≠ r.toNat := fun e => h (BitVec.eq_of_toNat_eq e.symm)
    rw [if_neg h]
    exact Vector.getElem_set_ne d.isLt r.isLt h2

theorem Slot.mreg_of_ne (x : Slot) {r : BitVec 2} (h : r ≠ 0#2) : x.mreg r = x.m[r.toNat]'r.isLt := if_neg h

/-- A mask written is read back; m0 reads all ones and the others keep their values. -/
theorem Slot.mreg_setMreg (x : Slot) (d r : BitVec 2) (v : BitVec 1024) :
    (x.setMreg d v).mreg r = if r = 0#2 then BitVec.allOnes 1024 else if r = d then v else x.mreg r := by
  by_cases hr : r = 0#2
  · subst hr; rfl
  · rw [if_neg hr]
    by_cases hd : d = 0#2
    · subst hd; rw [if_neg hr]; rfl
    · have hx : x.setMreg d v = { x with m := x.m.set d.toNat v d.isLt } := if_neg hd
      rw [hx, Slot.mreg_of_ne _ hr]
      by_cases h : r = d
      · subst h; simp
      · have h2 : d.toNat ≠ r.toNat := fun e => h (BitVec.eq_of_toNat_eq e.symm)
        rw [if_neg h, Slot.mreg_of_ne _ hr]
        exact Vector.getElem_set_ne d.isLt r.isLt h2

end Sys2Proof.Machine
end

