-- ==== Sys2Proof/Laws/Memory.lean ====
section
/-!
SUPPORT. Laws of the list of memory cells: every operation on it keeps the canonical form, a read after a write, and two
memories in canonical form that read the same are the same list.
-/
namespace Sys2Proof.Machine

/-! ### The canonical form -/

theorem cellsFrom_mono {lo hi : Nat} (h : lo ≤ hi) : ∀ {m : List Host.Cell}, cellsFrom hi m = true → cellsFrom lo m = true
  | [], _ => rfl
  | (a, b) :: r, w => by
    simp only [cellsFrom, Bool.and_eq_true, decide_eq_true_eq] at w ⊢
    exact ⟨⟨h.trans w.1.1, w.1.2⟩, w.2⟩

/-- Removing cells keeps the form. -/
theorem cellsFrom_filter (p : Host.Cell → Bool) :
    ∀ {lo : Nat} {m : List Host.Cell}, cellsFrom lo m = true → cellsFrom lo (m.filter p) = true
  | _, [], _ => rfl
  | lo, (a, b) :: r, w => by
    simp only [cellsFrom, Bool.and_eq_true, decide_eq_true_eq] at w
    have ih := cellsFrom_filter p w.2
    by_cases hp : p (a, b) = true
    · rw [List.filter_cons_of_pos hp]
      simp only [cellsFrom, Bool.and_eq_true, decide_eq_true_eq]
      exact ⟨w.1, ih⟩
    · rw [List.filter_cons_of_neg hp]
      exact cellsFrom_mono (Nat.le_succ_of_le w.1.1) ih

/-- Writing one byte keeps the form. -/
theorem cellsFrom_cellPut (n : Nat) (v : Byte) :
    ∀ {lo : Nat} {m : List Host.Cell}, cellsFrom lo m = true → lo ≤ n → cellsFrom lo (cellPut m n v) = true
  | lo, [], _, h => by
    by_cases hv : v = unlisted
    · simp [cellPut, hv, cellsFrom]
    · simp [cellPut, hv, cellsFrom, h]
  | lo, (a, b) :: r, w, h => by
    simp only [cellsFrom, Bool.and_eq_true, decide_eq_true_eq] at w
    obtain ⟨⟨hl, hb⟩, hr⟩ := w
    unfold cellPut
    split
    · rename_i hn
      split
      · simp [cellsFrom, hl, hb, hr]
      · rename_i hv; simp [cellsFrom, h, hv, hb, hr]; omega
    · split
      · rename_i hn; subst hn
        split
        · exact cellsFrom_mono (Nat.le_succ_of_le hl) hr
        · rename_i hv; simp [cellsFrom, h, hv, hr]
      · rename_i h1 h2
        have ih := cellsFrom_cellPut n v hr (by omega)
        simp [cellsFrom, hl, hb, ih]

/-- Writing bytes keeps the form. -/
theorem cellsFrom_cellWrite : ∀ (bs : List Byte) {lo a : Nat} {m : List Host.Cell},
    cellsFrom lo m = true → lo ≤ a → cellsFrom lo (cellWrite m a bs) = true
  | [], _, _, _, w, _ => w
  | b :: r, _, a, _, w, h => cellsFrom_cellWrite r (cellsFrom_cellPut a b w h) (Nat.le_succ_of_le h)

theorem Memory.wf_nil : Memory.wf [] = true := rfl

@[simp] theorem Memory.wf_cellPut {m : List Host.Cell} (w : Memory.wf m = true) (n : Nat) (v : Byte) :
    Memory.wf (cellPut m n v) = true := cellsFrom_cellPut n v w (Nat.zero_le _)

@[simp] theorem Memory.wf_cellWrite {m : List Host.Cell} (w : Memory.wf m = true) (a : Nat) (bs : List Byte) :
    Memory.wf (cellWrite m a bs) = true := cellsFrom_cellWrite bs w (Nat.zero_le _)

@[simp] theorem Memory.wf_filter {m : List Host.Cell} (w : Memory.wf m = true) (p : Host.Cell → Bool) :
    Memory.wf (m.filter p) = true := cellsFrom_filter p w

/-- Memory after reset has the form. -/
theorem Memory.wf_reset : Memory.wf State.reset.mem = true := rfl

/-! ### Reading -/

/-- Below its first address a canonical memory lists nothing. -/
theorem cellGet_of_lt {n : Nat} : ∀ {lo : Nat} {m : List Host.Cell}, cellsFrom lo m = true → n < lo → cellGet m n = unlisted
  | _, [], _, _ => rfl
  | lo, (a, b) :: r, w, h => by
    simp only [cellsFrom, Bool.and_eq_true, decide_eq_true_eq] at w
    have hne : n ≠ a := by omega
    rw [cellGet, if_neg hne]
    exact cellGet_of_lt w.2 (by omega)

/-- A byte written is read back; the others keep their values. -/
theorem cellGet_cellPut {n k : Nat} (v : Byte) : ∀ {lo : Nat} {m : List Host.Cell}, cellsFrom lo m = true →
    cellGet (cellPut m n v) k = if k = n then v else cellGet m k
  | _, [], _ => by
    by_cases hv : v = unlisted
    · simp [cellPut, hv, cellGet]
    · simp [cellPut, hv, cellGet]
  | lo, (a, b) :: r, w => by
    simp only [cellsFrom, Bool.and_eq_true, decide_eq_true_eq] at w
    have hr : k ≤ a → cellGet r k = unlisted := fun h => cellGet_of_lt w.2 (by omega)
    unfold cellPut
    split
    · rename_i hn
      split
      · rename_i hv
        by_cases hk : k = n
        · subst hk
          rw [cellGet, if_neg (by omega), hr (by omega), if_pos rfl, hv]
        · rw [if_neg hk]
      · rw [cellGet]
    · split
      · rename_i hn; subst hn
        split
        · rename_i hv
          by_cases hk : k = n
          · subst hk; rw [hr (Nat.le_refl _), if_pos rfl, hv]
          · rw [if_neg hk, cellGet, if_neg hk]
        · by_cases hk : k = n
          · subst hk; simp [cellGet]
          · simp [cellGet, hk]
      · rename_i h1 h2
        have ih := cellGet_cellPut (n := n) (k := k) v w.2
        by_cases hk : k = a
        · simp [cellGet, hk]
          omega
        · rw [cellGet, if_neg hk, ih, cellGet, if_neg hk]

/-- Two canonical memories that read alike are one list. -/
theorem cells_ext : ∀ {lo hi : Nat} {m k : List Host.Cell}, cellsFrom lo m = true → cellsFrom hi k = true →
    (∀ n, cellGet m n = cellGet k n) → m = k
  | _, _, [], [], _, _, _ => rfl
  | _, _, [], (a, b) :: r, _, w, h => by
    simp only [cellsFrom, Bool.and_eq_true, decide_eq_true_eq] at w
    have := h a
    simp [cellGet] at this
    exact absurd this.symm w.1.2
  | _, _, (a, b) :: r, [], w, _, h => by
    simp only [cellsFrom, Bool.and_eq_true, decide_eq_true_eq] at w
    have := h a
    simp [cellGet] at this
    exact absurd this w.1.2
  | _, _, (a, b) :: r, (c, d) :: q, w, x, h => by
    simp only [cellsFrom, Bool.and_eq_true, decide_eq_true_eq] at w x
    have hac : a = c := by
      rcases Nat.lt_trichotomy a c with hl | he | hg
      · have h1 := h a
        rw [cellGet, if_pos rfl, cellGet, if_neg (by omega), cellGet_of_lt x.2 (by omega)] at h1
        exact absurd h1 w.1.2
      · exact he
      · have h1 := h c
        rw [cellGet, if_neg (by omega), cellGet_of_lt w.2 (by omega), cellGet, if_pos rfl] at h1
        exact absurd h1.symm x.1.2
    subst hac
    have hbd : b = d := by simpa [cellGet] using h a
    subst hbd
    have hrq : ∀ n, cellGet r n = cellGet q n := by
      intro n
      by_cases hn : n ≤ a
      · rw [cellGet_of_lt w.2 (by omega), cellGet_of_lt x.2 (by omega)]
      · have h1 := h n
        rwa [cellGet, if_neg (by omega), cellGet, if_neg (by omega)] at h1
    rw [cells_ext w.2 x.2 hrq]

/-- Memory in canonical form is determined by what it reads. -/
theorem Memory.ext_of_wf {m k : List Host.Cell} (hm : Memory.wf m = true) (hk : Memory.wf k = true)
    (h : ∀ n, cellGet m n = cellGet k n) : m = k := cells_ext hm hk h

end Sys2Proof.Machine
end

