-- ==== Sys2Proof/Laws/Operations.lean ====
section
/-!
SUPPORT. What every operation on the state that the meanings share does to memory: it leaves it as it is (`_mem`), or keeps its
canonical form (`_wf`).
-/
namespace Sys2Proof.Machine

set_option linter.unusedTactic false
set_option linter.unnecessarySeqFocus false
set_option Elab.async false

/-! ### Folds -/
@[simp] theorem foldl_mem {α : Type} (f : State → α → State) (hf : ∀ a b, (f a b).mem = a.mem) (l : List α) :
    ∀ s : State, (l.foldl f s).mem = s.mem := by
  induction l with
  | nil => intro s; rfl
  | cons x r ih => intro s; rw [List.foldl_cons, ih, hf]
@[simp] theorem foldl_wf {α : Type} (f : State → α → State) (hf : ∀ a b, Memory.wf a.mem = true → Memory.wf (f a b).mem = true) (l :
    List α) :
    ∀ s : State, Memory.wf s.mem = true → Memory.wf (l.foldl f s).mem = true := by
  induction l with
  | nil => intro s h; exact h
  | cons x r ih => intro s h; rw [List.foldl_cons]; exact ih _ (hf _ _ h)
@[simp] theorem State.modPhy_mem (s : State) (p : Nat) (f : Phys → Phys) : (State.modPhy s p f).mem = s.mem := by
  rfl
@[simp] theorem State.modPanel_mem (s : State) (p : Nat) (f : Panel → Panel) : (State.modPanel s p f).mem = s.mem := by
  rfl
@[simp] theorem State.modGroup_mem (s : State) (g : Nat) (f : Group → Group) : (State.modGroup s g f).mem = s.mem := by
  rfl
@[simp] theorem State.modQueue_mem (s : State) (q : Nat) (f : Queue → Queue) : (State.modQueue s q f).mem = s.mem := by
  rfl
@[simp] theorem State.modPort_mem (s : State) (p : Nat) (f : Port → Port) : (State.modPort s p f).mem = s.mem := by
  rfl
@[simp] theorem State.modLaunch_mem (s : State) (n : Nat) (f : Launch → Launch) : (State.modLaunch s n f).mem = s.mem := by
  unfold State.modLaunch; repeat' split
  all_goals simp
@[simp] theorem State.modFabric_mem (s : State) (t : Nat) (f : Fabric → Fabric) : (State.modFabric s t f).mem = s.mem := by
  rfl
@[simp] theorem State.modRouter_mem (s : State) (t : Nat) (f : Router → Router) : (State.modRouter s t f).mem = s.mem := by
  rfl
@[simp] theorem State.stamp_mem (s : State) : (State.stamp s).mem = s.mem := by
  rfl
@[simp] theorem State.useFree_mem (s : State) : (State.useFree s).mem = s.mem := by
  rfl
@[simp] theorem State.fill_mem (s : State) (w : Nat) : (State.fill s w).mem = s.mem := by
  rfl
@[simp] theorem State.drain_mem (s : State) (w : Nat) : (State.drain s w).mem = s.mem := by
  rfl
@[simp] theorem State.clearMarks_mem (s : State) (loc n : Nat) : (State.clearMarks s loc n).mem = s.mem := by
  rfl
@[simp] theorem State.write_wf (s : State) (loc : Nat) (bs : List Byte) (h : Memory.wf s.mem = true) :
    Memory.wf (State.write s loc bs).mem = true := by
  simp [State.write, h]
@[simp] theorem State.care1_mem (s : State) (t ev detail : Nat) : (State.care1 s t ev detail).mem = s.mem := by
  rfl
@[simp] theorem State.raise_mem (s : State) (b : Nat) : (State.raise s b).mem = s.mem := by
  rfl
@[simp] theorem State.book_mem (s : State) (t mw : Nat) : (State.book s t mw).mem = s.mem := by
  rfl
@[simp] theorem State.unbook_mem (s : State) (t mw : Nat) : (State.unbook s t mw).mem = s.mem := by
  rfl
@[simp] theorem State.withdrawLeave_mem (s : State) (t k : Nat) : (State.withdrawLeave s t k).mem = s.mem := by
  rfl
@[simp] theorem State.post_mem (s : State) (m : Msg) (src dst : Nat) (data : Bool) :
    (State.post s m src dst data).mem = s.mem := by
  rfl
@[simp] theorem State.dropFlight_mem (s : State) (n : Nat) : (State.dropFlight s n).mem = s.mem := by
  rfl
@[simp] theorem State.hwStitch_mem (s : State) (t dst label : Nat) (elem : Bool) (unit : Nat) (status : BitVec 4) (w0 w1 : Word) (handle : Option (BitVec 32)) :
    (State.hwStitch s t dst label elem unit status w0 w1 handle).mem = s.mem := by
  rfl
@[simp] theorem State.giveBack_mem (s : State) (t : Nat) (st : Stitch) (status : BitVec 4) (counts : Bool) :
    (State.giveBack s t st status counts).mem = s.mem := by
  unfold State.giveBack; repeat' split
  all_goals simp
@[simp] theorem State.syncOvf_wf (s : State) (t : Nat) (h : Memory.wf s.mem = true) :
    Memory.wf (State.syncOvf s t).mem = true := by
  unfold State.syncOvf
  refine foldl_wf _ (fun a b ha => ?_) _ _ h
  split <;> simp [ha]
@[simp] theorem State.freePocket_wf (s : State) (t l : Nat) (h : Memory.wf s.mem = true) :
    Memory.wf (State.freePocket s t l).mem = true := by
  simp only [State.freePocket]
  exact State.syncOvf_wf _ _ (by rw [foldl_mem _ (fun a b => by simp)]; exact h)
@[simp] theorem State.exitActor_wf (s : State) (t n : Nat) (h : Memory.wf s.mem = true) :
    Memory.wf (State.exitActor s t n).mem = true := by
  unfold State.exitActor; repeat' split
  all_goals first
    | exact h
    | exact foldl_wf _ (fun a b h => by simp [h]) _ _ (by simp [h])
@[simp] theorem State.report_mem (s : State) (t unit : Nat) (status : BitVec 4) (w0 w1 : Word) :
    (State.report s t unit status w0 w1).mem = s.mem := by
  unfold State.report; dsimp only; repeat' split
  all_goals simp_all
@[simp] theorem State.notify_mem (s : State) (t k : Nat) (a : Alloc) (target w0 w1 : Word) :
    (State.notify s t k a target w0 w1).mem = s.mem := by
  unfold State.notify; repeat' split
  all_goals simp
@[simp] theorem State.inject_mem (s : State) (t k : Nat) (dst label : Nat) (h : Option (BitVec 32)) (two : Bool) (w0 w1 : Word) (rel : Bool) :
    (State.inject s t k dst label h two w0 w1 rel).mem = s.mem := by
  rfl
@[simp] theorem State.refuseHere_wf (s : State) (t k : Nat) (dst label : Nat) (h : Option (BitVec 32)) (two : Bool) (w0 w1 : Word)
    (hw : Memory.wf s.mem = true) : Memory.wf (State.refuseHere s t k dst label h two w0 w1).mem = true :=
  State.syncOvf_wf _ _ hw
@[simp] theorem State.countSent_mem (s : State) (l : Option Nat) : (State.countSent s l).mem = s.mem := by
  unfold State.countSent; repeat' split
  all_goals simp
@[simp] theorem State.sendFrom_wf (s : State) (t k : Nat) (dst label : Nat) (h : Option (BitVec 32)) (two : Bool) (w0 w1 : Word) (rel : Bool)
    (hw : Memory.wf s.mem = true) : Memory.wf (State.sendFrom s t k dst label h two w0 w1 rel).mem = true := by
  unfold State.sendFrom; repeat' split
  all_goals simp [hw]
@[simp] theorem State.serveSteal_wf (s : State) (t k n : Nat) (h : Memory.wf s.mem = true) :
    Memory.wf (State.serveSteal s t k n).mem = true := by
  unfold State.serveSteal; dsimp only; repeat' split
  all_goals simp [h]
@[simp] theorem State.returnLeave_mem (s : State) (t k : Nat) : (State.returnLeave s t k).mem = s.mem := by
  unfold State.returnLeave; repeat' split
  all_goals simp
@[simp] theorem State.withdrawFe_mem (s : State) (t k : Nat) : (State.withdrawFe s t k).mem = s.mem := by
  rfl
@[simp] theorem State.dropWait_mem (s : State) (t k : Nat) : (State.dropWait s t k).mem = s.mem := by
  rfl
@[simp] theorem State.endHandler_wf (s : State) (t k : Nat) (h : Memory.wf s.mem = true) :
    Memory.wf (State.endHandler s t k).mem = true := by
  unfold State.endHandler; dsimp only; repeat' split
  all_goals simp [h]
@[simp] theorem State.endDying_wf (s : State) (t k : Nat) (cause raiser : Word) (h : Memory.wf s.mem = true) :
    Memory.wf (State.endDying s t k cause raiser).mem = true := by
  simp [State.endDying, h]
@[simp] theorem State.doubleTrap_wf (s : State) (t k : Nat) (cause raiser : Word) (h : Memory.wf s.mem = true) :
    Memory.wf (State.doubleTrap s t k cause raiser).mem = true := by
  unfold State.doubleTrap; (try dsimp only); repeat' split
  all_goals simp [h]
@[simp] theorem State.takeTrap_wf (s : State) (t k : Nat) (cause pcRec raiser val : Word) (h : Memory.wf s.mem = true) :
    Memory.wf (State.takeTrap s t k cause pcRec raiser val).mem = true := by
  unfold State.takeTrap; (try dsimp only); repeat' split
  all_goals simp [h]
@[simp] theorem State.trap_wf (s : State) (cause sub : Nat) (val : Word) (h : Memory.wf s.mem = true) :
    Memory.wf (State.trap s cause sub val).mem = true := by
  unfold State.trap; (try dsimp only); repeat' split
  all_goals simp [h]
@[simp] theorem State.trapIllegal_wf (s : State) (i : Instr) (h : Memory.wf s.mem = true) :
    Memory.wf (State.trapIllegal s i).mem = true := by
  unfold State.trapIllegal; (try dsimp only); repeat' split
  all_goals simp [h]
@[simp] theorem State.trapPriv_wf (s : State) (i : Instr) (h : Memory.wf s.mem = true) :
    Memory.wf (State.trapPriv s i).mem = true := by
  unfold State.trapPriv; (try dsimp only); repeat' split
  all_goals simp [h]
@[simp] theorem State.fpEnd_wf (s : State) (x : Exc) (rm draws : Nat) (f : Slot → Slot) (h : Memory.wf s.mem = true) :
    Memory.wf (State.fpEnd s x rm draws f).mem = true := by
  unfold State.fpEnd; (try dsimp only); repeat' split
  all_goals simp [h]
@[simp] theorem State.onSlot_mem (s : State) (rs : List (BitVec 5)) (f : Slot → Slot) : (State.onSlot s rs f).mem = s.mem := by
  unfold State.onSlot; repeat' split
  all_goals simp
@[simp] theorem State.alu_mem (s : State) (d a b : BitVec 5) (f : Word → Word → Word) : (State.alu s d a b f).mem = s.mem := by
  simp [State.alu]
@[simp] theorem State.aluImm_mem (s : State) (d a : BitVec 5) (imm : Slot → Word) (f : Word → Word → Word) :
    (State.aluImm s d a imm f).mem = s.mem := by
  simp [State.aluImm]
@[simp] theorem State.lanes_mem (s : State) (w : BitVec 3) (d : BitVec 3) (m : BitVec 2) (z : BitVec 1) (f : Slot → Nat → Nat) :
    (State.lanes s w d m z f).mem = s.mem := by
  rfl
@[simp] theorem State.lanes2_mem (s : State) (w : BitVec 3) (d a b : BitVec 3) (m : BitVec 2) (z : BitVec 1) (f : Nat → Nat → Nat → Nat) :
    (State.lanes2 s w d a b m z f).mem = s.mem := by
  rfl
@[simp] theorem State.cacheWalk_mem (s : State) (t : Nat) (a : BitVec 12) (g : BitVec 4) (va : Word) (e : Word) (l : Nat) (read : List WalkEnt) :
    (State.cacheWalk s t a g va e l read).mem = s.mem := by
  rfl
@[simp] theorem State.walkEnd_mem (s : State) (t u : Nat) : (State.walkEnd s t u).mem = s.mem := by
  rfl
@[simp] theorem State.walkOn_mem (s : State) (t u : Nat) (a : BitVec 12) (g : BitVec 4) (va : Word) :
    (State.walkOn s t u a g va).mem = s.mem := by
  unfold State.walkOn; dsimp only; repeat' split
  all_goals simp_all
@[simp] theorem State.dropWalkers_mem (s : State) (i : InvKind) (here : Nat → Bool) :
    (State.dropWalkers s i here).mem = s.mem := by
  rfl
theorem State.holdRead_mem {s : State} {t k locs s1 b} (e : s.holdRead t k locs = some (s1, b)) : s1.mem = s.mem := by
  unfold State.holdRead at e; dsimp only at e; split at e
  · cases e; simp
  · cases hf : locs.find? fun l => !s.pathOpen t l || s.routeHeld s.seq l with
    | none => simp [hf] at e
    | some l => simp only [hf, Option.map_some, Option.some.injEq] at e; cases e; simp
@[simp] theorem State.needleTr_mem (s : State) (t k : Nat) (kind : AccKind) (va : Word) :
    (State.needleTr s t k kind va).1.mem = s.mem := by
  unfold State.needleTr; dsimp only; repeat' split
  all_goals first
    | (simp; done)
    | (rename_i q; simp [State.holdRead_mem q])
/-- A check of an access leaves memory as it is. -/
theorem State.checkIn_trap {s : State} {t k i kind allowed va n s1 c sub v}
    (e : s.checkIn t k i kind allowed va n = .trap s1 c sub v) : s1.mem = s.mem := by
  have m := State.needleTr_mem s t k kind va
  unfold State.checkIn at e
  repeat' split at e
  all_goals simp_all
theorem State.checkIn_wait {s : State} {t k i kind allowed va n s1}
    (e : s.checkIn t k i kind allowed va n = .wait s1) : s1.mem = s.mem := by
  have m := State.needleTr_mem s t k kind va
  unfold State.checkIn at e
  repeat' split at e
  all_goals simp_all
theorem State.checkIn_ok {s : State} {t k i kind allowed va n s1 p fe}
    (e : s.checkIn t k i kind allowed va n = .ok s1 p fe) : s1.mem = s.mem := by
  have m := State.needleTr_mem s t k kind va
  unfold State.checkIn at e
  repeat' split at e
  all_goals simp_all
theorem State.check_trap {s : State} {t k i kind va n s1 c sub v} (e : s.check t k i kind va n = .trap s1 c sub v) :
    s1.mem = s.mem := State.checkIn_trap e
theorem State.check_wait {s : State} {t k i kind va n s1} (e : s.check t k i kind va n = .wait s1) :
    s1.mem = s.mem := State.checkIn_wait e
theorem State.check_ok {s : State} {t k i kind va n s1 p fe} (e : s.check t k i kind va n = .ok s1 p fe) :
    s1.mem = s.mem := State.checkIn_ok e
theorem State.fetch_word {s : State} {t k va s1 w} (e : s.fetch t k va = .word s1 w) : s1.mem = s.mem := by
  have m := State.needleTr_mem s t k .fetch va
  unfold State.fetch at e
  repeat' split at e
  all_goals simp_all
theorem State.fetch_wait {s : State} {t k va s1} (e : s.fetch t k va = .wait s1) : s1.mem = s.mem := by
  have m := State.needleTr_mem s t k .fetch va
  unfold State.fetch at e
  repeat' split at e
  all_goals first
    | (simp_all; done)
    | (rename_i q _; cases e; simp_all [State.holdRead_mem q])
    | (rename_i q; cases e; simp_all [State.holdRead_mem q])
theorem State.fetch_trap {s : State} {t k va s1 c f} (e : s.fetch t k va = .trap s1 c f) : s1.mem = s.mem := by
  have m := State.needleTr_mem s t k .fetch va
  unfold State.fetch at e
  repeat' split at e
  all_goals first
    | (simp_all; done)
    | (rename_i q _; cases e; simp_all [State.holdRead_mem q])
    | (rename_i q; cases e; simp_all [State.holdRead_mem q])
@[simp] theorem State.dropWalks_mem (s : State) (i : InvKind) (panel : Option Nat) :
    (State.dropWalks s i panel).mem = s.mem := by
  rfl
@[simp] theorem State.raiseLow_mem (s : State) (i : InvKind) : (State.raiseLow s i).mem = s.mem := by
  unfold State.raiseLow; repeat' split
  all_goals simp
@[simp] theorem State.invalidate_wf (s : State) (i : InvKind) (panel : Option Nat) (h : Memory.wf s.mem = true) :
    Memory.wf (State.invalidate s i panel).mem = true := by
  unfold State.invalidate; dsimp only; repeat' split
  all_goals simp_all
@[simp] theorem State.setAsid_mem (s : State) (a : Nat) (v : Word) : (State.setAsid s a v).mem = s.mem := by
  rfl
@[simp] theorem State.resumeGen_mem (s : State) (t g : Nat) : (State.resumeGen s t g).mem = s.mem := by
  unfold State.resumeGen; repeat' split
  all_goals simp
@[simp] theorem State.rebind_mem (s : State) (port k : Nat) (v : Word) : (State.rebind s port k v).mem = s.mem := by
  rfl
@[simp] theorem State.setReladv_mem (s : State) (t : Nat) (v : Word) : (State.setReladv s t v).mem = s.mem := by
  rfl
@[simp] theorem State.setReach_mem (s old : State) : (State.setReach s old).mem = s.mem := by
  simp only [State.setReach, State.stamp_mem]
@[simp] theorem State.setTileReg_mem (s : State) (t off : Nat) (v : Word) : (State.setTileReg s t off v).mem = s.mem := by
  unfold State.setTileReg; repeat' split
  all_goals simp
@[simp] theorem State.setArrayReg_mem (s : State) (t off : Nat) (v : Word) : (s.setArrayReg t off v).mem = s.mem := by
  unfold State.setArrayReg; repeat' split
  all_goals simp
@[simp] theorem State.ctlWrite_mem (s : State) (pa : Nat) (v : Word) : (s.ctlWrite pa v).mem = s.mem := by
  unfold State.ctlWrite; dsimp only; repeat' split
  all_goals simp_all
@[simp] theorem State.ctlStore_mem (s : State) (pa : Nat) (bs : List Byte) : (s.ctlStore pa bs).mem = s.mem := by
  simp [State.ctlStore]
@[simp] theorem State.amoAt_wf (s : State) (loc op b x exp : Nat) (h : Memory.wf s.mem = true) :
    Memory.wf (State.amoAt s loc op b x exp).1.mem = true := by
  unfold State.amoAt; dsimp only; repeat' split
  all_goals simp_all
@[simp] theorem State.noteStore_mem (s : State) (id t u loc n : Nat) (rel : Bool) :
    (State.noteStore s id t u loc n rel).mem = s.mem := by
  unfold State.noteStore; split <;> rfl
@[simp] theorem State.expose_mem (s : State) (loc : Nat) (bs : List Byte) : (State.expose s loc bs).mem = s.mem := rfl
@[simp] theorem State.noteX_mem (s u : State) : (State.noteX s u).mem = u.mem := by
  unfold State.noteX; split <;> rfl
@[simp] theorem State.amoBy_wf (s : State) (id t u loc op b x exp : Nat) (h : Memory.wf s.mem = true) :
    Memory.wf (State.amoBy s id t u loc op b x exp).1.mem = true := by
  unfold State.amoBy; split <;> simp [h]
@[simp] theorem State.outWrite_wf (s : State) (loc : Nat) (bs : List Byte) (h : Memory.wf s.mem = true) :
    Memory.wf (State.outWrite s loc bs).mem = true := by
  simp [State.outWrite, h]
@[simp] theorem State.outPerform_wf (s : State) (op : OutOp) (loc : Nat) (h : Memory.wf s.mem = true) :
    Memory.wf (State.outPerform s op loc).mem = true := by
  unfold State.outPerform; (try dsimp only); repeat' split
  all_goals simp [h]
@[simp] theorem State.feServeNeedle_wf (s : State) (t k : Nat) (p : Pend) (h : Memory.wf s.mem = true) :
    Memory.wf (State.feServeNeedle s t k p).mem = true := by
  unfold State.feServeNeedle; repeat' split
  all_goals simp [h]
@[simp] theorem State.performElem_wf (s : State) (t : Nat) (o : ElemOp) (h : Memory.wf s.mem = true) :
    Memory.wf (State.performElem s t o).mem = true := by
  unfold State.performElem; repeat' split
  all_goals simp [h]
@[simp] theorem State.feServe_wf (s : State) (q : FeReq) (h : Memory.wf s.mem = true) :
    Memory.wf (State.feServe s q).mem = true := by
  unfold State.feServe; repeat' split
  all_goals simp [h]
theorem State.serveWord_wf (w : Nat) : ∀ (n : Nat) (s : State), Memory.wf s.mem = true →
    Memory.wf (State.serveWord n s w).mem = true := by
  intro n
  induction n with
  | zero => intro s h; exact h
  | succ n ih =>
    intro s h
    unfold State.serveWord
    split
    · split
      · exact h
      · exact ih _ (State.feServe_wf _ _ h)
    · exact h
@[simp] theorem State.serve_wf (s : State) (w : Nat) (h : Memory.wf s.mem = true) : Memory.wf (s.serve w).mem = true :=
  State.serveWord_wf w _ s h
@[simp] theorem State.serveAll_wf (s : State) (ws : List Nat) (h : Memory.wf s.mem = true) :
    Memory.wf (s.serveAll ws).mem = true := foldl_wf _ (fun a b h => State.serve_wf a b h) ws s h
@[simp] theorem State.feRequest_wf (s : State) (who : FeWho) (w : Nat) (h : Memory.wf s.mem = true) :
    Memory.wf (s.feRequest who w).mem = true := by
  unfold State.feRequest; dsimp only; split
  · exact State.serve_wf _ _ (State.feServe_wf _ _ h)
  · exact State.serve_wf _ _ h
@[simp] theorem State.feIssue_wf (s : State) (t k : Nat) (dst : List (BitVec 5)) (kind : PendKind) (va : Word) (loc : Nat)
    (h : Memory.wf s.mem = true) : Memory.wf (s.feIssue t k dst kind va loc).mem = true := by
  unfold State.feIssue; dsimp only; split
  · exact h
  · exact State.feRequest_wf _ _ _ h
@[simp] theorem State.pollWait_mem (s : State) (t u w : Nat) : (State.pollWait s t u w).mem = s.mem := by
  unfold State.pollWait; split <;> rfl
@[simp] theorem State.pollDone_wf (s : State) (t u : Nat) (h : Memory.wf s.mem = true) :
    Memory.wf (State.pollDone s t u).mem = true := by
  unfold State.pollDone; dsimp only; split
  · exact h
  · exact State.serveAll_wf _ _ h
@[simp] theorem State.systemAck_mem (s : State) (t i : Nat) : (State.systemAck s t i).mem = s.mem := by
  unfold State.systemAck; repeat' split
  all_goals rfl
@[simp] theorem State.performLanes_mem (s : State) (t k : Nat) (p : Pend) (only : Option Nat) :
    (State.performLanes s t k p only).mem = s.mem := by
  unfold State.performLanes; split <;> (try dsimp only) <;> repeat' split
  all_goals first
    | rfl
    | simp
@[simp] theorem State.performPend_wf (s : State) (t k : Nat) (p : Pend) (h : Memory.wf s.mem = true) :
    Memory.wf (State.performPend s t k p).mem = true := by
  unfold State.performPend; repeat' split
  all_goals simp [h]
@[simp] theorem State.pendIssue_wf (s : State) (dst : List (BitVec 5)) (kind : PendKind) (va : Word) (p : Place) (acq : Bool)
    (h : Memory.wf s.mem = true) : Memory.wf (s.pendIssue dst kind va p acq).mem = true := by
  cases p with
  | store t' off =>
    simp only [State.pendIssue]
    split
    · exact State.performPend_wf _ _ _ _ h
    · exact h
  | _ => exact h
@[simp] theorem State.needleLoad_wf (s : State) (i : Instr) (dst : List (BitVec 5)) (size : Nat) (sgn acq : Bool) (va : Word)
    (h : Memory.wf s.mem = true) : Memory.wf (s.needleLoad i dst size sgn acq va).mem = true := by
  unfold State.needleLoad
  split
  · rename_i e; simp [State.check_wait e, h]
  · rename_i e; simp [State.check_trap e, h]
  · rename_i e
    have m := State.check_ok e
    repeat' split
    all_goals simp [m, h]
@[simp] theorem State.apply_wf (s : State) (loc : Nat) (bs : List Byte) (fe : Bool) (h : Memory.wf s.mem = true) :
    Memory.wf (s.apply loc bs fe).mem = true := by
  unfold State.apply; dsimp only; split
  · exact State.serveAll_wf _ _ (by simp [h])
  · simp [h]
@[simp] theorem State.enterStore_mem (s : State) (t k : Nat) (va : Word) (loc : Nat) (bs : List Byte) (fe rel : Bool) :
    (State.enterStore s t k va loc bs fe rel).mem = s.mem := by
  rfl
@[simp] theorem State.storeLeaves_wf (s : State) (va : Word) (p : Place) (fe rel : Bool) (bs : List Byte) (h : Memory.wf s.mem = true) :
    Memory.wf (State.storeLeaves s va p fe rel bs).mem = true := by
  unfold State.storeLeaves; repeat' split
  all_goals simp [h]
@[simp] theorem State.needleStore_wf (s : State) (i : Instr) (allowed : Nat → Place → Bool) (va : Word) (bs : List Byte)
    (rel sys : Bool) (h : Memory.wf s.mem = true) : Memory.wf (s.needleStore i allowed va bs rel sys).mem = true := by
  unfold State.needleStore
  split
  · rename_i e; simp [State.checkIn_wait e, h]
  · rename_i e; simp [State.checkIn_trap e, h]
  · rename_i e
    have m := State.checkIn_ok e
    split <;> simp [m, h]
@[simp] theorem State.enterEmpty_mem (s : State) (t k : Nat) (va : Word) (loc : Nat) (v : Word) :
    (State.enterEmpty s t k va loc v).mem = s.mem := by
  rfl
@[simp] theorem State.storeEmpty_wf (s : State) (loc : Nat) (bs : List Byte) (h : Memory.wf s.mem = true) :
    Memory.wf (s.storeEmpty loc bs).mem = true := by
  unfold State.storeEmpty; simp [h]
@[simp] theorem State.applyStore_wf (s : State) (e : StoreEnt) (h : Memory.wf s.mem = true) :
    Memory.wf (s.applyStore e).mem = true := by
  unfold State.applyStore; split <;> simp [h]
@[simp] theorem State.dropStore_mem (s : State) (t : Nat) (e : StoreEnt) : (s.dropStore t e).mem = s.mem := by
  rfl
@[simp] theorem State.refuseStore_mem (s : State) (t : Nat) (e : StoreEnt) (cause sub : Nat) :
    (s.refuseStore t e cause sub).mem = s.mem := by
  unfold State.refuseStore; split <;> simp
@[simp] theorem State.ackStore_wf (s : State) (t : Nat) (e : StoreEnt) (h : Memory.wf s.mem = true) :
    Memory.wf (s.ackStore t e).mem = true := by
  unfold State.ackStore; repeat' split
  all_goals simp [h]
@[simp] theorem State.ackOne_wf (s : State) (t i : Nat) (h : Memory.wf s.mem = true) :
    Memory.wf (s.ackOne t i).mem = true := by
  unfold State.ackOne; repeat' split
  all_goals simp [h]
@[simp] theorem State.needleAmo_wf (s : State) (i : Instr) (allowed : Nat → Place → Bool) (dst : List (BitVec 5)) (op n : Nat)
    (va : Word) (x e : BitVec 128) (acq rel sys : Bool) (h : Memory.wf s.mem = true) :
    Memory.wf (s.needleAmo i allowed dst op n va x e acq rel sys).mem = true := by
  unfold State.needleAmo
  split
  · rename_i e; simp [State.checkIn_wait e, h]
  · rename_i e; simp [State.checkIn_trap e, h]
  · rename_i e
    have m := State.checkIn_ok e
    repeat' split
    all_goals simp [m, h]
theorem State.checkAll_trap {t k : Nat} {i : Instr} {kind : AccKind} {n : Nat} : ∀ {vs : List Word} {s :
    State} {acc s1 c sub v},
    State.checkAll t k i kind n vs s acc = .trap s1 c sub v → s1.mem = s.mem
  | [], s, acc, s1, c, sub, v, e => by simp [State.checkAll] at e
  | va :: r, s, acc, s1, c, sub, v, e => by
    unfold State.checkAll at e
    split at e
    · cases e
    · rename_i q; cases e; exact State.check_trap q
    · rename_i q; exact (State.checkAll_trap e).trans (State.check_ok q)
theorem State.checkAll_wait {t k : Nat} {i : Instr} {kind : AccKind} {n : Nat} : ∀ {vs : List Word} {s : State} {acc s1},
    State.checkAll t k i kind n vs s acc = .wait s1 → s1.mem = s.mem
  | [], s, acc, s1, e => by simp [State.checkAll] at e
  | va :: r, s, acc, s1, e => by
    unfold State.checkAll at e
    split at e
    · rename_i q; cases e; exact State.check_wait q
    · cases e
    · rename_i q; exact (State.checkAll_wait e).trans (State.check_ok q)
theorem State.checkAll_ok {t k : Nat} {i : Instr} {kind : AccKind} {n : Nat} : ∀ {vs : List Word} {s : State} {acc s1 ps},
    State.checkAll t k i kind n vs s acc = .ok s1 ps → s1.mem = s.mem
  | [], s, acc, s1, ps, e => by simp [State.checkAll] at e; rw [e.1]
  | va :: r, s, acc, s1, ps, e => by
    unfold State.checkAll at e
    split at e
    · cases e
    · cases e
    · rename_i q; exact (State.checkAll_ok e).trans (State.check_ok q)
@[simp] theorem State.spillPiece_wf (s : State) (t k : Nat) (x : Word × Place × Bool) (bs : List Byte) (h : Memory.wf s.mem = true) :
    Memory.wf (State.spillPiece s t k x bs).mem = true := by
  unfold State.spillPiece; repeat' split
  all_goals simp [h]
/-- A spill of the oldest window enters stores; a fill reads: memory is as it was. -/
theorem State.spill_mem {s : State} {t k i} :
    (∀ s1, s.spill t k i = .wait s1 → s1.mem = s.mem) ∧ (∀ s1 c sub v, s.spill t k i = .trap s1 c sub v → s1.mem = s.mem)
    ∧ ∀ s1, s.spill t k i = .done s1 → Memory.wf s.mem = true → Memory.wf s1.mem = true := by
  unfold State.spill
  dsimp only
  split
  · exact ⟨fun _ e => (by cases e <;> rfl), fun _ _ _ _ e => (by cases e), fun _ e => (by cases e)⟩
  · split
    · rename_i q
      exact ⟨fun _ e => (by cases e <;> exact State.checkAll_wait q), fun _ _ _ _ e => (by cases e), fun _ e => (by cases e)⟩
    · rename_i q
      exact ⟨fun _ e => (by cases e), fun _ _ _ _ e => (by cases e <;> exact State.checkAll_trap q), fun _ e => (by cases e)⟩
    · rename_i q
      have m := State.checkAll_ok q
      split
      · exact ⟨fun _ e => (by cases e), fun _ _ _ _ e => (by cases e <;> exact m), fun _ e => (by cases e)⟩
      · split
        · exact ⟨fun _ e => (by cases e), fun _ _ _ _ e => (by cases e <;> exact m), fun _ e => (by cases e)⟩
        · split
          · exact ⟨fun _ e => (by cases e <;> exact m), fun _ _ _ _ e => (by cases e), fun _ e => (by cases e)⟩
          · refine ⟨fun _ e => (by cases e), fun _ _ _ _ e => (by cases e), fun s1 e h => ?_⟩
            cases e
            exact foldl_wf _ (fun a b h => State.spillPiece_wf a _ _ _ _ h) _ _ (by rw [m]; exact h)
theorem State.fillWindow_wf {s : State} {t k i} (h : Memory.wf s.mem = true) :
    (∀ s1, s.fillWindow t k i = .wait s1 → Memory.wf s1.mem = true)
    ∧ (∀ s1 c sub v, s.fillWindow t k i = .trap s1 c sub v → Memory.wf s1.mem = true)
    ∧ ∀ s1, s.fillWindow t k i = .done s1 → Memory.wf s1.mem = true := by
  unfold State.fillWindow
  dsimp only
  split
  · rename_i q
    exact ⟨fun _ e => (by cases e <;> simp [State.checkAll_wait q, h]), fun _ _ _ _ e => (by cases e), fun _ e => (by cases e)⟩
  · rename_i q
    exact ⟨fun _ e => (by cases e), fun _ _ _ _ e => (by cases e <;> simp [State.checkAll_trap q, h]), fun _ e => (by cases e)⟩
  · rename_i q
    have m := State.checkAll_ok q
    repeat' split
    all_goals
      refine ⟨fun _ e => ?_, fun _ _ _ _ e => ?_, fun _ e => ?_⟩ <;> cases e <;> first
        | (simp [m, h]; done)
        | (rename_i r; simp [State.holdRead_mem r, m, h]; done)
@[simp] theorem State.startHandler_mem (s : State) (t k l : Nat) (st : Stitch) :
    (State.startHandler s t k l st).mem = s.mem := by
  rfl
@[simp] theorem State.answer_mem (s : State) (t : Nat) (st : Stitch) : (State.answer s t st).mem = s.mem := by
  unfold State.answer; repeat' split
  all_goals simp
@[simp] theorem State.holdOrReturn_mem (s : State) (t label : Nat) (orphan : Bool) (st : Stitch) :
    (State.holdOrReturn s t label orphan st).mem = s.mem := by
  unfold State.holdOrReturn; dsimp only; repeat' split
  all_goals simp_all
@[simp] theorem State.placeLive_mem (s : State) (t : Nat) (st : Stitch) : (State.placeLive s t st).mem = s.mem := by
  unfold State.placeLive; dsimp only; repeat' split
  all_goals simp_all
@[simp] theorem State.arrive_mem (s : State) (t : Nat) (st : Stitch) : (State.arrive s t st).mem = s.mem := by
  unfold State.arrive; dsimp only; repeat' split
  all_goals simp_all
@[simp] theorem State.plogWrite_wf (s : State) (t : Nat) (e : Word) (h : Memory.wf s.mem = true) :
    Memory.wf (State.plogWrite s t e).mem = true := by
  unfold State.plogWrite; dsimp only; repeat' split
  all_goals simp_all
@[simp] theorem State.pickOne_wf (s : State) (t : Nat) (h : Memory.wf s.mem = true) :
    Memory.wf (State.pickOne s t).mem = true := by
  unfold State.pickOne; dsimp only; repeat' split
  all_goals simp_all
@[simp] theorem State.plog_mem (s : State) (d a b : BitVec 3) (f : Bool → Bool → Bool) :
    (State.plog s d a b f).mem = s.mem := by
  rfl
@[simp] theorem State.callTo_wf (s : State) (i : Instr) (target : Word) (h : Memory.wf s.mem = true) :
    Memory.wf (s.callTo i target).mem = true := by
  unfold State.callTo
  dsimp only
  repeat' split
  all_goals try (simp [h]; done)
  · rename_i q
    split at q
    · cases q
    · rw [State.spill_mem.1 _ q]; exact h
  · rename_i q
    split at q
    · cases q
    · exact State.trap_wf _ _ _ _ (by rw [State.spill_mem.2.1 _ _ _ _ q]; exact h)
  · rename_i q
    rw [State.modCur_mem]
    split at q
    · cases q; exact h
    · exact State.spill_mem.2.2 _ q h
@[simp] theorem State.countReceived_mem (s : State) (l : Option Nat) : (State.countReceived s l).mem = s.mem := by
  unfold State.countReceived; repeat' split
  all_goals simp
theorem State.trySend_wf (s : State) (t k dst label : Nat) (h : Option (BitVec 32)) (two : Bool) (w0 w1 : Word) (rel : Bool) (u : State)
    (e : State.trySend s t k dst label h two w0 w1 rel = some u) (hw : Memory.wf s.mem = true) : Memory.wf u.mem = true := by
  unfold State.trySend at e; dsimp only at e; repeat' split at e
  all_goals first | (cases e; simp [hw]; done) | cases e
@[simp] theorem State.send_wf (s : State) (rs : List (BitVec 5)) (target w0 w1 : Word) (two rel : Bool) (h : Memory.wf s.mem = true) :
    Memory.wf (s.send rs target w0 w1 two rel).mem = true := by
  unfold State.send
  repeat' split
  all_goals first
    | (simp [h]; done)
    | (rename_i q; simp [State.trySend_wf _ _ _ _ _ _ _ _ _ _ _ q h])
@[simp] theorem State.resumePair_mem (s : State) (t dst label : Nat) : (State.resumePair s t dst label).mem = s.mem := by
  rfl
theorem State.readBlock_wf {s : State} {i va al n} (h : Memory.wf s.mem = true) :
    (∀ s1 bs, s.readBlock i va al n = .got s1 bs → Memory.wf s1.mem = true)
    ∧ (∀ s1, s.readBlock i va al n = .wait s1 → Memory.wf s1.mem = true)
    ∧ ∀ s1 c sub v, s.readBlock i va al n = .trap s1 c sub v → Memory.wf s1.mem = true := by
  unfold State.readBlock
  split
  · exact ⟨fun _ _ e => (by cases e), fun _ e => (by cases e), fun _ _ _ _ e => (by cases e <;> exact h)⟩
  · split
    · rename_i q
      exact ⟨fun _ _ e => (by cases e), fun _ e => (by cases e <;> simp [State.checkAll_wait q, h]), fun _ _ _ _ e => (by cases e)⟩
    · rename_i q
      exact ⟨fun _ _ e => (by cases e), fun _ e => (by cases e),
        fun _ _ _ _ e => (by cases e <;> simp [State.checkAll_trap q, h])⟩
    · rename_i q
      have m := State.checkAll_ok q
      dsimp only
      repeat' split
      all_goals
        refine ⟨fun _ _ e => ?_, fun _ e => ?_, fun _ _ _ _ e => ?_⟩ <;> cases e <;> first
          | (simp [m, h]; done)
          | (rename_i r; simp [State.holdRead_mem r, m, h]; done)
@[simp] theorem State.stallCount_mem (s old : State) (t : Nat) : (State.stallCount s old t).mem = s.mem := by
  unfold State.stallCount; (try dsimp only); repeat' split
  all_goals simp
@[simp] theorem State.pbind_wf (s : State) (bs : List Byte) (h : Memory.wf s.mem = true) :
    Memory.wf (State.pbind s bs).1.mem = true := by
  unfold State.pbind; (try dsimp only); repeat' split
  all_goals simp [h]
@[simp] theorem State.finish_mem (s : State) (d : BitVec 5) (v : Word) : (State.finish s d v).mem = s.mem := by
  rfl
@[simp] theorem State.pfree_wf (s : State) (t l : Nat) (h : Memory.wf s.mem = true) :
    Memory.wf (State.pfree s t l).mem = true := by
  unfold State.pfree; (try dsimp only); repeat' split
  all_goals simp [h]
@[simp] theorem State.pushTask_wf (s : State) (n : Nat) (d : BitVec 5) (w0 w1 : Word) (h : Memory.wf s.mem = true) :
    Memory.wf (State.pushTask s n d w0 w1).mem = true := by
  unfold State.pushTask; (try dsimp only); repeat' split
  all_goals simp [h]
@[simp] theorem State.spawn_wf (s : State) (n : Nat) (d : BitVec 5) (w0 w1 : Word) (h : Memory.wf s.mem = true) :
    Memory.wf (s.spawn n d w0 w1).mem = true := by
  unfold State.spawn; (try dsimp only)
  repeat' split
  all_goals first
    | (simp [h]; done)
    | (rename_i q; simp [State.trySend_wf _ _ _ _ _ _ _ _ _ _ _ q h])
@[simp] theorem State.selfSteal_wf (s : State) (i : Instr) (n : Nat) (d : BitVec 5) (h : Memory.wf s.mem = true) :
    Memory.wf (State.selfSteal s i n d).mem = true := by
  unfold State.selfSteal; (try dsimp only); repeat' split
  all_goals simp [h]
@[simp] theorem State.remoteSteal_wf (s : State) (d : BitVec 5) (dst : Nat) (hd : Option (BitVec 32)) (target : Word)
    (h : Memory.wf s.mem = true) : Memory.wf (s.remoteSteal d dst hd target).mem = true := by
  unfold State.remoteSteal
  repeat' split
  all_goals first
    | (simp [h]; done)
    | (rename_i q; simp [State.trySend_wf _ _ _ _ _ _ _ _ _ _ _ q h])
@[simp] theorem State.forwardLaunch_mem (s : State) (t : Nat) (st : Stitch) : (State.forwardLaunch s t st).mem = s.mem := by
  unfold State.forwardLaunch; repeat' split
  all_goals simp
theorem State.area_mem {s : State} {t k kind base} :
    (∀ s1, s.area t k kind base = .unreachable s1 → s1.mem = s.mem) ∧ (∀ s1 ps, s.area t k kind base = .places s1 ps → s1.mem = s.mem) := by
  unfold State.area
  dsimp only
  split
  · exact ⟨fun _ e => (by cases e), fun _ _ e => (by cases e)⟩
  · rename_i q
    exact ⟨fun _ e => (by cases e <;> exact State.checkAll_trap q), fun _ _ e => (by cases e)⟩
  · rename_i q
    have m := State.checkAll_ok q
    repeat' split
    all_goals exact ⟨fun _ e => (by cases e <;> exact m), fun _ _ e => (by cases e <;> exact m)⟩
@[simp] theorem State.writeArea_wf (s : State) (ps : List Nat) (img : List Byte) (h : Memory.wf s.mem = true) :
    Memory.wf (s.writeArea ps img).mem = true := by
  unfold State.writeArea
  refine foldl_wf _ (fun a b h => ?_) _ _ h
  dsimp only
  split
  · exact h
  · exact State.write_wf _ _ _ h
@[simp] theorem State.pocketsAway_wf (s : State) (t n : Nat) (h : Memory.wf s.mem = true) :
    Memory.wf (s.pocketsAway t n).mem = true := by
  unfold State.pocketsAway
  refine State.syncOvf_wf _ _ ?_
  rw [foldl_mem _ (fun a b => ?_)]
  · exact h
  · dsimp only
    split
    · exact (foldl_mem _ (fun a b => by simp) _ _).trans (by simp)
    · simp
@[simp] theorem State.pocketsBack_wf (s : State) (t n : Nat) (h : Memory.wf s.mem = true) :
    Memory.wf (State.pocketsBack s t n).mem = true := State.syncOvf_wf _ _ h
@[simp] theorem State.takeDue_wf (s : State) (t k : Nat) (h : Memory.wf s.mem = true) :
    Memory.wf (State.takeDue s t k).mem = true := by
  unfold State.takeDue; (try dsimp only); repeat' split
  all_goals first
    | (simp [h]; done)
    | (rename_i q; simp [State.fetch_trap q, h]; done)
    | (rename_i q _; simp [State.fetch_word q, h]; done)
@[simp] theorem State.withdrawAll_mem (s : State) (t k : Nat) : (State.withdrawAll s t k).mem = s.mem := by
  unfold State.withdrawAll; repeat' split
  all_goals simp
@[simp] theorem State.actStatus_mem (s : State) (t : Nat) (st : BitVec 8) : (State.actStatus s t st).mem = s.mem := by
  rfl
theorem State.evictBound_wf (s : State) (t k n : Nat) (base : Word) (u : State) (e : s.evictBound t k n base = some u)
    (h : Memory.wf s.mem = true) : Memory.wf u.mem = true := by
  unfold State.evictBound at e
  split at e
  · rename_i q; cases e; simp [State.area_mem.1 _ q, h]
  · cases e
  · rename_i q; cases e; simp [State.area_mem.2 _ _ q, h]
theorem State.evict_wf (s : State) (t k n : Nat) (base : Word) (u : State) (e : s.evict t k n base = some u)
    (h : Memory.wf s.mem = true) : Memory.wf u.mem = true := by
  unfold State.evict at e
  dsimp only at e
  split at e
  · exact State.evictBound_wf _ _ _ _ _ _ e h
  · split at e
    · cases e
    · split at e
      · rename_i q; cases e; simp [State.area_mem.1 _ q, h]
      · cases e
      · rename_i s1 ps q
        have hw : Memory.wf ((s1.withdrawAll t ((s.tile t).router.actor n).slot).takeDue t
            ((s.tile t).router.actor n).slot).mem = true := by
          simp [State.area_mem.2 _ _ q, h]
        generalize (s1.withdrawAll t ((s.tile t).router.actor n).slot).takeDue t ((s.tile t).router.actor n).slot = s2 at e hw
        split at e
        · split at e
          · cases e
          · cases e; simp [hw]
        · exact State.evictBound_wf _ _ _ _ _ _ e hw
        · cases e; simp [hw]
  · cases e; simp [h]
theorem State.restore_wf (s : State) (t k n : Nat) (base : Word) (u : State) (e : s.restore t k n base = some u)
    (h : Memory.wf s.mem = true) : Memory.wf u.mem = true := by
  unfold State.restore at e
  dsimp only at e
  split at e
  · cases e; simp [h]
  · split at e
    · rename_i q; cases e; simp [State.area_mem.1 _ q, h]
    · cases e
    · rename_i q
      have m := State.area_mem.2 _ _ q
      split at e
      · split at e
        · cases e
        · cases e; simp [m, h]
      · cases e; simp [m, h]
@[simp] theorem State.setWait_mem (s : State) (t : Nat) (w : Option ActWait) : (State.setWait s t w).mem = s.mem := by
  rfl
@[simp] theorem State.actTry_wf (s : State) (t k : Nat) (v : Word) (h : Memory.wf s.mem = true) :
    Memory.wf (s.actTry t k v).1.mem = true := by
  unfold State.actTry
  split
  · split <;> simp [h]
  · split
    · simp [h]
    · rename_i u q
      have hu : Memory.wf u.mem = true := by
        split at q
        · refine State.evict_wf _ _ _ _ _ _ q ?_
          split <;> simp [h]
        · exact State.restore_wf _ _ _ _ _ _ q h
      split <;> simp [hu]
@[simp] theorem State.completeImage_wf (s : State) (t n : Nat) (a : Actor) (p : Pend) (vals : List Word)
    (h : Memory.wf s.mem = true) : Memory.wf (s.completeImage t n a p vals).mem = true := by
  unfold State.completeImage
  dsimp only
  rw [State.modRouter_mem]
  refine foldl_wf _ (fun x b hx => ?_) _ _ h
  split
  · exact hx
  · repeat' split
    all_goals simp [hx]
@[simp] theorem State.deliver_wf (s : State) (t i : Nat) (vals : List Word) (h : Memory.wf s.mem = true) :
    Memory.wf (s.deliver t i vals).mem = true := by
  unfold State.deliver
  repeat' split
  all_goals simp [h]
@[simp] theorem State.mtsActcmd_wf (s : State) (v : Word) (h : Memory.wf s.mem = true) :
    Memory.wf (s.mtsActcmd v).mem = true := by
  unfold State.mtsActcmd
  dsimp only
  repeat' split
  all_goals simp [h]
@[simp] theorem State.actEvent_wf (s : State) (t op : Nat) (h : Memory.wf s.mem = true) :
    Memory.wf (s.actEvent t op).mem = true := by
  unfold State.actEvent
  dsimp only
  repeat' split
  all_goals simp [h]
@[simp] theorem State.tlbinv_mem (s : State) (i : InvKind) (wafer : Bool) : (State.tlbinv s i wafer).mem = s.mem := by
  simp [State.tlbinv]
@[simp] theorem State.tlbinvCheck_wf (s : State) (i : Instr) (rs : List (BitVec 5)) (a : Word) (k : InvKind) (all : Bool) (h : Memory.wf s.mem = true) :
    Memory.wf (State.tlbinvCheck s i rs a k all).mem = true := by
  unfold State.tlbinvCheck; (try dsimp only); repeat' split
  all_goals simp [h]
/-- The same change of many tiles leaves memory as it is. -/
theorem foldl_modTile_mem (f : Tile → Tile) (l : List Nat) (s : State) : (l.foldl (fun a t => a.modTile t f) s).mem = s.mem := by
  induction l generalizing s with
  | nil => rfl
  | cons t r ih => exact ih _
@[simp] theorem State.invSweep_mem (s : State) (i : InvKind) (panel : Option Nat) : (State.invSweep s i panel).mem = s.mem := by
  unfold State.invSweep
  exact (foldl_modTile_mem _ _ _).trans (State.dropWalks_mem _ _ _)
@[simp] theorem State.invDone_mem (s : State) (src who : Nat) (i : InvKind) (wafer : Bool) :
    (State.invDone s src who i wafer).mem = s.mem := by
  unfold State.invDone; dsimp only; repeat' split
  all_goals simp_all
@[simp] theorem State.takeLeave_mem (s : State) (t k : Nat) (cls : BitVec 2) (n : Nat) :
    (State.takeLeave s t k cls n).1.mem = s.mem := by
  unfold State.takeLeave; dsimp only; repeat' split
  all_goals simp_all
@[simp] theorem State.leave_mem (s : State) (cls : BitVec 2) (d a : BitVec 5) (y : BitVec 1) :
    (State.leave s cls d a y).mem = s.mem := by
  unfold State.leave; dsimp only; repeat' split
  all_goals simp_all
@[simp] theorem State.loaderAsk_mem (s : State) (t : Nat) (qs : List LeaveReq) : (State.loaderAsk s t qs).mem = s.mem := by
  rfl
@[simp] theorem State.loaderGive_mem (s : State) (t : Nat) (which : LeaveReq → Bool) : (State.loaderGive s t which).mem = s.mem := by
  rfl
@[simp] theorem State.loaderReturn_mem (s : State) (t : Nat) : (State.loaderReturn s t).mem = s.mem := by
  rfl
@[simp] theorem State.modSwatch_mem (s : State) (t : Nat) (f : Swatch → Swatch) : (State.modSwatch s t f).mem = s.mem := by
  rfl
@[simp] theorem State.startTest_mem (s : State) (t test unit sub : Nat) (targeted : Bool) :
    (State.startTest s t test unit sub targeted).mem = s.mem := by
  rfl
@[simp] theorem State.advise_mem (s : State) (t result emask bank : Nat) : (State.advise s t result emask bank).mem = s.mem := by
  unfold State.advise; dsimp only; repeat' split
  all_goals simp_all
@[simp] theorem State.adviseTile_mem (s : State) (t : Nat) : (State.adviseTile s t).mem = s.mem := State.advise_mem _ _ _ _ _
@[simp] theorem State.queueTest_mem (s : State) (t : Nat) (x : Test) : (State.queueTest s t x).mem = s.mem := rfl
@[simp] theorem State.fenceHop_mem (s : State) (t d : Nat) : (State.fenceHop s t d).mem = s.mem := by
  rfl
@[simp] theorem State.cordon_mem (s : State) (t : Nat) (x : Test) : (State.cordon s t x).mem = s.mem := by
  unfold State.cordon; dsimp only; repeat' split
  all_goals simp_all
@[simp] theorem State.enterEmap_mem (s : State) (t : Nat) : (State.enterEmap s t).mem = s.mem := by
  unfold State.enterEmap; repeat' split
  all_goals simp
@[simp] theorem State.endTest_mem (s : State) (t i : Nat) (fails cycles result : Nat) :
    (State.endTest s t i fails cycles result).mem = s.mem := by
  have m : ∀ (c : Prop) [Decidable c] (a b : State), a.mem = s.mem → b.mem = s.mem → (if c then a else b).mem = s.mem :=
    fun c _ a b ha hb => by split <;> assumption
  unfold State.endTest
  split
  · rfl
  · dsimp only
    have h1 : ∀ x : Test, (if x.booked = true then
        ((((s.modSwatch t fun y => { y with running := dropAt y.running i, reports := if x.booked = true then ((x.ticket, x.desc, resultWord fails cycles result) :: y.reports).take 16 else y.reports }).care1 t 0x000C (descTest x.desc * 4096 + result)).unbook x.issuer 40).hwStitch t x.issuer 0 false 0 4 x.desc (resultWord fails cycles result) none)
        else ((s.modSwatch t fun y => { y with running := dropAt y.running i, reports := if x.booked = true then ((x.ticket, x.desc, resultWord fails cycles result) :: y.reports).take 16 else y.reports }).care1 t 0x000C (descTest x.desc * 4096 + result))).mem = s.mem :=
      fun x => m _ _ _ (by simp) (by simp)
    split
    · rw [State.advise_mem]; exact m _ _ _ (by rw [State.cordon_mem]; exact h1 _) (h1 _)
    · exact m _ _ _ (by rw [State.cordon_mem]; exact h1 _) (h1 _)
@[simp] theorem State.memError_mem (s : State) (loc : Nat) (double : Bool) : (State.memError s loc double).mem = s.mem := by
  unfold State.memError; dsimp only; repeat' split
  all_goals simp_all
@[simp] theorem State.modElem_mem (s : State) (t e : Nat) (g : Elem → Elem) : (State.modElem s t e g).mem = s.mem := by
  rfl
@[simp] theorem State.modIsland_mem (s : State) (t i : Nat) (g : Island → Island) : (State.modIsland s t i g).mem = s.mem := by
  rfl
@[simp] theorem State.modFold_mem (s : State) (t n : Nat) (g : FoldSlot → FoldSlot) : (State.modFold s t n g).mem = s.mem := by
  rfl
@[simp] theorem State.modPart_mem (s : State) (t : Nat) (g : Part → Part) : (State.modPart s t g).mem = s.mem := by
  rfl
@[simp] theorem State.sinkReport_mem (s : State) (t unit what : Nat) (origin : Word) :
    (State.sinkReport s t unit what origin).mem = s.mem := by
  unfold State.sinkReport; dsimp only; repeat' split
  all_goals simp_all
@[simp] theorem State.boundaryReports_mem (s : State) (t : Nat) : (s.boundaryReports t).mem = s.mem := by
  unfold State.boundaryReports
  rw [State.modFabric_mem]
  refine foldl_mem _ (fun a b => ?_) _ _
  split <;> simp
@[simp] theorem State.wakePart_mem (s : State) (t : Nat) : (State.wakePart s t).mem = s.mem := by
  rfl
@[simp] theorem State.sinkPut_mem (s : State) (d : Nat × Sink) (k : Token) : (State.sinkPut s d k).mem = s.mem := by
  unfold State.sinkPut; repeat' split
  all_goals simp
@[simp] theorem State.sendToken_mem (s : State) (t : Nat) (d : Nat × Sink) (k : Token) :
    (State.sendToken s t d k).mem = s.mem := by
  unfold State.sendToken; dsimp only; repeat' split
  all_goals simp
@[simp] theorem State.wirePush_mem (s : State) (t : Nat) (src : Source) (k : Token) :
    (State.wirePush s t src k).mem = s.mem := by
  unfold State.wirePush; repeat' split
  all_goals simp
@[simp] theorem State.popChan_mem (s : State) (t e k : Nat) : (State.popChan s t e k).mem = s.mem := by
  rfl
@[simp] theorem State.popAll_mem (s : State) (t e : Nat) (f : TForm) : (State.popAll s t e f).mem = s.mem := by
  unfold State.popAll; dsimp only; repeat' split
  all_goals simp_all
@[simp] theorem State.putPred_mem (s : State) (t e : Nat) (k : BitVec 3) (v : Token) :
    (State.putPred s t e k v).mem = s.mem := by
  unfold State.putPred; repeat' split
  all_goals simp
@[simp] theorem State.putDest_mem (s : State) (t e : Nat) (d : BitVec 4) (q : BitVec 3) (c : Nat) (v : Token) :
    (State.putDest s t e d q c v).mem = s.mem := by
  unfold State.putDest; repeat' split
  all_goals simp
@[simp] theorem State.valFire_mem (s : State) (t e : Nat) (v : ValOp) : (State.valFire s t e v).mem = s.mem := by
  simp [State.valFire]
@[simp] theorem State.fireVal_mem (s : State) (i : Instr) : (State.fireVal s i).mem = s.mem := by
  unfold State.fireVal; dsimp only; repeat' split
  all_goals simp_all
@[simp] theorem State.beat_mem (s : State) (t e : Nat) : (State.beat s t e).mem = s.mem := by
  unfold State.beat; dsimp only; repeat' split
  all_goals simp_all
theorem State.fireFixed_mem (s : State) (f : TForm) (ok : Bool) (go : State → Token → Token → State)
    (hgo : ∀ x a b, (go x a b).mem = x.mem) : (s.fireFixed f ok go).mem = s.mem := by
  unfold State.fireFixed
  dsimp only
  split
  · rw [hgo]; simp
  · rfl
@[simp] theorem State.elemSend_mem (s : State) (label : Nat) (two : Bool) (w0 w1 : Word) :
    (State.elemSend s label two w0 w1).mem = s.mem := by
  simp [State.elemSend]
@[simp] theorem State.sig_mem (s : State) (label : Nat) (two : Bool) (a b : Token) :
    (State.sig s label two a b).mem = s.mem := by
  unfold State.sig; repeat' split
  all_goals simp
@[simp] theorem State.stopGen_mem (s : State) (t g reason kind : Nat) (va : Word) :
    (State.stopGen s t g reason kind va).mem = s.mem := by
  simp [State.stopGen]
@[simp] theorem State.genFault_wf (s : State) (t g reason kind : Nat) (va : Word) (h : Memory.wf s.mem = true) :
    Memory.wf (State.genFault s t g reason kind va).mem = true := by
  have h1 := State.pollDone_wf s t g h
  unfold State.genFault
  generalize s.pollDone t g = x at h1
  dsimp only
  repeat' split
  all_goals simp [h1]
@[simp] theorem State.genGo_mem (s : State) (t g : Nat) : (State.genGo s t g).mem = s.mem := by
  rfl
@[simp] theorem State.extentPatch_wf (s : State) (t g : Nat) (h : Memory.wf s.mem = true) :
    Memory.wf (State.extentPatch s t g).mem = true := by
  unfold State.extentPatch; dsimp only; repeat' split
  all_goals simp_all
@[simp] theorem State.offExtents_mem (s : State) (t g : Nat) (va : Word) : (State.offExtents s t g va).mem = s.mem := by
  rfl
@[simp] theorem State.useExtent_mem (s : State) (t g : Nat) (va : Word) : (State.useExtent s t g va).mem = s.mem := by
  rfl
@[simp] theorem State.refuseStream_wf (s : State) (t g reason : Nat) (h : Memory.wf s.mem = true) :
    Memory.wf (State.refuseStream s t g reason).mem = true := by
  unfold State.refuseStream; split <;> simp [h]
@[simp] theorem State.tellOp_mem (s : State) (t : Nat) (o : ElemOp) : (State.tellOp s t o).mem = s.mem := by
  unfold State.tellOp; repeat' split
  all_goals simp
@[simp] theorem State.ldrReply_mem (s : State) (t e k : Nat) : (State.ldrReply s t e k).mem = s.mem := by
  unfold State.ldrReply; dsimp only; repeat' split
  all_goals simp_all
@[simp] theorem State.enterOp_mem (s : State) (t : Nat) (o : ElemOp) : (State.enterOp s t o).mem = s.mem := by
  rfl
@[simp] theorem State.atOnce_mem (s : State) (t : Nat) (o : ElemOp) (v : Token) : (State.atOnce s t o v).mem = s.mem := by
  unfold State.atOnce; repeat' split
  all_goals simp
@[simp] theorem State.fireMem_mem (s : State) (f : TForm) (k : ElemOpKind) : (State.fireMem s f k).mem = s.mem := by
  unfold State.fireMem; dsimp only; repeat' split
  all_goals simp_all
@[simp] theorem State.refuseOp_mem (s : State) (t : Nat) (o : ElemOp) (reason : Nat) :
    (State.refuseOp s t o reason).mem = s.mem := by
  unfold State.refuseOp; dsimp only; split <;> simp
@[simp] theorem State.reissue_mem (s : State) (t : Nat) (o : ElemOp) : (State.reissue s t o).mem = s.mem := by
  unfold State.reissue; dsimp only; repeat' split
  all_goals simp
@[simp] theorem State.memPerform_wf (s : State) (t : Nat) (o : ElemOp) (h : Memory.wf s.mem = true) :
    Memory.wf (s.memPerform t o).mem = true := by
  unfold State.memPerform
  repeat' split
  all_goals simp [h]
@[simp] theorem State.opPathError_mem (s : State) (t u : Nat) (o : ElemOp) : (State.opPathError s t u o).mem = s.mem := by
  unfold State.opPathError; dsimp only; repeat' split
  all_goals simp_all
@[simp] theorem State.deliverRow_mem (s : State) (t unit : Nat) (w : Wire) (r : Row) :
    (State.deliverRow s t unit w r).mem = s.mem := by
  unfold State.deliverRow; dsimp only; repeat' split
  all_goals simp_all
@[simp] theorem State.matReturn_mem (s : State) (t k : Nat) : (State.matReturn s t k).mem = s.mem := by
  unfold State.matReturn; repeat' split
  all_goals simp
@[simp] theorem State.endJob_wf (s : State) (t i n : Nat) (status : Nat) (h : Memory.wf s.mem = true) :
    Memory.wf (s.endJob t i n status).mem = true := by
  unfold State.endJob
  split
  · exact h
  · rw [State.matReturn_mem]; exact State.deliver_wf _ _ _ _ (by simp [h])
@[simp] theorem State.storeWaits_mem (s : State) (t i : Nat) (l : List (Nat × Nat)) : (State.storeWaits s t i l).mem = s.mem := by
  unfold State.storeWaits; split <;> simp
@[simp] theorem State.snapBlock_wf (s : State) (t i : Nat) (fmt : BitVec 3) (eb sb : Nat) (h : Memory.wf s.mem = true) :
    Memory.wf (State.snapBlock s t i fmt eb sb).mem = true := by
  simp [State.snapBlock, h]
@[simp] theorem State.feedFold_mem (s : State) (t i : Nat) (vals : List Token) (n : Nat) :
    (State.feedFold s t i vals n).mem = s.mem := by
  unfold State.feedFold; dsimp only; repeat' split
  all_goals rfl
@[simp] theorem State.discardResult_mem (s : State) (t i : Nat) : (State.discardResult s t i).mem = s.mem := by
  simp [State.discardResult]
@[simp] theorem State.sendResult_mem (s : State) (t i : Nat) (vals : List Token) (route : Nat) :
    (State.sendResult s t i vals route).mem = s.mem := by
  unfold State.sendResult; dsimp only; repeat' split
  all_goals simp
@[simp] theorem State.drainRow_wf (s : State) (t i : Nat) (vals : List Token) (h : Memory.wf s.mem = true) :
    Memory.wf (State.drainRow s t i vals).mem = true := by
  unfold State.drainRow; dsimp only; repeat' split
  all_goals simp_all
@[simp] theorem State.ownResult_wf (s : State) (t i : Nat) (vals : List Token) (h : Memory.wf s.mem = true) :
    Memory.wf (State.ownResult s t i vals).mem = true := by
  unfold State.ownResult; dsimp only; repeat' split
  all_goals simp [h]
@[simp] theorem State.matRefused_mem (s : State) (d : BitVec 5) : (State.matRefused s d).mem = s.mem := by
  rfl
@[simp] theorem State.matQueue_mem (s : State) (d : BitVec 5) (i : Nat) (k : MatKind) (fmt : BitVec 3) (a b count : Nat) :
    (State.matQueue s d i k fmt a b count).mem = s.mem := by
  rfl
@[simp] theorem State.matRelease_wf (s : State) (t i : Nat) (h : Memory.wf s.mem = true) :
    Memory.wf (s.matRelease t i).mem = true := by
  unfold State.matRelease
  dsimp only
  refine foldl_wf _ (fun a b ha => ?_) _ _ (by simp [h])
  rw [State.matReturn_mem]; exact State.deliver_wf _ _ _ _ ha
theorem State.foldSend_mem (s : State) (t n : Nat) (f : FoldSlot) (fl : FoldFlit) (u : State) (e : State.foldSend s t n f fl = some u) :
    u.mem = s.mem := by
  unfold State.foldSend at e; dsimp only at e; repeat' split at e
  all_goals first | (cases e; simp; done) | cases e
@[simp] theorem State.writeKeep_wf (s : State) (loc : Nat) (bs : List Byte) (h : Memory.wf s.mem = true) :
    Memory.wf (s.writeKeep loc bs).mem = true := by
  unfold State.writeKeep
  dsimp only
  refine foldl_wf _ (fun a b ha => ?_) _ _ h
  split
  · exact ha
  · exact Memory.wf_cellPut ha _ _
theorem State.foldWrite_wf (s : State) (t n off : Nat) (f : FoldSlot) (fl : FoldFlit) (u : State)
    (e : s.foldWrite t n off f fl = some u) (h : Memory.wf s.mem = true) : Memory.wf u.mem = true := by
  unfold State.foldWrite at e
  dsimp only at e
  split at e
  · cases e
  · cases e
    rw [State.modFold_mem]
    refine foldl_wf _ (fun a b ha => by simp [ha]) _ _ (State.serveAll_wf _ _ ?_)
    exact foldl_wf _ (fun a b ha => by simp [ha]) _ _ (State.writeKeep_wf _ _ _ h)
theorem State.foldDeliver_wf (s : State) (t n : Nat) (fl : FoldFlit) (u : State) (e : s.foldDeliver t n fl = some u)
    (h : Memory.wf s.mem = true) : Memory.wf u.mem = true := by
  unfold State.foldDeliver at e
  dsimp only at e
  split at e
  · refine State.foldWrite_wf _ _ _ _ _ _ _ e ?_
    split <;> simp [h]
  · cases e
    rw [State.modFold_mem]
    split <;> simp [h]
@[simp] theorem State.foldArrive_mem (s : State) (u n i : Nat) (fl : FoldFlit) : (State.foldArrive s u n i fl).mem = s.mem := by
  unfold State.foldArrive; dsimp only; split <;> simp
theorem State.foldOut_wf (s : State) (t n : Nat) (fl : FoldFlit) (u : State) (e : s.foldOut t n fl = some u)
    (h : Memory.wf s.mem = true) : Memory.wf u.mem = true := by
  unfold State.foldOut at e
  dsimp only at e
  split at e
  · exact State.foldDeliver_wf _ _ _ _ _ e h
  · simp only [Option.map_eq_some_iff] at e
    obtain ⟨x, q, rfl⟩ := e
    rw [State.modFold_mem, State.foldSend_mem _ _ _ _ _ _ q]; exact h
theorem State.indexDeliver_wf (s : State) (t n : Nat) (u : State) (e : s.indexDeliver t n = some u)
    (h : Memory.wf s.mem = true) : Memory.wf u.mem = true := by
  unfold State.indexDeliver at e
  simp only [Option.bind_eq_some_iff] at e
  obtain ⟨p, _, q⟩ := e
  exact State.foldDeliver_wf _ _ _ _ _ q (by simp [h])
@[simp] theorem State.foldIndex_wf (s : State) (t n : Nat) (more : Bool) (h : Memory.wf s.mem = true) :
    Memory.wf (s.foldIndex t n more).mem = true := by
  unfold State.foldIndex
  extract_lets f take
  have ht : Memory.wf take.mem = true := by
    simp only [take]
    split <;> simp [h]
  have hd : Memory.wf ((s.indexDeliver t n).getD take).mem = true := by
    cases q : s.indexDeliver t n with
    | none => simpa using ht
    | some u => simpa using State.indexDeliver_wf _ _ _ _ q h
  repeat' split
  all_goals first
    | exact hd
    | exact ht
    | (simp [h]; done)
    | (rename_i q; simp [State.foldSend_mem _ _ _ _ _ _ q, h])
theorem State.drainIndex_wf (s : State) (t n : Nat) (fl : FoldFlit) (u : State) (e : s.drainIndex t n fl = some u)
    (h : Memory.wf s.mem = true) : Memory.wf u.mem = true := by
  unfold State.drainIndex at e
  dsimp only at e
  split at e
  · cases e
  · exact State.foldDeliver_wf _ _ _ _ _ e (by simp [h])
@[simp] theorem State.modGen_mem (s : State) (t g : Nat) (f : Stream → Stream) : (State.modGen s t g f).mem = s.mem := by
  rfl
@[simp] theorem State.srcStep_wf (s : State) (t g : Nat) (h : Memory.wf s.mem = true) :
    Memory.wf (State.srcStep s t g).mem = true := by
  unfold State.srcStep; dsimp only; repeat' split
  all_goals simp [h]
@[simp] theorem State.streamWrite_wf (s : State) (t g loc : Nat) (bs : List Byte) (fe : Bool) (h : Memory.wf s.mem = true) :
    Memory.wf (State.streamWrite s t g loc bs fe).mem = true := by
  simp [State.streamWrite, h]
@[simp] theorem State.copyFlush_wf (s : State) (t g : Nat) (j : CopyJob) (h : Memory.wf s.mem = true) :
    Memory.wf (s.copyFlush t g j).mem = true := by
  unfold State.copyFlush
  dsimp only
  repeat' split
  all_goals first
    | (simp [h]; done)
    | (simp only [State.modGen_mem, State.modTile_mem, State.useExtent_mem]
       exact foldl_wf _ (fun a b ha => by simp [ha]) _ _ h)
@[simp] theorem State.copyRead_wf (s : State) (t g : Nat) (j : CopyJob) (h : Memory.wf s.mem = true) :
    Memory.wf (s.copyRead t g j).mem = true := by
  unfold State.copyRead
  dsimp only
  repeat' split
  all_goals simp [h]
@[simp] theorem State.copyStep_wf (s : State) (t g : Nat) (j : CopyJob) (h : Memory.wf s.mem = true) :
    Memory.wf (s.copyStep t g j).mem = true := by
  unfold State.copyStep; split <;> simp [h]
@[simp] theorem State.dstStep_wf (s : State) (t g : Nat) (write : Bool) (h : Memory.wf s.mem = true) :
    Memory.wf (s.dstStep t g write).mem = true := by
  unfold State.dstStep
  dsimp only
  repeat' split
  all_goals try (simp [h]; done)
  all_goals
    simp only [State.useExtent_mem, State.modGen_mem]
    refine foldl_wf _ (fun a p ha => ?_) _ _ h
    repeat' split
    all_goals simp [ha]
@[simp] theorem State.copyIssue_mem (s : State) (d : BitVec 5) (param : Word) (bs : List Byte) :
    (State.copyIssue s d param bs).mem = s.mem := by
  unfold State.copyIssue; dsimp only; repeat' split
  all_goals simp_all
theorem State.blockWritable_mem {s : State} {i va} :
    (∀ u bs, s.blockWritable i va = .got u bs → u.mem = s.mem) ∧ (∀ u, s.blockWritable i va = .wait u → u.mem = s.mem)
    ∧ ∀ u c sub v, s.blockWritable i va = .trap u c sub v → u.mem = s.mem := by
  unfold State.blockWritable
  split
  · rename_i q
    exact ⟨fun _ _ e => (by cases e), fun _ e => (by cases e; exact State.checkAll_wait q), fun _ _ _ _ e => (by cases e)⟩
  · rename_i q
    exact ⟨fun _ _ e => (by cases e; exact State.checkAll_ok q), fun _ e => (by cases e), fun _ _ _ _ e => (by cases e)⟩
  · rename_i q
    exact ⟨fun _ _ e => (by cases e), fun _ e => (by cases e), fun _ _ _ _ e => (by cases e; exact State.checkAll_trap q)⟩
@[simp] theorem State.mergeIn_mem (s : State) (t : Nat) (second out : Bool) : (State.mergeIn s t second out).1.mem = s.mem := by
  unfold State.mergeIn; dsimp only; repeat' split
  all_goals simp_all
@[simp] theorem State.mergeOut_mem (s : State) (t : Nat) : (State.mergeOut s t).1.mem = s.mem := by
  unfold State.mergeOut; dsimp only; repeat' split
  all_goals simp_all
@[simp] theorem State.endStream_mem (s : State) (n outcome : Nat) : (State.endStream s n outcome).mem = s.mem := by
  unfold State.endStream; dsimp only; repeat' split
  all_goals simp_all
@[simp] theorem State.groupCheck_mem (s : State) (n : Nat) : (State.groupCheck s n).mem = s.mem := by
  unfold State.groupCheck; dsimp only; repeat' split
  all_goals simp_all
@[simp] theorem State.spendImage_wf (s : State) (t : Nat) (a : Actor) (h : Memory.wf s.mem = true) :
    Memory.wf (State.spendImage s t a).mem = true := by
  unfold State.spendImage; dsimp only; split <;> simp [h]
@[simp] theorem State.spendWeft_wf (s : State) (t i : Nat) (h : Memory.wf s.mem = true) :
    Memory.wf (State.spendWeft s t i).mem = true := by
  unfold State.spendWeft; repeat' split
  all_goals simp [h]
@[simp] theorem State.keepWeft_mem (s : State) (t i : Nat) : (State.keepWeft s t i).mem = s.mem := by
  unfold State.keepWeft; split <;> simp
@[simp] theorem State.weftAsk_mem (s : State) (d : BitVec 5) (x y : Word) : (State.weftAsk s d x y).mem = s.mem := by
  unfold State.weftAsk; repeat' split
  all_goals simp
@[simp] theorem State.request_mem (s : State) (t n : Nat) (c : Cause) (free : Bool) :
    (State.request s t n c free).mem = s.mem := by
  unfold State.request; dsimp only; repeat' split
  all_goals simp_all
@[simp] theorem State.weftDeliver_mem (s : State) (t : Nat) (f : Frame) : (State.weftDeliver s t f).mem = s.mem := by
  unfold State.weftDeliver; repeat' split
  all_goals simp
@[simp] theorem State.drainHeld_mem (s : State) (t n : Nat) : (s.drainHeld t n).mem = s.mem := by
  unfold State.drainHeld
  extract_lets one
  have h : ∀ a, (one a).mem = a.mem := by
    intro a
    simp only [one]
    repeat' split
    all_goals simp
  rw [h, h]
@[simp] theorem State.onFrame_mem (s : State) (t n l : Nat) (f : Option Frame) :
    (s.onFrame t n l f).mem = s.mem := by
  unfold State.onFrame
  dsimp only
  repeat' split
  all_goals simp
theorem State.writeVirt_wf (t : Nat) (a : BitVec 12) (g : BitVec 4) : ∀ (bs : List Byte) (va : Word) (s : State),
    Memory.wf s.mem = true → Memory.wf (s.writeVirt t a g va bs).1.mem = true
  | [], _, _, h => h
  | b :: r, va, s, h => by
    unfold State.writeVirt
    split
    · exact h
    · exact State.writeVirt_wf t a g r _ _ (State.apply_wf _ _ _ _ h)
@[simp] theorem State.cachePut_mem (s : State) (c : Placement) : (State.cachePut s c).mem = s.mem := by
  rfl
@[simp] theorem State.purad_mem (s : State) (image : List Byte) (a : Alloc) (k : Nat) (pat : Pattern) :
    (State.purad s image a k pat).1.mem = s.mem := by
  unfold State.purad; dsimp only; repeat' split
  all_goals simp_all
@[simp] theorem State.setSplit_mem (s : State) (f : Nat) (m : BitVec 8) : (State.setSplit s f m).mem = s.mem := by
  rfl
@[simp] theorem State.light_mem (s : State) (g : Group) : (State.light s g).mem = s.mem := by
  unfold State.light
  refine (foldl_mem _ (fun a b => ?_) _ _).trans (by simp)
  split <;> simp
theorem State.addGroup_mem {s : State} {launch load L os n u} (e : s.addGroup launch load L os n = .ok u) : u.mem = s.mem := by
  unfold State.addGroup at e
  dsimp only at e
  split at e
  · exact nomatch e
  · rename_i k q
    generalize List.find? _ (List.flatMap _ _) = o at e
    cases o with
    | none => exact nomatch e
    | some g => rw [← Except.ok.inj e, State.modGroup_mem, State.light_mem]
theorem State.addGroups_mem {launch load L os} {s u : State} (e : s.addGroups launch load L os = .ok u) :
    u.mem = s.mem := by
  have m : ∀ (l : List Node) (c : Check State), (∀ v, c = .ok v → v.mem = s.mem) →
      ∀ v, l.foldl (fun c n => match c with
        | .error e => .error e
        | .ok a => a.addGroup launch load L os n) c = .ok v → v.mem = s.mem := by
    intro l
    induction l with
    | nil => intro c h v e; exact h v e
    | cons n r ih =>
      intro c h v e
      rw [List.foldl_cons] at e
      refine ih _ (fun w q => ?_) v e
      cases c with
      | error x => exact nomatch q
      | ok a => exact (State.addGroup_mem q).trans (h a rfl)
  exact m _ _ (fun v q => by rw [← Except.ok.inj q]) u e
@[simp] theorem State.dropGroups_mem (s : State) (launch load : Nat) : (State.dropGroups s launch load).mem = s.mem := by
  rfl
@[simp] theorem State.loadBlocks_wf (s : State) (t : Nat) (L : Load) (p : Nat × Nat) (h : Memory.wf s.mem = true) :
    Memory.wf (s.loadBlocks t L p).mem = true := foldl_wf _ (fun a b ha => by simp [ha]) _ _ h
@[simp] theorem State.blocksWait_mem (s : State) (t : Nat) (L : Load) (p : Nat × Nat) : (s.blocksWait t L p).mem = s.mem :=
  foldl_mem _ (fun a b => by simp) _ _
@[simp] theorem State.bindLinks_mem (s : State) (L : Load) (p : Nat × Nat) : (State.bindLinks s L p).mem = s.mem := by
  simp [State.bindLinks]
@[simp] theorem State.configure_wf (s : State) (t n : Nat) (l : Launch) (k : Nat) (h : Memory.wf s.mem = true) :
    Memory.wf (s.configure t n l k).mem = true := by
  unfold State.configure
  dsimp only
  repeat' split
  all_goals simp [h]
@[simp] theorem State.endRecord_wf (s : State) (e : Ending) (t : Nat) (status code : Nat) (cycles : Word)
    (h : Memory.wf s.mem = true) : Memory.wf (s.endRecord e t status code cycles).mem = true := by
  unfold State.endRecord
  dsimp only
  split
  · rw [State.modQueue_mem, State.notify_mem]; exact State.writeVirt_wf _ _ _ _ _ _ h
  · simp [h]
theorem State.initData_wf (t : Nat) (l : Launch) (image : List Byte) : ∀ (ds : List DataRec) (s : State),
    Memory.wf s.mem = true → Memory.wf (s.initData t l image ds).1.mem = true
  | [], _, h => h
  | d :: r, s, h => by
    unfold State.initData
    split
    · exact State.initData_wf t l image r s h
    · dsimp only
      split
      · exact State.initData_wf t l image r _ (State.writeVirt_wf _ _ _ _ _ _ h)
      · exact State.writeVirt_wf _ _ _ _ _ _ h
@[simp] theorem State.rejectLaunch_wf (s : State) (n : Nat) (l : Launch) (status code : Nat) (h : Memory.wf s.mem = true) :
    Memory.wf (s.rejectLaunch n l status code).mem = true := State.endRecord_wf _ _ _ _ _ _ h
@[simp] theorem State.unbookStreams_mem (s : State) (which : Group → Bool) : (State.unbookStreams s which).mem = s.mem :=
  foldl_mem _ (fun a b => by repeat' split
                             all_goals simp) _ _
@[simp] theorem State.cutGroups_mem (s : State) (n : Nat) (k : Option Nat) : (State.cutGroups s n k).mem = s.mem :=
  State.unbookStreams_mem _ _
theorem State.prepareLoad_mem {s : State} {n k l u} (e : s.prepareLoad n k l = .ok u) : u.mem = s.mem := by
  unfold State.prepareLoad at e
  split at e
  · cases e
  · rename_i L _
    cases c : L.unplaced with
    | some c => rw [c] at e; cases e
    | none =>
      rw [c] at e
      cases a : L.static l.alloc l.pat.actors with
      | error c => rw [a] at e; cases e
      | ok x =>
        rw [a] at e
        cases b : s.siteOk L l.alloc with
        | error c => rw [b] at e; cases e
        | ok y => rw [b] at e; exact (State.addGroups_mem (s := s.cutGroups n (some k)) e).trans (State.cutGroups_mem _ _ _)
@[simp] theorem State.placeLaunch_wf (s : State) (n : Nat) (l : Launch) (named : Option (Nat × Nat)) (h : Memory.wf s.mem = true) :
    Memory.wf (s.placeLaunch n l named).1.mem = true := by
  unfold State.placeLaunch
  dsimp only
  repeat' split
  all_goals try (simp [h]; done)
  all_goals
    rename_i q _
    first
      | exact State.initData_wf _ _ _ _ _ (by rw [State.prepareLoad_mem q]; simp [h])
      | (rw [State.cutGroups_mem]
         exact State.initData_wf _ _ _ _ _ (by rw [State.prepareLoad_mem q]; simp [h]))
@[simp] theorem State.writeLaunch_wf (s : State) (n : Nat) (l : Launch) (h : Memory.wf s.mem = true) :
    Memory.wf (State.writeLaunch s n l).mem = true :=
  State.write_wf _ _ _ (State.write_wf _ _ _ (State.write_wf _ _ _ h))
@[simp] theorem State.startLaunch_wf (s : State) (n : Nat) (l : Launch) (h : Memory.wf s.mem = true) :
    Memory.wf (State.startLaunch s n l).mem = true := by
  simp [State.startLaunch, h]
@[simp] theorem State.dropTokens_mem (s : State) (tiles : List Nat) : (State.dropTokens s tiles).mem = s.mem := by
  rfl
@[simp] theorem State.failLaunch_mem (s : State) (n : Nat) (l : Launch) (status code : Nat) :
    (State.failLaunch s n l status code).mem = s.mem := by
  unfold State.failLaunch
  extract_lets ts s1 s2
  have h1 : s1.mem = s.mem := (State.dropTokens_mem _ _).trans (foldl_mem _ (fun a b => by simp) _ _)
  rw [State.modLaunch_mem]
  exact (State.unbookStreams_mem _ _).trans h1
@[simp] theorem State.replace_mem (s : State) (k : Nat) (l : Launch) : (State.replace s k l).1.mem = s.mem := by
  unfold State.replace; dsimp only; repeat' split
  all_goals simp_all
@[simp] theorem State.joinTree_wf (s : State) (n : Nat) (old new : Launch) (h : Memory.wf s.mem = true) :
    Memory.wf (State.joinTree s n old new).mem = true := by
  have w := State.writeLaunch_wf s n new h
  unfold State.joinTree
  generalize s.writeLaunch n new = x at w ⊢
  extract_lets s1 have_ s2
  refine foldl_wf _ (fun a b ha => foldl_wf _ (fun a b ha => by simp [ha]) _ _ ha) _ _ ?_
  exact foldl_wf _ (fun a b ha => by simp [ha]) _ _ w
@[simp] theorem State.readyLoad_wf (s : State) (n k : Nat) (l : Launch) (h : Memory.wf s.mem = true) :
    Memory.wf (s.readyLoad n k l).1.mem = true := by
  have m : (if decide (l.mgen = s.mgen) = true then (s, Except.ok l) else s.replace k l).1.mem = s.mem := by split <;> simp
  unfold State.readyLoad
  dsimp only
  split
  · repeat' split
    all_goals first
      | exact h
      | exact State.joinTree_wf _ _ _ _ (by simp [h])
  · split
    · exact h
    · split
      · rw [m]; exact h
      · split
        · rw [m]; exact h
        · rename_i q
          have hq := (State.prepareLoad_mem q).trans m
          dsimp only
          split
          · rw [← hq] at h; exact h
          · exact State.joinTree_wf _ _ _ _ (by rw [hq]; exact h)
@[simp] theorem State.configureNext_wf (s : State) (t : Nat) (h : Memory.wf s.mem = true) :
    Memory.wf (s.configureNext t).mem = true := by
  unfold State.configureNext
  dsimp only
  split
  · exact h
  · rename_i l0 _
    have hr := State.readyLoad_wf s ((s.part t).launch.getD 0) (s.part t).load l0 h
    repeat' split
    all_goals first
      | exact h
      | exact hr
      | (simp only [State.failLaunch_mem, State.blocksWait_mem]; exact hr)
      | exact State.configure_wf _ _ _ _ _ (by rw [State.loaderGive_mem]; exact hr)
@[simp] theorem State.settle_mem (s : State) (t : Nat) : (State.settle s t).mem = s.mem := by
  unfold State.settle; repeat' split
  all_goals simp
@[simp] theorem State.waveOn_mem (s : State) (t n : Nat) (l : Launch) : (State.waveOn s t n l).mem = s.mem := by
  unfold State.waveOn; repeat' split
  all_goals simp
@[simp] theorem State.waveUp_mem (s : State) (t : Nat) (l : Launch) (done : State → State) (hdone : ∀ x, (done x).mem = x.mem) :
    (State.waveUp s t l done).mem = s.mem := by
  unfold State.waveUp; dsimp only; repeat' split
  all_goals simp_all
@[simp] theorem State.mismatchTests_mem (s : State) (t : Nat) : (State.mismatchTests s t).mem = s.mem := by
  simp [State.mismatchTests]
@[simp] theorem State.mismatch_mem (s : State) (n : Nat) (l : Launch) (L : Load) (k : Nat) :
    (s.mismatch n l L k).mem = s.mem := by
  have m : ((L.allTiles l.alloc).foldl State.mismatchTests (s.care1 l.root 0x0004 l.queue)).mem = s.mem :=
    (foldl_mem _ (fun a b => by simp) _ _).trans (by simp)
  unfold State.mismatch
  dsimp only
  split
  · rw [State.failLaunch_mem]; exact m
  · rw [State.dropTokens_mem]
    refine (foldl_mem _ (fun a b => by simp) _ _).trans ((foldl_mem _ (fun a b => by simp) _ _).trans ?_)
    show (State.modLaunch _ _ _).mem = _
    rw [State.modLaunch_mem, State.unbookStreams_mem]; exact m
@[simp] theorem State.exitAll_wf (s : State) (t n : Nat) (h : Memory.wf s.mem = true) : Memory.wf (State.exitAll s t n).mem = true := by
  unfold State.exitAll
  dsimp only
  rw [State.modRouter_mem]
  exact foldl_wf _ (fun a b ha => by simp [ha]) _ _ h
@[simp] theorem State.returnOrphans_mem (s : State) (t : Nat) : (State.returnOrphans s t).mem = s.mem :=
  (foldl_mem _ (fun a b => by simp) _ _).trans (by simp)
@[simp] theorem State.finishLaunch_wf (s : State) (n : Nat) (l : Launch) (status code : Nat) (h : Memory.wf s.mem = true) :
    Memory.wf (State.finishLaunch s n l status code).mem = true := by
  unfold State.finishLaunch
  extract_lets cycles s1
  have h1 : Memory.wf s1.mem = true := foldl_wf _ (fun a b ha => by
    have hb : Memory.wf (((a.exitAll b n).returnOrphans b).syncOvf b).mem = true := State.syncOvf_wf _ _ (by simp [ha])
    dsimp only
    split
    · rw [State.modPart_mem, State.loaderReturn_mem]; exact hb
    · exact hb) _ _ h
  exact State.endRecord_wf _ _ _ _ _ _ (by show Memory.wf (State.cutGroups _ _ _).mem = true; rw [State.cutGroups_mem]; exact h1)
@[simp] theorem State.abortLaunch_wf (s : State) (n : Nat) (l : Launch) (code : Nat) (h : Memory.wf s.mem = true) :
    Memory.wf (State.abortLaunch s n l code).mem = true := by
  unfold State.abortLaunch; split <;> simp [h]
@[simp] theorem State.drainFold_wf (s : State) (n : Nat) (l : Launch) (t m : Nat) (h : Memory.wf s.mem = true) :
    Memory.wf (State.drainFold s n l t m).mem = true := by
  unfold State.drainFold
  extract_lets f X have_ w fl report out
  have hr : ∀ x : State, Memory.wf x.mem = true → Memory.wf (report x).mem = true := by
    intro x hx
    simp only [report]
    split <;> simp [hx]
  have ho : ∀ u, out = some u → Memory.wf u.mem = true := by
    intro u e
    simp only [out] at e
    repeat' split at e
    · exact State.drainIndex_wf _ _ _ _ _ e h
    · cases e
    · cases e
    · simp only [Option.map_eq_some_iff] at e
      obtain ⟨x, q, rfl⟩ := e
      rw [State.modFold_mem]; exact State.foldOut_wf _ _ _ _ _ q h
  split
  · exact h
  · cases q : out with
    | none => simpa using h
    | some u => simpa using hr u (ho u q)
@[simp] theorem State.disarm_mem (s : State) (n : Nat) : (State.disarm s n).mem = s.mem := by
  rfl
@[simp] theorem State.rewind_mem (s : State) (n : Nat) (l : Launch) : (State.rewind s n l).mem = s.mem := by
  rfl
@[simp] theorem State.modFlight_mem (s : State) (n : Nat) (f : Flight → Flight) : (State.modFlight s n f).mem = s.mem := by
  rfl
@[simp] theorem State.hopOn_mem (s : State) (f : Flight) (h : BitVec 2) (r : List (BitVec 2)) :
    (State.hopOn s f h r).mem = s.mem := by
  unfold State.hopOn; repeat' split
  all_goals simp
@[simp] theorem State.release_mem (s : State) : (State.release s).mem = s.mem := by
  rfl
@[simp] theorem State.carePhys_mem (s : State) (p ev detail : Nat) : (State.carePhys s p ev detail).mem = s.mem := by
  rfl
@[simp] theorem State.loseFrom_wf (s : State) (t off : Nat) (h : Memory.wf s.mem = true) :
    Memory.wf (State.loseFrom s t off).mem = true := by
  simp [State.loseFrom, h]
@[simp] theorem State.prepPlan_mem (s : State) (own : Nat) (bs : List Byte) : (State.prepPlan s own bs).1.mem = s.mem := by
  unfold State.prepPlan; dsimp only; repeat' split
  all_goals rfl
@[simp] theorem State.prep_mem (s : State) (d : BitVec 5) (bs : List Byte) : (State.prep s d bs).mem = s.mem := by
  simp [State.prep]
@[simp] theorem State.moveStore_wf (s : State) (t : Nat) (ranges : List (Nat × Nat)) (h : Memory.wf s.mem = true) :
    Memory.wf (s.moveStore t ranges).mem = true := by
  unfold State.moveStore
  dsimp only
  exact State.serveAll_wf _ _ (Memory.wf_filter h _)
@[simp] theorem State.moveTile_mem (s : State) (p q : Nat) : (State.moveTile s p q).mem = s.mem := by
  rfl
@[simp] theorem State.settleDue_mem (s : State) : (State.settleDue s).mem = s.mem := by
  unfold State.settleDue
  dsimp only
  rw [State.release_mem]
  exact foldl_mem _ (fun a b => by simp) _ _
@[simp] theorem State.commitStep_mem (s : State) : (State.commitStep s).mem = s.mem := by
  unfold State.commitStep; split <;> simp
@[simp] theorem State.tokensArrive_mem (s : State) (d : Nat × Sink) (ks : List Token) : (State.tokensArrive s d ks).mem = s.mem := by
  unfold State.tokensArrive
  rw [State.modPart_mem, State.wakePart_mem]
  exact foldl_mem _ (fun a b => by simp) _ _
@[simp] theorem State.enterFabric_mem (s : State) (f : Flight) : (State.enterFabric s f).mem = s.mem := by
  unfold State.enterFabric; split <;> simp
@[simp] theorem State.setOk_mem (s : State) (q : Nat) : (State.setOk s q).mem = s.mem := by
  unfold State.setOk; (try dsimp only); repeat' split
  all_goals simp
theorem State.followDepth_mem : ∀ (n : Nat) (l : List Nat) (s : State) (d : List Nat), (State.followDepth n l s d).1.mem = s.mem
  | 0, _, _, _ => rfl
  | _ + 1, [], _, _ => rfl
  | n + 1, p :: r, s, d => by
    unfold State.followDepth
    exact (State.followDepth_mem n _ _ _).trans (foldl_mem _ (fun a b => by simp) _ _)
@[simp] theorem State.tellClock_mem (s : State) (p : Nat) : (State.tellClock s p).mem = s.mem := by
  unfold State.tellClock
  exact (foldl_mem _ (fun a b => by simp) _ _).trans (State.followDepth_mem _ _ _ _)
@[simp] theorem State.sendMarker_mem (s : State) (old : Phys) (c : RouteChange) : (State.sendMarker s old c).mem = s.mem := by
  unfold State.sendMarker; dsimp only; split <;> rfl
@[simp] theorem State.applyPlan_wf (s : State) (p : Plan) (h : Memory.wf s.mem = true) :
    Memory.wf (s.applyPlan p).mem = true := by
  unfold State.applyPlan
  extract_lets moves s1 s2 touched due
  have h1 : Memory.wf s1.mem = true := foldl_wf _ (fun a b ha => by simp [ha]) _ _ h
  have h2 : s2.mem = s1.mem := foldl_mem _ (fun a b => by simp) _ _
  rw [foldl_mem _ (fun a b => by simp)]
  show Memory.wf s2.mem = true
  rw [h2]; exact h1
theorem State.snapWrite_wf : ∀ (ps : List (Nat × Bool)) (bs : List Byte) (s : State),
    Memory.wf s.mem = true → Memory.wf (s.snapWrite ps bs).mem = true
  | [], _, _, h => h
  | (loc, fe) :: r, bs, s, h => by
    unfold State.snapWrite
    dsimp only
    refine State.snapWrite_wf r _ _ ?_
    repeat' split
    all_goals simp [h]
@[simp] theorem State.peerLost_mem (s : State) (t k : Nat) : (s.peerLost t k).mem = s.mem := by
  unfold State.peerLost
  dsimp only
  refine (foldl_mem _ (fun a b => ?_) _ _).trans (foldl_mem _ (fun a b => ?_) _ _)
  · split <;> simp
  · split
    · rfl
    · split <;> simp
@[simp] theorem State.portDown_mem (s : State) (n : Nat) : (s.portDown n).mem = s.mem := by
  unfold State.portDown
  split
  · rfl
  · dsimp only
    rw [State.hwStitch_mem]
    refine (foldl_mem _ (fun a b => foldl_mem _ (fun a b => by simp) _ _) _ _).trans ?_
    simp
@[simp] theorem State.unpowered_wf (s : State) (h : Memory.wf s.mem = true) : Memory.wf (State.unpowered s).mem = true := by
  simp [State.unpowered, h]
@[simp] theorem State.baste_wf (s : State) (img : List Byte) (t : Nat) (h : Memory.wf s.mem = true) :
    Memory.wf (State.baste s img t).mem = true := by
  unfold State.baste; dsimp only; repeat' split
  all_goals simp_all
@[simp] theorem State.reply_mem (s : State) (status rest : Nat) : (State.reply s status rest).mem = s.mem := by
  rfl
@[simp] theorem State.hostWrite_wf (s : State) (a : Word) (bs : List Byte) (h : Memory.wf s.mem = true) :
    Memory.wf (State.hostWrite s a bs).mem = true := by
  simp [State.hostWrite, h]
theorem State.stageCopy_wf (q : Queue) : ∀ (fuel n : Nat) (va ha : Word) (done : Nat) (s : State),
    Memory.wf s.mem = true → Memory.wf (s.stageCopy q va ha done fuel n).1.mem = true
  | 0, _, _, _, _, _, h => h
  | fuel + 1, n, va, ha, done, s, h => by
    unfold State.stageCopy
    split
    · exact h
    · dsimp only
      split
      · exact h
      · exact State.stageCopy_wf q fuel _ _ _ _ _ (State.apply_wf _ _ _ _ h)
@[simp] theorem State.copyStopped_mem (s : State) (n : Nat) : (State.copyStopped s n).mem = s.mem := by
  rfl
@[simp] theorem State.door_mem (s : State) : (State.door s).mem = s.mem := by
  unfold State.door; dsimp only; repeat' split
  all_goals simp_all
@[simp] theorem State.windowWrite_wf (s : State) (off : Nat) (v : Word) (h : Memory.wf s.mem = true) :
    Memory.wf (State.windowWrite s off v).mem = true := by
  unfold State.windowWrite; repeat' split
  all_goals simp [h]
@[simp] theorem State.thermalAlert_mem (s : State) : (State.thermalAlert s).mem = s.mem := by
  rfl
@[simp] theorem State.commitPlan_wf (s : State) (own slot : Nat) (h : Memory.wf s.mem = true) :
    Memory.wf (s.commitPlan own slot).1.mem = true := by
  unfold State.commitPlan
  dsimp only
  repeat' split
  all_goals simp [h]
@[simp] theorem State.coreDarn_wf (s : State) (n op loc : Nat) (h : Memory.wf s.mem = true) :
    Memory.wf (s.coreDarn n op loc).mem = true := by
  unfold State.coreDarn
  dsimp only
  repeat' split
  all_goals simp [h]
@[simp] theorem State.linkStep_mem (s : State) (n : Nat) (x : LinkStep) : (s.linkStep n x).mem = s.mem := by
  unfold State.linkStep
  repeat' split
  all_goals simp
@[simp] theorem State.outside_wf (s : State) (n : Nat) (op : OutOp) (loc : Nat) (h : Memory.wf s.mem = true) :
    Memory.wf (s.outside n op loc).mem = true := by
  unfold State.outside
  dsimp only
  repeat' split
  all_goals simp [h]
@[simp] theorem State.placeNeedle_wf (s : State) (w : Nat) (h : Memory.wf s.mem = true) :
    Memory.wf (State.placeNeedle s w).mem = true := by
  simp [State.placeNeedle, h]
@[simp] theorem State.placeElem_mem (s : State) (w : Nat) : (State.placeElem s w).mem = s.mem := by
  rfl
@[simp] theorem State.placeWord_wf (s : State) (w : Nat) (h : Memory.wf s.mem = true) :
    Memory.wf (State.placeWord s w).mem = true := by
  unfold State.placeWord; repeat' split
  all_goals simp [h]
end Sys2Proof.Machine
end

