-- ==== Sys2Proof/Laws/Shared.lean ====
section
/-!
SUPPORT. What the operations shared by the meanings do, said once: an instruction whose registers are ready changes its own slot
and moves on, one that names a waiting register changes nothing, and a step is `exec` of what the turn picked.
-/
namespace Sys2Proof.Machine

/-! ### An instruction that works on its slot alone (R209, R212) -/

theorem State.onSlot_waits {s : State} {rs : List (BitVec 5)} (h : s.cur.pendsOn rs = true) (f : Slot → Slot) :
    s.onSlot rs f = s := by simp [State.onSlot, h]

theorem State.onSlot_ready {s : State} {rs : List (BitVec 5)} (h : s.cur.pendsOn rs = false) (f : Slot → Slot) :
    s.onSlot rs f = s.modCur fun sl => (f sl).advance := by simp [State.onSlot, h]

/-- Either the machine stays as it is, or only the running slot changes. -/
theorem State.onSlot_cases (s : State) (rs : List (BitVec 5)) (f : Slot → Slot) :
    s.onSlot rs f = s ∨ s.onSlot rs f = s.modCur fun sl => (f sl).advance := by
  unfold State.onSlot
  split
  · exact .inl rfl
  · exact .inr rfl

theorem State.alu_ready {s : State} {d a b : BitVec 5} (h : s.cur.pendsOn [d, a, b] = false) (f : Word → Word → Word) :
    s.alu d a b f = s.modCur fun sl => (sl.setSreg d (f (sl.sreg a) (sl.sreg b))).advance := State.onSlot_ready h _

theorem State.aluImm_ready {s : State} {d a : BitVec 5} (h : s.cur.pendsOn [d, a] = false) (imm : Slot → Word)
    (f : Word → Word → Word) :
    s.aluImm d a imm f = s.modCur fun sl => (sl.setSreg d (f (sl.sreg a) (imm sl))).advance := State.onSlot_ready h _

theorem State.lanes_eq (s : State) (w d : BitVec 3) (m : BitVec 2) (z : BitVec 1) (f : Slot → Nat → Nat) :
    s.lanes w d m z f = s.modCur fun sl => (sl.setVreg d (sl.merged (laneBits w) d m z (f sl))).advance :=
  State.onSlot_ready (rs := []) rfl _

theorem State.finish_eq (s : State) (d : BitVec 5) (v : Word) : s.finish d v = s.modCur fun sl => (sl.setSreg d v).advance := rfl

/-- A floating-point instruction traps with the enabled exceptions of its result, and otherwise writes it (R57, R58). -/
theorem State.fpEnd_cases (s : State) (x : Exc) (rm draws : Nat) (f : Slot → Slot) :
    (x &&& s.cur.fpcs.en ≠ 0 ∧ s.fpEnd x rm draws f = (s.modCur fun sl => sl.raise x).trap 0x07 0 (x.zeroExtend 64))
    ∨ (x &&& s.cur.fpcs.en = 0 ∧ s.fpEnd x rm draws f = s.modCur fun sl => (f ((sl.raise x).consume rm draws)).advance) := by
  unfold State.fpEnd
  split
  · exact .inl ⟨‹_›, rfl⟩
  · rename_i q
    exact .inr ⟨not_not.mp q, rfl⟩

/-! ### Traps (R404, R405, R481) -/

/-- A trap either records itself and goes to the vector, or is a double trap. -/
theorem State.takeTrap_cases (s : State) (t k : Nat) (cause pcRec raiser val : Word) :
    ((s.slot t k).inTrap = true ∧ s.takeTrap t k cause pcRec raiser val
        = ((s.withdrawFe t k).withdrawLeave t k).doubleTrap t k cause raiser)
    ∨ ((s.slot t k).inTrap = false ∧ (s.tile t).tvec = 0 ∧ s.takeTrap t k cause pcRec raiser val
        = (((s.withdrawFe t k).withdrawLeave t k).modSlot t k fun sl => sl.recordTrap cause pcRec val).doubleTrap t k cause raiser)
    ∨ ((s.slot t k).inTrap = false ∧ (s.tile t).tvec ≠ 0 ∧ s.takeTrap t k cause pcRec raiser val
        = (((s.withdrawFe t k).withdrawLeave t k).modSlot t k fun sl => sl.recordTrap cause pcRec val).modSlot t k fun sl =>
          { sl with mode := .system, pc := (s.tile t).tvec, ext := none }) := by
  unfold State.takeTrap
  dsimp only
  split
  · exact .inl ⟨‹_›, rfl⟩
  · rename_i q
    have n : (s.slot t k).inTrap = false := Bool.eq_false_iff.mpr q
    split
    · exact .inr (.inl ⟨n, ‹_›, rfl⟩)
    · exact .inr (.inr ⟨n, ‹_›, rfl⟩)

/-! ### A step (log 1) -/

theorem step_of_run {s s1 : State} {i : Instr} (h : s.nextUp = .run i s1) : step s = exec i s1 := by simp [step, h]

theorem step_of_pass {s s1 : State} (h : s.nextUp = .pass s1) : step s = .next s1 := by simp [step, h]

theorem step_of_absent {s : State} (h : s.nextUp = .absent) : step s = .fault .noSuchUnit := by simp [step, h]

end Sys2Proof.Machine
end

