-- ==== Sys2Proof/Tests/Slice0.lean ====
section
/-!
SUPPORT. Tests: ill-formed terms that the checks refuse, words written out from the spec's encodings, steps whose results come
from the spec's rules and tables by hand, and for every statement a state and operands that meet its hypotheses.
-/
namespace Sys2Proof.Tests
open Sys2Proof.Machine Sys2Proof.Rules

set_option maxRecDepth 40000
set_option Elab.async false

/-! ### Small machines -/

/-- Pages of 64 KiB of tile 0's TLB: 0 its own store, 1 its own store with full-empty words, 2 spool, 3 a peer wafer's store,
4 control space, 5 without permissions. -/
def pages : List TlbEnt :=
  [⟨0, 0, 0, 0, 0x000000000000003C⟩, ⟨0, 0, 0, 1, 0x000000000001007C⟩, ⟨0, 0, 0, 2, 0x100000000000003C⟩,
   ⟨0, 0, 0, 3, 0x404000000000003C⟩, ⟨0, 0, 0, 4, 0xF00000000000003C⟩, ⟨0, 0, 0, 5, 0x0000000000000000⟩]

/-- Tile 0 with slot 0 in a handler of the system actor at 0x1000, and the pages above. -/
def base : State :=
  State.reset.modTile 0 fun T => { T.modSlot 0 fun x => { x with run := .handler .sys, pc := 0x1000 } with tlb := pages }

/-- `base` with the running slot changed. -/
def S (f : Slot → Slot) : State := base.modCur f

/-- `base` with scalar registers written. -/
def R (l : List (BitVec 5 × Word)) : State := S fun x => l.foldl (fun y p => y.setSreg p.1 p.2) x

/-- `base` with an event's operands. -/
def E (f : EvArgs → EvArgs) : State := { base with ev := f EvArgs.none }

/-- The outcome is a next state of which a test holds. -/
def nextIs (o : Host.Outcome State Fault Refusal) (p : State → Bool) : Bool :=
  match o with
  | .next t => p t
  | _ => false

/-- The outcome is a next state. -/
def isNext (o : Host.Outcome State Fault Refusal) : Bool := nextIs o fun _ => true

/-- An instruction leaves a value in a register. -/
def gives (i : Instr) (s : State) (d : BitVec 5) (v : Word) : Bool := nextIs (exec i s) fun t => t.cur.sreg d == v

/-! ### Ill-formed terms and reserved words are refused -/

/-- The decoder gives a reason instead of an instruction. -/
def refused {α β : Type} (r : Except α β) : Bool :=
  match r with
  | .ok _ => false
  | .error _ => true

/-- BC of p0, LOOP without a body and beyond 2^14 words, unlisted special registers, a reserved scope. -/
theorem test_ill_formed_control : ∀ e ∈ ([
    (0x063FFFFE, .bc 0 1 2097150), (0x10030000, .loop 6 0), (0x10034000, .loop 6 16384), (0x1850000D, .mfs 5 13),
    (0x1A030017, .mts 6 23), (0x18500023, .mfs 5 35), (0x1C000005, .fence 5)] : List (Nat × Instr)),
    e.2.wellFormed = false ∧ refused (decodeS e.1) = true := by decide +kernel

/-- Condition codes, rounding modes and types that are reserved. -/
theorem test_ill_formed_conditions : ∀ e ∈ ([
    (0x32331C0A, .cmp 3 6 7 10), (0x32331C0F, .cmp 3 6 7 15), (0x343374D2, .cmpi 3 6 14 1234), (0x40331C06, .fcmp 3 6 7 0 6),
    (0x40331C0E, .fcmp 3 6 7 0 14), (0x3C531C0A, .fadd 5 6 7 0 5), (0x3C53014C, .fsqrt 5 6 0 6),
    (0x3E534D6C, .fcvt 5 6 19 11 3), (0x3E5333EC, .fcvt 5 6 12 31 3)] : List (Nat × Instr)),
    e.2.wellFormed = false ∧ refused (decodeS e.1) = true := by decide +kernel

/-- Sizes, forms, and registers of groups that are not aligned. -/
theorem test_ill_formed_memory : ∀ e ∈ ([
    (0x5053E6A5, .ld 5 7 6 1 677), (0x5053AAA5, .ld 5 7 2 2 677), (0x5053C6A5, .ld 5 7 4 1 677),
    (0x5063D6A5, .ld 6 7 5 1 677), (0x5253B6A5, .lds 5 7 3 1 677), (0x5253AEA5, .lds 5 7 2 3 677),
    (0x5453A6A5, .st 5 7 2 1 677), (0x5453CAA5, .st 5 7 4 2 677), (0x5C43202D, .amoAdd 4 6 8 1 1 5),
    (0x5C53202A, .amoAdd 5 6 8 1 1 2), (0x5C431E6A, .amoCas 4 6 7 1 1 2), (0xAA53FAA5, .xst 5 7 7 2 677),
    (0x9A731C00, .steal 7 6 7), (0x64002410, .foldPut 9 4), (0x68531C13, .mload 5 6 7 4 3), (0x68531D1F, .mrow 5 6 7 7 3)] : List (Nat × Instr)),
    e.2.wellFormed = false ∧ refused (decodeS e.1) = true := by decide +kernel

/-- Lane widths, floating-point types and pairs of VCVT that are reserved. -/
theorem test_ill_formed_vector : ∀ e ∈ ([
    (0x71771680, .vadd 5 6 7 2 1 5), (0x707715AB, .vcmp 1 6 7 2 1 3 11), (0x73771483, .vfadd 5 6 7 2 1 1 3),
    (0x73771703, .vfadd 5 6 7 2 1 6 3), (0x73771606, .vfadd 5 6 7 2 1 4 6), (0x72771676, .vfcmp 1 6 7 2 1 4 6),
    (0x7575D58B, .vcvt 5 6 23 2 1 3 11), (0x7574D585, .vcvt 5 6 19 2 1 3 5), (0x756CD58B, .vcvt 5 5 19 2 1 3 11),
    (0x7572D596, .vcvt 5 6 11 2 1 3 22), (0x77701043, .vrfadd 5 6 2 0 3), (0x7D709400, .vgather 5 6 4 2 1 0),
    (0x8133E2A5, .vld 2 3 7 6 677)] : List (Nat × Instr)),
    e.2.wellFormed = false ∧ refused (decodeS e.1) = true := by decide +kernel

/-- Trigger mode 00 with an index, a predicate bit without destination 13, and reserved operation fields. -/
theorem test_ill_formed_triggered : ∀ e ∈ ([
    (0x2C0AB3C0, .tAdd 0 5 1 5 6 7 1), (0xAC7E33A5, .tCmp 2 5 1 12 6 7 4 5), (0xAC7EB3DD, .tCmp 2 5 1 13 6 7 11 5),
    (0xACD2B3F0, .tFadd 2 5 1 2 5 6 7 7), (0xAD92B190, .tFcvt 2 5 1 5 6 3 16), (0xAE173000, .tSig 2 5 1 6 0),
    (0xAE17307D, .tSig 2 5 1 6 125), (0xAC81B001, .tMov 2 5 1 3 6 1)] : List (Nat × Instr)),
    e.2.wellFormed = false ∧ refused (decodeT e.1) = true := by decide +kernel

/-- A load refuses words whose trigger, operands or destination do not agree (R163, R201, R207): mode 11 without a channel in A,
U with a peek, one channel popped twice, destination 13 for a result, AMO.CAS into a channel. -/
theorem test_ill_triggered : ∀ i ∈ ([.tAdd 3 0 0 0 0 1 0, .tAdd 0 0 1 0 12 8 0, .tAdd 0 0 0 0 8 8 0, .tAdd 0 0 0 13 0 1 0,
    .tAmoCas 0 0 0 8 0 1 0 0, .tStr 0 0 1 0 8 0 0 0, .tStr 0 0 0 0 8 1 1 0] : List Instr), i.triggerOk = false := by decide +kernel

/-- Words of majors and functions that the tables leave empty. -/
theorem test_reserved_words : (∀ w ∈ [0x200003FF, 0x00000000, 0xFFFFFFFF, 0x1C00000F], refused (decodeS w) = true)
    ∧ ∀ w ∈ [0, 0xFFFFFFFF], refused (decodeT w) = true := by decide +kernel

/-! ### Words written out from the encodings of the spec -/

/-- EXT to ANDN. -/
theorem test_decode_01 : ∀ e ∈ ([
    (0x03ABCDEF, .ext 28036591), (0x041FFFFE, .b 2097150), (0x06FFFFFE, .bc 3 1 2097150), (0x081FFFFE, .call 2097150),
    (0x0A030000, .callr 6), (0x0E030000, .br 6), (0x10030123, .loop 6 291), (0x12007123, .trap 28963),
    (0x18500016, .mfs 5 22), (0x1A030016, .mts 6 22), (0x1C000002, .fence 2), (0x20531C00, .add 5 6 7),
    (0x20531C01, .sub 5 6 7), (0x20531C02, .mul 5 6 7), (0x20531C03, .mulh 5 6 7), (0x20531C04, .mulhu 5 6 7),
    (0x20531C05, .div 5 6 7), (0x20531C06, .divu 5 6 7), (0x20531C07, .rem 5 6 7), (0x20531C08, .remu 5 6 7),
    (0x20531C09, .and 5 6 7), (0x20531C0A, .or 5 6 7), (0x20531C0B, .xor 5 6 7), (0x20531C0C, .andn 5 6 7)] : List (Nat × Instr)), decodeS e.1 = .ok e.2 := by decide +kernel

/-- SHL to PANDN. -/
theorem test_decode_02 : ∀ e ∈ ([
    (0x20531C0D, .shl 5 6 7), (0x20531C0E, .shr 5 6 7), (0x20531C0F, .sra 5 6 7), (0x20531C10, .min 5 6 7),
    (0x20531C11, .max 5 6 7), (0x20531C12, .minu 5 6 7), (0x20531C13, .maxu 5 6 7), (0x20530014, .clz 5 6),
    (0x20530015, .ctz 5 6), (0x20530016, .popc 5 6), (0x2253789A, .addi 5 6 30874), (0x2453789A, .andi 5 6 30874),
    (0x2653789A, .ori 5 6 30874), (0x2853789A, .xori 5 6 30874), (0x2A530029, .shli 5 6 41), (0x2C530029, .shri 5 6 41),
    (0x2E530029, .srai 5 6 41), (0x3053789A, .muli 5 6 30874), (0x32331C09, .cmp 3 6 7 9), (0x343324D2, .cmpi 3 6 4 1234),
    (0x36531C00, .pand 5 6 7), (0x36531C01, .por 5 6 7), (0x36531C02, .pxor 5 6 7), (0x36531C03, .pandn 5 6 7)] : List (Nat × Instr)), decodeS e.1 = .ok e.2 := by decide +kernel

/-- SEL to AMO_MIN_N. -/
theorem test_decode_03 : ∀ e ∈ ([
    (0x38531C0B, .sel 5 6 7 1 3), (0x3A531C02, .lea 5 6 7 2), (0x3C531C06, .fadd 5 6 7 0 3), (0x3C531C46, .fsub 5 6 7 0 3),
    (0x3C531C86, .fmul 5 6 7 0 3), (0x3C531CC6, .ffma 5 6 7 0 3), (0x3C531D06, .fdiv 5 6 7 0 3),
    (0x3C530146, .fsqrt 5 6 0 3), (0x3C531D80, .fmin 5 6 7 0), (0x3C531DC0, .fmax 5 6 7 0), (0x3C530200, .fabs 5 6 0),
    (0x3C530240, .fneg 5 6 0), (0x3E53316C, .fcvt 5 6 12 11 3), (0x40331C04, .fcmp 3 6 7 0 4), (0x5053A6A5, .ld 5 7 2 1 677),
    (0x5253A6A5, .lds 5 7 2 1 677), (0x5453AAA5, .st 5 7 2 2 677), (0x5653B2A5, .ldf 5 7 677), (0x5853B2A5, .stf 5 7 677),
    (0x5A53B2A5, .ste 5 7 677), (0x5C43202A, .amoAdd 4 6 8 1 1 2), (0x5C43206A, .amoMinI 4 6 8 1 1 2),
    (0x5C4320AA, .amoMaxI 4 6 8 1 1 2), (0x5C4320EA, .amoMinN 4 6 8 1 1 2)] : List (Nat × Instr)), decodeS e.1 = .ok e.2 := by decide +kernel

/-- AMO_MAX_N to VMULH. -/
theorem test_decode_04 : ∀ e ∈ ([
    (0x5C43212A, .amoMaxN 4 6 8 1 1 2), (0x5C43216A, .amoAnd 4 6 8 1 1 2), (0x5C4321AA, .amoOr 4 6 8 1 1 2),
    (0x5C4321EA, .amoXor 4 6 8 1 1 2), (0x5C43222A, .amoSwap 4 6 8 1 1 2), (0x5C43226A, .amoCas 4 6 8 1 1 2),
    (0x5C431E8A, .amoFadd 4 6 7 1 2), (0x60031C00, .send 6 7), (0x60031C01, .sendNr 6 7), (0x60531C02, .send2 5 6 7),
    (0x60531C03, .send2Nr 5 6 7), (0x62531C00, .weft 5 6 7), (0x64002010, .foldPut 8 4), (0x64031C11, .foldCfg 6 7 4),
    (0x64500012, .foldStat 5 4), (0x66530000, .copy 5 6), (0x68531C0B, .mload 5 6 7 2 3), (0x68531D0B, .mrow 5 6 7 2 3),
    (0x68531E03, .mdrain 5 6 7 3), (0x68530303, .mres 5 6 3), (0x71771580, .vadd 5 6 7 2 1 3),
    (0x71771581, .vsub 5 6 7 2 1 3), (0x71771582, .vmul 5 6 7 2 1 3), (0x71771583, .vmulh 5 6 7 2 1 3)] : List (Nat × Instr)), decodeS e.1 = .ok e.2 := by decide +kernel

/-- VMULHU to VFMUL. -/
theorem test_decode_05 : ∀ e ∈ ([
    (0x71771584, .vmulhu 5 6 7 2 1 3), (0x71771585, .vand 5 6 7 2 1 3), (0x71771586, .vor 5 6 7 2 1 3),
    (0x71771587, .vxor 5 6 7 2 1 3), (0x71771588, .vandn 5 6 7 2 1 3), (0x71771589, .vshl 5 6 7 2 1 3),
    (0x7177158A, .vshr 5 6 7 2 1 3), (0x7177158B, .vsra 5 6 7 2 1 3), (0x7177158C, .vmin 5 6 7 2 1 3),
    (0x7177158D, .vmax 5 6 7 2 1 3), (0x7177158E, .vminu 5 6 7 2 1 3), (0x7177158F, .vmaxu 5 6 7 2 1 3),
    (0x71771590, .vadds 5 6 7 2 1 3), (0x71771591, .vaddsu 5 6 7 2 1 3), (0x71771592, .vsubs 5 6 7 2 1 3),
    (0x71771593, .vsubsu 5 6 7 2 1 3), (0x71701594, .vabs 5 6 2 1 3), (0x71779595, .vmad 5 6 7 4 2 1 3),
    (0x71701596, .vmov 5 6 2 1 3), (0x71409597, .vsplat 5 4 2 1 3), (0x707715A4, .vcmp 1 6 7 2 1 3 4),
    (0x73771603, .vfadd 5 6 7 2 1 4 3), (0x7377160B, .vfsub 5 6 7 2 1 4 3), (0x73771613, .vfmul 5 6 7 2 1 4 3)] : List (Nat × Instr)), decodeS e.1 = .ok e.2 := by decide +kernel

/-- VFFMA to VZIPLO. -/
theorem test_decode_06 : ∀ e ∈ ([
    (0x7377961B, .vffma 5 6 7 4 2 1 4 3), (0x73771623, .vfdiv 5 6 7 2 1 4 3), (0x7370162B, .vfsqrt 5 6 2 1 4 3),
    (0x73771630, .vfmin 5 6 7 2 1 4), (0x73771638, .vfmax 5 6 7 2 1 4), (0x73701640, .vfabs 5 6 2 1 4),
    (0x73701648, .vfneg 5 6 2 1 4), (0x72771674, .vfcmp 1 6 7 2 1 4 4), (0x7573158B, .vcvt 5 6 12 2 1 3 11),
    (0x77701180, .vradd 5 6 2 3), (0x77701188, .vrmin 5 6 2 3), (0x77701190, .vrmax 5 6 2 3), (0x77701198, .vrminu 5 6 2 3),
    (0x777011A0, .vrmaxu 5 6 2 3), (0x777011A8, .vrand 5 6 2 3), (0x777011B0, .vror 5 6 2 3), (0x777011B8, .vrxor 5 6 2 3),
    (0x77701243, .vrfadd 5 6 2 4 3), (0x77701248, .vrfmin 5 6 2 4), (0x77701250, .vrfmax 5 6 2 4),
    (0x79771580, .vperm 5 6 7 2 1 3), (0x79709581, .vslup 5 6 4 2 1 3), (0x79709582, .vsldn 5 6 4 2 1 3),
    (0x79771583, .vziplo 5 6 7 2 1 3)] : List (Nat × Instr)), decodeS e.1 = .ok e.2 := by decide +kernel

/-- VZIPHI to LEAVE_STREAM. -/
theorem test_decode_07 : ∀ e ∈ ([
    (0x79771584, .vziphi 5 6 7 2 1 3), (0x79771585, .vunzlo 5 6 7 2 1 3), (0x79771586, .vunzhi 5 6 7 2 1 3),
    (0x79701187, .vcomp 5 6 2 3), (0x79701588, .vexpd 5 6 2 1 3), (0x78309189, .vget 6 4 2 3), (0x7A530000, .vmand 1 2 3),
    (0x7A530001, .vmor 1 2 3), (0x7A530002, .vmxor 1 2 3), (0x7A530003, .vmandn 1 2 3), (0x7A500004, .vmnot 1 2),
    (0x7D709580, .vgather 5 6 4 2 1 3), (0x7D709581, .vscatter 5 6 4 2 1 3), (0x8133B2A5, .vld 2 3 7 3 677),
    (0x8333B2A5, .vst 2 3 7 3 677), (0x90530000, .pbind 5 6), (0x92530000, .pfree 5 6), (0x94530000, .pstatPocket 5 6),
    (0x96030000, .resume 6), (0x98531C00, .spawn 5 6 7), (0x9A631C00, .steal 6 6 7), (0x9C530004, .leaveMatrix 5 6 1),
    (0x9C530005, .leaveSwap 5 6 1), (0x9C530006, .leaveStream 5 6 1)] : List (Nat × Instr)), decodeS e.1 = .ok e.2 := by decide +kernel

/-- LEAVE_SWATCH to XAMO_FADD. -/
theorem test_decode_08 : ∀ e ∈ ([
    (0x9C530007, .leaveSwatch 5 6 1), (0x9E531C00, .snap 5 6 7), (0xA0030000, .tlbinvAll 6), (0xA0030001, .tlbinvAsid 6),
    (0xA0031C02, .tlbinvVa 6 7), (0xA2530000, .asidret 5 6), (0xA4530000, .darnPrep 5 6), (0xA4500001, .darnCommit 5),
    (0xA4500002, .darnAbort 5), (0xA4530003, .darnBank 5 6), (0xA6530000, .swatchRun 5 6), (0xA6530001, .swatchStat 5 6),
    (0xA6530002, .swatchStop 5 6), (0xA843202A, .xamoAdd 4 6 8 1 1 2), (0xA843206A, .xamoMinI 4 6 8 1 1 2),
    (0xA84320AA, .xamoMaxI 4 6 8 1 1 2), (0xA84320EA, .xamoMinN 4 6 8 1 1 2), (0xA843212A, .xamoMaxN 4 6 8 1 1 2),
    (0xA843216A, .xamoAnd 4 6 8 1 1 2), (0xA84321AA, .xamoOr 4 6 8 1 1 2), (0xA84321EA, .xamoXor 4 6 8 1 1 2),
    (0xA843222A, .xamoSwap 4 6 8 1 1 2), (0xA843226A, .xamoCas 4 6 8 1 1 2), (0xA8431E8A, .xamoFadd 4 6 7 1 2)] : List (Nat × Instr)), decodeS e.1 = .ok e.2 := by decide +kernel

/-- XST to IFENCE. -/
theorem test_decode_09 : ∀ e ∈ ([
    (0xAA53AAA5, .xst 5 7 2 2 677), (0x0C000000, .ret), (0x14000000, .eret), (0x16000000, .hend), (0x1C000008, .ifence)] : List (Nat × Instr)), decodeS e.1 = .ok e.2 := by decide +kernel

/-- T_ADD to T_FMUL. -/
theorem test_decode_10 : ∀ e ∈ ([
    (0xAC0AB3C0, .tAdd 2 5 1 5 6 7 1), (0xAC12B3C0, .tSub 2 5 1 5 6 7 1), (0xAC1AB3C0, .tMul 2 5 1 5 6 7 1),
    (0xAC22B380, .tMulh 2 5 1 5 6 7), (0xAC2AB380, .tAnd 2 5 1 5 6 7), (0xAC32B380, .tOr 2 5 1 5 6 7),
    (0xAC3AB380, .tXor 2 5 1 5 6 7), (0xAC42B380, .tShl 2 5 1 5 6 7), (0xAC4AB380, .tShr 2 5 1 5 6 7),
    (0xAC52B380, .tSra 2 5 1 5 6 7), (0xAC5AB3C0, .tMin 2 5 1 5 6 7 1), (0xAC62B3C0, .tMax 2 5 1 5 6 7 1),
    (0xAC6AB3C0, .tMinu 2 5 1 5 6 7 1), (0xAC72B3C0, .tMaxu 2 5 1 5 6 7 1), (0xAC7EB3A5, .tCmp 2 5 1 13 6 7 4 5),
    (0xAC86B005, .tMov 2 5 1 13 6 5), (0xAC8AB38D, .tSel 2 5 1 5 6 7 1 5), (0xAC92B004, .tTag 2 5 1 5 6 4),
    (0xAC9AB002, .tDup 2 5 1 5 6 2), (0xACA2B385, .tMaskb 2 5 1 5 6 7 2 1), (0xACAAB380, .tCrng 2 5 1 5 6 7),
    (0xACD2B3B0, .tFadd 2 5 1 2 5 6 7 3), (0xACF2B3B0, .tFsub 2 5 1 2 5 6 7 3), (0xAD12B3B0, .tFmul 2 5 1 2 5 6 7 3)] : List (Nat × Instr)), decodeT e.1 = .ok e.2 := by decide +kernel

/-- The worked words of R248: SIG, STEER, FADD.F32X2, FMAX.F32X2 and MASKB.L32.NZ. -/
theorem test_decode_worked : ∀ e ∈ ([
    (0x02174005, .tSig 0 0 0 8 5), (0x02074000, .tSteer 0 0 0 8 0), (0xC8D44480, .tFadd 3 1 0 2 8 8 9 0),
    (0x00D44680, .tFadd 0 0 0 2 8 8 13 0), (0x01764000, .tFmax 0 0 0 2 12 8 0), (0xC8A44005, .tMaskb 3 1 0 8 8 0 2 1),
    (0xD0A44005, .tMaskb 3 2 0 8 8 0 2 1), (0x00A04005, .tMaskb 0 0 0 0 8 0 2 1)] : List (Nat × Instr)), decodeT e.1 = .ok e.2 := by decide +kernel

/-- R248: MASKB.L32.NZ shifts its accumulator right by 2 and sets a bit for each lane that is not zero. -/
theorem test_maskb_worked : maskbVal 2 1 0x0000000500000000 0b1011 = 0x8000000000000002 := by decide +kernel

/-- T_FFMA to T_SIG2. -/
theorem test_decode_11 : ∀ e ∈ ([
    (0xAD32B3B6, .tFfma 2 5 1 2 5 6 7 3 6), (0xAD52B380, .tFmin 2 5 1 2 5 6 7), (0xAD72B380, .tFmax 2 5 1 2 5 6 7),
    (0xAD86B3A5, .tFcmpF64 2 5 1 13 6 7 4 5), (0xAD8EB3A5, .tFcmpF32 2 5 1 13 6 7 4 5), (0xAD92B186, .tFcvt 2 5 1 5 6 3 6),
    (0xADC2B4E0, .tLdr 2 5 1 5 6 9 1 2 0), (0xADCAB3E0, .tStr 2 5 1 5 6 7 1 2), (0xADD23460, .tAmoAdd 2 5 1 4 6 8 1 2),
    (0xADD23461, .tAmoMinI 2 5 1 4 6 8 1 2), (0xADD23462, .tAmoMaxI 2 5 1 4 6 8 1 2),
    (0xADD23463, .tAmoMinN 2 5 1 4 6 8 1 2), (0xADD23464, .tAmoMaxN 2 5 1 4 6 8 1 2), (0xADD23465, .tAmoAnd 2 5 1 4 6 8 1 2),
    (0xADD23466, .tAmoOr 2 5 1 4 6 8 1 2), (0xADD23467, .tAmoXor 2 5 1 4 6 8 1 2), (0xADD23468, .tAmoSwap 2 5 1 4 6 8 1 2),
    (0xADD23469, .tAmoCas 2 5 1 4 6 8 1 2), (0xADD233EA, .tAmoFadd 2 5 1 4 6 7 1 2), (0xAE073003, .tSteer 2 5 1 6 3),
    (0xAE0F3001, .tMsel 2 5 1 6 1), (0xAE173064, .tSig 2 5 1 6 100), (0xAE1F0000, .tHalt 2 5 1),
    (0xAE2733E4, .tSig2 2 5 1 6 7 100)] : List (Nat × Instr)), decodeT e.1 = .ok e.2 := by decide +kernel

/-- R162, R207: STEER to o3 fails with 0x03 where DEST alone is wrong, and with 0x02 where AUX is wrong as well (R167). -/
theorem test_steer_dest : steerDest 0x02058001 = true ∧ steerDest 0x02058005 = false ∧ steerDest 0x00158000 = false := by decide +kernel

/-! ### Witnesses of the integer and floating-point statements -/

theorem witness_ready : ready (R [(6, 7), (7, 3)]) [5, 6, 7, 0] := by decide +kernel

/-- A divisor of zero, the most negative dividend by -1, a shift count of 64: operands where the clauses meet. -/
theorem witness_IntegerResults :
    ready (R [(6, 0x8000000000000000), (7, 0)]) [5, 6, 7] ∧ ready (R [(6, 0x8000000000000000), (7, 0xFFFFFFFFFFFFFFFF)]) [5, 6, 7]
    ∧ ready (R [(6, 1), (7, 64)]) [0, 6, 7] := by decide +kernel

theorem witness_ImmediateResults :
    ready (R [(6, 1)]) [5, 6, 7] ∧ ready (S fun x => { x with ext := some 0x1FFFFFF }) [5, 6, 7] := by decide +kernel

theorem witness_IntegerFrame : isNext (exec (.add 5 6 7) base) = true ∧ isNext (exec (.divu 0 6 7) base) = true
    ∧ isNext (exec (.addi 5 6 1) base) = true ∧ isNext (exec (.cmp 1 6 7 2) base) = true
    ∧ isNext (exec (.pandn 0 1 2) base) = true := by decide +kernel

/-- A slot with an outstanding load whose register is s5. -/
def waits : State := S fun x => { x with pend := [⟨0, [x.absReg 5], .load 8 false, 0, 0, false, false⟩] }

theorem witness_PendingRegisterStalls : waits.cur.pendsOn [5, 6, 7] = true ∧ waits.cur.pendsOn [5, 6] = true
    ∧ waits.cur.pendsOn (7 :: sizeRegs 4 (sizeBytes 4)) = true := by decide +kernel

/-- 1.0 + 2.0 is exact; an f64 quotient by zero raises DZ and 1/3 NX; a comparison with a quiet NaN raises nothing. -/
theorem witness_FloatResults :
    (f64.add 0 0 0x3FF0000000000000 0x4000000000000000).exc &&& base.cur.fpcs.en = 0
    ∧ (f64.div 0 0 0x3FF0000000000000 0).exc &&& base.cur.fpcs.en = 0
    ∧ (f32.minmax true 0x3F800000 0x7FC00000).exc &&& base.cur.fpcs.en = 0
    ∧ (f64.compare 0 0x3FF0000000000000 0x7FF8000000000000).2 &&& 0x1F = 0
    ∧ (convert (etype 0x0A) (etype 0x0B) 0 0 0x3FF0000000000000).exc &&& 0x1F = 0 := by decide +kernel

/-- Every exception enabled. -/
def fpTraps : State := S fun x => { x with fpcs := ⟨0, 0, 0x1F⟩ }

theorem witness_FloatExceptionTraps : ready fpTraps [5, 6, 7, 0]
    ∧ (f64.div (fpTraps.cur.mode3 0) 0 0x3FF0000000000000 0).exc &&& 0x1F ≠ 0
    ∧ (f64.sqrt (fpTraps.cur.mode3 0) 0 0xBFF0000000000000).exc &&& 0x1F ≠ 0
    ∧ (f64.compare 2 0 0x7FF0000000000001).2 &&& 0x1F ≠ 0 := by decide +kernel

theorem witness_FloatFrame : base.cur.fpcs.en = 0 ∧ isNext (exec (.fdiv 5 6 7 0 0) base) = true
    ∧ isNext (exec (.fcvt 5 6 0x0A 0x0B 7) base) = true := by decide +kernel

/-- A tie, one unit above a multiple, and a magnitude that is a multiple. -/
theorem witness_RoundingModes : (⟨false, 6, 0, false⟩ : Exact).e < 2 ∧ (⟨true, 5, 0, false⟩ : Exact).sticky = false
    ∧ ((⟨false, 6, 0, false⟩ : Exact).roundAt 0 0 2).1 = 2 ∧ ((⟨true, 5, 0, false⟩ : Exact).roundAt 3 0 2).1 = 2
    ∧ ((⟨false, 8, 0, false⟩ : Exact).roundAt 2 0 2).1 = 2 := by decide +kernel

/-! ### Witnesses of the statements about control flow and traps -/

/-- A body from 0x1000 to `stop` with `n` runs left, at the slot's depth. -/
def looping (pc stop n : Word) (below : Loop) : Slot :=
  { Slot.reset with pc := pc, mode := .system, top := ⟨0x1000, stop, n, 0, true, true⟩, below := below }

theorem witness_LoopBoundary :
    Slot.reset.loopHere = false
    ∧ (let x := looping 0x1004 0x1008 2 Loop.off; x.loopHere = true ∧ x.pc ≠ x.top.stop)
    ∧ (let x := looping 0x1008 0x1008 2 Loop.off; x.loopHere = true ∧ x.pc = x.top.stop ∧ x.top.count ≠ 1)
    ∧ (let x := looping 0x1008 0x1008 1 Loop.off; x.pc = x.top.stop ∧ x.top.count = 1 ∧ x.below.armed = false)
    ∧ (let x := looping 0x1004 0x1008 1 Loop.off; x.top.start ≤ 0x1008 ∧ (0x1008 : Word) ≤ x.top.stop
        ∧ ¬(x.top.start ≤ 0x100C ∧ (0x100C : Word) ≤ x.top.stop))
    ∧ (let x := looping 0x1008 0x1008 1 ⟨0xFF0, 0x1008, 3, 0, true, true⟩;
        x.loopHere = true ∧ x.below.armed = true ∧ x.below.depth = x.depth ∧ x.below.sysMode = decide (x.mode = Mode.system)
        ∧ x.below.stop = x.pc ∧ x.below.count ≠ 1) := by decide +kernel

theorem witness_BranchTargets : base.cur.pred 0 = true ∧ base.cur.pred 1 = false
    ∧ ready (R [(6, 0x2000)]) [6] ∧ (0x2000 : Word).toNat % 4 = 0 ∧ ready (R [(6, 0x2002)]) [6] ∧ (0x2002 : Word).toNat % 4 ≠ 0 := by
  decide +kernel

theorem witness_CallRotatesWindow : ready (R [(6, 0x2000)]) [6, 31] ∧ base.cur.loopHere = false ∧ base.cur.depth ≠ 65535
    ∧ base.cur.frames.length < 5 ∧ (S fun x => { x with depth := 65535 }).cur.depth = 65535
    ∧ (R [(6, 0x2002)]).cur.sreg 6 = 0x2002 := by decide +kernel

/-- One caller is resident. -/
def called (ra : Word) : State :=
  S fun x => { x.setSreg 15 ra with depth := 1, frames := [Vector.replicate 16 9] }

theorem witness_RetRestoresWindow : ready (called 0x3000) [15] ∧ base.cur.depth = 0
    ∧ (called 0x3002).cur.depth ≠ 0 ∧ ((called 0x3002).cur.sreg 15).toNat % 4 ≠ 0
    ∧ (called 0x3000).cur.frames = [Vector.replicate 16 9] := by decide +kernel

theorem witness_LoopArms : ready base [6] ∧ ready (R [(6, 1)]) [6] ∧ (R [(6, 1)]).cur.sreg 6 ≠ 0
    ∧ (let x := looping 0x1000 0x1008 2 (looping 0 0 1 Loop.off).top; x.top.armed = true ∧ x.below.armed = true)
    ∧ (let x := looping 0x1000 0x1008 2 Loop.off; x.loopHere = true ∧ x.top.stop < x.pc + 4 * 3) := by decide +kernel

/-- A word at 0x1004 of the tile's own store. -/
def withNext (w : Nat) : State := base.write (localLoc 0 0x1004) (natBytes 4 w)

def fetched (f : Fetch) (w : Nat) : Bool := match f with
  | .word _ x => x == w
  | _ => false

def fetchTraps (f : Fetch) (c : Nat) : Bool := match f with
  | .trap _ x _ => x == c
  | _ => false

def fetchWaits (s : State) (va : Word) : Bool := match s.fetch 0 0 va with
  | .wait _ => true
  | _ => false

theorem witness_ExtPrefix : fetched ((withNext 0x24D6FFFF).fetch 0 0 0x1004) 0x24D6FFFF = true
    ∧ (decodeS 0x24D6FFFF).toOption.any takesExt = true
    ∧ fetched ((withNext 0x20531C00).fetch 0 0 0x1004) 0x20531C00 = true
    ∧ (decodeS 0x20531C00).toOption.any takesExt = false
    ∧ fetchTraps ((S fun x => { x with pc := 0x50000 }).fetch 0 0 0x50004) 0x04 = true
    ∧ fetchWaits ((withNext 0x24D6FFFF).modTile 0 fun T =>
        { T with stores := [⟨1, 0, 0x1004, localLoc 0 0x1004, [0, 0, 0, 0], false, .bytes, 0, false, false⟩] }) 0x1004 = true := by
  decide +kernel

/-- A trap vector is set. -/
def vec : State := base.modTile 0 fun T => { T with tvec := 0x8000 }

theorem witness_TrapEntry : (vec.slot 0 0).inTrap = false ∧ (vec.tile 0).tvec ≠ 0 ∧ vec.cur.loopHere = false
    ∧ vec.cur.pc.toNat % 4 = 0 := by decide +kernel

theorem witness_DoubleTrap : (base.tile 0).tvec = 0 ∧ (base.slot 0 0).run = .handler .sys
    ∧ ((S fun x => { x with inTrap := true }).slot 0 0).inTrap = true
    ∧ ((S fun x => { x with run := .handler (.actor 2) }).slot 0 0).run = .handler (.actor 2)
    ∧ (base.slot 0 0).accesses.filter (fun p => !p.fe) = [] ∧ ((base.tile 0).router.pocket 126).store = []
    ∧ (waits.slot 0 0).accesses.filter (fun p => !p.fe) ≠ []
    ∧ (let s := S fun x => { x with run := .handler (.actor 2), dying := some (0x0C, 1) };
        s.cur.run = .handler (.actor 2) ∧ s.cur.dying = some (0x0C, 1) ∧ s.cur.accesses = [] ∧ s.stealStalls s.ft s.fk = false
        ∧ nextIs (exec .hend s) (fun t => t.cur.run == .free && !t.flights.isEmpty) = true) := by decide +kernel

theorem witness_EretReturns : (S fun x => { x with mode := .user }).cur.mode = .user ∧ base.cur.mode = .system
    ∧ base.cur.inTrap = false ∧ (S fun x => { x with inTrap := true, trapPc := 0x1002 }).cur.trapPc.toNat % 4 ≠ 0
    ∧ (S fun x => { x with inTrap := true, trapPc := 0x1004 }).cur.inTrap = true := by decide +kernel

theorem witness_HandlerEndAndFences : base.cur.run = .handler .sys ∧ base.cur.accesses = [] ∧ base.stealStalls 0 0 = false
    ∧ (S fun x => { x with run := .handler (.actor 3) }).cur.run = .handler (.actor 3)
    ∧ waits.cur.accesses ≠ [] ∧ (∀ e ∈ (base.tile 0).stores, e.slot ≠ 0) ∧ base.behind = []
    ∧ (∃ b ∈ ({ base with behind := [⟨7, 0, 0, 0x1000000000000080, [0], false⟩] } : State).behind, b.tile = 0 ∧ b.slot = 0) := by
  decide +kernel

/-! ### Witnesses of the statements about memory -/

theorem witness_MemoryReadAfterWrite : base.Inv ∧ (withNext 0x24D6FFFF).Inv ∧ (0xFFFF : Nat) < 256 ^ 2 := by
  unfold State.Inv; decide +kernel

/-- Peer wafer 1 is in reach. -/
def far : State := { base with reach := 3 }

/-- Tile 0's link to tile 1 on the data mesh has failed. -/
def cutOff (s : State) : State := s.modPhy (s.physOf 0) fun P => { P with badLinks := [linkKey 0 true] }

/-- A check ends in a trap of a cause, or must wait. -/
def checkTraps (a : Acc) (c : Nat) : Bool := match a with
  | .trap _ x _ _ => x == c
  | _ => false

def checkWaits (a : Acc) : Bool := match a with
  | .wait _ => true
  | _ => false

theorem witness_AccessChecks :
    (0x101 : Word).toNat % 8 ≠ 0
    ∧ base.needleTr 0 0 .load 0x50008 = (base, .fault 4)
    ∧ base.needleTr 0 0 .load 0x108 = (base, .ok (.store 0 0x108) false 0x108)
    ∧ base.needleTr 0 0 .load 0x30108 = (base, .ok (.peer 1 0x4040000000000108) false 0x4040000000000108)
    ∧ base.reaches 1 = false ∧ far.reaches 1 = true
    ∧ base.needleTr 0 0 .load 0x40000 = (base, .ok (.control 0xF000000000000000) false 0xF000000000000000)
    ∧ base.check 0 0 (.ld 5 6 3 0 0x108) .load 0x50008 8 = .trap base 0x04 4 0x50008
    ∧ ready base (6 :: sizeRegs 5 8) ∧ ready base [6, 4, 5, 8, 9] ∧ (base.cur.storeBytes 5 8).length = 8
    ∧ (∀ q ∈ ([(.st 5 6 3 0 0, .store, 8), (.ldf 5 6 0, .ldf, 8), (.stf 5 6 0, .stf, 8), (.ste 5 6 0, .ste, 8)]
        : List (Instr × AccKind × Nat)), checkTraps (base.check 0 0 q.1 q.2.1 0x50008 q.2.2) 0x04 = true)
    ∧ checkTraps (base.checkIn 0 0 (.amoAdd 5 6 7 0 3 0) .amo amoPlace 0x40000 8) 0x04 = true
    ∧ checkTraps (base.checkIn 0 0 (.xst 5 6 3 0 0) .store peerPlace 0x30000 8) 0x06 = true
    ∧ checkTraps (base.checkIn 0 0 (.xamoAdd 5 6 7 0 3 0) .amo peerPlace 0x80 8) 0x04 = true
    ∧ base.cur.inTrap = false ∧ ((base.modTile 0 fun T => { T with tvec := 0x8000 }).tile 0).tvec ≠ 0
    ∧ (let s := { cutOff base with asids := [(0, ⟨0x0100000000102, true, 0, 0⟩)] };
      checkWaits (s.check 0 0 (.ld 5 6 3 0 0) .load 0x60000 8) = true) := by decide +kernel

/-- The slot's ASID has moved to a new generation. -/
def stale : State := { base with asids := [(0, { base.asid 0 with gen := 1 })] }

theorem witness_TranslationFaults :
    canonical 0x0001000000000000 = false ∧ canonical 0x00007FFFFFFFFFFF = true ∧ canonical 0xFFFF800000000000 = true
    ∧ (stale.slot 0 0).gen ≠ (stale.asid (stale.slot 0 0).asid).gen
    ∧ ((base.tile 0).tlb.find? fun e => e.hits 0 0 0x50000) = some ⟨0, 0, 0, 5, 0⟩ ∧ permitted 0 .load false = false
    ∧ ((base.tile 0).tlb.find? fun e => e.hits 0 0 0x0FFF8) = some ⟨0, 0, 0, 0, 0x3C⟩ ∧ permitted 0x3C .ldf false = true
    ∧ base.place 0 (leafPa 0x3C 0 0x0FFF8) = some (.store 0 0xFFF8) := by decide +kernel

theorem witness_LoadsComplete :
    ready base (6 :: sizeRegs 5 8)
    ∧ base.check 0 0 (.ld 5 6 3 0 0x10) .load 0x80 8 = .ok base (.store 0 0x80) false
    ∧ base.mayAccess 0 0 (localLoc 0 0x80) 8 = true ∧ base.cur.pend = [] ∧ base.refusal (localLoc 0 0x80) = none
    ∧ base.marked (localLoc 0 0x80) 8 = false
    ∧ base.check 0 0 (.ld 5 6 3 0 0x10) .load 0x20080 8 = .ok base (.spool 0x1000000000000080) false
    ∧ base.mayAccess 0 0 0x1000000000000080 8 = true
    ∧ base.check 0 0 (.ld 5 6 3 0 0) .load 0x40000 8 = .ok base (.control 0xF000000000000000) false
    ∧ base.mayAccess 0 0 0xF000000000000000 8 = true := by decide +kernel

theorem witness_StoresEnterTable :
    ready base (6 :: sizeRegs 5 8) ∧ (base.cur.storeBytes 5 8).length = 8
    ∧ base.check 0 0 (.st 5 6 3 0 0x10) .store 0x80 8 = .ok base (.store 0 0x80) false
    ∧ base.mayAccess 0 0 (localLoc 0 0x80) 8 = true ∧ entriesOf (base.tile 0).stores < 64
    ∧ base.releasedTo 0 0 (localLoc 0 0x80) false = true ∧ far.settledSlot 0 0 = true
    ∧ far.checkIn 0 0 (.xst 5 6 3 0 0) .store peerPlace 0x30000 8 = .ok far (.peer 1 0x4040000000000000) false
    ∧ far.mayAccess 0 0 0x4040000000000000 8 = true
    ∧ base.check 0 0 (.st 5 6 3 0 0) .store 0x40000 8 = .ok base (.control 0xF000000000000000) false := by decide +kernel

/-- Store 7 of slot 0 waits in the table of tile 0, and its acknowledgement is the event. -/
def waitingStore (loc : Nat) (h : StoreHow) : StoreEnt :=
  ⟨7, 0, 0x80, loc, if h = .nibble true then [0x0A] else natBytes 8 0x1122334455667788, false, h, 7, false, false⟩

def storing (loc : Nat) (h : StoreHow) : State :=
  { base.modTile 0 fun T => { T with stores := [waitingStore loc h] } with ev := { EvArgs.none with n := 7, flag := true } }

theorem witness_StoreAcknowledged :
    (∀ h ∈ [StoreHow.bytes, .empty, .nibble true], (storing (localLoc 0 0x80) h).Inv
      ∧ ((storing (localLoc 0 0x80) h).tile 0).stores.find? (fun e => e.id == 7) = some (waitingStore (localLoc 0 0x80) h)
      ∧ (storing (localLoc 0 0x80) h).mayPerform 0 7 [(localLoc 0 0x80, (waitingStore 0 h).bytes.length)] = true
      ∧ (storing (localLoc 0 0x80) h).ev.flag = true
      ∧ (storing (localLoc 0 0x80) h).refusal (localLoc 0 0x80) = none
      ∧ (storing (localLoc 0 0x80) h).narrowMarked (localLoc 0 0x80) 8 = false
      ∧ (storing (localLoc 0 0x80) h).feWait = [] ∧ (storing (localLoc 0 0x80) h).empties = [])
    ∧ (waitingStore 0 (.nibble true)).bytes = [0x0A]
    ∧ (storing 0x4040000000000000 .bytes).refusal 0x4040000000000000 = some (0x06, 1)
    ∧ (let s := cutOff (storing (localLoc 1 0x80) .bytes);
      s.mayPerform 0 7 [(localLoc 1 0x80, 8)] = false ∧ s.ev.flag = true)
    ∧ (let s : State := { base with ev := { EvArgs.none with n := 7 }, behind :=
          [⟨5, 1, 0, 0x1000000000000100, [0], false⟩, ⟨7, 0, 0, 0x1000000000000080, [0], false⟩] };
      let l := s.behind.takeWhile fun x => x.id != 7;
      (s.tile 0).stores = [] ∧ (s.behind.find? fun b => b.id == 7 && b.tile == 0) = some ⟨7, 0, 0, 0x1000000000000080, [0], false⟩
        ∧ l ≠ [] ∧ ∀ x ∈ l, x.tile ≠ 0 ∧ overlaps x.loc x.old.length 0x1000000000000080 1 = false)
    ∧ (let s : State := { base with ev := { EvArgs.none with n := 7 }, behind :=
          [⟨5, 1, 0, 0x1000000000000100, [0], false⟩, ⟨7, 0, 0, 0x1000000000000080, [0], true⟩] };
      ∃ b ∈ s.behind, b.id = 7 ∧ ∃ x ∈ s.behind.takeWhile (fun x => x.id != 7), b.rel = true ∧ x.loc ≠ b.loc) := by
  unfold State.Inv; decide +kernel

/-- An access of slot 0 is outstanding under number 7, and the event names it. -/
def asking (k : PendKind) (loc : Nat) : State :=
  { S fun x => { x with pend := [⟨7, [x.absReg 5], k, 0x80, loc, false, false⟩] } with ev := { EvArgs.none with n := 7 } }

theorem witness_NeedleReplies :
    (let s := asking (.load 8 false) 0x1000000000000080;
      ((s.slot 0 0).pend? 7).isSome = true ∧ (∀ p ∈ s.cur.pend, p.fe = false ∧ s.mayPerform 0 7 p.spans = true)
        ∧ s.refusal 0x1000000000000080 = none ∧ s.marked 0x1000000000000080 8 = false)
    ∧ amoNew 9 8 0 1 0 = some 1 ∧ amoNew 9 8 0 1 5 = none
    ∧ (((asking (.amo 9 8 1 5) 0x1000000000000080).slot 0 0).pend? 7).isSome = true
    ∧ (let s : State := { asking (.amo 0 8 1 0) 0x1000000000000080 with behind := [⟨5, 0, 0, 0x1000000000000100, [0], false⟩] };
      s.behind ≠ [] ∧ (0x1000000000000080 : Nat) / 2 ^ 56 ≠ 1 ∧ ((s.slot 0 0).pend? 7).isSome = true
        ∧ ∀ p ∈ s.cur.pend, s.mayPerform 0 7 p.spans = true)
    ∧ (let s := asking (.vec 1 64 false [⟨0, 0x1000000000000080, 0x80, false⟩] []) 0x1000000000000080;
        ((s.slot 0 0).pend? 7).isSome = true ∧ s.ev.flag = false ∧ s.refusal 0x1000000000000080 = none
        ∧ (∀ p ∈ s.cur.pend, s.mayPerform 0 7 p.spans = true)
        ∧ s.marked 0x1000000000000080 8 = false) := by decide +kernel

theorem witness_AtomicValues : (0 : Nat) < 8 ∧ amoNew 1 8 (2 ^ 63) 1 0 = some (2 ^ 63) ∧ amoNew 0 1 255 1 0 = some 0 := by
  decide +kernel

theorem witness_AtomicsIssue : ready base [6, 5, 7]
    ∧ base.checkIn 0 0 (.amoAdd 5 6 7 0 3 0) .amo amoPlace 0x80 8 = .ok base (.store 0 0x80) false
    ∧ base.mayAccess 0 0 (localLoc 0 0x80) 8 = true ∧ base.releasedTo 0 0 (localLoc 0 0x80) true = true
    ∧ base.checkIn 0 0 (.amoCas 4 6 8 1 0 0) .amo amoPlace 0x20080 16 = .ok base (.spool 0x1000000000000080) false
    ∧ base.checkIn 0 0 (.amoCas 4 6 8 1 0 0) .amo amoPlace 0x80 16 = .ok base (.store 0 0x80) false
    ∧ base.mayAccess 0 0 (localLoc 0 0x80) 16 = true ∧ base.marked (localLoc 0 0x80) 16 = false ∧ base.cur.pend = []
    ∧ ready base [6, 4, 5, 8, 9] := by decide +kernel

theorem witness_PeerAtomicsIssue : ready far [6, 5, 7] ∧ far.settledSlot 0 0 = true
    ∧ far.checkIn 0 0 (.xamoAdd 5 6 7 0 3 0) .amo peerPlace 0x30000 8 = .ok far (.peer 1 0x4040000000000000) false
    ∧ far.mayAccess 0 0 0x4040000000000000 8 = true ∧ far.releasedTo 0 0 0x4040000000000000 true = true := by decide +kernel

theorem witness_FullEmptyWords :
    let s := base
    let e := { base with empties := [localLoc 0 0x10080] }
    ready s [5, 6] ∧ s.mayAccess 0 0 (localLoc 0 0x10080) 8 = true ∧ s.refusal (localLoc 0 0x10080) = none
    ∧ localLoc 0 0x10080 % 8 = 0 ∧ s.feWait = [] ∧ s.isMarked (localLoc 0 0x10080) = false ∧ s.nodeFull (localLoc 0 0x10080) = false
    ∧ s.check 0 0 (.ldf 5 6 0) .ldf 0x10080 8 = .ok s (.store 0 0x10080) true
    ∧ s.check 0 0 (.stf 5 6 0) .stf 0x10080 8 = .ok s (.store 0 0x10080) true
    ∧ s.check 0 0 (.ste 5 6 0) .ste 0x10080 8 = .ok s (.store 0 0x10080) true
    ∧ e.check 0 0 (.ldf 5 6 0) .ldf 0x10080 8 = .ok e (.store 0 0x10080) true
    ∧ e.check 0 0 (.stf 5 6 0) .stf 0x10080 8 = .ok e (.store 0 0x10080) true
    ∧ s.empties = [] ∧ s.releasedTo 0 0 (localLoc 0 0x10080) false = true ∧ s.pathOpen 0 (localLoc 0 0x10080) = true
    ∧ e.releasedTo 0 0 (localLoc 0 0x10080) false = true ∧ entriesOf (s.tile 0).stores < 64 := by decide +kernel

/-- The lanes that a vector instruction's checks give, where they pass. -/
def passed (s : State) (i : Instr) (k : AccKind) (w : Nat) (l : List (Nat × Word)) : List LaneAcc :=
  match s.checkLanes i k w l with
  | .ok s1 ps => if s1 == s then (l.map fun e => e.1).zip ps else []
  | _ => []

theorem witness_VectorMemory :
    (let l := (base.cur.activeLanes 0 64).map fun k => (k, (0x80 : Word) + BitVec.ofNat 64 (8 * k));
      (match base.checkLanes (.vld 0 1 6 1 0) .load 8 l with
        | .ok s1 ps => s1 == base && ps.all (fun q => !q.2.2) && base.lanesMay 8 ((l.map fun e => e.1).zip ps)
            && (base.laneRefused ((l.map fun e => e.1).zip ps)).isNone
        | _ => false) = true)
    ∧ base.cur.pend = []
    ∧ (let l := passed base (.vld 0 1 6 1 0) .load 8 [(0, 0x80), (1, 0x88)]; l.length = 2
        ∧ ∀ e ∈ l, LaneAcc.isOwn 0 e = true ∧ base.marked e.2.2.1.loc 8 = false)
    ∧ (let l := passed base (.vld 0 1 6 1 0) .load 8 [(0, 0x20080), (1, 0x20088)]; l.length = 2
        ∧ (∀ e ∈ l, LaneAcc.isOwn 0 e = false ∧ LaneAcc.isControl e = false) ∧ base.lanesMay 8 l = true)
    ∧ (let l := passed base (.vst 0 1 6 1 0) .store 8 [(0, 0x80), (1, 0x88)]; l.length = 2
        ∧ (∀ e ∈ l, LaneAcc.isControl e = false) ∧ base.lanesMay 8 l = true ∧ entriesOf (base.tile 0).stores < 64)
    ∧ (match base.checkLanes (.vld 0 1 6 1 0) .load 8 [(0, (0x50000 : Word))] with
        | .trap _ c _ _ => c == 0x04
        | _ => false) = true
    ∧ ∀ q ∈ ([(.vld 0 1 6 1 0, .load), (.vgather 1 2 3 0 0 1, .load), (.vst 0 1 6 1 0, .store), (.vscatter 1 2 3 0 0 1, .store)]
        : List (Instr × AccKind)), checkTraps (base.check 0 0 q.1 q.2 0x50000 8) 0x04 = true := by decide +kernel

theorem witness_BoundaryTraps :
    ((S fun x => { x with late := [⟨0x0106, 0x80⟩] }).slot 0 0).late = [⟨0x0106, 0x80⟩] ∧ base.cur.inTrap = false
    ∧ ((S fun x => { x with budgetDue := true }).slot 0 0).budgetDue = true
    ∧ base.cur.ext = none ∧ (S fun x => { x with ext := some 5 }).cur.ext = some 5 := by decide +kernel

/-- ASID 0 has a page table: its root at 0x2000 of tile 0's store, one table below it, and a leaf of 1 GiB. -/
def walked : State :=
  { (base.write (localLoc 0 0x2000) (natBytes 8 0x0100000000003001)).write (localLoc 0 0x3000) (natBytes 8 0x3F) with
    asids := [(0, ⟨0x0100000000002, true, 0, 0⟩)] }

theorem witness_MemoryHardwareSteps :
    (let s := (asking (.load 8 false) (localLoc 1 0xFFF80)).modPhy (base.physOf 1) fun P => { P with banks := 0x0FFF };
      ((s.slot 0 0).pend? 7).any (fun p => !p.fe && p.kind != .result) = true ∧ (s.slot 0 0).run = .handler .sys
      ∧ s.causeHolds 0 (localLoc 1 0xFFF80) 8 false .elsize = true ∧ s.ev.cause = .elsize)
    ∧ (let s : State := { base with feWait := [⟨.needle 0 0 3, localLoc 0 0x10080, true⟩] };
      (s.feWait[0]?).any (fun q => q.retry) = true ∧ s.nodeFull (localLoc 0 0x10080) = false ∧ s.pathOpen 0 (localLoc 0 0x10080) = true)
    ∧ (canonical 0x60000 = true ∧ (walked.tile 0).tlb.find? (fun e => e.hits 0 0 0x60000) = none ∧ walked.walkers = []
      ∧ (match walked.walk (some 0) (walked.panelOf 0) 0 0 0x60000 with
        | .leaf e l _ => e == 0x3F && l == 2
        | _ => false) = true)
    ∧ (match (S fun x => { x with wsp := 0x4000, depth := 1, frames := [Vector.replicate 16 9] }).spill 0 0 .ret with
        | .done _ => true
        | _ => false) = true
    ∧ base.cur.runs = true ∧ (match (S fun x => { x with wsp := 0x4000, depth := 1 }).fillWindow 0 0 .ret with
        | .done _ => true
        | _ => false) = true
    ∧ (let s := cutOff (S fun x => { x with held := some (localLoc 1 0x80) });
      (s.slot 0 0).pend? 7 = none ∧ (s.slot 0 0).held = some (localLoc 1 0x80) ∧ s.pathFailed 0 (localLoc 1 0x80) = true) := by
  decide +kernel

/-! ### Witnesses of the vector statements -/

theorem witness_VectorIntegerLanes : (0 : BitVec 3).toNat ≤ 4 ∧ (4 : BitVec 3).toNat ≤ 4 ∧ ready base [(7 : BitVec 3).zeroExtend 5]
    ∧ (3 : BitVec 2) ≠ 0 := by decide +kernel

/-- Every lane of v1 holds 1.0 in its type; no lane of a sum, and no step of a reduction, raises anything. -/
theorem witness_VectorFloatLanes :
    (2 : BitVec 3).toNat ≤ 5 ∧ 2 ≤ (2 : BitVec 3).toNat ∧ 2 ≤ (5 : BitVec 3).toNat
    ∧ base.cur.fpcs.en = 0 ∧ (0x0A : BitVec 5).toNat < 0x13 ∧ (0x12 : BitVec 5).toNat < 0x13
    ∧ isNext (exec (.vfadd 2 1 1 0 0 5 7) base) = true ∧ isNext (exec (.vrfadd 2 1 0 5 0) base) = true := by decide +kernel

/-! ### Witnesses of the statements about special registers and system instructions -/

/-- The slot is in user mode. -/
def user : State := S fun x => { x with mode := .user }

theorem witness_SpecialRegisterReads : ready user [5] ∧ user.cur.mode = .user
    ∧ (0x006 : BitVec 10).toNat < 0x020 ∧ base.cur.mode = .system ∧ base.cur.run ≠ .handler (.actor 2)
    ∧ (S fun x => { x with run := .handler (.actor 2) }).cur.run = .handler (.actor 2) := by decide +kernel

theorem witness_SpecialRegisterWrites : ready user [6] ∧ (0x006 : BitVec 10).toNat ≤ 0x006
    ∧ ((R [(6, 0x40)]).cur.sreg 6).toNat % 32 = 0 ∧ ((R [(6, 0x44)]).cur.sreg 6).toNat % 32 ≠ 0
    ∧ ((R [(6, 0x44)]).cur.sreg 6).toNat % 4 = 0 ∧ ((R [(6, 0x42)]).cur.sreg 6).toNat % 4 ≠ 0 ∧ (R [(6, 1)]).cur.mode = .system
    ∧ ((R [(6, 0xA0)]).cur.sreg 6).toNat / 32 % 8 = 5 ∧ ((R [(6, 0x80)]).cur.sreg 6).toNat / 32 % 8 = 4
    ∧ get (0x3000000000006002 : Word) 63 60 = 3 := by
  decide +kernel

theorem witness_PrivilegedInUserMode : ready user [5, 6, 7] ∧ user.cur.mode = .user := by decide +kernel

/-- A panel that has nothing left, with another booking. -/
def spent : State := { R [(6, 1)] with panels := [(0, { Panel.reset with booked := 607142 })] }

theorem witness_LeaveResults : ready (R [(6, 65536)]) [5, 6] ∧ base.cur.asked = none ∧ 65535 < ((R [(6, 65536)]).cur.sreg 6).toNat
    ∧ (base.cur.sreg 6).toNat = 0
    ∧ 65535 < ((S fun x => { x.setSreg 6 65535 with bal := Vector.replicate 4 1 }).cur.balance 0).toNat + 65535
    ∧ (base.panel 0).reqs = [] ∧ (base.panel 0).booked + 125 * 1 ≤ (base.panel 0).budget.toNat ∧ base.panelOf 0 = 0
    ∧ (spent.panel 0).budget.toNat < (spent.panel 0).booked + 125 * 1 ∧ (spent.panel 0).booked ≠ 0
    ∧ (spent.cur.sreg 6).toNat = 1 := by decide +kernel

theorem witness_LeaveGranted :
    (let s : State := { base with panels := [(0, { Panel.reset with reqs := [⟨0, some 0, 0, 1⟩] })] };
      (s.panel 0).reqs = [⟨0, some 0, 0, 1⟩] ∧ (s.panel 0).booked + (⟨0, some 0, 0, 1⟩ : LeaveReq).cost ≤ (s.panel 0).budget.toNat)
    ∧ (let s : State := { base with panels := [(0, { Panel.reset with reqs := [⟨0, none, 0, 1⟩], booked := 607142 })] };
      (s.panel 0).budget.toNat < (s.panel 0).booked + (⟨0, none, 0, 1⟩ : LeaveReq).cost ∧ (s.panel 0).booked ≠ 0) := by
  decide +kernel

/-- A message to tile 0 that has arrived. -/
def coming (m : Msg) (src : Nat) : State :=
  { base with flights := [⟨7, m, src, 0, base.physOf 0, [], false, false⟩], ev := { EvArgs.none with n := 7 } }

/-- An element's load in flight. -/
def patchOp : ElemOp := ⟨7, 0, .ldr 8 0, 0x80, localLoc 1 0x80, false, 0, 0, 0, 0, false, none, false, false⟩

theorem witness_Invalidations :
    (let s := R [(6, 0x20000)]; ready s [6, 7] ∧ s.cur.mode = .system ∧ get (s.cur.sreg 6) 18 16 = 2 ∧ get (s.cur.sreg 6) 63 19 = 0
      ∧ get (s.cur.sreg 6) 15 12 = 0 ∧ get (s.cur.sreg 6) 11 0 = 0)
    ∧ get ((R [(6, 0x30000)]).cur.sreg 6) 18 16 = 3 ∧ get (base.cur.sreg 6) 18 16 = 0
    ∧ (let s := coming (.inval 0 0 0 false 1) 1;
      (s.flight? 7).any (fun f => f.msg == .inval 0 0 0 false 1 && s.arrived f) = true
      ∧ s.invBusy 0 (invOf 0 0 0) = false
      ∧ (s.modFabric 0 fun F => { F with
            path := { F.path with ext := [⟨0, 0, 0, true, true, false, 0, 0, false, 0⟩] }, ops := [patchOp] }).invBusy 0 (invOf 0 0 0) = true) := by
  decide +kernel

theorem witness_AsidRetires : ready (R [(6, 3)]) [5, 6] ∧ base.cur.mode = .system ∧ ((R [(6, 3)]).cur.sreg 6).toNat < 4096
    ∧ (base.asid 3).gen + 1 ≠ (base.asid 3).low ∧ 12 ≤ ((R [(6, 4096)]).cur.sreg 6).toNat.log2
    ∧ (let s : State := { base with asids := [(3, ⟨0, true, 1, 0⟩)] }; (s.asid 3).gen + 1 = (s.asid 3).low) := by decide +kernel

/-- A slot with leave of every class, and a test of the slot's own under ticket 0 on tile 0. -/
def testing (bal : BitVec 16) : State :=
  (S fun x => { x with bal := Vector.replicate 4 bal }).modSwatch 0 fun w =>
    { w with running := [⟨0, 0, 0, false, 0, true, false, none⟩], next := 1 }

theorem witness_SwatchTests :
    (testing 1).cur.balance 3 ≠ 0 ∧ (testing 1).swatchStatus 0 = 0 ∧ (testing 1).swatchStatus 0x01000000000 ≠ 0
    ∧ descOk 0 = true ∧ (∃ y ∈ ((testing 1).tile 0).swatch.running, y.booked = true ∧ y.ticket = BitVec.ofNat 16 (get (0 : Word) 47 32))
    ∧ descOk 0xFFFF = false
    ∧ ((((testing 1).tile 0).swatch.running).findIdx? fun y => y.booked && y.ticket.toNat == get (0 : Word) 47 32) = some 0
    ∧ ((testing 1).tile 0).swatch.running[0]? = some ⟨0, 0, 0, false, 0, true, false, none⟩ ∧ (testing 1).unitBusy 0 0 = false
    ∧ (base.modFabric 0 fun F => { F with islands := [(0, { Island.reset with valid := true })] }).unitBusy 0 (descOf 0 2 16 0) = true := by
  decide +kernel

theorem witness_SwatchHardware :
    (let s := (testing 1).startTest 0 3 23 1 true;
      (s.tile 0).swatch.running[1]? = some ⟨0, descOf 0 3 23 1, 0, true, 0, false, false, none⟩
        ∧ s.unitRetired 0 (descOf 0 3 23 1) = false ∧ s.unitActive 0 (descOf 0 3 23 1) = false)
    ∧ ((testing 1).tile 0).swatch.running[0]? = some ⟨0, 0, 0, false, 0, true, false, none⟩
    ∧ (let s := base.modFabric 0 fun F => { F with islands := [(0, { Island.reset with valid := true })] };
      s.unitRetired 0 (descOf 0 2 16 0) = false ∧ s.unitActive 0 (descOf 0 2 16 0) = true)
    ∧ (base.modPhy (base.physOf 0) fun P => { P with banks := 0xFFFE }).unitRetired 0 (descOf 0 1 27 0) = true := by decide +kernel

/-! ### Witnesses of the statements about stitches, pockets and actors -/

/-- The target word of label 5 at the tile (0, 0) of the allocation, and words that name none. -/
theorem witness_SendInjects : ready (R [(6, 0x500000000)]) [5, 6, 7]
    ∧ (R [(6, 0x500000000)]).sendTarget 0 0 0x500000000 = some (0, 5, none)
    ∧ base.sendTarget 0 0 0xFFFF = none
    ∧ (base.tile 0).router.refusedHere 0 5 = false ∧ (base.tile 0).router.inj.length < 16
    ∧ 16 ≤ ((base.modRouter 0 fun r => { r with inj := List.replicate 16 ⟨⟨0, false, 0, 0, 5, none, false, 0, 0, 0, none, none⟩, false, 0, 0⟩ }).tile 0).router.inj.length
    ∧ (let r := (((R [(6, 0x500000000)]).modRouter 0 fun r => { r with sender := [(0, 5)], ovfcfg := 16 }).tile 0).router;
      r.refusedHere 0 5 = true ∧ r.ovfFree = true) := by
  decide +kernel

theorem witness_StitchTargets :
    (135 : Nat) < 256 ∧ (0 : Nat) < (base.allocOf none).w ∧ (0 : Nat) < (base.allocOf none).h ∧ (base.allocOf none).w ≤ 255
    ∧ user.cur.mode = .user ∧ get (0x7D00000000 : Word) 38 32 = 125 := by decide +kernel

/-- A stitch of tile 1 to label 5 of tile 0. -/
def st1 : Stitch := ⟨1, false, 0, 0, 5, none, false, 0x11, 0x22, 0, none, none⟩

/-- Tile 0 has pocket 5 of actor 2, which is bound. -/
def pocketed (s : State) : State :=
  s.modRouter 0 fun r =>
    (r.modPocket 5 fun p => { p with state := .idle, owner := 2, depthM1 := 3, entry := 0x2000 }).modActor 2 fun a =>
      { a with state := .bound, inc := 1, sbase := 0x4000, ssize := 0x1000, dqBase := 0x8000, dqLog := 3 }

theorem witness_StitchJourney :
    (let s := (base.modRouter 0 fun r => { r with inj := [⟨st1, false, 0, 0⟩] });
      (s.silicon 0).dark = false ∧ s.injNext 0 = some 0 ∧ (s.tile 0).router.inj[0]? = some ⟨st1, false, 0, 0⟩)
    ∧ (let s := pocketed (coming (.stitch st1) 1); let p := (s.tile 0).router.pocket 5;
      (s.flight? 7).any (fun f => f.msg == .stitch st1 && s.arrived f && decide (f.dst < tileCount)) = true
      ∧ (s.silicon 0).state = 1 ∧ (s.silicon 0).dark = false ∧ (s.tile 0).router.holdStall = false ∧ (s.tile 0).router.ovfList = [] ∧ p.state = .idle ∧ p.held = false
      ∧ p.store.length ≤ p.depthM1 ∧ p.ovf = [] ∧ (s.tile 0).router.storeUsed < 256
      ∧ (s.tile 0).router.refusal.contains (1, 5) = false)
    ∧ (let s := coming (.answer st1) 1; (s.flight? 7).any (fun f => f.msg == .answer st1 && s.arrived f) = true)
    ∧ (let s := coming (.returned { st1 with status := 1 } true) 1;
      (s.flight? 7).any (fun f => s.arrived f) = true ∧ (s.tile 0).router.returnFits = true ∧ (s.tile 0).router.sender = []) := by
  decide +kernel

theorem witness_ResumeClearsRefusal :
    ready (R [(6, 0x500000000)]) [6] ∧ (R [(6, 0x500000000)]).sendTarget 0 0 0x500000000 = some (0, 5, none)
    ∧ (base.tile 0).router.inFlight.get 0 (flightCounter 0 5) = 0
    ∧ ((base.modRouter 0 fun r => { r with inFlight := [(flightCounter 0 5, 1)] }).tile 0).router.inFlight.get 0 (flightCounter 0 5) ≠ 0
    ∧ ((coming (.marker 5) 1).flight? 7).any (fun f => f.msg == .marker 5 && (coming (.marker 5) 1).arrived f) = true
    ∧ (let s := base.modRouter 0 fun r => { r with localRef := [st1] };
      (s.tile 0).router.localRef = [st1] ∧ (s.tile 0).router.counterZero 0 5 = true ∧ (s.tile 0).router.returnRoom = true
      ∧ ((s.tile 0).router.pocket 0).held = false) := by decide +kernel

/-- Pocket 5 of tile 0 holds the stitch and is ready. -/
def picking : State :=
  (pocketed base).modRouter 0 fun r => r.modPocket 5 fun p => { p with state := .ready, store := [st1] }

theorem witness_PickStartsHandler : picking.pickNow 0 = some (1, 5) ∧ ((picking.tile 0).router.pocket 5).store.head? = some st1 := by
  decide +kernel

/-- A bind block at 0x100: a new record, label 5, one word, entry 0x2000, state region of 64 bytes at 0x4000. -/
def bindBytes : List Byte :=
  [0, 5, 1, 0, 0, 0, 1, 0] ++ List.replicate 8 0 ++ natBytes 8 0x2000 ++ natBytes 8 0x4000 ++ natBytes 8 64 ++ List.replicate 24 0

theorem witness_PocketInstructions :
    (let s := (R [(6, 0x100)]).write (localLoc 0 0x100) bindBytes;
      ready s [5, 6] ∧ (match s.readBlock (.pbind 5 6) 0x100 64 64 with
        | .got s1 bs => s1 == s && bs == bindBytes
        | _ => false) = true
      ∧ bindOk bindBytes = true ∧ s.bindRecord bindBytes = .inr 0 ∧ (s.tile 0).router.bindLabel 5 = .inr 5)
    ∧ bindOk (List.replicate 64 1) = false
    ∧ (let s := pocketed (R [(6, 5)]);
      (s.cur.sreg 6).toNat < 128 ∧ (s.tile 0).router.ownedBy 5 s.callerLaunch = true ∧ ((s.tile 0).router.pocket 5).state ≠ .freed)
    ∧ (base.tile 0).router.ownedBy 5 base.callerLaunch = false ∧ 128 ≤ ((R [(6, 128)]).cur.sreg 6).toNat := by decide +kernel

theorem witness_PocketQueries :
    (let s := R [(6, 0x4000000000000005)];
      ready s (6 :: [4, 5, 6, 7]) ∧ get (s.cur.sreg 6) 63 62 = 1 ∧ get (s.cur.sreg 6) 61 48 = 0 ∧ get (s.cur.sreg 6) 31 7 = 0
      ∧ ((s.tile 0).router.waiting 5)[0]? = none)
    ∧ ((picking.tile 0).router.waiting 5)[0]? = some st1
    ∧ get (0x8000000000000000 : Word) 63 62 = 2 ∧ get (0x8000000000000000 : Word) 61 21 = 0
    ∧ (let s : State := { base with queries := [⟨0, 0, 7, 0x8000000000000000, 0, none, none, true⟩] };
      (s.queries.find? fun q => q.tile == 0 && q.slot == 0) = some ⟨0, 0, 7, 0x8000000000000000, 0, none, none, true⟩
        ∧ ∀ k < 8, (s.slot 0 k).pend? 7 = none)
    ∧ ((List.range 8).find? fun k => (((asking .result 0).slot 0 k).pend? 7).isSome) = some 0
    ∧ (let s := base.modRouter 0 fun r => r.modActor 2 fun a => { a with savedPend := [⟨7, [5], .result, 0, 0, false, false⟩] };
      (((s.tile 0).router.actors.find? fun e => e.2.savedPend.any fun p => p.id == 7).map Prod.fst) = some 2) := by decide +kernel

/-- A handler of actor 2 with a deque of eight tasks, `n` of them taken. -/
def tasked (n : BitVec 16) : State :=
  ((pocketed (S fun x => { x with run := .handler (.actor 2) })).modRouter 0 fun r => r.modActor 2 fun a => { a with tail := n }).modCur
    fun x => x.setSreg 6 0x4000000080000801

theorem witness_TasksAndThieves :
    base.cur.run = .handler .sys
    ∧ (let s := tasked 8; let A := (s.tile 0).router.actor 2;
      ready s [4, 5, 6, 7] ∧ s.cur.run = .handler (.actor 2) ∧ A.dqOk = true ∧ ((s.tile 0).router.pocket 126).store = []
      ∧ A.tasks = 2 ^ A.dqLog.toNat ∧ A.dqAt (A.tail - 1).toNat + 16 ≤ s.lsize 0
      ∧ s.mayAccess 0 0 (localLoc 0 (A.dqAt (A.tail - 1).toNat)) 16 = true
      ∧ s.marked (localLoc 0 (A.dqAt (A.tail - 1).toNat)) 16 = false
      ∧ (s.allocOf (s.launchOf 0 0)).target (s.cur.sreg 6) = some (0, 0, some (handleOf 0 2 A.inc))
      ∧ s.sendTarget 0 0 0x500000000 ≠ none ∧ s.sendTarget 0 0 0xFFFF = none)
    ∧ (let s := tasked 0; let A := (s.tile 0).router.actor 2;
      A.tasks = 0 ∧ A.tasks ≠ 2 ^ A.dqLog.toNat ∧ A.dqAt A.tail.toNat + 16 ≤ s.lsize 0
      ∧ s.mayAccess 0 0 (localLoc 0 (A.dqAt A.tail.toNat)) 16 = true ∧ entriesOf (s.tile 0).stores < 64)
    ∧ (let s := base.modRouter 0 fun r => r.modPocket 126 fun p => { p with store := [{ st1 with w0 := 0x500000000, w1 := 0 }] };
      ([{ st1 with w0 := 0x500000000, w1 := 0 }].findIdx? (s.tile 0).router.stealDead) = none
      ∧ (s.allocOf none).target 0x500000000 = some (0, 5, none)) := by decide +kernel

/-- A command of slot 1 waits at tile 0: bind and evict of actor 2 to 0x6000, or restore from there. -/
def commanding (cmd : Word) : State :=
  (pocketed base).modTile 0 fun T => { T with actWait := some ⟨1, cmd, false, false⟩ }

/-- A replay whose next entry is a pick of label `l` on slot 1. -/
def replaying (l : Nat) : State :=
  (picking.modRouter 0 fun r => { r with ploga := 0x8000900000000000 }).write (localLoc 0 0x9000)
    (natBytes 8 (put 60 4 1 + put 57 3 1 + put 50 7 l).toNat)

theorem witness_ReplayAndActorCommands :
    ((replaying 5).tile 0).router.plogMode = 2 ∧ (replaying 5).plogHolds 0 = true ∧ (replaying 6).plogHolds 0 = false
    ∧ ((commanding 0x1000000000006002).tile 0).actWait = some ⟨1, 0x1000000000006002, false, false⟩
    ∧ get (0x1000000000006002 : Word) 63 60 = 1
    ∧ ((commanding 0x1000000000006002).actTry 0 1 0x1000000000006002).2 = true
    ∧ (commanding 0x1000000000006002).actSelf 0 1 0x1000000000006002 = false
    ∧ (base.tile 0).actWait = none
    ∧ ((cutOff { commanding 0x1000000000070002 with asids := [(0, ⟨0x0100000000102, true, 0, 0⟩)] }).actTry 0 1 0x1000000000070002).2 = false
    ∧ get (0x2000000000006002 : Word) 63 60 = 2 := by decide +kernel

/-- Slot 0 commands actor 2, whose record is in state `st`, with `v`. -/
def acting (st : ActorState) (v : Word) : State :=
  (R [(6, v)]).modRouter 0 fun r => r.modActor 2 fun a => { a with state := st, slot := 1, inc := 1, sbase := 0x4000, ssize := 0x1000 }

/-- The save area at 0x6000 can be reached, and its first 64 bytes lie in the tile's own store. -/
def areaAt (s : State) (kind : AccKind) : Bool := match s.area 0 0 kind 0x6000 with
  | .places s1 ps => s1 == s && ps.head? == some (localLoc 0 0x6000)
  | _ => false

def areaLost (s : State) (kind : AccKind) : Bool := match s.area 0 0 kind 0x50000 with
  | .unreachable s1 => s1 == s
  | _ => false

/-- Actor 2 runs on slot 1, before an ADD. -/
def runningActor : State :=
  ((acting .running 0x1000000000006002).write (localLoc 0 0x3000) (natBytes 4 0x20531C00)).modSlot 0 1 fun x => { x with run := .handler (.actor 2), pc := 0x3000 }

theorem witness_EvictAndRestore :
    (let s := acting .bound 0x1000000000006002;
      ready s [6] ∧ s.cur.mode = .system ∧ (s.tile 0).actWait = none ∧ get (s.cur.sreg 6) 59 48 = 0 ∧ (s.cur.sreg 6).getLsbD 5 = false
      ∧ s.cur.run ≠ .handler (.actor 2) ∧ s.cur.run ≠ .free ∧ get (s.cur.sreg 6) 63 60 = 1 ∧ get (s.cur.sreg 6) 4 0 = 2
      ∧ ((s.tile 0).router.actor 2).state = .bound ∧ areaAt s .store = true ∧ (s.tile 0).router.pockets = []
      ∧ (s.tile 0).router.ovfList = [] ∧ (s.tile 0).router.holdq = [] ∧ (s.tile 0).router.ringFull 2 = false)
    ∧ areaLost (acting .bound 0x1000000000050002) .store = true
    ∧ (let s := runningActor; areaAt s .store = true ∧ (s.slot 0 1).accesses = [] ∧ (s.slot 0 1).ext = none ∧ (s.slot 0 1).dying = none
      ∧ (let s2 := (s.withdrawAll 0 1).takeDue 0 1; (s2.tile 0).router = (s.tile 0).router ∧ (s2.slot 0 1).dying = none))
    ∧ (let s := (acting .away 0x2000000000006002); areaAt s .load = true ∧ get (s.cur.sreg 6) 63 60 = 2
      ∧ (imgWord (s.bytes (localLoc 0 0x6000) 64) 0x008).getLsbD 3 = false ∧ (s.slot 0 1).run = .free)
    ∧ (let s := (acting .away 0x2000000000006002).write (localLoc 0 0x6008) [8]; areaAt s .load = true
      ∧ (imgWord (s.bytes (localLoc 0 0x6000) 64) 0x008).getLsbD 3 = true ∧ (s.slot 0 1).run = .free ∧ (s.slot 0 0).run ≠ .free)
    ∧ (let s := (acting .away 0x2000000000006002).modTile 0 fun T =>
          { T with slots := T.slots.map fun x => { x with run := if x.run = .free then .stopped else x.run } };
      ∀ j < 8, (s.slot 0 j).run ≠ .free) := by decide +kernel

/-! ### Witnesses of the statements about matrix islands -/

/-- Tile 0 with its fabric changed; its part of a launch runs. -/
def fab (f : Fabric → Fabric) : State := base.modFabric 0 fun F => { f F with part := { F.part with state := .running } }

/-- Island 0 of tile 0 with its block in place. -/
def isl (f : Island → Island) : State := fab fun F => { F with islands := [(0, f { Island.reset with valid := true })] }

/-- Island 0 and fold slot 1 of tile 0. -/
def I0 (s : State) : Island := (s.tile 0).fabric.island 0
def F1 (s : State) : FoldSlot := (s.tile 0).fabric.fold 1

/-- A slot with leave of every class. -/
def leaves (l : List (BitVec 5 × Word)) : State := (R l).modCur fun x => { x with bal := Vector.replicate 4 1 }

theorem witness_MatrixInstructions :
    ready (leaves [(6, 0x10000), (7, 0x20000)]) [5, 6, 7] ∧ 4 ≤ (4 : BitVec 3).toNat ∧ (3 : BitVec 3).toNat < 4
    ∧ 0x10020 % 64 ≠ 0 ∧ 0x10000 % 64 = 0 ∧ base.lsize 0 < 0xFC040 + 32768 ∧ 0x10000 + 32768 ≤ base.lsize 0
    ∧ 0x20000 + 4 * mxColumns 3 ≤ base.lsize 0 ∧ (I0 (isl id)).claimBlock = false
    ∧ (I0 (isl fun I => { I with claimBlock := true, claimRows := true, claimResults := true })).claimRows = true
    ∧ 0x10004 % 8 ≠ 0 ∧ 0x10000 % 8 = 0 ∧ 0x10008 % 32 ≠ 0 ∧ base.feWait = []
    ∧ 0x10000 + 65535 * rowBytes 0 > base.lsize 0 ∧ 0x10000 + 8 * rowBytes 0 ≤ base.lsize 0
    ∧ (I0 (isl id)).fmtAhead = 0 ∧ 0x10000 + 65535 * (4 * mxColumns 0) > base.lsize 0
    ∧ (leaves []).cur.balance 0 ≠ 0 ∧ base.cur.run = .handler .sys ∧ 0x10000 % 32 = 0
    ∧ 0x10000 + 1 * (4 * mxColumns 0) ≤ base.lsize 0 ∧ (0x10000 : Nat) % 2 = 0 ∧ (0x10001 : Nat) % 2 = 1
    ∧ (let s := isl fun I => { I with jobs := [⟨.row, 0, 0x10000, 0, 4, 2, false, true, 7, 0, .sys, 0⟩] };
      (I0 s).claimBlock = false ∧ (I0 s).claimRows = false ∧ (I0 s).claimResults = false ∧ s.feWait = []
      ∧ ((s.modCur fun x => { x with pend := [⟨7, [x.absReg 5], .result, 0, 0, false, false⟩] }).slot 0 0).pend? 7
          = some ⟨7, [5], .result, 0, 0, false, false⟩) := by decide +kernel

/-- A row without scales. -/
def row0 : Row := ⟨0, [], [], none⟩

theorem witness_IslandFirings :
    (let s := isl fun I => { I with rows := [row0] };
      ((s.tile 0).fabric.island 0).rows = [row0] ∧ s.mayFire 0 0 = true ∧ residueOk ((s.tile 0).fabric.island 0) row0 [] = true
      ∧ residueOk ((s.tile 0).fabric.island 0) row0 [(0, 1)] = false ∧ ((s.tile 0).fabric.island 0).refire = false)
    ∧ (let s := isl fun I => { I with rows := [row0], refire := true };
      s.mayFire 0 0 = true ∧ ((s.tile 0).fabric.island 0).refire = true
      ∧ ((s.tile 0).fabric.sinks.get SinkRep.reset 16).first = false ∧ (s.tile 0).router.returnRoom = true
      ∧ ((s.tile 0).router.pocket 0).held = false)
    ∧ (((isl id).modFabric 0 fun F => { F with sinks := [(16, { SinkRep.reset with first := true })] }).tile 0).fabric.sinks.get
        SinkRep.reset 16 ≠ SinkRep.reset := by decide +kernel

theorem witness_IslandValues : row0.poison = none ∧ (∀ b < 4, row0.scale b ≠ 0xFF ∧ Island.reset.scale 0 b ≠ 0xFF)
    ∧ ({ row0 with scales := [0xFF] } : Row).scale 0 = 0xFF ∧ ({ row0 with poison := some 7 } : Row).poison = some 7 ∧ 0 < mxColumns Island.reset.fmt
    ∧ (∀ b < 4, 0 ≤ row0.scale b + Island.reset.scale 0 b)
    ∧ (f32.round 0 0 ⟨false, 0, -254, false⟩).exc.getLsbD 2 = false := by decide +kernel

/-- An island with a job at the head of its queue. -/
def working (k : MatKind) (count done : Nat) (started : Bool) (f : Island → Island) : State :=
  isl fun I => f { I with valid := false, jobs := [⟨k, 0, 0x10000, 0x20000, count, done, false, started, 7, 0, .sys, 0⟩] }

theorem witness_IslandQueues :
    (let s := working .load 0 0 false id; let I := (s.tile 0).fabric.island 0;
      I.loading = false ∧ I.valid = false ∧ I.refire = false ∧ s.stops 0 = false ∧ s.feWait = []
      ∧ s.storeReads 0 0 [(0x10000, 32768), (0x20000, 4 * mxColumns 0)] = true)
    ∧ (((working .load 0 0 true fun I => { I with loading := true }).tile 0).fabric.island 0).loading = true
    ∧ (((working .load 0 0 true fun I => { I with loading := true }).tile 0).fabric.island 0).cordoned = false
    ∧ (let s := working .row 4 3 true id; let I := (s.tile 0).fabric.island 0;
      I.rows.length < 16 ∧ s.feWait = [] ∧ (s.tile 0).fabric.elemRowWire 0 0 = none
      ∧ s.storeReads 0 0 [(0x10000 + 3 * rowBytes 0, rowBytes 0)] = true ∧ s.marked (localLoc 0 (0x10000 + 3 * rowBytes 0)) (rowBytes 0 - 4) = false)
    ∧ (let w : Wire := ⟨.elem 2 0, none, [(0, .island 0)]⟩
      let s := (isl fun I => { I with parts := List.replicate (rowTokens 0) Token.zero }).modFabric 0 fun F => { F with wires := [w] }
      (s.tile 0).fabric.elemRowWire 0 0 = some (2, w) ∧ w.sel = none ∧ (0, Sink.island 0) ∈ w.dsts ∧ rowTokens (I0 s).rowFmt ≤ (I0 s).parts.length ∧ (s.tile 0).fabric.rowRoom w = true)
    ∧ ((((working .row 4 4 true id).tile 0).fabric.island 0).jobs.head?.map fun j => j.done) = some 4
    ∧ (working .row 4 4 true id).ev.n = 0 ∧ ((asking .result 0).slot 0 0).pend? 7 = some ⟨7, [5], .result, 0x80, 0, false, false⟩ := by
  decide +kernel

theorem witness_ResultPort :
    (let s := working .drain 2 1 true fun I => { I with results := [[Token.zero, Token.zero]] };
      ((s.tile 0).fabric.island 0).claimResults = false ∧ ((s.tile 0).fabric.island 0).sent = 0
      ∧ s.storeQuiet 0 (0x10000 + 1 * 8) 8 = true ∧ 0x10000 + 1 * 8 + 8 ≤ s.lsize 0)
    ∧ ([Token.zero, ⟨true, 0, 5⟩].filter fun v : Token => v.poison) = [⟨true, 0, 5⟩]
    ∧ (let s := fab fun F => { F with
          islands := [(0, { Island.reset with claimResults := true, results := [[Token.zero, Token.zero]] })],
          wires := [⟨.island 0, none, [(0, .elem 1 2)]⟩] };
      (s.tile 0).fabric.routesOf 0 = [[(0, .elem 1 2)]] ∧ s.sinkRoom 0 (0, .elem 1 2) 1 = true
      ∧ ((s.tile 0).fabric.island 0).routes ≤ 1) := by decide +kernel

/-! ### Witnesses of the statements about folds, copies, streams and units -/

/-- Fold slot 1 of tile 0: it takes the needle's rows and sends to the east. -/
def folding (f : FoldSlot → FoldSlot) : State :=
  fab fun F => { F with folds := [(1, f { FoldSlot.reset with v := true, srcs := 1, ins := 0x10, out := 0, len := 7 })] }

/-- A flit of eight zeros. -/
def flit0 : FoldFlit := ⟨0, 0, List.replicate 8 ⟨0, none⟩, 0, 0⟩

theorem witness_FoldInstructions :
    (7 : BitVec 5).toNat % 4 ≠ 0 ∧ ready (folding id) [8, 9, 10, 11] ∧ (F1 (folding id)).v = true
    ∧ (F1 (folding id)).srcs.getLsbD 0 = true ∧ (((folding id).tile 0).fabric.fold 1).inq.get [] 13 = []
    ∧ foldValueOk 0 0x0000000008000000 = false
    ∧ foldValueOk 0 0x8400000000000000 = true ∧ get (0x8400000000000000 : Word) 53 51 ≠ 4
    ∧ foldValueOk 0 0x8420000000000000 = true ∧ get (0x8420000000000000 : Word) 53 51 = 4 ∧ (0x21 : Word).toNat % 32 ≠ 0
    ∧ (0x8400000000000000 : Word).getLsbD 63 = true ∧ foldValueOk 0 0 = true
    ∧ (F1 (folding id)).pattern = false ∧ (F1 (folding id)).empty = true ∧ (∀ k ∈ (F1 (folding id)).inDirs, (folding id).foldsOnWay 0 1 k = 0)
    ∧ (F1 (folding fun f => { f with inq := [(13, [flit0])] })).empty = false ∧ base.lsize 0 ≤ 0x100000 ∧ 0x100000 % 32 = 0 := by
  decide +kernel

theorem witness_FoldCombines :
    (let s := folding id; let f := (s.tile 0).fabric.fold 1;
      f.outq = [] ∧ f.idx = false ∧ ∃ k ∈ f.inputs, f.inq.get [] k = [])
    ∧ (let s := (folding fun f => { f with inq := [(13, [flit0])] }).modFold 1 1 fun f => { f with v := true, ins := 0x1F };
      let f := (s.tile 0).fabric.fold 1;
      (f.ready 0).isSome = true ∧ f.out.toNat < 4 ∧ hasNeighbour 0 0 = true ∧ neighbour 0 0 = 1 ∧ s.stopped 0 = false
      ∧ ((s.tile 1).fabric.fold 1).v = true ∧ ((s.tile 1).fabric.fold 1).ins.getLsbD (inBit (opposite 0)) = true
      ∧ (s.part 1).launch = (s.part 0).launch ∧ (s.part 1).load = (s.part 0).load
      ∧ (((s.tile 1).fabric.fold 1).inq.get [] 2).length + s.foldsOnWay 1 1 2 < 4)
    ∧ (F1 (folding id)).ins.getLsbD (inBit 0) = false ∧ (F1 (folding fun f => { f with ins := 0x12 })).ins.getLsbD (inBit 0) = true
    ∧ (let s := folding fun f => { f with out := 4, outq := [Token.zero] };
      ((s.tile 0).fabric.fold 1).outq = [Token.zero] ∧ s.stopped 0 = false ∧ s.wireRoom 0 (.fold 1) 1 = true)
    ∧ (let w : Wire := ⟨.fold 1, none, [(0, .elem 2 1)]⟩;
      (((folding id).modFabric 0 fun F => { F with wires := [w] }).tile 0).fabric.wire? (.fold 1) = some w ∧ w.ends = [(0, .elem 2 1)])
    ∧ (⟨.fold 1, none, [(1, .elem 2 1)]⟩ : Wire).ends = [(1, .elem 2 1)] := by decide +kernel

theorem witness_FoldValues : (⟨1, none⟩ : FoldVal).poison = none ∧ (⟨0, some 5⟩ : FoldVal).poison = some 5
    ∧ (f32.add 0 0 0x3F800000 0x40000000).exc &&& 0x14 = 0 ∧ (f32.minmax true 0x7F800001 0x40000000).exc.getLsbD 4 = true
    ∧ (f32.add 0 0 0x7F7FFFFF 0x7F7FFFFF).exc.getLsbD 4 = false ∧ (f32.add 0 0 0x7F7FFFFF 0x7F7FFFFF).exc.getLsbD 2 = true := by
  decide +kernel

/-- R62: the maximum of a signalling NaN is poisoned with cause 1 by fold unit 22 of tile 0. -/
theorem test_fold_max_signalling : foldCombine2 0 2 ⟨0x7F800001, none⟩ ⟨0x40000000, none⟩ = ⟨0, some 0x161⟩ := by decide +kernel

/-- A parameter block at 0x100: a run of `run` bytes from 0x1000 to 0x2000, no completion stitch. -/
def copyBytes (run : Nat) : List Byte :=
  natBytes 8 0x1000 ++ natBytes 8 0x2000 ++ natBytes 8 run ++ natBytes 8 1 ++ natBytes 8 1 ++ natBytes 8 1
    ++ List.replicate 48 0 ++ natBytes 8 0xC000000000000000 ++ List.replicate 24 0

/-- The block in memory, its address in s6. -/
def copying (run : Nat) : State := (R [(6, 0x100)]).write (localLoc 0 0x100) (copyBytes run)

/-- The block is read and may be written. -/
def blockAt (s : State) (bs : List Byte) : Bool :=
  match s.readBlock (.copy 5 6) 0x100 64 128 with
  | .got s1 b => s1 == s && b == bs && (match s1.blockWritable (.copy 5 6) 0x100 with
    | .got s2 [] => s2 == s
    | _ => false)
  | _ => false

theorem witness_CopyIssues :
    ready (copying 8) [5, 6] ∧ blockAt (copying 8) (copyBytes 8) = true ∧ blockAt (copying 0) (copyBytes 0) = true
    ∧ blockAt (copying 4) (copyBytes 4) = true ∧ (copying 8).released 0 0 = true
    ∧ (copyBoxes (copyBytes 8)).1.ok = true ∧ (copyBoxes (copyBytes 8)).2.ok = true ∧ blkField (copyBytes 8) 0x78 8 = 0
    ∧ (copying 8).notifyOk 0xC000000000000000 = true ∧ (copyBoxes (copyBytes 8)).1.size ≠ 0
    ∧ (copyBoxes (copyBytes 0)).1.ok = true ∧ (copyBoxes (copyBytes 0)).1.size = 0 ∧ (copyBoxes (copyBytes 4)).1.ok = false
    ∧ ((copying 8).tile 0).fabric.freeStream = some 0
    ∧ ((fab fun F => { F with streams := (List.range 8).map fun g => (g, { Stream.reset with used := true }) }).tile 0).fabric.freeStream
      = none
    ∧ (let s := (copying 8).modTile 0 fun T => { T with stores := [waitingStore (localLoc 0 0x80) .bytes] };
      blockAt s (copyBytes 8) = true ∧ s.released 0 0 = false)
    ∧ (match (R [(6, 0x101)]).readBlock (.copy 5 6) 0x101 64 128 with
      | .trap _ c _ _ => c == 0x02
      | _ => false) = true
    ∧ (match (base.modTile 0 fun T => { T with tlb := [⟨0, 0, 0, 0, 0x34⟩] }).blockWritable (.copy 5 6) 0x100 with
      | .trap _ c sub _ => c == 0x04 && sub == 4
      | _ => false) = true
    ∧ (match ((copying 8).modTile 0 fun T => { T with stores := [waitingStore (localLoc 0 0x100) .bytes] }).readBlock (.copy 5 6) 0x100 64 128 with
      | .wait _ => true
      | _ => false) = true
    ∧ (match (cutOff { base with asids := [(0, ⟨0x0100000000102, true, 0, 0⟩)] }).blockWritable (.copy 5 6) 0x60000 with
      | .wait _ => true
      | _ => false) = true := by decide +kernel

/-- A box of two rows of two words. -/
def box2 : Box := ⟨0x1000, 16, 2, 1, 1, 0x100, 0, 0⟩

theorem witness_BoxAddresses : 1 < box2.per ∧ 1 < box2.rows ∧ 0 < box2.planes ∧ 0 < box2.cubes := by decide +kernel

/-- A COPY to a box of runs of one word, with words held. -/
def job2 (buf : List Word) : CopyJob :=
  ⟨{ box2 with base := 0x2000, run := 8, rows := 4, pitch := 32 }, 0xC000000000000000, 0, 0x100, 7, 0, .sys, none, none, buf⟩

/-- Stream 0 of tile 0 moves a box, under an extent of the tile's own first page. -/
def streaming (f : Stream → Stream) : State :=
  fab fun F => { F with streams := [(0, f { Stream.reset with used := true, box := box2, ext := [⟨0, 0, 1, true, true, false, 0, 0, false, 0⟩] })] }

theorem witness_StreamSteps :
    (let s := streaming id; let G := (s.tile 0).fabric.gen 0;
      s.streamRuns 0 0 = true ∧ 256 ≤ ((s.tile 0).copyBucket 0).count ∧ G.job = none ∧ G.isDst = false
      ∧ s.streamUse 0 0 false (G.box.addr G.pos) = .ok (localLoc 0 0x1000) false ∧ s.unitAccess 0 (localLoc 0 0x1000) 8 = true ∧ s.feWait = []
      ∧ s.wireRoom 0 (.stream 0) 1 = true ∧ s.isMarked (localLoc 0 0x1000) = false ∧ (s.tile 0).fabric.wire? (.stream 0) = none)
    ∧ (let s := streaming fun G => { G with isDst := true, pos := 1, inq := [Token.zero] }; let G := (s.tile 0).fabric.gen 0;
      s.partner 0 = none ∧ s.dstReady 0 0 = true ∧ G.box.unitLen G.pos = 1 ∧ G.inq.take 1 = [Token.zero]
      ∧ s.streamUse 0 0 true (G.box.addr G.pos) = .ok (localLoc 0 0x1008) false ∧ s.covered 0 (localLoc 0 0x1000) 32 = false
      ∧ s.unitAccess 0 (localLoc 0 0x1008) 8 = true)
    ∧ (let s := (streaming fun G => { G with pos := 4, job := some (job2 []) }).modCur
          fun x => { x with pend := [⟨7, [x.absReg 5], .result, 0, 0, false, false⟩] };
      let G := (s.tile 0).fabric.gen 0; (G.job.any fun j => j.ended.isNone) = true ∧ G.box.size ≤ G.pos
      ∧ ((s.slot 0 0).pend? 7).isSome = true ∧ s.feWait = [] ∧ s.behind = []
      ∧ ∃ b ∈ ({ s with behind := [⟨7, 0, 8, 0x1000000000000080, [0], false⟩] } : State).behind, b.tile = 0 ∧ b.slot = 8)
    ∧ (let s := streaming fun G => { G with job := some (job2 []) };
      s.streamRuns 0 0 = true ∧ (([] : List Word).length < (job2 []).dst.unitLen 0) ∧ s.unitAccess 0 (localLoc 0 0x1000) 8 = true
      ∧ (match s.copyPos 0 0 (job2 []).dst 0 with
        | .move a fa _ _ => a == localLoc 0 0x1000 && !fa
        | _ => false) = true)
    ∧ (let s := streaming fun G => { G with job := some (job2 [5]) };
      (job2 [5]).dst.unitLen 0 = 1 ∧ s.streamUse 0 0 true ((job2 [5]).dst.addr 0) = .ok (localLoc 0 0x2000) false
      ∧ s.covered 0 (localLoc 0 0x2000) 32 = false ∧ s.unitAccess 0 (localLoc 0 0x2000) 8 = true)
    ∧ (let s := (streaming id).modFabric 0 fun F => { F with wires := [⟨.stream 0, none, [(0, .elem 2 1)]⟩] };
      s.wireRoom 0 (.stream 0) 1 = true) := by decide +kernel

theorem witness_CompactAndMerge :
    (let s := fab fun F => { F with cmp := ⟨4, 0, 0, [Token.zero], false⟩, mrg := ⟨8, 3, [], [], [Token.zero], []⟩ };
      s.unitRuns 0 = true ∧ (s.tile 0).fabric.wire? .cmp = none ∧ (s.tile 0).fabric.wire? .mrg = none
      ∧ (s.tile 0).fabric.cmp.width ≠ 0 ∧ (s.tile 0).fabric.cmp.due = false ∧ (s.tile 0).fabric.mrg.keys ≠ 0
      ∧ (s.tile 0).fabric.mrg.spent = [])
    ∧ ((fab fun F => { F with cmp := ⟨4, 4, 2, [], true⟩ }).tile 0).fabric.cmp.due = true
    ∧ (fab id).wireRoom 0 .cmp 1 = true ∧ (fab id).wireRoom 0 .mrg 1 = true ∧ (Token.zero).gap = false
    ∧ (let s := (fab fun F => { F with
          cmp := ⟨4, 0, 0, [Token.zero], false⟩, mrg := ⟨8, 3, [], [], [Token.zero], []⟩,
          wires := [⟨.cmp, none, [(0, .elem 1 0)]⟩, ⟨.mrg, none, [(0, .elem 1 1)]⟩],
          elems := [(1, { Elem.reset with chans := [(0, List.replicate 64 Token.zero), (1, List.replicate 64 Token.zero)] })] });
      s.wireRoom 0 .cmp 1 = false ∧ s.wireRoom 0 .mrg 1 = false)
    ∧ ((fab fun F => { F with mrg := ⟨8, 7, [], [(7, Token.zero)], [], []⟩ }).tile 0).fabric.mrg.entries = [(7, Token.zero)] := by
  decide +kernel

theorem witness_CornerTurn :
    (let s := fab fun F => { F with ct := { F.ct with inq := [Token.zero] } }; let C := (s.tile 0).fabric.ct;
      s.unitRuns 0 = true ∧ C.inq = [Token.zero] ∧ C.writing.state = .empty ∧ C.writing.toks.length + 1 ≠ C.rows * C.rowIn)
    ∧ (let s := fab fun F => { F with ct := { F.ct with h0 := ⟨.filling, List.replicate 1023 Token.zero, false, 0, 0⟩, inq := [Token.zero] } };
      let C := (s.tile 0).fabric.ct; C.writing.toks.length + 1 = C.rows * C.rowIn)
    ∧ (let s := fab fun F => { F with ct := { F.ct with h1 := ⟨.full, [], true, 0, 0⟩ } }; let C := (s.tile 0).fabric.ct;
      C.reading = some (true, ⟨.full, [], true, 0, 0⟩))
    ∧ (let s := fab fun F => { F with ct := { F.ct with h1 := ⟨.draining, [], true, 0, 0⟩ } }; let C := (s.tile 0).fabric.ct;
      C.reading = some (true, ⟨.draining, [], true, 0, 0⟩) ∧ s.wireRoom 0 .ct 1 = true ∧ C.mx = false ∧ 0 < C.columns ∧ 0 < C.perColumn)
    ∧ (fab fun F => { F with
        wires := [⟨.ct, none, [(0, .elem 1 0)]⟩],
        elems := [(1, { Elem.reset with chans := [(0, List.replicate 64 Token.zero)] })] }).wireRoom 0 .ct 1 = false := by decide +kernel

/-! ### Witnesses of the statements about the weft -/

/-- A group of launch 4 at the selvedge with tile 0 as its only member. -/
def grp (f : Group → Group) : State :=
  { fab id with groups := [(2, f { Group.reset with v := true, launch := some 4, members := [0], patIndex := 2, pace := 65535,
                                                    byWeft := true, last := 3 })],
                ev := { EvArgs.none with n := 2 } }

theorem witness_WeftRequests :
    ready (leaves []) [5, 6, 7] ∧ (leaves []).weftsOf 0 0 < ((leaves []).cur.balance 2).toNat ∧ ((leaves []).tile 0).stores = []
    ∧ (∃ e ∈ (((leaves []).modTile 0 fun T => { T with stores := [waitingStore 0x80 .bytes] }).tile 0).stores, e.slot = 0)
    ∧ (leaves []).behind = [] ∧ (leaves []).cur.pend = [] ∧ ((R []).cur.balance 2).toNat ≤ (R []).weftsOf 0 0
    ∧ (({ R [] with panels := [(0, { Panel.reset with booked := 607142 })] } : State).takeLeave 0 0 2 1).2 = false
    ∧ (let s : State := { base with wefts := [⟨0, 0, 7, 0, 0, none, none, true⟩] };
      (s.wefts.find? fun q => q.tile == 0 && q.slot == 0) = some ⟨0, 0, 7, 0, 0, none, none, true⟩
      ∧ (s.weftStatus ⟨0, 0, 7, 0, 0, none, none, true⟩).1 ≠ 0)
    ∧ (let s := (grp id).modPart 0 fun p => { p with launch := some 4 };
      (s.weftStatus ⟨0, 0, 7, 2, 0xC000000000000000, some 4, some 4, true⟩) = (0, 2)) := by decide +kernel

theorem witness_WeftGroups :
    (let s := (grp fun g => { g with byWeft := false }).modFabric 0 fun F =>
          { F with rings := [(0, { Ring.reset with st := 2, group := 2 })], part := { F.part with launch := some 4 } };
      let g := s.group 2;
      g.v = true ∧ g.state = .idle ∧ g.byWeft = false ∧ g.ended = false ∧ (∀ m ∈ g.members, s.memberReady 2 m = true)
      ∧ (s.part 0).wanted = [] ∧ g.minPace ≤ g.pace ∧ s.launchRuns g.launch = true ∧ s.launchStored g.launch = true)
    ∧ (let s := (grp fun g => { g with state := .armed }).modFabric 0 fun F =>
          { F with rings := [(0, { Ring.reset with st := 2, group := 2 })], part := { F.part with launch := some 4 } };
      (s.group 2).state = .armed ∧ s.launchRuns (s.group 2).launch = true ∧ ∀ m ∈ (s.group 2).members, s.memberReady 2 m = true)
    ∧ (let s := (grp fun g => { g with state := .streaming, fmt := 4, units := 0 }).modFabric 0 fun F =>
          { F with rings := [(0, { Ring.reset with st := 2, group := 2 })] };
      let g := s.group 2;
      g.state = .streaming ∧ (s.weftRow g g.seq.toNat).isSome = true ∧ g.seq.toNat < g.last.toNat ∧ s.launchRuns g.launch = true
      ∧ s.lit g 0 = true ∧ ((s.tile 0).fabric.rxOf 2 (g.seq.toNat % g.lanes)).isSome = true ∧ (s.tile s.ev.tile).router.plogMode = 0)
    ∧ (let s := (grp fun g => { g with state := .streaming, fmt := 4, units := 0 }).modRouter 0 fun r => { r with ploga := 2 <<< 62 };
      s.ev.tile = 0 ∧ (s.tile 0).router.plogMode = 2
      ∧ get (s.read64 (localLoc 0 ((s.tile 0).router.plogAt (get (s.tile 0).router.plogb 63 32)))) 63 60 ≠ 2)
    ∧ (let g := (grp fun g => { g with state := .streaming, fmt := 4, units := 0, seq := 3 }).group 2;
      g.seq = g.last ∧ ∃ m ∈ g.members, m ∉ g.completed)
    ∧ (∀ st ∈ [GroupState.streaming, .closing],
        let s := { coming (.report 2 0) 1 with
          groups := (grp fun g => { g with state := st, members := [1] }).groups, ev := { EvArgs.none with n := 7, unit := 2 } };
      (s.flight? 7).any (fun f => f.msg == .report 2 0 && f.src == 1) = true ∧ (s.group 2).state = st ∧ (s.group 2).epoch = 0
      ∧ ∀ m ∈ (s.group 2).members, m = 1)
    ∧ (∀ st ∈ [GroupState.armed, .streaming, .closing],
        let s := { coming (.replay 2 0 1 false) 1 with
          groups := (grp fun g => { g with state := st, fmt := 4, seq := 3 }).groups, ev := { EvArgs.none with n := 7, unit := 2 } };
      (s.flight? 7).any (fun f => f.msg == .replay 2 0 1 false) = true ∧ (s.group 2).state = st ∧ (s.group 2).epoch = 0
      ∧ (s.weftRow (s.group 2) 1).all (fun r => !r.2) = true ∧ (1 : Nat) ≤ (s.group 2).last.toNat) := by decide +kernel

/-- Receiver 0 of tile 0 in a state, and its port bound to group 2. -/
def ring (st : BitVec 2) (fails : Nat) : State :=
  (grp fun g => { g with state := .streaming }).modFabric 0 fun F =>
    { F with rings := [(0, { Ring.reset with st := st, group := 2, fails := fails })],
             groups := [(2, ⟨true, 0, 0, false, [(0, ⟨2, 4, false, 0, 0, 0, []⟩)], 4, 1, 0, none⟩)] }

theorem witness_WeftReceivers :
    (((ring 1 0).tile 0).fabric.rings.get Ring.reset 0).st = 1 ∧ (((ring 1 0).tile 0).fabric.rings.get Ring.reset 0).cordoned = false
    ∧ (((ring 2 0).tile 0).fabric.rings.get Ring.reset 0).st = 2 ∧ (((ring 3 1).tile 0).fabric.rings.get Ring.reset 0).fails < 2
    ∧ 2 ≤ (((ring 3 2).tile 0).fabric.rings.get Ring.reset 0).fails
    ∧ (let s := { ring 2 0 with flights := [⟨2, .frame [] 0, 9, 0, 0, [], true, false⟩] };
      (s.flight? 2).any (fun f => f.dst == 0) = true ∧ (s.part 0).state ≠ .saved
      ∧ ((s.tile 0).fabric.portGroup 2).bound = true ∧ ((s.tile 0).fabric.portGroup 2).done = false
      ∧ ((s.tile 0).fabric.portGroup 2).asked = none ∧ readFrame (flipBytes [] 0 0) = none)
    ∧ (let b := (⟨2, 4, false, 0, 0, 0, []⟩ : Frame).wire false; readFrame b ≠ none ∧ readFrame (flipBytes b 3 1) = none)
    ∧ (∀ q ∈ [(0, true), (1, false), (2, false)],
      let f : Frame := ⟨2, 4, q.2, 0, 0, BitVec.ofNat 32 q.1, []⟩;
      let s := ((ring 2 0).modFabric 0 fun F => { F with groups := [(2, ⟨true, 1, 0, false, [], 4, 2, 0, none⟩)] });
      readFrame (flipBytes (f.wire false) 0 0) = some f ∧ s.weftRoom 0 2 = true)
    ∧ (((ring 2 0).modFabric 0 fun F => { F with groups := [(2, ⟨true, 1, 0, false, [], 4, 2, 0, none⟩)] }).modTile 0 fun T =>
        { T with fabric := { T.fabric with groups := [(2, ⟨true, 1, 0, false, [], 0, 2, 8, none⟩)] }, buckW := ⟨0, 64, 0⟩ }).weftRoom 0 2 = false
    ∧ ((ring 2 0).group 2).state = .streaming ∧ 0 ∈ ((ring 2 0).group 2).members
    ∧ (let p := ((ring 2 0).tile 0).fabric.portGroup 2;
      (p.held.find? fun e => e.1 == p.n.toNat % p.lanes) = some (0, ⟨2, 4, false, 0, 0, 0, []⟩) ∧ p.n = 0 ∧ p.lanes = 1
      ∧ (ring 2 0).weftRoom 0 2 = true) := by decide +kernel

/-! ### Witnesses of the statements about elements -/

/-- Element 2 of tile 0 at its slot 1, with its state changed; every channel has no wire. -/
def el (f : Elem → Elem) : State :=
  { fab fun F => F.modElem 2 fun E => f { E with burst := 1 } with focus := .elem 0 2 1, ev := { EvArgs.none with unit := 2 } }

/-- The form of an instruction with trigger mode 00, destination 0 and sources d0 and d1. -/
def formE : TForm := ⟨0, 0, 0, 0, some 0, some 1, none, false, false, false⟩

theorem witness_ElementIntegerFirings :
    (el id).focus = .elem 0 2 1 ∧ (el id).guardOk 0 2 formE none 1 = true
    ∧ (el id).guardOk 0 2 { formE with pred := true, dest := 13 } none 1 = true
    ∧ (el id).guardOk 0 2 { formE with b := none, dest := 15 } none 1 = true
    ∧ (el id).guardOk 0 2 { formE with b := none } none 4 = true
    ∧ (el fun E => { E with chans := [(0, [Token.zero])] }).guardOk 0 2 { formE with a := some 8 } none 1 = true
    ∧ (el fun E => { E with q := 0x20 }).guardOk 0 2 { formE with g := 1, x := 5 } none 1 = true := by decide +kernel

theorem witness_ElementFloatFirings : (el id).guardOk 0 2 formE none 1 = true ∧ (el id).guardOk 0 2 formE (some 7) 1 = true
    ∧ (el id).guardOk 0 2 { formE with pred := true, dest := 13 } none 1 = true
    ∧ (el id).guardOk 0 2 { formE with b := none } none 1 = true := by decide +kernel

theorem witness_ElementDestinations : (7 : BitVec 4).toNat < 8 ∧ (11 : BitVec 4).toNat = 8 + 3 ∧ plain Token.zero = true
    ∧ (⟨true, 0, 5⟩ : Token).poison = true ∧ (⟨false, 7, 0⟩ : Token).tag = 7 := by decide +kernel

theorem witness_ElementGuards :
    ((((el fun E => { E with halted := true }).tile 0).fabric.elem 2).halted = true)
    ∧ (((el id).tile 0).fabric.elem 2).q.getLsbD 5 = false
    ∧ (((el fun E => { E with q := 0x20 }).tile 0).fabric.elem 2).q.getLsbD 5 = true
    ∧ 8 ≤ (9 : BitVec 4).toNat ∧ (((el id).tile 0).fabric.elem 2).burst ≠ 0
    ∧ (((el id).tile 0).fabric.elem 2).chans.get [] ((9 : BitVec 4).toNat % 4) = [] := by decide +kernel

/-- A burst of slot 1, whose instruction is T_OR of d0 (or a channel) and d1, at its second beat. -/
def bursting (a : Nat) : State :=
  el fun E => { E with burst := 3, slots := [(1, BitVec.ofNat 32 (0x00300080 + a * 2048))], beat := some (1, 1) }

theorem witness_BurstsAndSquashes :
    (((bursting 0).tile 0).fabric.elem 2).beat = some (1, 1) ∧ (((bursting 0).tile 0).fabric.elem 2).resolved = false
    ∧ (((el fun E => { E with resolved := true }).tile 0).fabric.elem 2).resolved = true
    ∧ (match decodeT 0x00300080 with
      | .ok i => (valOp i).any fun v => (bursting 0).operandsOk 0 2 v.form v.addend 1 v.copies
      | .error _ => false) = true
    ∧ (match decodeT 0x00304080 with
      | .ok i => (valOp i).any fun v => !(bursting 8).operandsOk 0 2 v.form v.addend 1 v.copies
      | .error _ => false) = true := by decide +kernel

theorem witness_ElementSends :
    (el id).guardOk 0 2 (fixedForm 0 0 0 (some 0) none) none 0 = true ∧ (el id).steerRoom 0 1 = true
    ∧ (el id).mselRoom 0 1 = true ∧ (el id).sigFits 5 = true
    ∧ (el id).guardOk 0 2 (fixedForm 0 0 0 (some 0) (some 1)) none 0 = true
    ∧ (el id).guardOk 0 2 (fixedForm 0 0 0 none none) none 0 = true := by decide +kernel

/-- The path of tile 0 with an extent of its first page. -/
def pathed (f : Elem → Elem) : State :=
  (el f).modFabric 0 fun F => { F with path := { F.path with used := true, ext := [⟨0, 0, 1, true, true, false, 0, 0, false, 0⟩] } }

/-- Element 2 with an address, or a token, in d0. -/
def d0 (k : Token) : State := pathed fun E => { E with d := E.d.set 0 k }

theorem witness_ElementMemoryFirings :
    (let f : TForm := ⟨0, 0, 0, 14, some 0, none, none, true, false, false⟩; let s := d0 ⟨false, 0, 0x1000⟩;
      s.memReady 0 2 f (.ldr 2 1) = true ∧ s.stops 0 = false ∧ s.pathFree 0 = true ∧ s.pathUse 0 (.ldr 2 1) 0x1000 = .ok (localLoc 0 0x1000) false)
    ∧ (let f : TForm := ⟨0, 0, 0, 14, some 0, some 1, none, true, false, false⟩;
      (d0 ⟨false, 0, 0x1004⟩).memReady 0 2 f .str = true ∧ (0x1004 : Word).toNat % 8 ≠ 0
      ∧ (d0 ⟨true, 0, 5⟩).memReady 0 2 f (.amo 0) = true ∧ (d0 ⟨false, 7, 0⟩).memReady 0 2 f (.amo 10) = true
      ∧ (d0 ⟨false, 0, 0x20000⟩).pathUse 0 .str 0x20000 = .off)
    ∧ (let s := (d0 ⟨false, 0, 0x1000⟩).modFabric 0 fun F =>
          { F with path := { F.path with ext := [⟨0, 0, 1, true, false, false, 0, 0, false, 0⟩] } };
      (match s.pathUse 0 .str 0x1000 with
        | .stop r k => r == 2 && k == 4
        | _ => false) = true)
    ∧ ((d0 Token.zero).modFabric 0 fun F => { F with path := { F.path with reason := 1 } }).pathFree 0 = false := by decide +kernel

/-- A store of element 2 is outstanding under number 7. -/
def opOut (got : Option Token) : State :=
  { pathed id with ev := { EvArgs.none with n := 7, unit := 8 } }.modFabric 0 fun F =>
    { F with ops := [⟨7, 2, .str, 0x1000, localLoc 0 0x1000, false, 5, 0, 14, 0, false, got, false, false⟩] }

/-- An operation of element 2 of a kind, at a location or come back refused; the page is full-empty or not. -/
def opBy (k : ElemOpKind) (fe : Bool) (loc : Nat) (refused : Bool) : State × ElemOp :=
  let o : ElemOp := ⟨7, 2, k, 0x1000, loc, fe, 5, 0, 14, 0, refused, none, false, false⟩
  ((opOut none).modFabric 0 fun F => { F with ops := [o] }, o)

theorem witness_ElementMemorySteps :
    (let s := opOut (some Token.zero); let F := (s.tile 0).fabric;
      (F.op? 7).any (fun o => !o.refused && !o.told && o.got.isSome) = true)
    ∧ (let s := opOut none; let F := (s.tile 0).fabric;
      (F.op? 7).any (fun o => !o.refused && !o.told && o.got.isNone && !o.fe) = true ∧ s.mayPerform 0 7 [(localLoc 0 0x1000, 8)] = true ∧ s.feWait = [] ∧ s.refusal (localLoc 0 0x1000) = none
      ∧ ((F.op? 7).any fun o => (((s.performElem 0 o).tile 0).fabric.op? 7).isSome) = true)
    ∧ (∀ k ∈ [ElemOpKind.ldr 2 1, .str, .amo 0], ∀ fe : Bool, ∀ m : List Nat,
      m ∈ [[], [localLoc 0 0x1000]] → let s := (opBy k fe (localLoc 0 0x1000) false).1; let s := { s with empties := m };
      s.olderNeedle 0 7 [(localLoc 0 0x1000, 8)] = false ∧ s.pathOpen 0 (localLoc 0 0x1000) = true ∧ s.feWait = []
      ∧ s.refusal (localLoc 0 0x1000) = none ∧ localLoc 0 0x1000 % 8 = 0 ∧ systemOwner (localLoc 0 0x1000) = false
      ∧ s.olderStores 0 (localLoc 0 0x1000) 7 = false ∧ s.isEmpty (localLoc 0 0x1000) = !m.isEmpty)
    ∧ ({ opOut none with marks := [localLoc 0 0x1000] } : State).isMarked (localLoc 0 0x1000) = true
    ∧ ((opBy .str true (localLoc 1 0x80) false).1.modTile 0 fun T =>
        { T with stores := [{ waitingStore (localLoc 0 0x1000) .bytes with id := 5 }] }).olderStores 0 (localLoc 1 0x80) 7 = true
    ∧ (let s := (opBy .str false 0x4040000000000000 false).1;
      s.refusal 0x4040000000000000 = some (0x06, 1) ∧ (s.tile 0).fabric.path.reason = 0
      ∧ s.olderNeedle 0 7 [(0x4040000000000000, 8)] = false ∧ s.pathOpen 0 0x4040000000000000 = true)
    ∧ (let s := (opBy .str false 0 true).1;
      (s.tile 0).fabric.op? 7 = some (opBy .str false 0 true).2 ∧ (s.tile 0).fabric.path.reason = 0 ∧ s.stops 0 = false
      ∧ s.pathUse 0 .str 0x1000 = .ok (localLoc 0 0x1000) false)
    ∧ (let s := cutOff (opBy .str false (localLoc 1 0x80) false).1; s.causeHolds 0 (localLoc 1 0x80) 8 true .epath = true)
    ∧ (let s := (el fun E => { E with replies := [(3, [7])] }).modFabric 0 fun F =>
          { F with ops := [⟨7, 2, .ldr 2 3, 0x1000, localLoc 0 0x1000, false, 5, 0, 14, 0, false, some Token.zero, true, false⟩] };
      let F := (s.tile 0).fabric;
      (((F.elem 2).replies.get [] 3).head?.bind F.op?).any (fun o => o.got.isSome) = true)
    ∧ (let s := (opOut none).modFabric 0 fun F => { F with ops := F.ops.map fun o => { o with loc := 0x4040000000000000 } };
      s.ev.unit = 8 ∧ s.causeHolds 0 0x4040000000000000 8 true .epeer = true
      ∧ ((s.tile 0).fabric.op? 7).any (fun o => o.loc == 0x4040000000000000 && o.got.isNone) = true) := by decide +kernel

theorem witness_ExtentsPatched :
    (let s := walked.modFabric 0 fun F => { F with streams := [(3, { Stream.reset with used := true, reason := 1, gfva := 0x1000 })] };
      s.ev.flag = false ∧ ((s.tile 0).fabric.gen 3).reason = 1 ∧ (match s.genRun 0 3 0 0 0x1000 (s.ahead 0 3 0x1000) with
        | .ok _ => true
        | .error _ => false) = true)
    ∧ (let s := base.modFabric 0 fun F => { F with streams := [(3, { Stream.reset with used := true, reason := 1, gfva := 0x1000 })] };
      s.feWait = [] ∧ (match s.genRun 0 3 0 0 0x1000 (s.ahead 0 3 0x1000) with
        | .ok _ => false
        | .error _ => ((s.tile 0).fabric.gen 3).job.isNone) = true)
    ∧ (let l : List Extent := [⟨0x1000, 0, 1, true, true, false, 0, 0, true, 0⟩];
      let f : Fabric → Fabric := fun F => { F with streams := [(3, { Stream.reset with used := true, reason := 5, ext := l })] };
      (match (walked.modFabric 0 f).repatch 0 3 l with
        | .ok _ => true
        | .error _ => false) = true
      ∧ (match (base.modFabric 0 f).repatch 0 3 l with
        | .ok _ => false
        | .error _ => (((base.modFabric 0 f).tile 0).fabric.gen 3).job.isNone) = true)
    ∧ (let s := cutOff { base with asids := [(0, ⟨0x0100000000102, true, 0, 0⟩)] };
      (match s.genRun 0 3 0 0 0x1000 (s.ahead 0 3 0x1000) with
        | .ok _ => false
        | .error n => n == heldKind) = true)
    ∧ (((el fun E => { E with off := true }).tile 0).fabric.elem 2).off = true := by decide +kernel

/-! ### Witnesses of the statements about launches and loads -/

/-- A load of one tile without nodes. -/
def load1 : Load := ⟨1, 1, false, 0, 0, false, 0, [], [], 0, 0, 0, 0⟩

/-- A launch of queue 1 on tile 0 whose pattern stands at 0x5000. -/
def launch1 : Launch where
  queue := 1
  index := 0
  prio := 3
  seqNo := 9
  asid := 0
  gen := 0
  ax := 0
  ay := 0
  aw := 2
  ah := 1
  patternVa := 0x5000
  arg := 0
  done := 0x6000
  cookie := 0
  notify := 0xC000000000000000
  state := .waiting
  pat := ⟨[load1, load1], [], []⟩
  root := 0
  mgen := 0
  tree := [(0, 0, true)]
  load := 0
  loadsDone := false
  sent := 0
  received := 0
  rerun := false
  fault := none
  saved := []

/-- An image of one load of one tile. -/
def image1 : List Byte :=
  natBytes 4 0x4C445246 ++ natBytes 2 1 ++ natBytes 2 1 ++ natBytes 8 0 ++ natBytes 8 0x40 ++ natBytes 16 0 ++ natBytes 8 0x68
    ++ natBytes 16 0 ++ natBytes 8 0x0000002000000001 ++ natBytes 32 0

/-- Queue 1 enabled for tiles (0, 0) and (1, 0), with its ring at host address 0x10000 and one record placed. -/
def queued (rec : List Byte) : State :=
  { (walked.write (hostLoc 0x10000) rec).modRouter 0 fun r => { r with hqLog := 6 } with
    queues := [(1, ⟨0x10000, 0x8000000000000000, 1, 0, 0, 0, false⟩)], ev := { EvArgs.none with n := 1 } }

/-- A record of a launch. -/
def record1 : List Byte := natBytes 8 1 ++ natBytes 8 0x5000 ++ natBytes 8 0 ++ natBytes 8 0x6000 ++ natBytes 8 7 ++ natBytes 8 0xC000000000000000 ++ natBytes 16 0

theorem witness_LaunchRecords :
    (let s := queued record1; let q := s.queue 1;
      q.enabled = true ∧ q.busy = false ∧ q.ridx ≠ q.widx ∧ s.bytes (q.recordLoc q.ridx) 64 = record1 ∧ s.recordCode q record1 = none
      ∧ bytesNat (record1.take 1) = 1)
    ∧ (let s := queued []; s.recordCode (s.queue 1) (List.replicate 64 0) = none)
    ∧ (let s := queued []; s.recordCode (s.queue 1) (List.replicate 64 2) = some 1)
    ∧ (base.queue 1).enabled = false
    ∧ (walked.writeVirt 0 0 0 0x6000 (natBytes 32 1)).2 = true ∧ (base.writeVirt 0 0 0 0x6000 (natBytes 32 1)).2 = false := by
  decide +kernel

/-- The launch is the only one; the wafer has its identity. -/
def admitting (f : Launch → Launch) : State :=
  { walked.write (localLoc 0 0x5000) image1 with
    launches := [(3, f launch1)], mgmt := { Mgmt.reset with idSet := true }, ev := { EvArgs.none with n := 3 } }

theorem witness_LaunchAdmission :
    (let s := admitting id; s.launch? 3 = some launch1 ∧ launch1.waits = true ∧ s.mgmt.idSet = true ∧ s.comesFirst 3 launch1 = false
      ∧ s.rivals 3 launch1 = [] ∧ launch1.state = .waiting
      ∧ (match (s.placeLaunch 3 launch1 none).2 with
        | .ok _ => true
        | .error _ => false) = true)
    ∧ (match ((admitting id).placeLaunch 3 { launch1 with patternVa := 0x7000 } none).2 with
        | .ok _ => false
        | .error c => c == 1) = true
    ∧ (match ((admitting id).placeLaunch 3 launch1 (some (1, 0))).2, ((admitting id).placeLaunch 3 launch1 (some (2, 0))).2 with
        | .ok l, .error c => l.root == 1 && c == 9
        | _, _ => false) = true
    ∧ (let s := admitting fun l => { l with state := .saved };
      s.rivals 3 { launch1 with state := .saved } = [] ∧ s.comesFirst 3 { launch1 with state := .saved } = false)
    ∧ (let x : Launch := { launch1 with prio := 1, state := .running };
      let s : State := { (admitting id).modTile 0 fun T => { T with fsave := 0x8000000000000000 } with launches := [(2, x), (3, launch1)] };
      s.rivals 3 launch1 = [(2, x)] ∧ x.prio < launch1.prio ∧ s.saveable x = true ∧ s.launch? 2 = some x
      ∧ s.comesFirst 3 launch1 = false) := by decide +kernel

/-- Tile 0 takes part in launch 3, which runs. -/
def taking (g : Launch → Launch) (f : Part → Part) : State :=
  (admitting fun l => g { l with state := .running }).modPart 0 fun p => f { p with launch := some 3, state := .running }

/-- The load at a tile's place is ready, its units of leave are those it holds, and its blocks can be read. -/
def configures (s : State) (t k : Nat) (l : Launch) (held : Bool) : Bool :=
  match s.readyLoad 3 k l with
  | (s1, .ok l1) => match l1.pat.loads[k]? with
    | some L => match L.site l1.alloc t with
      | some (o, p) => decide (((s.part t).leave.filter fun q => !q.swap) = s1.loadLeave t 3 k (s1.fabricFor t 3 l1 k L o p)) == held
          && s1.blocksReady t L p
      | none => false
    | none => false
  | _ => false

theorem witness_LoadsConfigured :
    (let s := taking id fun p => { p with state := .config };
      (s.part 0).launch = some 3 ∧ (s.launch? 3).any Launch.live = true ∧ (s.part 0).load = 0 ∧ (s.part 0).wanted = []
      ∧ s.streamsFree 0 0 launch1 = true ∧ (s.launch? 3).any (fun l => configures s 0 0 l true) = true)
    ∧ (let s := taking id fun p => { p with state := .config, leave := [⟨0, none, 0, 1⟩] };
      (s.launch? 3).any (fun l => configures s 0 0 l false) = true)
    ∧ (let s := (taking id id).modPart 1 fun p => { p with launch := some 3, state := .config };
      (s.part 1).launch = some 3 ∧ load1.site launch1.alloc 1 = none ∧ s.streamsFree 1 0 launch1 = true)
    ∧ (let s := taking (fun l => { l with load := 1 }) fun p => { p with state := .config, load := 1, leave := [⟨0, none, 1, 1⟩] };
      (s.tile 0).reweaving = false ∧ (s.tile 0).reweave = none ∧ (s.part 0).wanted.any LeaveReq.swap = false ∧ (s.part 0).load ≠ 0
      ∧ (s.launch? 3).any (fun l => configures s 0 1 l true) = true)
    ∧ (let s := taking id fun p => { p with load := 0 }; (s.part 0).load + 1 < launch1.pat.loads.length)
    ∧ (match ((taking id id).readyLoad 3 1 { launch1 with pat := ⟨[load1], [], []⟩ }).2 with
        | .ok _ => false
        | .error _ => true) = true := by decide +kernel

/-- The launch covers tiles 0 and 1. -/
def two (l : Launch) : Launch := { l with tree := [(0, 1, true), (1, 0, true)] }

theorem witness_DrainWaves :
    (let s := (taking two fun p => { p with state := .settled, waveHere := true }).modPart 1 fun p => { p with launch := some 3 };
      (two launch1).children 0 = [1] ∧ (s.part 1).launch = some 3 ∧ (s.part 1).load = (s.part 0).load ∧ (s.part 1).tokenHere = false
      ∧ (s.part 0).state = .settled ∧ (s.part 0).waveDown = false ∧ s.settledNow 0 = true)
    ∧ (let s := (taking two fun p => { p with state := .settled }).modFabric 0 fun F =>
          { F with folds := [(1, { FoldSlot.reset with v := true, pattern := true, outq := [Token.zero] })] };
      (s.part 0).state = .settled ∧ s.settledNow 0 = false)
    ∧ ((two launch1).children 1 = [] ∧ (two launch1).parent 1 = some 0 ∧ (two launch1).parent 0 = none)
    ∧ (let s := taking two fun p => { p with waveDown := true, answers := [(1, 2, 3, false)], s := 1, a := 0, lastSum := some (3, 3) };
      let P := s.part 0; (∀ c ∈ (two launch1).children 0, ∃ x ∈ P.answers, x.1 = c) ∧ P.dirty = false ∧ P.waveDown = true
      ∧ P.s + (P.answers.map fun x => x.2.1).sum = P.a + (P.answers.map fun x => x.2.2.1).sum ∧ s.groups = [])
    ∧ (let s : State := { taking two id with groups := [(2, { Group.reset with v := true, state := .armed, launch := some 3 })] };
      ∃ e ∈ s.groups, e.2.launch = some 3 ∧ e.2.load = (s.part 0).load ∧ e.2.state ≠ .idle)
    ∧ (∀ k ∈ [0, 1], let s := taking two fun p => { p with tokenHere := true, load := k };
      (s.part 0).tokenHere = true ∧ (s.launch? 3).any (fun l => decide (l.state = .running)) = true
      ∧ (k + 1 < (two launch1).pat.loads.length ↔ k = 0)) := by decide +kernel

theorem witness_LaunchCompletes :
    (let l := { launch1 with state := .running, loadsDone := true };
      let s := (admitting fun _ => l).modPart 0 fun p => { p with launch := some 3 };
      s.launch? 3 = some l ∧ l.sent = l.received ∧ s.behind = [] ∧ s.ev.flag = false
      ∧ ∀ t ∈ l.tiles, s.actorsQuiet t 3 = true ∧ (s.part t).launch = some 3 ∧ (s.part t).state = .idle
        ∧ (s.part t).wanted = [] ∧ (s.part t).leave = [])
    ∧ (∀ st ∈ [LaunchState.waiting, .saved, .running, .stopping, .resuming],
      let s := { admitting fun l => { l with state := st } with ev := { EvArgs.none with n := 3, flag := true } };
      (s.launch? 3).any (fun l => decide (l.state = st)) = true ∧ s.ev.flag = true) := by
  decide +kernel

theorem witness_Preemption :
    (let s := taking (fun l => { l with state := .stopping }) id; (s.part 0).stopping = false ∧ launch1.root = 0)
    ∧ (let s := taking (fun l => { l with state := .stopping }) fun p => { p with stopping := true, waveHere := true };
      (s.part 0).stopping = true ∧ s.quietNow 0 3 = true ∧ (s.part 0).quiet = false ∧ (s.part 0).waveDown = false)
    ∧ (let s := taking (fun l => { l with state := .stopping }) fun p =>
          { p with stopping := true, waveDown := true, lastSum := some (0, 0) };
      s.quietNow 0 3 = true ∧ launch1.children 0 = [] ∧ (s.part 0).answers = [] ∧ launch1.parent 0 = none
      ∧ (s.part 0).s = (s.part 0).a ∧ (s.part 0).lastSum = some ((s.part 0).s, (s.part 0).a))
    ∧ (let s := taking (fun l => { l with state := .stopping }) fun p => { p with stopping := true, quiet := true };
      (s.part 0).quiet = true ∧ s.quietNow 0 3 = true ∧ s.nothingComes 0 = true ∧ launch1.root = 0)
    ∧ (let l := { launch1 with state := .resuming, saved := [(0, Fabric.reset)] };
      let s := admitting fun _ => l;
      (l.saved.find? fun e => e.1 == 0) = some (0, Fabric.reset) ∧ s.launch? 3 = some l ∧ (s.part 0).wanted = []
      ∧ (s.part 0).leave = s.loadLeave 0 3 Fabric.reset.part.load Fabric.reset
      ∧ ((s.modPart 0 fun p => { p with leave := [⟨0, none, 1, 1⟩] }).part 0).leave ≠ s.loadLeave 0 3 Fabric.reset.part.load Fabric.reset) := by
  decide +kernel

/-- A saved fabric with an element and a block. -/
def savedFabric : Fabric :=
  { Fabric.reset with elems := [(3, Elem.reset)], islands := [(1, { Island.reset with valid := true, ebase := 0x10000 })] }

theorem witness_Preemption_resume :
    (savedFabric.elems.find? fun x => x.1 == 3) = some (3, Elem.reset) ∧ (savedFabric.island 1).valid = true
    ∧ (let s := admitting fun l => { l with state := .resuming, saved := [(0, savedFabric)] };
      (let u := s.modPart 0 fun p => { p with leave := s.loadLeave 0 3 0 savedFabric };
        (u.part 0).leave = u.loadLeave 0 3 0 savedFabric ∧ (u.part 0).wanted = [])) := by decide +kernel

theorem witness_Preemption_form : (taking (fun l => { l with state := .stopping }) fun p => { p with quiet := true }).Inv := by
  unfold State.Inv; decide +kernel

/-- Slot 1 of tile 0 is the root of a tree of launch 3: it takes island 0's rows and the needle's. -/
def folding2 (f : FoldSlot → FoldSlot) : State :=
  ((taking id id).modSlot 0 0 fun x => { x with run := .free }).modFabric 0 fun F => { F with islands := [(0, Island.reset)], folds := [(1, f { FoldSlot.reset with
    v := true, pattern := true, srcs := 0x21, ins := 0x10, len := 15, out := 4, rootOff := some 0x10000 })] }

/-- Every input of the slot holds a flit or has ended without one. -/
def drained (s : State) : Bool :=
  match s.launch? 3 with
  | some l => let f := (s.tile 0).fabric.fold 1
      s.loadIn 3 l 0 && f.inputs.all fun k => !(f.inq.get [] k).isEmpty || s.inputOver 3 l (s.ended 3 l) 0 1 k
  | none => false

/-- A poisoned flit of the incomplete origin. -/
def flit9 (k : Nat) : FoldFlit := ⟨0, k, List.replicate 8 ⟨0, some (originWord 0 22 9)⟩, 0, 255⟩

theorem witness_FoldIncompleteRows :
    (F1 (folding2 id)).inputs = [8, 13]
    ∧ (let s := folding2 fun f => { f with inq := [(8, [flit0])] };
      (s.part 0).launch = some 3 ∧ (s.launch? 3).isSome = true ∧ (F1 s).outq = [] ∧ drained s = true
      ∧ (∀ k ∈ [0, 1], (s.foldOut 0 1 (flit9 k)).isSome = true))
    ∧ (let s := (folding2 fun f => { f with inq := [(8, [flit0])] }).modSlot 0 0 fun x => { x with run := .handler (.actor 2) };
      drained s = false)
    ∧ (let s := (folding2 fun f => { f with idx := true, parts := [⟨0, 0, [], 1, 1⟩] });
      (F1 s).outq = [] ∧ drained s = true ∧ (s.drainIndex 0 1 (flit9 0)).isSome = true)
    ∧ (F1 (fab id)).v = false ∧ (F1 (folding id)).pattern = false := by decide +kernel

/-! ### Witnesses of the statements about the mesh, darning and links -/

/-- A message from tile 5 to tile 0 at silicon 1. -/
def hopping (h : List (BitVec 2)) : Flight := ⟨7, .answer st1, 5, 0, 1, h, false, false⟩

/-- That message is on its way, and the silicon at which it is differs from a live one. -/
def meshed (h : List (BitVec 2)) (P : Phys → Phys) : State :=
  { base with flights := [hopping h], ev := { EvArgs.none with n := 7 } }.modPhy 1 P

theorem witness_RouterHops :
    (let s := meshed [2] id; s.flight? 7 = some (hopping [2]) ∧ (hopping [2]).src < tileCount ∧ (hopping [2]).dst < tileCount ∧ s.ev.upset = []
      ∧ (s.phy 1).badLinks.contains (linkKey 2 false) = false ∧ physNext 1 2 = some 0)
    ∧ (let s := meshed [2] fun P => { P with badLinks := [linkKey 2 false] }; (s.phy 1).badLinks.contains (linkKey 2 false) = true)
    ∧ (let s := meshed [] fun P => { P with dself := 0x80000001, fwd := some 34 }; (s.phy 1).state = 4 ∧ (s.phy 1).fwd = some 34)
    ∧ (let s := meshed [] id; let P := s.phy 1;
      P.state ≠ 4 ∧ P.dark = false ∧ tileX 0 < tileX P.logical ∧ entryValid (entryOf (P.drt false) 2) = true ∧ s.draining P.logical 2 false = false
      ∧ entryHops (entryOf (P.drt false) 2) = [2])
    ∧ (∀ m ∈ [Msg.tokens (.elem 2 0) [Token.zero], .fold 1 0 flit0],
        let f : Flight := ⟨7, m, 1, 0, base.physOf 0, [], true, false⟩;
        let s : State := { base with flights := [f], ev := { EvArgs.none with n := 7 } };
        s.flight? 7 = some f ∧ s.arrived f = true ∧ (s.silicon 0).dark = false ∧ m.ofFabric = true) := by decide +kernel

theorem witness_LinksAndMarkers :
    (let f : Flight := ⟨7, .drain 0 false, 0, 1, 0, [], false, false⟩;
      let s : State := { base with flights := [f], ev := { EvArgs.none with n := 7 } };
      s.flight? 7 = some f ∧ f.hops = [] ∧ (s.phy f.at_).state ≠ 4)
    ∧ (let f := fun i : Nat => (⟨i, .drain 0 false, 0, 1, 0, [], false, false⟩ : Flight);
      let c := fun d : Nat => (⟨0, 0, d, false, 0x8000, 0x20⟩ : RouteChange);
      let s : State := { base with flights := [f 7, f 8], plan := some ⟨0, [], some 0, [c 0, c 1]⟩, ev := { EvArgs.none with n := 7 } };
      (∃ x ∈ s.flights, x.id ≠ 7 ∧ x.msg = .drain 0 false) ∧ [c 0, c 1].Pairwise (fun a b => (a.phys, a.data, a.dir) ≠ (b.phys, b.data, b.dir))
      ∧ (∀ x ∈ ({ s with flights := [f 7] } : State).flights, x.id = 7) ∧ (∀ x ∈ [c 0, c 1], x.dir < 4 ∧ x.entry < 2 ^ 16))
    ∧ (let s := { meshed [] fun P => { P with dself := 0x80000001, fwd := some 34 } with flights := [] };
      (s.phy 1).state = 4 ∧ s.flights = [])
    ∧ (let s := { meshed [2] id with flights := [{ hopping [2] with held := true }] };
      s.plan = none ∧ s.nextLink { hopping [2] with held := true } = some 2) := by decide +kernel

theorem witness_ClockSources :
    ((base.phy 141).clockCur < 1 ∧ base.eligible 141 1 = true ∧ physNext 141 ((base.phy 141).clockDir 1) = some 1
      ∧ (base.phy 141).dark = false ∧ base.clockFrom 141 142 = true)
    ∧ ((base.modPhy 1 fun P => { P with dark := true }).phy 1).dark = true
    ∧ (let s := base.modPhy 1 fun P => { P with clksrc := 0xFFFFFFFF }; ∀ j < 4, (s.phy 1).clockCur < j → s.eligible 1 j = false) := by
  decide +kernel

/-- Silicon 1, the next candidate of silicon 141, has its clock from silicon 0, and that from the selvedge. -/
theorem witness_ClockSources_apart : ¬Relation.ReflTransGen (fun x y => base.clockFrom x y = true) 141 1 := by
  have e1 : physNext 1 ((base.phy 1).clockDir (base.phy 1).clockCur) = some 0 := by decide +kernel
  have e0 : physNext 0 ((base.phy 0).clockDir (base.phy 0).clockCur) = none := by decide +kernel
  intro h
  obtain h | ⟨c, hc, h1⟩ := h.cases_tail
  · exact absurd h (by decide)
  · simp only [State.clockFrom, e1, Bool.and_eq_true, decide_eq_true_eq, Option.some.injEq] at h1
    obtain ⟨-, rfl⟩ := h1
    obtain h | ⟨c, -, h0⟩ := hc.cases_tail
    · exact absurd h (by decide)
    · simp [State.clockFrom, e0] at h0

/-- Bank 3 of tile 0 is to be re-woven. -/
def reweaving (go : Bool) : State := base.modTile 0 fun T => { T with reweave := some 3, reweaving := go, marked := [3] }

theorem witness_BanksRewoven :
    ((reweaving false).tile 0).reweave = some 3 ∧ ((reweaving false).part 0).state = .idle ∧ ((reweaving true).tile 0).reweaving = true
    ∧ (((reweaving false).modPart 0 fun p => { p with state := .running }).part 0).state ≠ .idle
    ∧ (((reweaving false).modPart 0 fun p => { p with state := .running }).part 0).state ≠ .config
    ∧ (((reweaving false).modPart 0 fun p => { p with state := .running }).part 0).state ≠ .saved := by decide +kernel

/-- A plan of one entry at 0x100: tile (34, 0) of the wafer, a spare, becomes live alone, which no rule allows. -/
def planBytes (n : Nat) : List Byte :=
  natBytes 2 n ++ natBytes 6 0 ++ natBytes 4 0 ++ natBytes 4 0 ++ natBytes 8 34 ++ natBytes 8 0x20000022

/-- The plan in memory, its address in s6. -/
def planning (n : Nat) : State := (R [(6, 0x100)]).write (localLoc 0 0x100) (planBytes n)

/-- A block of the plan is read. -/
def planRead (s : State) (n : Nat) (bs : List Byte) : Bool :=
  match s.readBlock (.darnPrep 5 6) 0x100 64 n with
  | .got s1 b => s1 == s && b == bs
  | _ => false

theorem witness_DarnForms :
    ready (planning 1) [5, 6] ∧ (planning 1).cur.mode = .system
    ∧ planRead (planning 1) 16 ((planBytes 1).take 16) = true ∧ planRead (planning 1) 32 (planBytes 1) = true
    ∧ (planning 1).planBusy = false ∧ (planning 1).mgen = 0 ∧ malformedAt 0 [] (planEnts (planBytes 1) 1) = none
    ∧ ((planning 1).checkPlan ((planEnts (planBytes 1) 1).map (·.2))).1 = 4
    ∧ planRead (planning 0) 16 ((planBytes 0).take 16) = true
    ∧ (malformedAt 0 [] (planEnts (planBytes 1 ++ natBytes 16 0x7000000000000000) 2)) = some 1
    ∧ base.stagedHere = none ∧ base.plan = none ∧ base.committing = false
    ∧ (let p : Plan := ⟨0, (planEnts (planBytes 1) 1).map (·.2), none, []⟩; let s : State := { planning 1 with plan := some p };
      s.plan = some p ∧ s.stagedHere = some p ∧ s.planBusy = true ∧ (s.checkPlan p.ents).1 ≠ 0)
    ∧ (let p : Plan := ⟨0, [], none, []⟩; let s : State := { planning 1 with plan := some p };
      s.plan = some p ∧ p.owner = s.ft ∧ p.slot = none)
    ∧ (let p : Plan := ⟨3, [], none, []⟩; let s : State := { planning 1 with plan := some p }; s.plan = some p ∧ p.owner ≠ s.ft)
    ∧ (let s : State := { planning 1 with plan := some ⟨0, [], some 0, []⟩ }; s.fk = 0 ∧ s.committing = true ∧ s.drained = true)
    ∧ (({ planning 1 with plan := some ⟨0, [], some 0, []⟩, flights := [⟨7, .drain 0 false, 0, 1, 0, [2], false, false⟩] } : State).drained = false)
    ∧ ((reweaving false).tile 0).reweave ≠ none
    ∧ (let s := { reweaving false with mgen := 5 }.modCur fun x => x.setSreg 6 0x30000;
      get (s.cur.sreg 6) 63 20 = 0 ∧ get (s.cur.sreg 6) 7 0 = 0 ∧ get (s.cur.sreg 6) 19 16 ∈ (s.tile 0).marked
      ∧ 13 ≤ bankCount (s.silicon 0).banks)
    ∧ 3 ∉ (base.tile 0).marked
    ∧ (let s := base.modTile 0 fun T => { T with marked := [3] }; (s.tile 0).reweave = none)
    ∧ bankCount ((base.modPhy 0 fun P => { P with banks := 0x0FFF }).silicon 0).banks < 13 := by decide +kernel

theorem witness_PlannedRoutes : (([] : List PlanEnt).findIdx? fun e => e.reg == 0 && !base.transOk [] e) = none := by decide +kernel

/-- Port 8 is up, its far end port 9 of wafer 1, and its channel `k` is joined. -/
def porting (f : Port → Port) : State :=
  { base.modPort 8 fun p => f { p with state := 2, farWid := 1, farPort := 9, farV := true } with ev := { EvArgs.none with tile := 8 } }

/-- Channel 1 bound to the far port's channel, sending or receiving. -/
def bound (recv : Bool) (p : Port) : Port :=
  { p with lpch := [(1, BitVec.ofNat 64 (2 ^ 63 + (if recv then 2 ^ 62 else 0) + 1 * 2 ^ 54 + 9 * 2 ^ 47))], joined := [1] }

theorem witness_PortStates :
    (base.port 8).state ≠ 3 ∧ (base.port 8).outFence ≠ 0xFFFF ∧ (base.port 8).inFence ≠ 0xFFFF ∧ (base.port 8).state ≠ 2
    ∧ ((porting id).port 8).state = 2 ∧ ((porting id).port 8).outFence.getLsbD 15 = false
    ∧ ((porting id).port 8).inFence.getLsbD 15 = false := by decide +kernel

theorem witness_TokenChannels :
    ((porting (bound false)).port 8).joined? 1 false = true
    ∧ ((porting fun p => { bound false p with sent := [(1, [Token.zero])] }).port 8).sent.get [] 1 = [Token.zero]
    ∧ (((porting (bound true)).port 8).joined? 1 false = false ∧ ((porting (bound true)).port 8).joined? 1 true = true
      ∧ (((porting (bound true)).port 8).rq.get [] 1).length < 256)
    ∧ (((porting id).port 8).joined? 1 false = false ∧ ((porting id).port 8).joined? 1 true = false)
    ∧ (let s := porting fun p => { bound true p with rq := [(1, [Token.zero])] };
      (s.port 8).rq.get [] 1 = [Token.zero] ∧ s.wireRoom (portHome 8) (.link 8 1) 1 = true ∧ s.stops (portHome 8) = false)
    ∧ (let s := porting fun p => { p with pendCh := [(1, 0x8000000000000000)] };
      ((s.port 8).pendCh.find? fun e => e.1 == 1) = some (1, 0x8000000000000000) ∧ (s.port 8).sent.get [] 1 = []
      ∧ (s.port 8).rq.get [] 1 = [])
    ∧ (let s := porting fun p => { p with pendCh := [(1, 0x8000000000000000)], sent := [(1, [Token.zero])] }; (s.port 8).sent.get [] 1 ≠ [])
    ∧ 1 % 256 ≠ base.mgmt.wid.toNat ∧ base.peerPorts 1 = []
    ∧ { porting id with wroute := [(1, 0x8000000000000002)] }.peerPorts 1 ≠ []
    ∧ (porting id).routeHeld 0 (1 * 2 ^ 54 + 2 ^ 62) = false
    ∧ (let s : State := { porting id with seq := 9, rerouted := [(1, 5)], flights := [⟨4, .peer 1 false, 0, 1, 0, [], true, false⟩] };
      s.routeHeld s.seq (1 * 2 ^ 54 + 2 ^ 62) = true) := by decide +kernel

theorem witness_Snapshots :
    (let s := R [(6, 8), (7, 0x1000)]; ready s [5, 6, 7] ∧ (s.cur.sreg 7).toNat % 64 = 0 ∧ get (s.cur.sreg 6) 6 0 < 80
      ∧ get (s.cur.sreg 6) 63 7 = 0
      ∧ (match State.checkAll 0 0 (.snap 5 6 7) .store 1 ((List.range 34).map fun j => 0x1000 + BitVec.ofNat 64 (32 * j)) s [] with
        | .ok s1 _ => s1 == s
        | _ => false) = true)
    ∧ ((R [(7, 0x1010)]).cur.sreg 7).toNat % 64 ≠ 0 ∧ 79 < get ((R [(6, 80)]).cur.sreg 6) 6 0
    ∧ (∀ far ∈ [false, true],
      let l := if far then 0x4040000000000000 else localLoc 0 0x2000;
      let j : SnapJob := ⟨0, 0, 7, 0, [(localLoc 0 0x1000, false), (l, false)], List.replicate 64 1⟩;
      let s : State := { asking .result 0 with snaps := [j] };
      s.snaps = [j] ∧ j.tile = s.ev.tile ∧ j.slot = s.ev.unit % 8 ∧ ((s.slot 0 0).pend? 7).isSome = true
      ∧ j.bytes.length = 32 * j.pieces.length ∧ (∀ x ∈ j.pieces, x.2 = false ∧ x.1 / 2 ^ 56 ≠ 0xF0)
      ∧ j.pieces.Pairwise (fun x y => x.1 + 32 ≤ y.1 ∨ y.1 + 32 ≤ x.1) ∧ (j.pieces.any fun x => s.pieceRefused x.1) = far) := by
  decide +kernel

/-- R465: mix64(0) = 0, so the page of virtual address 0 to 0xFFF belongs to wafer 0 of every group. -/
theorem test_shard_zero : mix64 0 = 0 ∧ shard 256 0xFFF = 0 := by decide +kernel

/-- R394, R395: in log mode an arbitration writes KIND 2 with its group at WIDX, and WIDX advances. -/
theorem test_arbitration_logged :
    let s := base.modRouter 0 fun r => { r with ploga := put 62 2 1 + put 32 20 0x1000 + put 0 5 6 }
    (s.arbitrate 0 2).any (fun u => get (u.read64 (localLoc 0 0x1000)) 63 60 == 2 && get (u.read64 (localLoc 0 0x1000)) 59 50 == 2
      && get (u.tile 0).router.plogb 31 0 == 1) = true := by decide +kernel

/-- R385: an orphan left at the completion of its launch goes back with STATUS 2, and none stays. -/
theorem test_orphans_return :
    let st : Stitch := ⟨1, false, 0, 0, 5, none, true, 0, 0, 0, none, none⟩
    let u := (base.modRouter 0 fun r => { r with orphans := [st] }).returnOrphans 0
    (u.tile 0).router.orphans = [] ∧ u.flights.any (fun f => f.msg == .returned { st with status := 2 } false && f.dst == 1) = true := by
  decide +kernel

/-! ### Witnesses of the statements about power, boot, the management plane and heat -/

/-- The part is basted and a command has been started with these words 0, 1, ... -/
def asking9 (ws : List Word) (s : State) : State :=
  let g : Mgmt := { s.mgmt with basted := true }
  { s with mgmt := (ws.zipIdx.foldl (fun m p => m.setWord p.2 p.1) g).setWord 7 0xFF }

/-- An image of a header alone. -/
def bootBytes : List Byte := natBytes 8 0x54534142 ++ natBytes 8 0xA0 ++ List.replicate 0x90 0

theorem witness_PowerCycles : base.mgmt.fuses = [] ∧ base.mgmt.field = [] ∧ base.phys = [] ∧ base.plan = none ∧ base.flights = [] := by decide +kernel

theorem witness_FirstStageImage :
    (asking9 [] base).mgmt.basted = true ∧ base.mgmt.basted = false ∧ base.firstImage = none
    ∧ (base.write (imageLoc 0) bootBytes).firstImage = some bootBytes ∧ (base.write (imageLoc 0) bootBytes).mgmt.basted = false := by
  decide +kernel

theorem witness_ManagementCommands :
    base.asked 1 = false
    ∧ (let s := asking9 [1, 5, 0x10000] base; let w := s.mgmt.word;
      s.asked 1 = true ∧ (w 1).toNat < 32768 ∧ queueOk (w 2) (w 3) = true)
    ∧ (let s := asking9 [1, 32768] base; s.asked 1 = true ∧ 32768 ≤ (s.mgmt.word 1).toNat)
    ∧ queueOk 0x40 0 = false
    ∧ (let s := asking9 [2, 7, 0x1000, 0x100] base; s.asked 2 = true ∧ (s.mgmt.word 1).toNat < 8)
    ∧ (let s := asking9 [2, 8] base; s.asked 2 = true ∧ 8 ≤ (s.mgmt.word 1).toNat)
    ∧ (let s := asking9 [3, 32] base; s.asked 3 = true ∧ 32 ≤ (s.mgmt.word 1).toNat ∧ (s.mgmt.word 1).toNat ≤ 40)
    ∧ (let s := asking9 [3, 41] base; s.asked 3 = true ∧ 40 < (s.mgmt.word 1).toNat)
    ∧ (asking9 [3, 31] base).mgmt.word 1 = 31
    ∧ (asking9 [4, 0, 1, 0x100] base).asked 4 = true ∧ (asking9 [5] base).asked 5 = true
    ∧ (let s := asking9 [6, 255] base; s.asked 6 = true ∧ s.mgmt.idSet = false ∧ (s.mgmt.word 1).toNat < 256)
    ∧ (let s := asking9 [6, 256] base; s.asked 6 = true ∧ 256 ≤ (s.mgmt.word 1).toNat)
    ∧ (let s := asking9 [7, 1, 0x6000, 0x100, 16] (queued []); let w := s.mgmt.word;
      s.asked 7 = true ∧ s.copyOk = true ∧ (s.stageCopy (s.queue 1) (w 2) (w 3) 0 16 16).2 = none)
    ∧ (let s := asking9 [7, 1, 0x6000, 0x100, 0] (queued []); s.copyOk = false)
    ∧ (let s := asking9 [7, 1, 0x6000, 0x100, 16] { queued [] with asids := [] }; let w := s.mgmt.word;
      s.copyOk = true ∧ (s.stageCopy (s.queue 1) (w 2) (w 3) 0 16 16).2 = some 0)
    ∧ (let s := asking9 [8, 1, 0x6000, 0x100, 16] (queued []); let w := s.mgmt.word;
      s.asked 8 = true ∧ s.copyOk = true
      ∧ (match s.fetchBytes (s.queue 1) (w 2) [] 16 16 with | .all bs => bs == List.replicate 16 0 | _ => false) = true)
    ∧ (asking9 [9, 0x100] base).asked 9 = true := by decide +kernel

theorem witness_HostRegisters :
    (base.queue 1).enabled = false ∧ 32768 ≤ 4096 * 8 + 0 / 4096 ∧ 4096 * 0 + 0x1018 / 4096 = 1 ∧ 0x1018 % 4096 = 0x18
    ∧ 0x1000 % 4096 = 0 ∧ 4096 * 7 + 0xFFF000 / 4096 < 32768
    ∧ (let s := { queued [] with ev := { EvArgs.none with n := 0x1000, v := 2 } };
      let q := s.queue 1; let v : BitVec 32 := 2; q.enabled = true ∧ (v - q.cidx).toNat ≤ q.slots)
    ∧ (let s := queued []; let q := s.queue 1; let v : BitVec 32 := 0x10000; q.enabled = true ∧ q.slots < (v - q.cidx).toNat)
    ∧ (E fun e => { e with flag := true, n := 0x1038 }).ev.n = 0x1000 + 8 * 7
    ∧ (let s := E fun e => { e with flag := true, n := 0x1040 }; s.ev.n = 0x1040 ∧ s.mgmt.basted = false)
    ∧ (let s := asking9 [9] (E fun e => { e with flag := true, n := 0x1040 });
      s.ev.n = 0x1040 ∧ s.mgmt.basted = true ∧ get (s.mgmt.word 0) 7 0 = 9) := by decide +kernel

theorem witness_ControlStores :
    (let s := E fun e => { e with n := 0x20 };
      s.ev.flag = false ∧ (match s.place 0 (0xF0 * 2 ^ 56 + s.ev.n % 2 ^ 56) with | some (.control _) => true | _ => false) = true)
    ∧ (let s := (fab fun F => { F with path := { F.path with reason := 2 } }); 2 ≤ ((s.tile 0).fabric.gen 8).reason.toNat
      ∧ ((s.tile 0).fabric.gen 8).reason.toNat ≤ 4)
    ∧ (base.group 0).v = false
    ∧ (([0x80000040000000000000000000000000, 0x40000000000000000000000000] : List (BitVec 128)).all fun v =>
      let s := E fun e => { e with v := v };
      let h := (s.group 0).written s.ev.v;
      h.v == v.getLsbD 127 && decide (h.fibre < 768) && s.groupWriteOk 0 h && s.setsSplit 0 h) = true
    ∧ (let s := (E fun e => { e with v := 0x40000000000000000000000000 }).modGroup 1 fun g => { g with v := true };
      let h := (s.group 0).written s.ev.v; s.setsSplit 0 h = false ∧ s.groupWriteOk 0 h = true)
    ∧ (([0x28000000000000000000000000, 0x80000028000000000000000000000000, 0xC000000000000000000000000000000, 0x10004000000000000000000000000000] : List (BitVec 128)).all fun v =>
      let h := (base.group 0).written v; decide (768 ≤ h.fibre ∨ 4 < h.fmt.toNat ∨ (h.w2 = true ∧ h.lambda.toNat % 2 = 1))) = true
    ∧ (let s := base.modGroup 0 fun g => { g with v := true, state := .streaming }; (s.group 0).v = true ∧ (s.group 0).state ≠ .idle) := by
  decide +kernel

/-- The sample of a panel has this temperature. -/
def sampled (n : Nat) (f : Panel → Panel) : State := { base.modPanel 0 f with ev := { EvArgs.none with n := n } }

theorem witness_ThermalSamples :
    (let s := sampled 110 id; (s.panel 0).tcrit.toNat ≤ 110)
    ∧ (let P := (sampled 95 fun P => { P with hotMs := 1 }).panel 0; 95 < P.tcrit.toNat ∧ P.talert.toNat ≤ 95 ∧ 1 ≤ P.hotMs)
    ∧ (let P := (sampled 95 id).panel 0; P.talert.toNat ≤ 95 ∧ P.hotMs = 0 ∧ 1 ≤ P.thyst.toNat)
    ∧ (let P := (sampled 90 fun P => { P with coolMs := 10, level := 4 }).panel 0;
      90 + P.thyst.toNat ≤ P.talert.toNat ∧ 90 < P.talert.toNat ∧ P.coolMs = 10)
    ∧ (let P := (sampled 91 id).panel 0; 91 < P.talert.toNat ∧ P.talert.toNat < 91 + P.thyst.toNat)
    ∧ 7 * (23 / 140 / 24) + 23 % 140 / 20 = 1 ∧ (base.phy 0).state = 1 ∧ (base.phy 34).state = 0 := by decide +kernel

/-- A flash with as many care records as it holds. -/
def fullLog : State := { base with care := { base.care with log := List.replicate (2 ^ 26) ⟨0, 0⟩, buf := [⟨1, 2⟩] } }

theorem witness_GatingAndCare :
    (State.reset.idleTile 0 = true ∧ base.idleTile 0 = false ∧ base.care.log.length + base.care.buf.length ≤ 2 ^ 26)
    ∧ fullLog.mgmt.alert.getLsbD 2 = false ∧ 2 ^ 26 < fullLog.care.log.length + fullLog.care.buf.length := by
  refine ⟨by decide +kernel, rfl, ?_⟩
  have h : fullLog.care.log.length = 2 ^ 26 := List.length_replicate
  have h2 : fullLog.care.buf.length = 1 := rfl
  omega

/-! ### Witnesses of the statements about encodings and the step -/

theorem witness_ScalarEncodings :
    (Instr.bc 3 1 0x1FFFFE).wellFormed = true ∧ (Instr.bc 3 1 0x1FFFFE).tform = none
    ∧ encode (.bc 3 1 0x1FFFFE) = some 0x06FFFFFE ∧ decodeS 0x06FFFFFE = .ok (.bc 3 1 0x1FFFFE) := by decide +kernel

theorem witness_FabricEncodings :
    (Instr.tOr 0 0 0 8 8 9).wellFormed = true ∧ (Instr.tOr 0 0 0 8 8 9).tform.isSome = true
    ∧ encode (.tOr 0 0 0 8 8 9) = some 0x00344480 ∧ decodeT 0x00344480 = .ok (.tOr 0 0 0 8 8 9) := by decide +kernel

/-- A store enters memory; the byte lies where the memory listed nothing. -/
theorem witness_StepKeepsInvariant :
    ∃ s t : State, s.Inv ∧ step s = .next t ∧ t.mem ≠ s.mem := by
  refine ⟨{ storing (localLoc 0 0x100) .bytes with agenda := [.event .storeAck { EvArgs.none with n := 7, flag := true }] }, _, ?_, rfl, ?_⟩
  · show Memory.wf _ = true
    decide +kernel
  · decide +kernel

/-- The turn of tile 0's slot 0, its instruction at 0x1000 in place. -/
def turn (w : Nat) (f : Slot → Slot) : State :=
  { (base.write (localLoc 0 0x1000) (natBytes 4 w)).modTile 0 fun T => T.modSlot 0 f with agenda := [.needle 0 0] }

/-- What the turn of a needle slot begins with. -/
def begun (s : State) (t k : Nat) (r : List Turn) : State :=
  { { s with turns := s.turns + 1, agenda := r }.modTile t (Tile.tick (s.panel (s.panelOf t)).level k) with focus := .needle t k }

theorem witness_StepRunsDecodedInstruction :
    (let s := turn 0x20531C00 id; let u := begun s 0 0 []; let x := u.slot 0 0;
      s.agenda = [.needle 0 0] ∧ u.stopped 0 = false ∧ u.withheld 0 0 = false ∧ x.runs = true ∧ x.waiting = false ∧ x.late = []
      ∧ x.budgetDue = false ∧ x.ext = none ∧ x.vecStalls (.add 5 6 7) = false ∧ decodeS 0x20531C00 = .ok (.add 5 6 7)
      ∧ (match u.fetch 0 0 x.pc with | .word u1 w => u1 == u && w == 0x20531C00 | _ => false) = true
      ∧ (match u.needleTr 0 0 .fetch x.pc with
        | (u1, .ok (.store t off) _ _) => u1 == u && t == 0 && off == 0x1000
        | _ => false) = true
      ∧ x.held = none ∧ x.dying = none ∧ x.bad = []
      ∧ u.holdRead 0 0 [localLoc 0 0x1000] = none ∧ (s.silicon 0).dark = false ∧ u.lsizeRefused (localLoc 0 0x1000) = false ∧ u.covered 0 (localLoc 0 0x1000) 4 = false ∧ u.marked (localLoc 0 0x1000) 4 = false
      ∧ bytesNat (u.bytes (localLoc 0 0x1000) 4) = 0x20531C00)
    ∧ (match decodeS 0x200003FF with | .error _ => true | _ => false) = true
    ∧ (let s := turn 0x20531C00 fun x => { x with run := .free }; ((begun s 0 0 []).slot 0 0).runs = false)
    ∧ (let s := turn 0x20531C00 fun x => { x with ext := some 5 }; ((begun s 0 0 []).slot 0 0).ext ≠ none)
    ∧ (((turn 0x20531C00 id).modPhy (base.physOf 0) fun P => { P with dark := true }).silicon 0).dark = true
    ∧ (base.cur.vecStalls (.vld 0 1 6 1 0)) = false
    ∧ ({ base.cur with pend := [⟨7, [], .vec 1 64 false [⟨0, 0x1000000000000080, 0x80, false⟩] [], 0x80, 0x1000000000000080, false, false⟩] }
      |>.vecStalls (.vst 0 1 6 1 0)) = true
    ∧ (let s := turn 0x20531C00 fun x => { x with bad := [6] }; let x := (begun s 0 0 []).slot 0 0;
      ∃ q ∈ instrReads (.add 5 6 7), q ≠ 0 ∧ x.absReg q ∈ x.bad)
    ∧ (let s := turn 0x20531C00 fun x => { x with dying := some (0x0C, 1) }; ((begun s 0 0 []).slot 0 0).dying ≠ none)
    ∧ (let s := turn 0x20531C00 fun x => { x with late := [⟨0x0106, 0x80⟩] }; let x := (begun s 0 0 []).slot 0 0;
      x.late ≠ [] ∧ x.inTrap = false ∧ x.ext = none ∧ (begun s 0 0 []).withheld 0 0 = false)
    ∧ (let s := turn 0x20531C00 fun x => { x with budgetDue := true }; let x := (begun s 0 0 []).slot 0 0;
      x.late = [] ∧ x.budgetDue = true)
    ∧ (let s := turn 0x20531C00 fun x => { x with held := some (localLoc 1 0) }; let x := (begun s 0 0 []).slot 0 0;
      x.held.isSome = true ∧ x.cut = false)
    ∧ takesExt (.addi 1 2 3) = true ∧ takesExt (.add 1 2 3) = false := by decide +kernel

/-- Element 2 of tile 0 may fire slot 3; slot 1 waits for bit 5 of q. -/
def electing (b : Option (Nat × Nat)) : State :=
  { el fun E => { E with slots := [(1, 0x68300080), (3, 0x00300080)], beat := b } with agenda := [.elem 0 2] }

/-- A slot's guard holds. -/
def slotHolds (s : State) (w : Nat) : Bool :=
  match decodeT w with
  | .ok i => s.slotReady 0 2 i
  | .error _ => false

theorem witness_StepRunsElementSlot :
    (let s := electing none; let u := { s with turns := s.turns + 1, agenda := [] };
      u.elemStopped 0 = false ∧ u.fabricHeld 0 = false ∧ ((s.tile 0).fabric.elem 2).beat = none ∧ (s.part 0).firingStopped = false
      ∧ slotHolds u 0x68300080 = false ∧ slotHolds u 0x00300080 = true
      ∧ ((s.tile 0).fabric.elem 2).slots = [(1, 0x68300080)] ++ (3, 0x00300080) :: [])
    ∧ (((electing none).modPart 0 fun p => { p with firingStopped := true }).part 0).firingStopped = true
    ∧ (((electing (some (3, 1))).tile 0).fabric.elem 2).beat.isSome = true
    ∧ (let s := el fun E => { E with slots := [(1, 0x68300080)] };
      ((s.tile 0).fabric.elem 2).slots = [(1, 0x68300080)] ∧ slotHolds s 0x68300080 = false) := by decide +kernel

theorem witness_ManufacturingMap :
    (rowMap [physKey 39 24] 24).isSome = true ∧ (rowMap [] 47).isSome = true
    ∧ [physKey 3 4, physKey 8 4].contains (physKey (35 * 0 + 3) 4) = true
    ∧ [physKey 3 4, physKey 8 4].contains (physKey (35 * 0 + 8) 4) = true
    ∧ (mapRows [physKey 3 4, physKey 8 4] [3, 4, 5] none 2).map (fun m => m.map Prod.fst) = some [3, 5]
    ∧ (mapRows [] [0] none 2).isNone = true
    ∧ (mappedRoute [physKey 39 24] (physKey 38 24) (physKey 40 24)).isSome = true
    ∧ (mappedRoute [] (physKey 0 0) (physKey 6 0)).isNone = true
    ∧ logicalOf [(0, [5, 6])] (physKey 6 0) = some (tileKey 1 0) ∧ logicalOf [(0, [5, 6])] (physKey 7 0) = none := by decide +kernel

/-! ### Steps: the expected values are computed by hand from the rules named -/

/-- R212: sums wrap; the high half of a signed and of an unsigned product of all-ones by all-ones. -/
theorem test_alu_wraps : gives (.add 5 6 7) (R [(6, 0xFFFFFFFFFFFFFFFF), (7, 2)]) 5 1
    ∧ gives (.sub 5 6 7) (R [(6, 0), (7, 1)]) 5 0xFFFFFFFFFFFFFFFF
    ∧ gives (.mulh 5 6 6) (R [(6, 0xFFFFFFFFFFFFFFFF)]) 5 0
    ∧ gives (.mulhu 5 6 6) (R [(6, 0xFFFFFFFFFFFFFFFF)]) 5 0xFFFFFFFFFFFFFFFE := by decide +kernel

/-- R212: the corners of division. -/
theorem test_division_corners : gives (.div 5 6 7) (R [(6, 8)]) 5 0xFFFFFFFFFFFFFFFF
    ∧ gives (.div 5 6 7) (R [(6, 0x8000000000000000), (7, 0xFFFFFFFFFFFFFFFF)]) 5 0x8000000000000000
    ∧ gives (.rem 5 6 7) (R [(6, 0x8000000000000000), (7, 0xFFFFFFFFFFFFFFFF)]) 5 0
    ∧ gives (.div 5 6 7) (R [(6, 0xFFFFFFFFFFFFFFF9), (7, 2)]) 5 0xFFFFFFFFFFFFFFFD
    ∧ gives (.rem 5 6 7) (R [(6, 0xFFFFFFFFFFFFFFF9), (7, 2)]) 5 0xFFFFFFFFFFFFFFFF
    ∧ gives (.remu 5 6 7) (R [(6, 9)]) 5 9 := by decide +kernel

/-- R212: a shift count keeps six bits; counts of a zero and of a one. -/
theorem test_shifts_and_counts : gives (.shl 5 6 7) (R [(6, 1), (7, 65)]) 5 2
    ∧ gives (.sra 5 6 7) (R [(6, 0x8000000000000000), (7, 63)]) 5 0xFFFFFFFFFFFFFFFF
    ∧ gives (.shr 5 6 7) (R [(6, 0x8000000000000000), (7, 63)]) 5 1
    ∧ gives (.clz 5 6) base 5 64 ∧ gives (.ctz 5 6) (R [(6, 8)]) 5 3 ∧ gives (.popc 5 6) (R [(6, 0xFF)]) 5 8
    ∧ gives (.andn 5 6 7) (R [(6, 0xFF), (7, 0x0F)]) 5 0xF0 := by decide +kernel

/-- R213, R214, R136: ADDI extends its sign, ORI does not; with an EXT payload of 1 the immediate has 2^15 added. -/
theorem test_immediates : gives (.addi 5 6 0x7FFF) (R [(6, 1)]) 5 0
    ∧ gives (.ori 5 6 0x7FFF) base 5 0x7FFF ∧ gives (.muli 5 6 0x7FFF) (R [(6, 3)]) 5 0xFFFFFFFFFFFFFFFD
    ∧ gives (.lea 5 6 7 7) (R [(6, 1), (7, 2)]) 5 257
    ∧ gives (.addi 5 6 0) (S fun x => { x with ext := some 1 }) 5 0x8000 := by decide +kernel

/-- R215-R217: a negative immediate is the largest unsigned value; p0 keeps reading one. -/
theorem test_compares : nextIs (exec (.cmpi 2 6 6 0x7FF) (R [(6, 5)])) (fun t => t.cur.pred 2)
    ∧ nextIs (exec (.cmp 2 6 7 2) (R [(6, 0xFFFFFFFFFFFFFFFF), (7, 0)])) (fun t => t.cur.pred 2)
    ∧ nextIs (exec (.cmp 0 6 7 1) base) (fun t => t.cur.pred 0)
    ∧ gives (.sel 5 6 7 1 0) (R [(6, 1), (7, 2)]) 5 2 := by decide +kernel

/-- R219, R55: f64 and f32 arithmetic: 1 + 2 = 3; 1 / 0 is an infinity with DZ (bit 1 of the flags raised); the square root of 4. -/
theorem test_scalar_floats : gives (.fadd 5 6 7 0 0) (R [(6, 0x3FF0000000000000), (7, 0x4000000000000000)]) 5 0x4008000000000000
    ∧ gives (.fdiv 5 6 7 0 0) (R [(6, 0x3FF0000000000000)]) 5 0x7FF0000000000000
    ∧ gives (.fsqrt 5 6 1 0) (R [(6, 0xDEADBEEF40800000)]) 5 0x40000000
    ∧ gives (.ffma 5 6 7 0 0) (R [(5, 0x3FF0000000000000), (6, 0x4000000000000000), (7, 0x4008000000000000)]) 5 0x401C000000000000
    ∧ gives (.fmin 5 6 7 0) (R [(6, 0x8000000000000000)]) 5 0x8000000000000000 := by decide +kernel

/-- R220, R55, R53: 2.5 rounds to the even 2, toward plus infinity to 3; 300 saturates in i8 to 127; 0xFF as i8 is minus one. -/
theorem test_conversions : gives (.fcvt 5 6 0x0A 3 0) (R [(6, 0x4004000000000000)]) 5 2
    ∧ gives (.fcvt 5 6 0x0A 3 2) (R [(6, 0x4004000000000000)]) 5 3
    ∧ gives (.fcvt 5 6 3 2 0) (R [(6, 300)]) 5 127 ∧ gives (.fcvt 5 6 2 5 0) (R [(6, 0xFF)]) 5 0xFFFFFFFFFFFFFFFF := by decide +kernel

/-- R221, R142: an unordered pair is not equal, and is unordered. -/
theorem test_float_compares : nextIs (exec (.fcmp 1 6 7 0 0) (R [(6, 0x7FF8000000000000)])) (fun t => !t.cur.pred 1)
    ∧ nextIs (exec (.fcmp 1 6 7 0 2) (R [(6, 0xBFF0000000000000)])) (fun t => t.cur.pred 1) := by decide +kernel

/-- R222-R224: branches count in words from their own; a call leaves its return address in the new s15, and a return goes there. -/
theorem test_branches : nextIs (exec (.b 0x1FFFFE) base) (fun t => t.cur.pc == 0xFF8)
    ∧ nextIs (exec (.bc 1 0 4) base) (fun t => t.cur.pc == 0x1004) ∧ nextIs (exec (.bc 1 1 4) base) (fun t => t.cur.pc == 0x1010)
    ∧ nextIs (exec (.call 4) base) (fun t => t.cur.pc == 0x1010 && t.cur.sreg 15 == 0x1004 && t.cur.depth == 1)
    ∧ nextIs (exec .ret (called 0x3000)) (fun t => t.cur.pc == 0x3000 && t.cur.depth == 0) := by decide +kernel

/-- R404, R407: TRAP 9 keeps the address after it and its code, in system mode, at TVEC; ERET undoes it. -/
theorem test_traps : nextIs (exec (.trap 9) (vec.modCur fun x => { x with mode := .user }))
      (fun t => t.cur.pc == 0x8000 && t.cur.trapPc == 0x1004 && t.cur.trapVal == 9 && t.cur.mode == .system && t.cur.pMode == .user)
    ∧ nextIs (exec .eret (S fun x => { x with inTrap := true, trapPc := 0x1234, pMode := .user }))
      (fun t => t.cur.pc == 0x1234 && t.cur.mode == .user && !t.cur.inTrap) := by decide +kernel

/-- R231, R230: a misaligned load traps with the alignment cause and its address; a store enters the table with its bytes. -/
theorem test_accesses : nextIs (exec (.ld 5 6 3 0 0) (vec.modCur fun x => x.setSreg 6 0x102))
      (fun t => t.cur.trapCause == 0x02 && t.cur.trapVal == 0x102)
    ∧ nextIs (exec (.st 5 6 1 0 1) (R [(5, 0xABCD), (6, 0x100)]))
      (fun t => (t.tile 0).stores.map (fun e => (e.loc, e.bytes)) == [(localLoc 0 0x102, [0xCD, 0xAB])]) := by decide +kernel

/-- R230, R152: a signed byte is extended, an unsigned one is not; .Q fills a pair, its lower bytes in the lower register. -/
theorem test_load_values : gives (.lds 5 6 0 0 0) ((R [(6, 0x100)]).write (localLoc 0 0x100) [0x80]) 5 0xFFFFFFFFFFFFFF80
    ∧ gives (.ld 5 6 0 0 0) ((R [(6, 0x100)]).write (localLoc 0 0x100) [0x80]) 5 0x80
    ∧ gives (.ld 4 6 4 0 0) ((R [(6, 0x100)]).write (localLoc 0 0x108) [0x11]) 5 0x11 := by decide +kernel

/-- R312, R153: the value an atomic leaves in memory: a sum wraps, a signed minimum, a compare that fails, an f32 sum. -/
theorem test_atomics : amoNew 0 8 0xFFFFFFFFFFFFFFFF 1 0 = some 0 ∧ amoNew 1 8 1 0xFFFFFFFFFFFFFFFF 0 = some 0xFFFFFFFFFFFFFFFF
    ∧ amoNew 3 8 1 0xFFFFFFFFFFFFFFFF 0 = some 1 ∧ amoNew 9 8 5 7 6 = none
    ∧ amoNew 10 4 0x3F800000 0x40000000 0 = some 0x40400000 := by decide +kernel

/-- R283, R288: lanes of 8 bits wrap alone; the sum of 512 lanes of one. -/
theorem test_vectors :
    nextIs (exec (.vadd 2 1 1 0 0 1) (S fun x => x.setVreg 1 0xFF80)) (fun t => t.cur.vreg 2 == 0xFE00)
    ∧ nextIs (exec (.vradd 2 1 0 1) (S fun x => x.setVreg 1 (ofLanes 8 512 fun _ => 1))) (fun t => t.cur.vreg 2 == 512) := by
  decide +kernel

/-- R295, R282: lane 1 of .L4 is the upper half of the first byte, and its owner keeps the lower half. -/
theorem test_nibble_store :
    nextIs (exec (.vst 1 1 6 0 0) (S fun x => ((x.setSreg 6 0x100).setMreg 1 2).setVreg 1 0xA5))
      (fun t => (t.tile 0).stores.map (fun e => (e.loc, e.bytes, e.how)) == [(localLoc 0 0x100, [0x0A], .nibble true)])
    ∧ nextIs (exec .storeAck ((storing (localLoc 0 0x100) (.nibble true)).write (localLoc 0 0x100) [0x35]))
      (fun t => t.byte (localLoc 0 0x100) == 0xA5 && (t.tile 0).stores.isEmpty) := by decide +kernel

/-- R296, R283: lanes 0 and 2 of 64 bits gathered at s3 plus 8 times the index; with z = 1 the others become 0. -/
theorem test_gather : nextIs (exec (.vgather 2 1 3 1 1 4) (((S fun x =>
        (((x.setSreg 3 0x100).setMreg 1 5).setVreg 1 (ofLanes 64 64 fun k => 4 - k)).setVreg 2 (ofLanes 64 64 fun _ => 7)).write
          (localLoc 0 0x120) [0x11]).write (localLoc 0 0x110) [0x22]))
      (fun t => t.cur.vreg 2 == ofLanes 64 64 (fun k => if k = 0 then 0x11 else if k = 2 then 0x22 else 0)) := by decide +kernel

/-- R137, log 5: the word of an instruction placed where the next step fetches it runs. -/
theorem test_step_runs : nextIs (step ((State.reset.modCur id).withFetchWord 32 0x2253789A))
      (fun t => t.cur.sreg 5 == 0xFFFFFFFFFFFFF89A && t.cur.pc == 0x10004)
    ∧ nextIs (step (State.reset.withFetchWord 32 0x200003FF)) (fun t => (t.tile 0).stores.length == 0) := by decide +kernel

/-- Data register 2 of element 2 of tile 0 after a firing. -/
def fires (i : Instr) (a b : Word) (v : Word) : Bool :=
  nextIs (exec i (el fun E => { E with d := (E.d.set 0 ⟨false, 0, a⟩).set 1 ⟨false, 0, b⟩ })) fun t =>
    (((t.tile 0).fabric.elem 2).d[2]).data == v

/-- R180, R189, R190: lanes of eight bits wrap alone; the larger unsigned. -/
theorem test_firings : fires (.tAdd 0 0 0 2 0 1 1) 0x01FF 0x0101 0x0200 ∧ fires (.tAdd 0 0 0 2 0 1 0) 0x01FF 0x0101 0x0300
    ∧ fires (.tMaxu 0 0 0 2 0 1 0) 0x8000000000000000 1 0x8000000000000000
    ∧ fires (.tSra 0 0 0 2 0 1) 0x8000000000000000 63 0xFFFFFFFFFFFFFFFF
    ∧ fires (.tFcvt 0 0 0 2 0 0 0) 0x3FF0000000000000 0 0x3F800000
    ∧ fires (.tFadd 0 0 0 0 2 0 1 0) 0x3FF0000000000000 0x4000000000000000 0x4008000000000000 := by decide +kernel

/-- R173: an operand popped from an empty channel does not fire, and the element is as it was. -/
theorem test_guard_waits : nextIs (exec (.tAdd 0 0 0 2 8 1 0) (el id))
    (fun t => (t.tile 0).fabric.elem 2 == ((el id).tile 0).fabric.elem 2) := by decide +kernel

/-- R81: the check value of CRC-32C, of the nine bytes "123456789". -/
theorem test_crc32c : crc32c (natBytes 9 0x393837363534333231) = 0xE3069283 := by decide +kernel

end Sys2Proof.Tests
end

section
/-!
SUPPORT. What the operations that the weft uses change and leave alone: the selvedge's groups, a tile's fabric, memory, and
the messages on their way.
-/
namespace Sys2Proof.Machine

/-! ### Folds, lists and tables -/

/-- What every step of a fold leaves alone, the fold leaves alone. -/
theorem foldl_keeps {α β : Type} (p : State → β) (f : State → α → State) (hf : ∀ s a, p (f s a) = p s) (l : List α)
    (s : State) : p (l.foldl f s) = p s := by
  induction l generalizing s with
  | nil => rfl
  | cons x r ih => rw [List.foldl_cons, ih, hf]

theorem mem_natInsert_self (n : Nat) (l : List Nat) : n ∈ natInsert n l := by
  induction l with
  | nil => simp [natInsert]
  | cons k r ih =>
    unfold natInsert
    split
    · simp
    · split
      · simp [*]
      · simp [ih]

theorem mem_natInsert_of_mem {m : Nat} (n : Nat) {l : List Nat} (h : m ∈ l) : m ∈ natInsert n l := by
  induction l with
  | nil => simp at h
  | cons k r ih =>
    unfold natInsert
    split
    · simp [h]
    · split
      · exact h
      · rcases List.mem_cons.1 h with e | e
        · simp [e]
        · simp [ih e]

/-- A deleted entry is not found. -/
theorem Tab.find?_del_self {α : Type} (t : Tab α) (n : Nat) : (t.del n).find? (fun e => e.1 == n) = none := by
  simp [Tab.del]

/-! ### Outcomes and memory -/

/-- An instruction with a next state of which `P` holds. -/
theorem nextWith_of_eq {o : Host.Outcome State Fault Refusal} {t : State} {P : State → Prop} (h : o = .next t) (ht : P t) :
    Rules.nextWith o P := ⟨t, h, ht⟩

/-- The bytes, presence bits and marks of the machine. -/
def State.memory (s : State) : List Host.Cell × List Nat × List Nat := (s.mem, s.empties, s.marks)

theorem sameMemory_of_memory_eq {s t : State} (h : t.memory = s.memory) : Rules.sameMemory s t := by
  simp only [State.memory, Prod.mk.injEq] at h
  obtain ⟨hm, he, hk⟩ := h
  exact ⟨fun a => by rw [State.byte, hm, State.byte], he, hk⟩

/-! ### The groups of the selvedge -/

@[simp] theorem State.group_modGroup_self (s : State) (n : Nat) (f : Group → Group) : (s.modGroup n f).group n = f (s.group n) :=
  Tab.get_put_self _ _ _ _
@[simp] theorem State.group_dropFlight (s : State) (i n : Nat) : (s.dropFlight i).group n = s.group n := rfl
@[simp] theorem State.group_unbook (s : State) (t mw n : Nat) : (s.unbook t mw).group n = s.group n := rfl

@[simp] theorem State.group_notify (s : State) (t k n : Nat) (a : Alloc) (x v w : Word) :
    (s.notify t k a x v w).group n = s.group n := by
  unfold State.notify
  split <;> rfl

@[simp] theorem State.groupCheck_of_ne_closing {s : State} {n : Nat} (h : (s.group n).state ≠ .closing) : s.groupCheck n = s := by
  simp [State.groupCheck, h]

/-- A stream that ends leaves its group idle, with what else the table entry says. -/
theorem State.group_endStream_self (s : State) (n out : Nat) :
    (s.endStream n out).group n
      = { s.group n with state := .idle, ended := true, pace := (s.group n).basePace, starter := none } := by
  unfold State.endStream
  dsimp only
  split
  · simp
  · split
    · simp
    · exact (foldl_keeps (State.group · n) _ (fun _ _ => by rfl) _ _).trans (State.group_modGroup_self _ _ _)

/-! ### Tiles and fabrics -/

@[simp] theorem State.tile_modGroup (s : State) (n t : Nat) (f : Group → Group) : (s.modGroup n f).tile t = s.tile t := rfl
@[simp] theorem State.tile_post (s : State) (m : Msg) (a b t : Nat) (d : Bool) : (s.post m a b d).tile t = s.tile t := rfl
@[simp] theorem State.tile_unbook (s : State) (u mw t : Nat) : (s.unbook u mw).tile t = s.tile t := rfl

@[simp] theorem State.tile_modFabric_self (s : State) (t : Nat) (f : Fabric → Fabric) :
    (s.modFabric t f).tile t = { s.tile t with fabric := f (s.tile t).fabric } := State.tile_modTile_self _ _ _

/-- A change of a router leaves every fabric alone. -/
@[simp] theorem State.fabric_modRouter (s : State) (t u : Nat) (f : Router → Router) :
    ((s.modRouter t f).tile u).fabric = (s.tile u).fabric := by
  by_cases h : u = t
  · subst h
    simp [State.modRouter]
  · rw [State.modRouter, State.tile_modTile_of_ne _ _ h]

@[simp] theorem State.fabric_hwStitch (s : State) (t dst label : Nat) (elem : Bool) (unit : Nat) (st : BitVec 4) (v w : Word)
    (h : Option (BitVec 32)) (u : Nat) : ((s.hwStitch t dst label elem unit st v w h).tile u).fabric = (s.tile u).fabric := by
  rw [State.hwStitch, State.tile_post, State.fabric_modRouter]

@[simp] theorem State.fabric_notify (s : State) (t k : Nat) (a : Alloc) (x v w : Word) (u : Nat) :
    ((s.notify t k a x v w).tile u).fabric = (s.tile u).fabric := by
  unfold State.notify
  split <;> simp

/-- The end of a stream leaves every fabric alone. -/
@[simp] theorem State.fabric_endStream (s : State) (n out u : Nat) :
    ((s.endStream n out).tile u).fabric = (s.tile u).fabric := by
  unfold State.endStream
  dsimp only
  split
  · simp
  · split
    · simp
    · exact (foldl_keeps (fun a : State => (a.tile u).fabric) _ (by simp) _ _).trans (by simp)

@[simp] theorem Fabric.portGroup_modPort_self (F : Fabric) (n : Nat) (h : PortGroup → PortGroup) :
    (F.modPort n h).portGroup n = h (F.portGroup n) := Tab.get_put_self _ _ _ _

@[simp] theorem Fabric.island_modIsland_self (F : Fabric) (i : Nat) (h : Island → Island) :
    (F.modIsland i h).island i = h (F.island i) := Tab.get_put_self _ _ _ _

end Sys2Proof.Machine
end

section
/-!
SUPPORT. WEFT and its answer (R241): the request that leaves, the completion that comes back to the slot, and the unit it spends.
-/
namespace Sys2Proof.Machine

/-! ### The register that a completion writes (R209, R223) -/

/-- A visible register written by its absolute number is read back. -/
theorem Slot.sreg_setAbs_absReg (x : Slot) {r : BitVec 5} (v : Word) (h : r ≠ 0) : (x.setAbs (x.absReg r) v).sreg r = v := by
  have h0 : r.toNat ≠ 0 := fun e => h (BitVec.eq_of_toNat_eq e)
  have h32 : r.toNat < 32 := r.isLt
  rw [Slot.sreg_of_ne _ h]
  by_cases h8 : r.toNat < 8
  · simp [Slot.setAbs, Slot.absReg, h8, h0]
  · have hg : ¬ 16 * x.depth.toNat + r.toNat < 8 := by omega
    have ht : 16 * x.depth.toNat + 8 ≤ 16 * x.depth.toNat + r.toNat := by omega
    simp [Slot.setAbs, Slot.absReg, h8, h0, hg, ht, h32]

/-- The completion of an entry that names one visible register writes it. -/
theorem Slot.sreg_complete {x : Slot} {i : Nat} {p : Pend} {r : BitVec 5} (v : Word) (hp : x.pend? i = some p) (hr : r ≠ 0)
    (hd : p.dst = [x.absReg r]) : (x.complete i [v]).sreg r = v := by
  have hf : (x.pend.find? fun p => p.id == i) = some p := hp
  rw [Slot.complete, hf]
  simp only [hd, List.zip_cons_cons, List.zip_nil_right, List.foldl_cons, List.foldl_nil]
  exact Slot.sreg_setAbs_absReg x v hr

/-! ### The slot that waits for a completion -/

/-- Slot `k` is the first of tile `t` that waits for completion `i`, under entry `p`. -/
def State.waitsFirst (s : State) (t i k : Nat) (p : Pend) : Prop :=
  k < 8 ∧ (s.slot t k).pend? i = some p ∧ ∀ m < k, (s.slot t m).pend? i = none

theorem State.find_of_waitsFirst {s : State} {t i k : Nat} {p : Pend} (h : s.waitsFirst t i k p) :
    ((List.range 8).find? fun j => ((s.slot t j).pend? i).isSome) = some k := by
  obtain ⟨hk, hp, hm⟩ := h
  rw [List.find?_range_eq_some]
  exact ⟨by simp [hp], List.mem_range.2 hk, fun j hj => by simp [hm j hj]⟩

theorem State.deliver_of_waitsFirst {s : State} {t i k : Nat} {p : Pend} (h : s.waitsFirst t i k p) (vals : List Word) :
    s.deliver t i vals = s.modSlot t k fun x => x.complete i vals := by
  rw [State.deliver, State.find_of_waitsFirst h]

theorem State.spendWeft_of_waitsFirst {s : State} {t i k : Nat} {p : Pend} (h : s.waitsFirst t i k p) :
    s.spendWeft t i = s.modSlot t k fun x => x.spend 2 := by
  rw [State.spendWeft, State.find_of_waitsFirst h]

/-- A unit spent leaves the entries of its slot waiting. -/
theorem State.waitsFirst_spend {s : State} {t i k : Nat} {p : Pend} (h : s.waitsFirst t i k p) :
    (s.modSlot t k fun x => x.spend 2).waitsFirst t i k p := by
  obtain ⟨hk, hp, hm⟩ := h
  refine ⟨hk, by rw [State.slot_modSlot_self]; exact hp, fun m hmk => ?_⟩
  rw [State.slot_modSlot_of_ne _ _ (.inr (by omega))]
  exact hm m hmk

/-! ### What a delivery and a spent unit leave alone -/

/-- A delivery changes memory, slots and routers only. -/
theorem State.deliver_keeps {β : Type} (p : State → β) (hw : ∀ s loc bs, p (State.write s loc bs) = p s)
    (hr : ∀ s t f, p (State.modRouter s t f) = p s) (hs : ∀ s t k f, p (State.modSlot s t k f) = p s) (s : State) (t i : Nat)
    (vals : List Word) : p (s.deliver t i vals) = p s := by
  have one : ∀ (x : State) (tr : Tr) (bs : List Byte),
      p (match tr with | .ok pl _ _ => x.write pl.loc bs | _ => x) = p x := by
    intro x tr bs
    split <;> simp [hw]
  unfold State.deliver
  split
  · exact hs _ _ _ _
  · split
    · rfl
    · split
      · rfl
      · unfold State.completeImage
        dsimp only
        rw [hr]
        refine foldl_keeps p _ (fun x rv => ?_) _ _
        split
        · rfl
        · exact (one _ _ _).trans (one _ _ _)

theorem State.group_deliver (s : State) (t i n : Nat) (vals : List Word) : (s.deliver t i vals).group n = s.group n :=
  State.deliver_keeps (State.group · n) (fun _ _ _ => rfl) (fun _ _ _ => rfl) (fun _ _ _ _ => rfl) s t i vals

theorem State.wefts_deliver (s : State) (t i : Nat) (vals : List Word) : (s.deliver t i vals).wefts = s.wefts :=
  State.deliver_keeps State.wefts (fun _ _ _ => rfl) (fun _ _ _ => rfl) (fun _ _ _ _ => rfl) s t i vals

/-- A spent unit changes memory and slots only. -/
theorem State.spendWeft_keeps {β : Type} (p : State → β) (hw : ∀ s loc bs, p (State.write s loc bs) = p s)
    (hs : ∀ s t k f, p (State.modSlot s t k f) = p s) (s : State) (t i : Nat) : p (s.spendWeft t i) = p s := by
  unfold State.spendWeft
  split
  · exact hs _ _ _ _
  · split
    · unfold State.spendImage
      dsimp only
      split
      · exact hw _ _ _
      · rfl
    · rfl

theorem Slot.balance_spend (x : Slot) : (x.spend 2).balance 2 = x.balance 2 - 1 := by
  simp [Slot.spend, Slot.balance]

/-! ### WEFT (R241) -/

theorem exec_weft (s : State) (d a b : BitVec 5) : exec (.weft d a b) s = execWeft d a b s := rfl

/-- A WEFT whose slot holds a unit that no other WEFT of it uses asks at once. -/
theorem exec_weft_of_unit {s : State} {d a b : BitVec 5} (hr : Rules.ready s [d, a, b])
    (hu : s.weftsOf s.ft s.fk < (s.cur.balance 2).toNat) :
    exec (.weft d a b) s = .next (s.weftAsk d (s.cur.sreg a) (s.cur.sreg b)) := by
  rw [exec_weft, execWeft, if_neg (by rw [hr]; decide), if_pos hu]

/-- An earlier store of the slot is not performed, or an acquiring access of it waits (R241, R467). -/
def State.weftHeld (s : State) : Prop :=
  (∃ e ∈ (s.tile s.ft).stores, e.slot = s.fk % 8) ∨ (∃ b ∈ s.behind, b.tile = s.ft ∧ b.slot = s.fk % 8)
    ∨ ∃ p ∈ s.cur.pend, p.acq = true

theorem State.weftHeld_iff (s : State) :
    (((s.tile s.ft).stores.any fun e => e.slot == s.fk % 8) || (s.behind.any fun b => b.tile == s.ft && b.slot == s.fk % 8)
      || s.cur.pend.any fun p => p.acq) = true ↔ s.weftHeld := by
  simp [State.weftHeld, or_assoc]

theorem State.weftAsk_held {s : State} (h : s.weftHeld) (d : BitVec 5) (x y : Word) : s.weftAsk d x y = s :=
  if_pos (s.weftHeld_iff.2 h)

theorem State.weftAsk_free {s : State} (h : ¬s.weftHeld) (d : BitVec 5) (x y : Word) :
    s.weftAsk d x y = { s.stamp with wefts := s.wefts ++ [(⟨s.ft, s.fk, s.seq, x, y, s.callerLaunch, s.launchOf s.ft s.fk,
      decide (get y 63 62 = 3) || (s.sendTarget s.ft s.fk y).isSome⟩ : Ask)] }.modCur fun sl =>
        { sl.advance with pend := sl.pend ++ [(⟨s.seq, [s.cur.absReg d], .result, 0, 0, false, false⟩ : Pend)] } :=
  if_neg (mt s.weftHeld_iff.1 h)

/-- A WEFT without a unit at hand asks for one (R241, R419). -/
theorem exec_weft_of_no_unit {s s1 : State} {d a b : BitVec 5} (hr : Rules.ready s [d, a, b])
    (hu : (s.cur.balance 2).toNat ≤ s.weftsOf s.ft s.fk) (hl : s.takeLeave s.ft s.fk 2 1 = (s1, false)) :
    exec (.weft d a b) s = .next s1 := by
  rw [exec_weft, execWeft, if_neg (by rw [hr]; decide), if_neg (by omega), hl]
  rfl

/-! ### The answer (R241) -/

/-- The machine without the request `q`, which has its answer. -/
def State.dropWeft (s : State) (q : Ask) : State := { s with wefts := s.wefts.filter fun x => x != q }

theorem exec_weftStatusReturn_refused {s : State} {q : Ask}
    (hq : (s.wefts.find? fun q => q.tile == s.ev.tile && q.slot == s.ev.unit) = some q) (h0 : (s.weftStatus q).1 ≠ 0) :
    exec .weftStatusReturn s = .next (((s.dropWeft q).keepWeft s.ev.tile q.pend).deliver
      s.ev.tile q.pend [BitVec.ofNat 64 ((s.weftStatus q).1 % 256)]) := by
  have hv : put 0 8 (s.weftStatus q).1 = BitVec.ofNat 64 ((s.weftStatus q).1 % 256) := by simp [put]
  rw [← hv]
  show execWeftStatusReturn s = _
  rw [execWeftStatusReturn, hq]
  simp only [h0, ne_eq, not_false_eq_true, if_true]
  rfl

/-- The machine once an answer under status 0 has spent the unit of WEFT `q` and armed its group. -/
def State.weftArmed (s : State) (q : Ask) : State :=
  ((s.dropWeft q).spendWeft s.ev.tile q.pend).modGroup (s.weftStatus q).2 fun g =>
    { g.arm with starter := some (s.ev.tile, s.ev.unit, q.b, q.alloc) }

theorem State.group_weftArmed (s : State) (q : Ask) : (s.weftArmed q).group (s.weftStatus q).2
    = { (s.group (s.weftStatus q).2).arm with starter := some (s.ev.tile, s.ev.unit, q.b, q.alloc) } := by
  rw [State.weftArmed, State.group_modGroup_self,
    State.spendWeft_keeps (State.group · (s.weftStatus q).2) (fun _ _ _ => rfl) (fun _ _ _ _ => rfl)]
  rfl

theorem State.wefts_weftArmed (s : State) (q : Ask) : (s.weftArmed q).wefts = s.wefts.filter fun x => x != q :=
  State.spendWeft_keeps State.wefts (fun _ _ _ => rfl) (fun _ _ _ _ => rfl) _ _ _

/-- The spent unit and the armed group leave the entries of the slot waiting, and of the slot only the balance changes. -/
theorem State.weftArmed_of_waitsFirst {s : State} {q : Ask} {k : Nat} {p : Pend} (h : s.waitsFirst s.ev.tile q.pend k p) :
    (s.weftArmed q).waitsFirst s.ev.tile q.pend k p ∧ (s.weftArmed q).slot s.ev.tile k = (s.slot s.ev.tile k).spend 2 := by
  have hd : (s.dropWeft q).waitsFirst s.ev.tile q.pend k p := h
  have ha := State.spendWeft_of_waitsFirst hd
  have hs : (s.weftArmed q).slot s.ev.tile = ((s.dropWeft q).spendWeft s.ev.tile q.pend).slot s.ev.tile := rfl
  rw [State.waitsFirst, hs, ha]
  exact ⟨State.waitsFirst_spend hd, State.slot_modSlot_self _ _ _ _⟩

theorem exec_weftStatusReturn_started {s : State} {q : Ask}
    (hq : (s.wefts.find? fun q => q.tile == s.ev.tile && q.slot == s.ev.unit) = some q) (h0 : (s.weftStatus q).1 = 0) :
    exec .weftStatusReturn s = .next ((s.weftArmed q).deliver s.ev.tile q.pend
      [BitVec.ofNat 64 (((s.group (s.weftStatus q).2).epoch + 1).toNat * 2 ^ 8)]) := by
  have hv : ∀ e : BitVec 8, put 8 8 e.toNat = BitVec.ofNat 64 (e.toNat * 2 ^ 8) := fun e => by
    rw [put, Nat.mod_eq_of_lt e.isLt]
  have he : ((s.weftArmed q).group (s.weftStatus q).2).epoch = (s.group (s.weftStatus q).2).epoch + 1 := by
    rw [State.group_weftArmed]
    rfl
  rw [← he, ← hv]
  show execWeftStatusReturn s = _
  rw [execWeftStatusReturn, hq]
  simp only [h0, ne_eq, not_true_eq_false, if_false]
  rfl

/-- The slot that waited for the answer spends its unit and gets the word that the answer brings. -/
theorem State.awarded_weftArmed (s : State) (q : Ask) (v : Word) :
    Rules.awarded s ((s.weftArmed q).deliver s.ev.tile q.pend [v]) s.ev.tile q.pend v (·.spend 2) := by
  intro k hk p hp hm
  obtain ⟨hw, hslot⟩ := State.weftArmed_of_waitsFirst (s := s) ⟨hk, hp, hm⟩
  have hc : ((s.weftArmed q).deliver s.ev.tile q.pend [v]).slot s.ev.tile k
      = ((s.slot s.ev.tile k).spend 2).complete q.pend [v] := by
    rw [State.deliver_of_waitsFirst hw, State.slot_modSlot_self, hslot]
  refine ⟨hc, fun r hr hd => ?_⟩
  rw [hc]
  exact Slot.sreg_complete (p := p) v hp hr hd

/-! ### The statement of WEFT -/

theorem weftRequests : Rules.WeftRequests := by
  intro s d a b
  refine ⟨fun hr hu hh => ?_, fun hr hu hh => ?_, fun s1 hr hu hl => exec_weft_of_no_unit hr hu hl,
    fun q hq => ⟨fun h0 => ?_, fun h0 => ?_⟩⟩
  · refine nextWith_of_eq (exec_weft_of_unit hr hu) ?_
    rw [State.weftAsk_free hh]
    refine ⟨rfl, ?_, ?_, sameMemory_of_memory_eq rfl⟩
    · rw [State.cur_modCur]; rfl
    · rw [State.cur_modCur]; rfl
  · rw [exec_weft_of_unit hr hu, State.weftAsk_held hh]
  · exact exec_weftStatusReturn_refused hq h0
  · refine nextWith_of_eq (exec_weftStatusReturn_started hq h0) ?_
    rw [State.group_deliver, State.wefts_deliver, State.group_weftArmed, State.wefts_weftArmed]
    exact ⟨rfl, rfl, rfl, rfl, by simp, State.awarded_weftArmed s q _, Slot.balance_spend⟩

end Sys2Proof.Machine
end

section
/-!
SUPPORT. The states of a multicast group at the selvedge (R13, R80, R81, R85, R87): its start, the rows it sends, and what the
members report and ask for.
-/
namespace Sys2Proof.Machine

/-! ### The start of a stream (R13, R80) -/

theorem exec_groupStartByLoader_armed {s : State} (hv : (s.group s.ev.n).v = true) (hi : (s.group s.ev.n).state = .idle)
    (hw : (s.group s.ev.n).byWeft = false) (he : (s.group s.ev.n).ended = false)
    (hm : ∀ m ∈ (s.group s.ev.n).members, s.memberReady s.ev.n m = true)
    (hl : (s.part ((s.group s.ev.n).members.head?.getD 0)).wanted = []) (hp : (s.group s.ev.n).minPace ≤ (s.group s.ev.n).pace)
    (hr : s.launchRuns (s.group s.ev.n).launch = true) (hs : s.launchStored (s.group s.ev.n).launch = true) :
    exec .groupStartByLoader s = .next (s.modGroup s.ev.n Group.arm) := by
  have hall := List.all_eq_true.2 hm
  show execGroupStartByLoader s = _
  simp [execGroupStartByLoader, hv, hi, hw, he, hall, hl, hp, hr, hs]

theorem exec_groupStreamingStart_ready {s : State} (ha : (s.group s.ev.n).state = .armed)
    (hm : ∀ m ∈ (s.group s.ev.n).members, s.memberReady s.ev.n m = true) (hr : s.launchRuns (s.group s.ev.n).launch = true) :
    exec .groupStreamingStart s = .next (s.modGroup s.ev.n fun g => { g with state := .streaming }) := by
  show execGroupStreamingStart s = _
  rw [execGroupStreamingStart, if_pos ⟨ha, List.all_eq_true.2 hm, hr⟩]

/-! ### The rows of a stream (R81, R82) -/

/-- A frame goes to the receiver of a member for a lane, if it has one. -/
def State.sendTo (bs : List Byte) (n lane : Nat) (s : State) (m : Nat) : State :=
  match (s.tile m).fabric.rxOf n lane with
  | some r => s.post (.frame bs r) selvedge m true
  | none => s

/-- What no message changes, sending a frame to a member does not change. -/
theorem State.sendTo_keeps {β : Type} (p : State → β) (hp : ∀ s m a b d, p (State.post s m a b d) = p s) (bs : List Byte)
    (n lane : Nat) (s : State) (m : Nat) : p (s.sendTo bs n lane m) = p s := by
  unfold State.sendTo
  split
  · exact hp _ _ _ _ _
  · rfl

theorem State.flights_subset_sendTo (bs : List Byte) (n lane : Nat) (s : State) (m : Nat) :
    s.flights ⊆ (s.sendTo bs n lane m).flights := by
  unfold State.sendTo
  split
  · exact List.subset_append_left _ _
  · exact List.Subset.refl _

/-- Frames that have been sent stay on their way while others are sent. -/
theorem State.flights_subset_foldl_sendTo (bs : List Byte) (n lane : Nat) (l : List Nat) (s : State) :
    s.flights ⊆ (l.foldl (State.sendTo bs n lane) s).flights := by
  induction l generalizing s with
  | nil => exact List.Subset.refl _
  | cons m r ih => exact List.Subset.trans (s.flights_subset_sendTo bs n lane m) (ih _)

/-- Of several members, every one with a receiver for the lane is sent the frame. -/
theorem State.frame_mem_foldl_sendTo (bs : List Byte) (n lane : Nat) {l : List Nat} {m r : Nat} {s : State} (hm : m ∈ l)
    (hr : (s.tile m).fabric.rxOf n lane = some r) :
    ∃ q ∈ (l.foldl (State.sendTo bs n lane) s).flights, q.dst = m ∧ q.msg = .frame bs r := by
  induction l generalizing s with
  | nil => simp at hm
  | cons x l ih =>
    by_cases hx : m = x
    · subst hx
      refine ⟨⟨s.seq, .frame bs r, selvedge, m, s.physOf selvedge, [], true, false⟩, ?_, rfl, rfl⟩
      refine State.flights_subset_foldl_sendTo bs n lane l _ ?_
      rw [State.sendTo, hr]
      exact List.mem_append_right _ (List.mem_singleton.2 rfl)
    · refine ih (s := s.sendTo bs n lane x) ((List.mem_cons.1 hm).resolve_left hx) ?_
      rw [State.sendTo_keeps (State.tile · m) (fun _ _ _ _ _ => rfl)]
      exact hr

/-- The frame of a row of group `n`. -/
def Group.frameOf (g : Group) (n : Nat) (bs : List Byte) : Frame :=
  ⟨n, g.fmt, g.seq == g.last, g.epoch, bs.length / 8, g.seq, bs⟩

/-- The row at SEQ of group `n` has gone to the members that its light reaches. -/
def State.rowSent (s : State) (n : Nat) (bs : List Byte) (bad : Bool) : State :=
  ((s.group n).members.filter (s.lit (s.group n))).foldl
    (State.sendTo (((s.group n).frameOf n bs).wire bad) n ((s.group n).seq.toNat % (s.group n).lanes)) s

/-- SEQ counts up; past the last row the group closes. -/
def Group.sentRow (g : Group) : Group := { g with seq := g.seq + 1, state := if g.seq = g.last then .closing else .streaming }

theorem State.group_rowSent (s : State) (n k : Nat) (bs : List Byte) (bad : Bool) : (s.rowSent n bs bad).group k = s.group k :=
  foldl_keeps (State.group · k) _ (State.sendTo_keeps (State.group · k) (fun _ _ _ _ _ => rfl) _ _ _) _ _

theorem State.memory_rowSent (s : State) (n : Nat) (bs : List Byte) (bad : Bool) : (s.rowSent n bs bad).memory = s.memory :=
  foldl_keeps State.memory _ (State.sendTo_keeps State.memory (fun _ _ _ _ _ => rfl) _ _ _) _ _

theorem State.frame_mem_rowSent {s : State} {n m r : Nat} (bs : List Byte) (bad : Bool) (hm : m ∈ (s.group n).members)
    (hl : s.lit (s.group n) m = true)
    (hr : (s.tile m).fabric.rxOf n ((s.group n).seq.toNat % (s.group n).lanes) = some r) :
    ∃ q ∈ (s.rowSent n bs bad).flights, q.dst = m ∧ q.msg = .frame (((s.group n).frameOf n bs).wire bad) r :=
  State.frame_mem_foldl_sendTo _ _ _ (List.mem_filter.2 ⟨hm, hl⟩) hr

/-- With the placement log off every spool arbitration goes on at once. -/
theorem State.arbitrate_of_off {s : State} {t : Nat} (h : (s.tile t).router.plogMode = 0) (n : Nat) : s.arbitrate t n = some s := by
  simp [State.arbitrate, State.plogWrite, h]

theorem Group.sentAll_eq_false {g : Group} (h : g.seq.toNat ≤ g.last.toNat) : g.sentAll = false := by
  simp [Group.sentAll, h]

/-- A streaming group sends its row at SEQ. -/
theorem exec_weftFrameSend_row {s : State} {bs : List Byte} {bad : Bool} (hs : (s.group s.ev.n).state = .streaming)
    (hr : s.launchRuns (s.group s.ev.n).launch = true) (hl : (s.group s.ev.n).seq.toNat ≤ (s.group s.ev.n).last.toNat)
    (hp : (s.tile s.ev.tile).router.plogMode = 0)
    (hw : s.weftRow (s.group s.ev.n) (s.group s.ev.n).seq.toNat = some (bs, bad)) :
    exec .weftFrameSend s = .next (((s.rowSent s.ev.n bs bad).modGroup s.ev.n Group.sentRow).groupCheck s.ev.n) := by
  show execWeftFrameSend s = _
  rw [execWeftFrameSend, if_neg (by simp [hs, hr]), if_neg (by simp [Group.sentAll_eq_false hl]), hw,
    State.arbitrate_of_off hp]
  rfl

/-- In replay mode a row waits while the placement log names another group (R394, R395). -/
theorem exec_weftFrameSend_replay_waits {s : State} {bs : List Byte} {bad : Bool} (hs : (s.group s.ev.n).state = .streaming)
    (hr : s.launchRuns (s.group s.ev.n).launch = true) (hl : (s.group s.ev.n).seq.toNat ≤ (s.group s.ev.n).last.toNat)
    (hp : (s.tile s.ev.tile).router.plogMode = 2)
    (hw : s.weftRow (s.group s.ev.n) (s.group s.ev.n).seq.toNat = some (bs, bad))
    (he : let e := s.read64 (localLoc s.ev.tile ((s.tile s.ev.tile).router.plogAt (get (s.tile s.ev.tile).router.plogb 63 32)))
      get e 63 60 ≠ 2 ∨ get e 59 50 ≠ s.ev.n) :
    exec .weftFrameSend s = .next s := by
  have ha : s.arbitrate s.ev.tile s.ev.n = none := by
    rw [State.arbitrate, if_pos hp]
    exact if_neg fun h => he.elim (· h.1) (· h.2)
  show execWeftFrameSend s = _
  rw [execWeftFrameSend, if_neg (by simp [hs, hr]), if_neg (by simp [Group.sentAll_eq_false hl]), hw, ha]

/-! ### What the members report and ask for (R80, R84, R85, R87) -/

/-- The completion of a member counts while its group's stream of that epoch goes on. -/
theorem exec_memberCompletionReport_counts {s : State} {f : Flight} {n : Nat} (hf : s.flight? s.ev.n = some f)
    (hm : f.msg = .report n (s.group n).epoch) (hi : (s.group n).state ≠ .idle) :
    exec .memberCompletionReport s = .next (((s.dropFlight s.ev.n).modGroup n fun g =>
      { g with completed := natInsert f.src g.completed }).groupCheck n) := by
  show execMemberCompletionReport s = _
  rw [execMemberCompletionReport, hf]
  dsimp only
  rw [hm]
  exact congrArg _ (if_pos ⟨rfl, hi⟩)

/-- A replay request that no overrun caused, for a row free of marked data, moves SEQ back and leaves the pace. -/
theorem exec_replayRequestArrival_rewinds {s : State} {f : Flight} {n : Nat} {first : BitVec 32}
    (hf : s.flight? s.ev.n = some f) (hm : f.msg = .replay n (s.group n).epoch first false) (hi : (s.group n).state ≠ .idle)
    (hb : ∀ r, s.weftRow (s.group n) first.toNat = some r → r.2 = false) :
    exec .replayRequestArrival s = .next ((s.dropFlight s.ev.n).modGroup n fun _ =>
      { (s.group n).rewind first with overruns := (s.group n).overruns, pace := (s.group n).pace }) := by
  have hbad : (s.weftRow (s.group n) first.toNat).any (fun r => r.2) = false := by
    cases hr : s.weftRow (s.group n) first.toNat with
    | none => rfl
    | some r => exact hb r hr
  show execReplayRequestArrival s = _
  rw [execReplayRequestArrival, hf]
  dsimp only
  rw [hm]
  simp only [State.group_dropFlight, hbad, hi, ne_eq, not_true_eq_false, or_self, if_false,
    Bool.false_eq_true, Bool.false_and]

theorem Group.rewind_of_ne_closing {g : Group} (h : g.state ≠ .closing) (first : BitVec 32) :
    g.rewind first = { g with seq := if first.toNat < g.seq.toNat then first else g.seq } := if_neg h

theorem Group.rewind_of_closing {g : Group} {first : BitVec 32} (h : g.state = .closing) (hl : first.toNat ≤ g.last.toNat) :
    g.rewind first = { g with seq := first, state := .streaming } := by
  rw [Group.rewind, if_pos h, if_pos hl]

/-! ### The statement of the groups -/

/-- A streaming group below its last row sends one row and goes on streaming. -/
theorem weftFrameSend_streams {s : State} {bs : List Byte} {bad : Bool} (hs : (s.group s.ev.n).state = .streaming)
    (hr : s.launchRuns (s.group s.ev.n).launch = true) (hl : (s.group s.ev.n).seq.toNat < (s.group s.ev.n).last.toNat)
    (hp : (s.tile s.ev.tile).router.plogMode = 0)
    (hw : s.weftRow (s.group s.ev.n) (s.group s.ev.n).seq.toNat = some (bs, bad)) :
    exec .weftFrameSend s = .next ((s.rowSent s.ev.n bs bad).modGroup s.ev.n Group.sentRow)
    ∧ (s.group s.ev.n).sentRow.state = .streaming ∧ ((s.group s.ev.n).frameOf s.ev.n bs).last = false := by
  have hne : (s.group s.ev.n).seq ≠ (s.group s.ev.n).last := fun e => by rw [e] at hl; omega
  have hst : (s.group s.ev.n).sentRow.state = .streaming := if_neg hne
  refine ⟨?_, hst, beq_false_of_ne hne⟩
  rw [exec_weftFrameSend_row hs hr (by omega) hp hw, State.groupCheck_of_ne_closing]
  rw [State.group_modGroup_self, State.group_rowSent, hst]
  decide

/-- Past its last row a group closes, and stays so while a member has not reported. -/
theorem weftFrameSend_closes {s : State} {bs : List Byte} {bad : Bool} (hs : (s.group s.ev.n).state = .streaming)
    (hr : s.launchRuns (s.group s.ev.n).launch = true) (hl : (s.group s.ev.n).seq = (s.group s.ev.n).last)
    (hp : (s.tile s.ev.tile).router.plogMode = 0)
    (hw : s.weftRow (s.group s.ev.n) (s.group s.ev.n).seq.toNat = some (bs, bad))
    (hm : ∃ m ∈ (s.group s.ev.n).members, m ∉ (s.group s.ev.n).completed) :
    Rules.nextWith (exec .weftFrameSend s) fun t => (t.group s.ev.n).state = .closing := by
  have hg : ((s.rowSent s.ev.n bs bad).modGroup s.ev.n Group.sentRow).group s.ev.n = (s.group s.ev.n).sentRow := by
    rw [State.group_modGroup_self, State.group_rowSent]
  have hopen : ¬((s.group s.ev.n).sentRow.members.all fun m => (s.group s.ev.n).sentRow.completed.contains m) = true := by
    obtain ⟨m, hm, hc⟩ := hm
    exact fun h => hc (List.contains_iff_mem.1 (List.all_eq_true.1 h m hm))
  refine nextWith_of_eq (exec_weftFrameSend_row hs hr (by rw [hl]) hp hw) ?_
  rw [State.groupCheck, hg]
  rw [if_neg fun h => hopen h.2, hg]
  exact if_pos hl

/-- With the last member's completion a closing group is idle. -/
theorem memberCompletionReport_ends {s : State} {f : Flight} {n : Nat} (hf : s.flight? s.ev.n = some f)
    (hm : f.msg = .report n (s.group n).epoch) (hc : (s.group n).state = .closing)
    (hall : ∀ m ∈ (s.group n).members, m ∈ (s.group n).completed ∨ m = f.src) :
    Rules.nextWith (exec .memberCompletionReport s) fun t => (t.group n).state = .idle := by
  refine nextWith_of_eq (exec_memberCompletionReport_counts hf hm (by rw [hc]; decide)) ?_
  have hdone : ((s.group n).members.all fun m => (natInsert f.src (s.group n).completed).contains m) = true := by
    refine List.all_eq_true.2 fun m hm => List.contains_iff_mem.2 ?_
    rcases hall m hm with h | h
    · exact mem_natInsert_of_mem _ h
    · rw [h]
      exact mem_natInsert_self _ _
  rw [State.groupCheck]
  simp only [State.group_modGroup_self, State.group_dropFlight]
  rw [if_pos ⟨hc, hdone⟩, State.group_endStream_self]

theorem weftGroups : Rules.WeftGroups := by
  intro s n g
  refine ⟨fun hv hi hw he hm hl hp hr hs => ?_, fun ha hm hr => ?_, fun bs bad hs hr hl hp hw => ?_,
    fun bs bad hs hr hl hw hp hm => weftFrameSend_closes hs hr hl hp hw hm,
    fun bs bad hs hr hl hp hw => fun he => exec_weftFrameSend_replay_waits hs hr hl hp hw he,
    fun f e hf hm he => ⟨fun hs => ?_, fun hc hall => memberCompletionReport_ends hf (he ▸ hm) hc hall⟩,
    fun f first hf hm hi hb => ⟨fun hc => ?_, fun hc hl => ?_⟩⟩
  · refine nextWith_of_eq (exec_groupStartByLoader_armed hv hi hw he hm hl hp hr hs) ?_
    rw [State.group_modGroup_self]
    exact ⟨rfl, rfl⟩
  · exact nextWith_of_eq (exec_groupStreamingStart_ready ha hm hr) (State.group_modGroup_self _ _ _)
  · obtain ⟨hx, hst, hlast⟩ := weftFrameSend_streams hs hr hl hp hw
    refine nextWith_of_eq hx ?_
    rw [State.group_modGroup_self, State.group_rowSent]
    refine ⟨rfl, hst, sameMemory_of_memory_eq (s.memory_rowSent _ _ _), fun m hm hlit r hrx => ?_⟩
    obtain ⟨q, hq, hd, hmsg⟩ := State.frame_mem_rowSent bs bad hm hlit hrx
    refine ⟨q, hq, hd, ?_⟩
    rw [hmsg, Group.frameOf, show ((s.group s.ev.n).seq == (s.group s.ev.n).last) = false from hlast]
  · refine nextWith_of_eq (exec_memberCompletionReport_counts hf (he ▸ hm) (by rw [hs]; decide)) ?_
    rw [State.groupCheck_of_ne_closing] <;> rw [State.group_modGroup_self, State.group_dropFlight]
    · exact mem_natInsert_self _ _
    · rw [hs]
      decide
  · refine nextWith_of_eq (exec_replayRequestArrival_rewinds hf hm hi hb) ?_
    rw [State.group_modGroup_self, Group.rewind_of_ne_closing hc]
    refine ⟨?_, rfl⟩
    dsimp only
    split <;> omega
  · refine nextWith_of_eq (exec_replayRequestArrival_rewinds hf hm hi hb) ?_
    rw [State.group_modGroup_self, Group.rewind_of_closing hc hl]
    exact ⟨rfl, rfl⟩

end Sys2Proof.Machine
end

section
/-!
SUPPORT. The receivers of a tile and its weft port (R77, R84, R86, R89, R490): locking, the frames that arrive, the rows that
enter their consumers, and the requests for a replay.
-/
namespace Sys2Proof.Machine

/-! ### Requests for a replay (R84, R86, R89) -/

/-- A request is sent where none stands, and whatever stands where it is free of that. -/
theorem State.request_sent {s : State} {t n : Nat} {c : Cause} {free : Bool}
    (h : free = true ∨ ((s.tile t).fabric.portGroup n).asked = none) :
    s.request t n c free = (s.post (.replay n ((s.tile t).fabric.portGroup n).e ((s.tile t).fabric.portGroup n).n
      (decide (c = .overrun))) t selvedge false).modFabric t fun F => F.modPort n fun q => { q with asked := some q.n } := by
  refine if_neg ?_
  rcases h with h | h <;> simp [h]

/-- Of its tile a request changes the ports of the weft at most. -/
theorem State.tile_request (s : State) (t n : Nat) (c : Cause) (free : Bool) :
    ∃ gs, (s.request t n c free).tile t = { s.tile t with fabric := { (s.tile t).fabric with groups := gs } } := by
  unfold State.request
  dsimp only
  split
  · exact ⟨_, rfl⟩
  · exact ⟨_, State.tile_modFabric_self _ _ _⟩

/-- The port that asks still waits for the same row, and its request is on its way. -/
theorem State.request_asks {s : State} {t n : Nat} {c : Cause} {free : Bool}
    (h : free = true ∨ ((s.tile t).fabric.portGroup n).asked = none) :
    let p := (s.tile t).fabric.portGroup n
    let u := s.request t n c free
    (u.tile t).fabric.portGroup n = { p with asked := some p.n }
    ∧ ∃ m ∈ u.flights, m.msg = .replay n p.e p.n (decide (c = .overrun)) ∧ m.src = t := by
  intro p u
  have hu : u = _ := State.request_sent h
  rw [hu]
  refine ⟨?_, _, List.mem_append_right _ (List.mem_singleton.2 rfl), rfl, rfl⟩
  rw [State.tile_modFabric_self, Fabric.portGroup_modPort_self]
  rfl

/-! ### Receivers (R77, R89, R490) -/

/-- Receiver `x` of a tile. -/
def State.ring (s : State) (t x : Nat) : Ring := (s.tile t).fabric.rings.get Ring.reset x

/-- The machine with a receiver changed. -/
def State.setRing (s : State) (t x : Nat) (y : Ring) : State := s.modFabric t fun F => { F with rings := F.rings.put x y }

@[simp] theorem State.ring_setRing (s : State) (t x : Nat) (y : Ring) : (s.setRing t x y).ring t x = y := by
  simp [State.ring, State.setRing]

@[simp] theorem State.ring_care1 (s : State) (u e d t x : Nat) : (s.care1 u e d).ring t x = s.ring t x := rfl

@[simp] theorem State.ring_request (s : State) (t n x : Nat) (c : Cause) (free : Bool) :
    (s.request t n c free).ring t x = s.ring t x := by
  obtain ⟨gs, h⟩ := s.tile_request t n c free
  rw [State.ring, h]
  rfl

@[simp] theorem State.ring_endStream (s : State) (n out t x : Nat) : (s.endStream n out).ring t x = s.ring t x := by
  rw [State.ring, State.fabric_endStream, State.ring]

@[simp] theorem State.ring_startTest (s : State) (t test unit sub x : Nat) (b : Bool) :
    (s.startTest t test unit sub b).ring t x = s.ring t x := by
  simp [State.ring, State.startTest, State.queueTest, State.modSwatch]

/-- A test that starts runs beside those of its tile. -/
theorem State.running_startTest (s : State) (t test unit sub : Nat) (b : Bool) :
    ((s.startTest t test unit sub b).tile t).swatch.running.length = (s.tile t).swatch.running.length + 1 := by
  simp [State.startTest, State.queueTest, State.modSwatch]

theorem receiverLock_locks {s : State} (h1 : (s.ring s.ev.tile s.ev.unit).st = 1)
    (hc : (s.ring s.ev.tile s.ev.unit).cordoned = false) :
    Rules.nextWith (exec .receiverLock s) fun u =>
      u.ring s.ev.tile s.ev.unit = { s.ring s.ev.tile s.ev.unit with st := 2 } := by
  have hl : ((s.tile s.ev.tile).fabric.rings.get Ring.reset s.ev.unit).st = 1
      ∧ (!((s.tile s.ev.tile).fabric.rings.get Ring.reset s.ev.unit).cordoned) = true :=
    ⟨h1, (Bool.not_eq_true' _).mpr hc⟩
  refine nextWith_of_eq rfl ?_
  rw [State.ring, State.tile_modFabric_self]
  dsimp only
  rw [if_pos hl, Tab.get_put_self]
  rfl

@[simp] theorem State.swatch_request (s : State) (t n : Nat) (c : Cause) (free : Bool) :
    ((s.request t n c free).tile t).swatch = (s.tile t).swatch := by
  obtain ⟨gs, h⟩ := s.tile_request t n c free
  rw [h]

@[simp] theorem State.swatch_setRing (s : State) (t x : Nat) (y : Ring) :
    ((s.setRing t x y).tile t).swatch = (s.tile t).swatch := by
  rw [State.setRing, State.tile_modFabric_self]

/-- A locked receiver at the end of its range searches again; its port asks for the row it waits for, if it still waits. -/
theorem exec_ringRangeEnd_locked {s : State} (h2 : (s.ring s.ev.tile s.ev.unit).st = 2) :
    let s1 := (s.setRing s.ev.tile s.ev.unit { s.ring s.ev.tile s.ev.unit with st := 3, fails := 0 }).startTest s.ev.tile 3 23
      s.ev.unit true
    exec .ringRangeEnd s = .next s1
      ∨ exec .ringRangeEnd s = .next (s1.request s.ev.tile (s.ring s.ev.tile s.ev.unit).group .corrupt false) := by
  intro s1
  have hx : exec .ringRangeEnd s = .next (if ((s.tile s.ev.tile).fabric.portGroup (s.ring s.ev.tile s.ev.unit).group).done then s1
      else s1.request s.ev.tile (s.ring s.ev.tile s.ev.unit).group .corrupt false) :=
    congrArg Host.Outcome.next (if_neg fun h => h h2)
  rw [hx]
  split
  · exact .inl rfl
  · exact .inr rfl

theorem ringRangeEnd_searches {s : State} (h2 : (s.ring s.ev.tile s.ev.unit).st = 2) :
    Rules.nextWith (exec .ringRangeEnd s) fun u =>
      u.ring s.ev.tile s.ev.unit = { s.ring s.ev.tile s.ev.unit with st := 3, fails := 0 }
      ∧ (u.tile s.ev.tile).swatch.running.length = (s.tile s.ev.tile).swatch.running.length + 1 := by
  rcases exec_ringRangeEnd_locked h2 with h | h <;> refine nextWith_of_eq h ?_ <;> simp [State.running_startTest]

/-- An attempt to relock that succeeds: the receiver is locked, and its port asks for the row it waits for. -/
theorem exec_ringRelockDone_success {s : State} (h3 : (s.ring s.ev.tile s.ev.unit).st = 3) (hf : s.ev.flag = true) :
    exec .ringRelockDone s = .next (((s.setRing s.ev.tile s.ev.unit { s.ring s.ev.tile s.ev.unit with st := 2, fails := 0 }).care1
      s.ev.tile 0x0005 s.ev.unit).request s.ev.tile (s.ring s.ev.tile s.ev.unit).group .relock true) :=
  congrArg Host.Outcome.next ((if_neg fun h => h h3).trans (if_pos hf))

theorem exec_ringRelockDone_fails {s : State} (h3 : (s.ring s.ev.tile s.ev.unit).st = 3) (hf : s.ev.flag = false)
    (hn : (s.ring s.ev.tile s.ev.unit).fails < 2) :
    exec .ringRelockDone s = .next (s.setRing s.ev.tile s.ev.unit
      { s.ring s.ev.tile s.ev.unit with fails := (s.ring s.ev.tile s.ev.unit).fails + 1 }) :=
  congrArg Host.Outcome.next ((if_neg fun h => h h3).trans ((if_neg (by simp [hf])).trans (if_pos hn)))

/-- The third failure cordons the receiver, and a stream of its group that goes on ends as failed (R490, R511). -/
theorem exec_ringRelockDone_cordons {s : State} (h3 : (s.ring s.ev.tile s.ev.unit).st = 3) (hf : s.ev.flag = false)
    (hn : 2 ≤ (s.ring s.ev.tile s.ev.unit).fails) :
    let s1 := (s.setRing s.ev.tile s.ev.unit { s.ring s.ev.tile s.ev.unit with st := 0, fails := 0, cordoned := true }).care1
      s.ev.tile 0x000D (23 + 256 * s.ev.unit)
    exec .ringRelockDone s = .next s1 ∨ exec .ringRelockDone s = .next (s1.endStream (s.ring s.ev.tile s.ev.unit).group 1) := by
  intro s1
  have hx : exec .ringRelockDone s = .next (if (s.group (s.ring s.ev.tile s.ev.unit).group).state = .idle then s1
      else s1.endStream (s.ring s.ev.tile s.ev.unit).group 1) :=
    congrArg Host.Outcome.next ((if_neg fun h => h h3).trans ((if_neg (by simp [hf])).trans (if_neg (Nat.not_lt.2 hn))))
  rw [hx]
  split
  · exact .inl rfl
  · exact .inr rfl

theorem ringRelockDone_cordons {s : State} (h3 : (s.ring s.ev.tile s.ev.unit).st = 3) (hf : s.ev.flag = false)
    (hn : 2 ≤ (s.ring s.ev.tile s.ev.unit).fails) :
    Rules.nextWith (exec .ringRelockDone s) fun u =>
      u.ring s.ev.tile s.ev.unit = { s.ring s.ev.tile s.ev.unit with st := 0, fails := 0, cordoned := true } := by
  rcases exec_ringRelockDone_cordons h3 hf hn with h | h <;> refine nextWith_of_eq h ?_ <;> simp

/-! ### What a delivered row changes (R81, R84) -/

/-- Memory, and the weft's ports of tile `t`. -/
def State.memoryAndPorts (s : State) (t : Nat) : (List Host.Cell × List Nat × List Nat) × Tab PortGroup :=
  (s.memory, (s.tile t).fabric.groups)

theorem State.memoryAndPorts_modFabric {s : State} {t : Nat} {f : Fabric → Fabric} (h : ∀ F, (f F).groups = F.groups) :
    (s.modFabric t f).memoryAndPorts t = s.memoryAndPorts t := by
  rw [State.memoryAndPorts, State.tile_modFabric_self]
  exact congrArg (Prod.mk s.memory) (h _)

theorem State.memoryAndPorts_report (s : State) (t unit : Nat) (st : BitVec 4) (v w : Word) :
    (s.report t unit st v w).memoryAndPorts t = s.memoryAndPorts t := by
  unfold State.report
  dsimp only
  split
  · rw [State.memoryAndPorts, State.fabric_modRouter]
    rfl
  · rfl

theorem State.memoryAndPorts_sinkReport (s : State) (t unit what : Nat) (w : Word) :
    (s.sinkReport t unit what w).memoryAndPorts t = s.memoryAndPorts t := by
  have upd : ∀ x : SinkRep, (s.modFabric t fun F => { F with sinks := F.sinks.put unit x }).memoryAndPorts t
      = s.memoryAndPorts t := fun x => State.memoryAndPorts_modFabric fun _ => rfl
  unfold State.sinkReport
  dsimp only
  split
  · rw [State.memoryAndPorts_report, upd]
  · split
    · exact upd _
    · exact upd _

theorem State.memoryAndPorts_deliverRow (s : State) (t unit : Nat) (w : Wire) (r : Row) :
    (s.deliverRow t unit w r).memoryAndPorts t = s.memoryAndPorts t := by
  have rows : ∀ l : List Nat, (l.foldl (fun (a : State) i => a.modIsland t i fun I => { I with rows := I.rows ++ [r] })
      s).memoryAndPorts t = s.memoryAndPorts t := fun l =>
    foldl_keeps (State.memoryAndPorts · t) _ (fun _ _ => by exact State.memoryAndPorts_modFabric fun _ => rfl) l s
  unfold State.deliverRow
  dsimp only
  split
  · exact rows _
  · rw [State.memoryAndPorts_modFabric (by intro F; rfl)]
    split
    · rw [State.memoryAndPorts_sinkReport]
      exact rows _
    · exact rows _

theorem Fabric.groups_feedRaw (F : Fabric) (e k : Nat) : (F.feedRaw e k).groups = F.groups := by
  unfold Fabric.feedRaw
  dsimp only
  split <;> rfl

/-- A raw row enters the buffer of element channel `c`, and the channel takes what it has room for. -/
def Fabric.putRaw (F : Fabric) (c : Nat × Nat) (ks : List Token) : Fabric :=
  { F with raw := F.raw.put (4 * c.1 + c.2) (F.raw.get [] (4 * c.1 + c.2) ++ ks) }.feedRaw c.1 c.2

/-- A channel and its raw buffer hold the same tokens in the same order before and after the channel is fed. -/
theorem Fabric.chans_append_raw_feedRaw (F : Fabric) (e c : Nat) :
    ((F.feedRaw e c).elem e).chans.get [] c ++ (F.feedRaw e c).raw.get [] (4 * e + c)
      = (F.elem e).chans.get [] c ++ F.raw.get [] (4 * e + c) := by
  unfold Fabric.feedRaw
  dsimp only
  split
  · rfl
  · simp [Fabric.elem, Fabric.modElem]

theorem Fabric.chans_append_raw_putRaw (F : Fabric) (e c : Nat) (ks : List Token) :
    ((F.putRaw (e, c) ks).elem e).chans.get [] c ++ (F.putRaw (e, c) ks).raw.get [] (4 * e + c)
      = (F.elem e).chans.get [] c ++ F.raw.get [] (4 * e + c) ++ ks := by
  rw [Fabric.putRaw, Fabric.chans_append_raw_feedRaw, Tab.get_put_self, List.append_assoc]
  rfl

/-- A row has entered its consumers: islands, or the raw buffers of element channels. -/
def State.rowEntered (s : State) (t : Nat) (f : Frame) : State :=
  let F := (s.tile t).fabric
  if f.fmt = 4 then (F.rawEnds f.group).foldl (fun a c => a.modFabric t fun G => G.putRaw c (rawTokens f.payload)) s
  else (F.rowWires f.group).foldl (fun a w => a.deliverRow t 23 w (rowOf f.fmt f.payload none)) s

/-- The port has taken frame `f` and waits for the next row. -/
def PortGroup.took (p : PortGroup) (f : Frame) : PortGroup := { p with n := p.n + 1, done := f.last, asked := none }

/-- The port of a delivered row has paid for it and goes on. -/
def State.portTook (s : State) (t : Nat) (f : Frame) : State :=
  (s.modTile t fun T => { T with buckW := { T.buckW with count := T.buckW.count - 32 * f.payload.length } }).modFabric t fun G =>
    G.modPort f.group fun p => p.took f

theorem State.weftDeliver_eq (s : State) (t : Nat) (f : Frame) : s.weftDeliver t f =
    (if f.last then ((s.rowEntered t f).portTook t f).post (.report f.group f.epoch) t selvedge false
      else (s.rowEntered t f).portTook t f).wakePart t := by
  unfold State.weftDeliver
  dsimp only
  split <;> rfl

theorem State.memoryAndPorts_rowEntered (s : State) (t : Nat) (f : Frame) :
    (s.rowEntered t f).memoryAndPorts t = s.memoryAndPorts t := by
  unfold State.rowEntered
  dsimp only
  split
  · exact foldl_keeps (State.memoryAndPorts · t) _
      (fun _ _ => by exact State.memoryAndPorts_modFabric fun _ => Fabric.groups_feedRaw _ _ _) _ s
  · exact foldl_keeps (State.memoryAndPorts · t) _ (fun _ _ => by exact State.memoryAndPorts_deliverRow _ _ _ _ _) _ s

/-- Of its tile's fabric a delivery changes the consumers of the row, the port and the part's state. -/
theorem State.fabric_weftDeliver (s : State) (t : Nat) (f : Frame) : ∃ q, ((s.weftDeliver t f).tile t).fabric
    = { ((s.rowEntered t f).tile t).fabric.modPort f.group fun p => p.took f with part := q } := by
  have hp : ∀ u : State, ((u.portTook t f).tile t).fabric = (u.tile t).fabric.modPort f.group fun p => p.took f := fun u => by
    rw [State.portTook, State.tile_modFabric_self, State.tile_modTile_self]
  have hw : ∀ u : State, ∃ q, ((u.wakePart t).tile t).fabric = { (u.tile t).fabric with part := q } := fun u =>
    ⟨_, by rw [State.wakePart, State.modPart, State.tile_modFabric_self]⟩
  rw [State.weftDeliver_eq]
  obtain ⟨q, hq⟩ := hw (if f.last then ((s.rowEntered t f).portTook t f).post (.report f.group f.epoch) t selvedge false
    else (s.rowEntered t f).portTook t f)
  refine ⟨q, ?_⟩
  rw [hq, ← hp]
  split <;> rfl

theorem State.portGroup_weftDeliver (s : State) (t : Nat) {n : Nat} {f : Frame} (h : f.group = n) :
    ((s.weftDeliver t f).tile t).fabric.portGroup n = ((s.tile t).fabric.portGroup n).took f := by
  subst h
  obtain ⟨q, hq⟩ := s.fabric_weftDeliver t f
  have hg : ((s.rowEntered t f).tile t).fabric.groups = (s.tile t).fabric.groups :=
    congrArg Prod.snd (s.memoryAndPorts_rowEntered t f)
  have hpg : ((s.rowEntered t f).tile t).fabric.portGroup f.group = (s.tile t).fabric.portGroup f.group :=
    congrArg (Tab.get PortGroup.reset · f.group) hg
  rw [hq, ← hpg]
  exact Fabric.portGroup_modPort_self ((s.rowEntered t f).tile t).fabric f.group (·.took f)

theorem State.memory_weftDeliver (s : State) (t : Nat) (f : Frame) : (s.weftDeliver t f).memory = s.memory := by
  have hm : (s.rowEntered t f).memory = s.memory := congrArg Prod.fst (s.memoryAndPorts_rowEntered t f)
  rw [State.weftDeliver_eq, ← hm]
  split <;> rfl

/-- The last row is reported to the selvedge. -/
theorem State.report_mem_weftDeliver (s : State) (t : Nat) {f : Frame} (h : f.last = true) :
    ∃ m ∈ (s.weftDeliver t f).flights, m.msg = .report f.group f.epoch ∧ m.src = t := by
  rw [State.weftDeliver_eq, if_pos h]
  exact ⟨_, List.mem_append_right _ (List.mem_singleton.2 rfl), rfl, rfl⟩

/-- A row along a wire to one island, without a select queue, enters the island's row buffer. -/
theorem State.rows_weftDeliver {s : State} {t i : Nat} {f : Frame} {w : Wire} (hf : f.fmt ≠ 4)
    (hw : (s.tile t).fabric.rowWires f.group = [w]) (hs : w.sel = none) (hd : w.dsts = [(t, .island i)]) :
    (((s.weftDeliver t f).tile t).fabric.island i).rows
      = ((s.tile t).fabric.island i).rows ++ [rowOf f.fmt f.payload none] := by
  have ht : (s.tile t).fabric.rowTargets w = some [i] := by simp [Fabric.rowTargets, hs, hd]
  have he : s.rowEntered t f = s.modIsland t i fun I => { I with rows := I.rows ++ [rowOf f.fmt f.payload none] } := by
    simp only [State.rowEntered, if_neg hf, hw, List.foldl_cons, List.foldl_nil, State.deliverRow, ht, hs, Option.getD_some]
  obtain ⟨q, hq⟩ := s.fabric_weftDeliver t f
  rw [hq]
  show (((s.rowEntered t f).tile t).fabric.island i).rows = _
  rw [he, State.modIsland, State.tile_modFabric_self, Fabric.island_modIsland_self]

/-- A raw row enters an element's channel behind what the channel and its raw buffer hold. -/
theorem State.chans_append_raw_weftDeliver {s : State} {t e c : Nat} {f : Frame} (hf : f.fmt = 4)
    (hr : (s.tile t).fabric.rawEnds f.group = [(e, c)]) :
    let G := ((s.weftDeliver t f).tile t).fabric
    (G.elem e).chans.get [] c ++ G.raw.get [] (4 * e + c)
      = ((s.tile t).fabric.elem e).chans.get [] c ++ (s.tile t).fabric.raw.get [] (4 * e + c) ++ rawTokens f.payload := by
  have he : s.rowEntered t f = s.modFabric t fun G => G.putRaw (e, c) (rawTokens f.payload) := by
    simp [State.rowEntered, hf, hr]
  obtain ⟨q, hq⟩ := s.fabric_weftDeliver t f
  rw [hq, he, State.tile_modFabric_self]
  exact Fabric.chans_append_raw_putRaw _ _ _ _

end Sys2Proof.Machine
end

section
/-!
SUPPORT. Frames at a locked receiver (R84-R86, R89): which are lost, held or delivered, and which ask for a replay.
-/
namespace Sys2Proof.Machine

/-! ### Held frames (R84) -/

/-- One round of drain_held: the frame that the port waits for leaves its lane and is delivered. -/
def State.drainRound (t n : Nat) (s : State) : State :=
  let p := (s.tile t).fabric.portGroup n
  let l := p.n.toNat % p.lanes
  match p.held.find? fun e => e.1 == l with
  | some (_, f) =>
    if f.seq = p.n ∧ s.weftRoom t n then
      (s.modFabric t fun F => F.modPort n fun q => { q with held := q.held.del l }).weftDeliver t f
    else s
  | none => s

theorem State.drainHeld_eq (s : State) (t n : Nat) : s.drainHeld t n = (s.drainRound t n).drainRound t n := rfl

/-- A round without a frame held for the lane changes nothing. -/
theorem State.drainRound_of_none {s : State} {t n : Nat}
    (h : let p := (s.tile t).fabric.portGroup n
      p.held.find? (fun e => e.1 == p.n.toNat % p.lanes) = none) : s.drainRound t n = s := by
  rw [State.drainRound, h]

theorem State.drainHeld_of_held_nil {s : State} {t n : Nat} (h : ((s.tile t).fabric.portGroup n).held = []) :
    s.drainHeld t n = s := by
  have hr : s.drainRound t n = s := State.drainRound_of_none (by simp [h])
  rw [State.drainHeld_eq, hr, hr]

/-- With room, a round delivers the frame that the port waits for. -/
theorem State.portGroup_drainRound {s : State} {t n : Nat} {f : Frame}
    (hf : let p := (s.tile t).fabric.portGroup n
      p.held.find? (fun e => e.1 == p.n.toNat % p.lanes) = some (p.n.toNat % p.lanes, f))
    (hs : f.seq = ((s.tile t).fabric.portGroup n).n) (hr : s.weftRoom t n = true) (hg : f.group = n) :
    let p := (s.tile t).fabric.portGroup n
    ((s.drainRound t n).tile t).fabric.portGroup n = { p with held := p.held.del (p.n.toNat % p.lanes) }.took f := by
  intro p
  rw [State.drainRound, hf]
  dsimp only
  rw [if_pos ⟨hs, hr⟩]
  rw [State.portGroup_weftDeliver _ _ hg, State.tile_modFabric_self, Fabric.portGroup_modPort_self]

/-- A held frame that the port of one lane waits for is delivered, and the port goes on. -/
theorem State.drainHeld_delivers {s : State} {t n : Nat} {f : Frame}
    (hf : let p := (s.tile t).fabric.portGroup n
      p.held.find? (fun e => e.1 == p.n.toNat % p.lanes) = some (p.n.toNat % p.lanes, f))
    (hs : f.seq = ((s.tile t).fabric.portGroup n).n) (hr : s.weftRoom t n = true) (hg : f.group = n)
    (hl : ((s.tile t).fabric.portGroup n).lanes = 1) :
    (((s.drainHeld t n).tile t).fabric.portGroup n).n = ((s.tile t).fabric.portGroup n).n + 1 := by
  have h1 := State.portGroup_drainRound hf hs hr hg
  have h2 : (s.drainRound t n).drainRound t n = s.drainRound t n := by
    refine State.drainRound_of_none ?_
    rw [h1]
    simp only [PortGroup.took, hl, Nat.mod_one]
    exact Tab.find?_del_self _ _
  rw [State.drainHeld_eq, h2, h1]
  rfl

/-! ### A frame at a locked receiver (R84) -/

/-- A frame whose CRC does not match asks for a replay while the port is not done. -/
theorem State.onFrame_corrupt {s : State} {t n : Nat} (l : Nat) (h : ((s.tile t).fabric.portGroup n).done = false) :
    s.onFrame t n l none = s.request t n .corrupt false :=
  if_neg (by simp [h])

/-- What a frame of the port's own group and epoch does. -/
theorem State.onFrame_of_takes {s : State} {t n : Nat} (l : Nat) {f : Frame}
    (h : ((s.tile t).fabric.portGroup n).takes n f = true) (he : f.epoch = ((s.tile t).fabric.portGroup n).e) :
    let q := (s.tile t).fabric.portGroup n
    s.onFrame t n l (some f) =
      if f.seq.toNat < q.n.toNat ∨ f.seq.toNat % q.lanes ≠ l then s
      else if f.seq = q.n then
        (if s.weftRoom t n then (s.weftDeliver t f).drainHeld t n else s.request t n .overrun false)
      else if f.seq.toNat < q.n.toNat + q.lanes ∧ !(q.held.any fun e => e.1 == l) then
        s.modFabric t fun F => F.modPort n fun x => { x with held := x.held.put l f }
      else s.request t n .gap false := by
  intro q
  have hf : (some f).filter (q.takes n) = some f := by simp [h, q]
  unfold State.onFrame
  dsimp only
  rw [hf]
  dsimp only
  rw [if_neg (fun hne => hne.1 he), if_pos he]

/-- An earlier frame is lost. -/
theorem State.onFrame_earlier {s : State} {t n : Nat} (l : Nat) {f : Frame}
    (h : ((s.tile t).fabric.portGroup n).takes n f = true) (he : f.epoch = ((s.tile t).fabric.portGroup n).e)
    (hn : f.seq.toNat < ((s.tile t).fabric.portGroup n).n.toNat) : s.onFrame t n l (some f) = s := by
  rw [State.onFrame_of_takes l h he, if_pos (.inl hn)]

/-- A later frame that its lane can hold is held. -/
theorem State.onFrame_later {s : State} {t n l : Nat} {f : Frame}
    (h : ((s.tile t).fabric.portGroup n).takes n f = true) (he : f.epoch = ((s.tile t).fabric.portGroup n).e)
    (hl : f.seq.toNat % ((s.tile t).fabric.portGroup n).lanes = l) (hn : ((s.tile t).fabric.portGroup n).n.toNat < f.seq.toNat)
    (hb : f.seq.toNat < ((s.tile t).fabric.portGroup n).n.toNat + ((s.tile t).fabric.portGroup n).lanes)
    (hh : ∀ e ∈ ((s.tile t).fabric.portGroup n).held, e.1 ≠ l) :
    s.onFrame t n l (some f) = s.modFabric t fun F => F.modPort n fun x => { x with held := x.held.put l f } := by
  have hne : f.seq ≠ ((s.tile t).fabric.portGroup n).n := fun e => by rw [e] at hn; omega
  have hfree : (!((s.tile t).fabric.portGroup n).held.any fun e => e.1 == l) = true := by simpa using hh
  rw [State.onFrame_of_takes l h he, if_neg (by omega), if_neg hne, if_pos ⟨hb, hfree⟩]

/-- The frame that the port waits for is delivered where there is room, and asks for a replay where there is none. -/
theorem State.onFrame_next {s : State} {t n l : Nat} {f : Frame}
    (h : ((s.tile t).fabric.portGroup n).takes n f = true) (he : f.epoch = ((s.tile t).fabric.portGroup n).e)
    (hl : f.seq.toNat % ((s.tile t).fabric.portGroup n).lanes = l) (hn : f.seq = ((s.tile t).fabric.portGroup n).n) :
    s.onFrame t n l (some f)
      = if s.weftRoom t n then (s.weftDeliver t f).drainHeld t n else s.request t n .overrun false := by
  have hlt : ¬(f.seq.toNat < ((s.tile t).fabric.portGroup n).n.toNat
      ∨ f.seq.toNat % ((s.tile t).fabric.portGroup n).lanes ≠ l) := by rw [hn] at hl ⊢; omega
  rw [State.onFrame_of_takes l h he, if_neg hlt, if_pos hn]

/-! ### Frames that arrive (R84, R89) -/

theorem State.weftRoom_dropFlight (s : State) (i t n : Nat) : (s.dropFlight i).weftRoom t n = s.weftRoom t n := rfl

/-- A receiver that is not locked loses the frame. -/
theorem exec_weftFrameReceive_unlocked {s : State} {fl : Flight} {bs : List Byte} {rx : Nat}
    (hf : s.flight? s.ev.n = some fl) (hm : fl.msg = .frame bs rx) (h : (s.ring fl.dst rx).st ≠ 2) :
    exec .weftFrameReceive s = .next (s.dropFlight s.ev.n) := by
  show execWeftFrameReceive s = _
  rw [execWeftFrameReceive, hf]
  dsimp only
  rw [hm]
  exact congrArg Host.Outcome.next (if_pos (.inl h))

theorem PortGroup.takes_eq_true {p : PortGroup} {n : Nat} {f : Frame} (hg : f.group = n) (hf : f.fmt = p.fmt) (hl : f.len = p.units)
    (hp : f.payload.length = 8 * p.units) : p.takes n f = true := by
  simp [PortGroup.takes, hg, hf, hl, hp]

/-- Where nothing is held, no held frame follows a delivered one. -/
theorem State.drainHeld_weftDeliver {s : State} {t n : Nat} {f : Frame} (hg : f.group = n)
    (hh : ((s.tile t).fabric.portGroup n).held = []) : (s.weftDeliver t f).drainHeld t n = s.weftDeliver t f := by
  refine State.drainHeld_of_held_nil ?_
  rw [State.portGroup_weftDeliver _ _ hg]
  exact hh

/-- The port that receiver `x` of a tile receives for. -/
def State.ringPort (s : State) (t x : Nat) : PortGroup := (s.tile t).fabric.portGroup (s.ring t x).group

section
variable {s : State} {fl : Flight} {bs : List Byte} {rx : Nat} {f : Frame}

/-- A locked receiver of a bound port takes the frame's bytes as they arrive. -/
theorem exec_weftFrameReceive_locked (hf : s.flight? s.ev.n = some fl) (hm : fl.msg = .frame bs rx)
    (hp : (s.part fl.dst).state ≠ .saved) (h : (s.ring fl.dst rx).st = 2) (hb : (s.ringPort fl.dst rx).bound = true) :
    exec .weftFrameReceive s = .next ((s.dropFlight s.ev.n).onFrame fl.dst (s.ring fl.dst rx).group (s.ring fl.dst rx).lane
      (readFrame (flipBytes bs s.ev.unit s.ev.v.toNat))) := by
  have hno : ¬((s.ring fl.dst rx).st ≠ 2 ∨ (!(s.ringPort fl.dst rx).bound) = true ∨ (s.part fl.dst).state = .saved) := by
    simp [h, hb, hp]
  show execWeftFrameReceive s = _
  rw [execWeftFrameReceive, hf]
  dsimp only
  rw [hm]
  exact congrArg Host.Outcome.next (if_neg hno)

/-- A frame whose CRC does not match asks for a replay of the row that the port waits for. -/
theorem weftFrameReceive_corrupt (hf : s.flight? s.ev.n = some fl) (hm : fl.msg = .frame bs rx)
    (hp : (s.part fl.dst).state ≠ .saved) (h : (s.ring fl.dst rx).st = 2) (hb : (s.ringPort fl.dst rx).bound = true)
    (hd : (s.ringPort fl.dst rx).done = false) (ha : (s.ringPort fl.dst rx).asked = none)
    (hr : readFrame (flipBytes bs s.ev.unit s.ev.v.toNat) = none) :
    Rules.nextWith (exec .weftFrameReceive s) fun u =>
      ((u.tile fl.dst).fabric.portGroup (s.ring fl.dst rx).group).asked = some (s.ringPort fl.dst rx).n
      ∧ ((u.tile fl.dst).fabric.portGroup (s.ring fl.dst rx).group).n = (s.ringPort fl.dst rx).n
      ∧ ∃ m ∈ u.flights, m.msg = .replay (s.ring fl.dst rx).group (s.ringPort fl.dst rx).e (s.ringPort fl.dst rx).n false
        ∧ m.src = fl.dst := by
  obtain ⟨hport, hmsg⟩ := State.request_asks (s := s.dropFlight s.ev.n) (c := .corrupt) (free := false) (.inr ha)
  have hx := exec_weftFrameReceive_locked hf hm hp h hb
  rw [hr, State.onFrame_corrupt (s := s.dropFlight s.ev.n) _ hd] at hx
  refine nextWith_of_eq hx ?_
  rw [hport]
  exact ⟨rfl, rfl, hmsg⟩

/-- The frame `f` that the port of a locked receiver takes has arrived. -/
structure State.Receives (s : State) (fl : Flight) (rx : Nat) (f : Frame) : Prop where
  reads : exec .weftFrameReceive s
    = .next ((s.dropFlight s.ev.n).onFrame fl.dst (s.ring fl.dst rx).group (s.ring fl.dst rx).lane (some f))
  group : f.group = (s.ring fl.dst rx).group
  takes : (s.ringPort fl.dst rx).takes (s.ring fl.dst rx).group f = true
  epoch : f.epoch = (s.ringPort fl.dst rx).e

/-- An earlier frame is lost. -/
theorem State.Receives.earlier (h : s.Receives fl rx f) (hn : f.seq.toNat < (s.ringPort fl.dst rx).n.toNat) :
    exec .weftFrameReceive s = .next (s.dropFlight s.ev.n) := by
  rw [h.reads, State.onFrame_earlier (s := s.dropFlight s.ev.n) _ h.takes h.epoch hn]

/-- A later frame that its lane can hold is held. -/
theorem State.Receives.later (h : s.Receives fl rx f)
    (hl : f.seq.toNat % (s.ringPort fl.dst rx).lanes = (s.ring fl.dst rx).lane)
    (hn : (s.ringPort fl.dst rx).n.toNat < f.seq.toNat)
    (hb : f.seq.toNat < (s.ringPort fl.dst rx).n.toNat + (s.ringPort fl.dst rx).lanes)
    (hh : ∀ e ∈ (s.ringPort fl.dst rx).held, e.1 ≠ (s.ring fl.dst rx).lane) :
    Rules.nextWith (exec .weftFrameReceive s) fun u =>
      (u.tile fl.dst).fabric.portGroup (s.ring fl.dst rx).group
        = { s.ringPort fl.dst rx with held := (s.ringPort fl.dst rx).held.put (s.ring fl.dst rx).lane f }
      ∧ Rules.sameMemory s u := by
  refine nextWith_of_eq
    (h.reads.trans (congrArg _ (State.onFrame_later (s := s.dropFlight s.ev.n) h.takes h.epoch hl hn hb hh))) ?_
  refine ⟨?_, sameMemory_of_memory_eq rfl⟩
  rw [State.tile_modFabric_self, Fabric.portGroup_modPort_self]
  rfl

/-- The frame that the port waits for asks for a replay where it finds no room. -/
theorem State.Receives.overruns (h : s.Receives fl rx f)
    (hl : f.seq.toNat % (s.ringPort fl.dst rx).lanes = (s.ring fl.dst rx).lane) (hn : f.seq = (s.ringPort fl.dst rx).n)
    (hr : s.weftRoom fl.dst (s.ring fl.dst rx).group = false) (ha : (s.ringPort fl.dst rx).asked = none) :
    Rules.nextWith (exec .weftFrameReceive s) fun u =>
      ((u.tile fl.dst).fabric.portGroup (s.ring fl.dst rx).group).asked = some (s.ringPort fl.dst rx).n
      ∧ ((u.tile fl.dst).fabric.portGroup (s.ring fl.dst rx).group).n = (s.ringPort fl.dst rx).n
      ∧ ∃ m ∈ u.flights, m.msg = .replay (s.ring fl.dst rx).group (s.ringPort fl.dst rx).e (s.ringPort fl.dst rx).n true
        ∧ m.src = fl.dst := by
  obtain ⟨hport, hmsg⟩ := State.request_asks (s := s.dropFlight s.ev.n) (c := .overrun) (free := false) (.inr ha)
  have hroom : ¬(s.dropFlight s.ev.n).weftRoom fl.dst (s.ring fl.dst rx).group = true := by
    rw [State.weftRoom_dropFlight, hr]
    decide
  have hx := State.onFrame_next (s := s.dropFlight s.ev.n) h.takes h.epoch hl hn
  rw [if_neg hroom] at hx
  refine nextWith_of_eq (h.reads.trans (congrArg _ hx)) ?_
  rw [hport]
  exact ⟨rfl, rfl, hmsg⟩

/-- The frame that the port waits for is delivered where there is room. -/
theorem State.Receives.delivers (h : s.Receives fl rx f)
    (hl : f.seq.toNat % (s.ringPort fl.dst rx).lanes = (s.ring fl.dst rx).lane) (hn : f.seq = (s.ringPort fl.dst rx).n)
    (hr : s.weftRoom fl.dst (s.ring fl.dst rx).group = true) (hh : (s.ringPort fl.dst rx).held = []) :
    exec .weftFrameReceive s = .next ((s.dropFlight s.ev.n).weftDeliver fl.dst f) := by
  rw [h.reads, State.onFrame_next (s := s.dropFlight s.ev.n) h.takes h.epoch hl hn, State.weftRoom_dropFlight, if_pos hr,
    State.drainHeld_weftDeliver (s := s.dropFlight s.ev.n) h.group hh]

end

/-! ### The watchdog and freed room (R84, R86) -/

theorem exec_weftWatchdog_asks {s : State} (hf : s.ev.flag = false)
    (hb : ((s.tile s.ev.tile).fabric.portGroup s.ev.unit).bound = true)
    (hd : ((s.tile s.ev.tile).fabric.portGroup s.ev.unit).done = false) (hg : (s.group s.ev.unit).state = .streaming)
    (hm : s.ev.tile ∈ (s.group s.ev.unit).members) :
    exec .weftWatchdog s = .next (s.request s.ev.tile s.ev.unit .watchdog false) := by
  show execWeftWatchdog s = _
  simp [execWeftWatchdog, hf, hb, hd, hg, hm]

theorem exec_weftWatchdog_frees {s : State} (hf : s.ev.flag = true) :
    exec .weftWatchdog s = .next (s.modFabric s.ev.tile fun F => F.modPort s.ev.unit fun q => { q with asked := none }) :=
  congrArg Host.Outcome.next (if_pos hf)

theorem exec_weftHeldDrain_bound {s : State} (hb : ((s.tile s.ev.tile).fabric.portGroup s.ev.unit).bound = true) :
    exec .weftHeldDrain s = .next (s.drainHeld s.ev.tile s.ev.unit) :=
  congrArg Host.Outcome.next (if_pos hb)

/-! ### The statement of the receivers -/

theorem weftReceivers : Rules.WeftReceivers := by
  intro s t x r
  refine ⟨receiverLock_locks, ringRangeEnd_searches, fun h3 hf => ?_, fun h3 hf hn => ?_, ringRelockDone_cordons,
    fun fl bs rx hf hm h => exec_weftFrameReceive_unlocked hf hm h, fun fl bs rx hf hm hp => ?_,
    fun fl bs rx f hf hm hp => ?_, ⟨fun hf hb hd ha hg hm => ?_, fun hf => ?_⟩, fun f hb hf hs hr hl hg => ?_⟩
  · refine nextWith_of_eq (exec_ringRelockDone_success h3 hf) ?_
    exact (State.ring_request _ _ _ _ _ _).trans (State.ring_setRing _ _ _ _)
  · exact nextWith_of_eq (exec_ringRelockDone_fails h3 hf hn) (State.ring_setRing _ _ _ _)
  · exact fun h hb hd ha hr => weftFrameReceive_corrupt hf hm hp h hb hd ha hr
  · intro F q p h hb hread hg hfmt hlen hpay he
    have hrec : s.Receives fl rx f :=
      ⟨hread ▸ exec_weftFrameReceive_locked hf hm hp h hb, hg, PortGroup.takes_eq_true hg hfmt hlen hpay, he⟩
    refine ⟨hrec.earlier, hrec.later, hrec.overruns, fun hl hn hr hh => nextWith_of_eq (hrec.delivers hl hn hr hh) ?_⟩
    have hreport := State.report_mem_weftDeliver (s.dropFlight s.ev.n) fl.dst (f := f)
    rw [hg, he] at hreport
    exact ⟨State.portGroup_weftDeliver (s.dropFlight s.ev.n) fl.dst hg, sameMemory_of_memory_eq (State.memory_weftDeliver _ _ _),
      hreport, fun w i hne hw hs hd => State.rows_weftDeliver hne ((congrArg _ hg).trans hw) hs hd,
      fun e c h4 _ hr => State.chans_append_raw_weftDeliver h4 ((congrArg _ hg).trans hr)⟩
  · obtain ⟨-, m, hmem, hmsg, hsrc⟩ := State.request_asks (s := s) (t := t) (n := x) (c := .watchdog) (free := false) (.inr ha)
    exact nextWith_of_eq (exec_weftWatchdog_asks hf hb hd hg hm) ⟨m, hmem, hmsg, hsrc⟩
  · refine nextWith_of_eq (exec_weftWatchdog_frees hf) ?_
    rw [State.tile_modFabric_self, Fabric.portGroup_modPort_self]
  · refine nextWith_of_eq (exec_weftHeldDrain_bound hb) ?_
    rw [State.drainHeld_delivers hf hs hr hg hl]
    simp

/-- Settles O38: WEFT's request and answer, the states of its group at the selvedge, and the receivers and ports of a tile. -/
theorem weftStreams : Obligations.WeftStreams := by
  unfold Obligations.WeftStreams
  exact ⟨weftRequests, weftGroups, weftReceivers⟩

end Sys2Proof.Machine
end

section
/-!
SUPPORT. The machine after reset, and what a loss of power, power-on and the first-stage image leave of it (R23, R501, R507, R508, R510).
-/
namespace Sys2Proof.Machine

/-! ### After reset -/

theorem Slot.reset_idle (k : Nat) : (Tile.reset.slot k).run = .free ∧ (Tile.reset.slot k).rseed = 0 ∧ (Tile.reset.slot k).rctr = 0
    ∧ (Tile.reset.slot k).top.armed = false ∧ (Tile.reset.slot k).below.armed = false := by
  have h : Tile.reset.slot k = Slot.reset := by simp [Tile.slot, Tile.reset]
  rw [h]
  exact ⟨rfl, rfl, rfl, rfl, rfl⟩

theorem resetValues : Rules.ResetValues :=
  ⟨fun _ => ⟨rfl, rfl, rfl, rfl, rfl, rfl⟩, fun _ => ⟨rfl, rfl, rfl, rfl⟩, fun _ k => Slot.reset_idle k, rfl, rfl, fun _ => rfl,
    fun _ => rfl, rfl, rfl, rfl, rfl⟩

/-- Settles O58: the values at reset are those of the tables' default entries, and no memory cell is listed. -/
theorem resetState : Obligations.ResetState := by
  unfold Obligations.ResetState
  exact ⟨resetValues, Memory.wf_reset⟩

/-! ### Power (R23, R507, R510) -/

/-- Memory without the cells of some addresses reads as unlisted there, and as before elsewhere. -/
theorem cellGet_filter (p : Nat → Bool) (m : List Host.Cell) (a : Nat) :
    cellGet (m.filter fun c => p c.1) a = if p a = true then cellGet m a else unlisted := by
  induction m with
  | nil => simp [cellGet]
  | cons c r ih =>
    obtain ⟨k, b⟩ := c
    by_cases hk : p k = true
    · rw [List.filter_cons_of_pos (by exact hk), cellGet, ih, cellGet]
      by_cases ha : a = k
      · simp [ha, hk]
      · simp [ha]
    · rw [List.filter_cons_of_neg (by exact hk), ih, cellGet]
      by_cases ha : a = k
      · simp [ha, hk]
      · simp [ha]

theorem State.byte_unpowered (s : State) (a : Nat) :
    s.unpowered.byte a = if beyondWafer a = true then s.byte a else unlisted := cellGet_filter _ _ _

/-- Power-on keeps what the loss of power left, but for the map. -/
theorem exec_powerOn_eq (s : State) : ∃ m, exec .powerOn s = .next { s.unpowered with phys := m } := ⟨_, rfl⟩

/-- Silicon that neither the fuses nor the flash names is that of the map without defects. -/
theorem exec_powerOn_of_no_defect {s : State} (hf : s.mgmt.fuses = []) (hd : s.mgmt.field = []) (hp : s.phys = [])
    (hn : s.plan = none) : exec .powerOn s = .next { s.unpowered with phys := [] } := by
  have hc : s.committing = false := by simp [State.committing, hn]
  show execPowerOn s = _
  simp [execPowerOn, State.unpowered, hf, hd, hp, hc]

theorem powerCycles : Rules.PowerCycles := by
  intro s
  refine ⟨fun i hi => ?_, fun hf hd hp hn => ⟨_, exec_powerOn_of_no_defect hf hd hp hn, fun _ => rfl⟩⟩
  rcases List.mem_pair.1 hi with rfl | rfl
  · exact ⟨_, rfl, rfl, rfl, rfl, rfl, rfl, rfl, rfl, rfl, s.byte_unpowered, rfl, rfl, rfl, rfl, rfl, rfl, rfl⟩
  · obtain ⟨m, h⟩ := exec_powerOn_eq s
    exact ⟨_, h, rfl, rfl, rfl, rfl, rfl, rfl, rfl, rfl, s.byte_unpowered, rfl, rfl, rfl, rfl, rfl, rfl, rfl⟩

/-! ### The first-stage image (R507, R508) -/

/-- What is basted tile by tile leaves the management state alone. -/
theorem State.mgmt_baste (s : State) (img : List Byte) (t : Nat) : (s.baste img t).mgmt = s.mgmt :=
  foldl_keeps State.mgmt (fun a (c : Nat × Byte) => a.write (localLoc t c.1) [c.2]) (fun _ _ => rfl) (Config.imageCells img) s

theorem exec_firstStageImageCheck_basted {s : State} (h : s.mgmt.basted = true) : exec .firstStageImageCheck s = .next s :=
  congrArg Host.Outcome.next (if_pos h)

/-- Without an image that passes the part stays unbasted and raises its alert. -/
theorem exec_firstStageImageCheck_fails {s : State} (h : s.mgmt.basted = false)
    (hi : s.firstImage.filter s.mgmt.accepts = none) : exec .firstStageImageCheck s = .next (s.raise 3) := by
  show execFirstStageImageCheck s = _
  rw [execFirstStageImageCheck, if_neg (by simp [h]), hi]

theorem exec_firstStageImageCheck_passes {s : State} {img : List Byte} (h : s.mgmt.basted = false)
    (hi : s.firstImage.filter s.mgmt.accepts = some img) :
    Rules.nextWith (exec .firstStageImageCheck s) fun t => t.mgmt = { s.mgmt with
      basted := true, imageHash := Config.sm3 img, svn := BitVec.ofNat 32 (blkField img 4 4) } := by
  have he : exec .firstStageImageCheck s = execFirstStageImageCheck s := rfl
  rw [execFirstStageImageCheck, if_neg (by simp [h]), hi] at he
  exact nextWith_of_eq he (foldl_keeps State.mgmt _ (fun a t => a.mgmt_baste img t) _ _)

theorem State.raise_unbasted {s : State} (h : s.mgmt.basted = false) :
    (s.raise 3).mgmt.basted = false ∧ (s.raise 3).mgmt.alert = s.mgmt.alert ||| 8 ∧ Rules.sameMemory s (s.raise 3) :=
  ⟨h, rfl, sameMemory_of_memory_eq rfl⟩

theorem firstStageImage : Rules.FirstStageImage := by
  intro s
  refine ⟨exec_firstStageImageCheck_basted, fun h => ⟨fun img hi => ?_, fun hi => ?_⟩⟩
  · split
    next ha =>
      obtain ⟨t, ht, hm⟩ := exec_firstStageImageCheck_passes (img := img) h (by simp [hi, ha])
      refine nextWith_of_eq ht ?_
      rw [hm]
      exact ⟨rfl, rfl, rfl, rfl⟩
    next ha => exact nextWith_of_eq (exec_firstStageImageCheck_fails h (by simp [hi, ha])) (State.raise_unbasted h)
  · exact nextWith_of_eq (exec_firstStageImageCheck_fails h (by simp [hi])) (State.raise_unbasted h)

/-- Settles O52: what remains without power, and the one check of the first-stage image. -/
theorem powerAndBoot : Obligations.PowerAndBoot := by
  unfold Obligations.PowerAndBoot
  exact ⟨powerCycles, firstStageImage⟩

end Sys2Proof.Machine
end

section
/-!
SUPPORT. What the manufacturing mapper gives a part with dead tiles (R19-R22, R24, R29, R30, R34): the positions of a segment and of a
row, the rows it takes, the routes between them, and the fuses.
-/
namespace Sys2Proof.Machine

/-! ### Segments and rows (R19, R20) -/

/-- Position `i` of 34 when position `d` of 35 is left out. -/
def skipAt (d i : Nat) : Nat := if i < d then i else i + 1

/-- The 35 positions of a segment but for one are the 34 that leave it out, in order. -/
theorem filter_range_ne_eq_skipAt : ∀ d < 35, (List.range 35).filter (fun i => i != d) = (List.range 34).map (skipAt d) := by
  decide

/-- Where a mapped segment of a row puts its tiles: tile `i` at position `f i`, which is `i`, or `i + 1` where a dead tile
lies at or west of `i`. -/
structure SegmentPlaces (dead : List Nat) (py g : Nat) (l : List Nat) (f : Nat → Nat) : Prop where
  places : l = (List.range 34).map fun i => 35 * g + f i
  live : ∀ i < 34, dead.contains (physKey (35 * g + f i) py) = false
  shift : ∀ i < 34, (f i = i ∧ ∀ j ≤ i, dead.contains (physKey (35 * g + j) py) = false)
    ∨ (f i = i + 1 ∧ ∃ j ≤ i, dead.contains (physKey (35 * g + j) py) = true)

/-- A mapped segment has at most one dead tile, and its tiles leave it out. -/
theorem segmentMap_places {dead : List Nat} {py g : Nat} {l : List Nat} (h : segmentMap dead py g = some l) :
    ∃ f, SegmentPlaces dead py g l f := by
  unfold segmentMap at h
  dsimp only at h
  split at h
  next he =>
    have hl : ∀ j < 35, dead.contains (physKey (35 * g + j) py) = false := fun j hj => by
      have := List.filter_eq_nil_iff.1 he (35 * g + j) (List.mem_map.2 ⟨j, List.mem_range.2 hj, rfl⟩)
      simpa using this
    refine ⟨fun i => i, ?_, fun i hi => hl i (by omega), fun i hi => .inl ⟨rfl, fun j hj => hl j (by omega)⟩⟩
    obtain rfl := Option.some.inj h
    rw [← List.map_take, List.take_range]
    rfl
  next px he =>
    have hm : ∀ j < 35, dead.contains (physKey (35 * g + j) py) = true ↔ 35 * g + j = px := fun j hj => by
      have : (35 * g + j) ∈ ((List.range 35).map fun i => 35 * g + i).filter (fun px => dead.contains (physKey px py))
          ↔ dead.contains (physKey (35 * g + j) py) = true := by
        rw [List.mem_filter]
        exact and_iff_right (List.mem_map.2 ⟨j, List.mem_range.2 hj, rfl⟩)
      rw [← this, he, List.mem_singleton]
    obtain ⟨d, hd, rfl⟩ : ∃ d < 35, 35 * g + d = px := by
      have : px ∈ ((List.range 35).map fun i => 35 * g + i).filter (fun px => dead.contains (physKey px py)) := he ▸ List.mem_singleton_self px
      obtain ⟨d, hd, e⟩ := List.mem_map.1 (List.mem_filter.1 this).1
      exact ⟨d, List.mem_range.1 hd, e⟩
    have hlive : ∀ j < 35, j ≠ d → dead.contains (physKey (35 * g + j) py) = false := fun j hj hne => by
      rw [Bool.eq_false_iff, ne_eq, hm j hj]
      omega
    refine ⟨skipAt d, ?_, fun i hi => hlive _ ?_ ?_, fun i hi => ?_⟩
    · obtain rfl := Option.some.inj h
      rw [List.filter_map]
      have hc : ((fun x => x != 35 * g + d) ∘ fun i => 35 * g + i) = fun i => i != d := by
        funext i
        rw [Function.comp_apply, Bool.eq_iff_iff, bne_iff_ne, bne_iff_ne]
        omega
      rw [hc, filter_range_ne_eq_skipAt d hd, List.map_map]
      rfl
    · unfold skipAt
      split <;> omega
    · unfold skipAt
      split <;> omega
    · unfold skipAt
      split
      next hlt => exact .inl ⟨rfl, fun j hj => hlive j (by omega) (by omega)⟩
      next hge => exact .inr ⟨rfl, d, by omega, (hm d hd).2 rfl⟩
  next => cases h

theorem SegmentPlaces.length {dead : List Nat} {py g : Nat} {l : List Nat} {f : Nat → Nat} (h : SegmentPlaces dead py g l f) :
    l.length = 34 := by simp [h.places]

/-- Two dead tiles leave a segment unmapped. -/
theorem segmentMap_of_two_dead {dead : List Nat} {py g a b : Nat} (hab : a < b) (hb : b < 35)
    (ha : dead.contains (physKey (35 * g + a) py) = true) (hd : dead.contains (physKey (35 * g + b) py) = true) :
    segmentMap dead py g = none := by
  cases hs : segmentMap dead py g with
  | none => rfl
  | some l =>
    obtain ⟨f, hf⟩ := segmentMap_places hs
    -- the tile that would stand at or just west of `b` stands at `b` or has `b` dead under it
    have hi : b - 1 < 34 := by omega
    rcases hf.shift (b - 1) hi with ⟨-, hn⟩ | ⟨he, -⟩
    · rw [hn a (by omega)] at ha
      cases ha
    · have hl := hf.live (b - 1) hi
      rw [he, Nat.sub_add_cancel (by omega), hd] at hl
      cases hl

/-- A mapped row is its four segments from west to east. -/
theorem rowMap_eq_some {dead : List Nat} {py : Nat} {xs : List Nat} (h : rowMap dead py = some xs) :
    ∃ l : Fin 4 → List Nat, (∀ g : Fin 4, segmentMap dead py g = some (l g)) ∧ xs = l 0 ++ l 1 ++ l 2 ++ l 3 := by
  unfold rowMap at h
  split at h
  next a b c d ha hb hc hd =>
    refine ⟨![a, b, c, d], fun g => ?_, (Option.some.inj h).symm⟩
    fin_cases g
    · exact ha
    · exact hb
    · exact hc
    · exact hd
  next => cases h

/-- A tile of a row stands where its segment puts it. -/
theorem getElem!_segments {l : Fin 4 → List Nat} (h : ∀ g, (l g).length = 34) (g : Fin 4) {r : Nat} (hr : r < 34) :
    (l 0 ++ l 1 ++ l 2 ++ l 3)[34 * g.val + r]! = (l g)[r]! := by
  have h0 := h 0
  have h1 := h 1
  have h2 := h 2
  have h3 := h 3
  fin_cases g <;> simp [List.getElem!_eq_getElem?_getD, List.getElem?_append, h0, h1, h2, h3, hr] <;> grind

theorem rowMap_places {dead : List Nat} {py : Nat} {xs : List Nat} (h : rowMap dead py = some xs) :
    xs.length = 136 ∧ ∀ x, x < 136 → ∃ l f, SegmentPlaces dead py (x / 34) l f ∧ xs[x]! = 35 * (x / 34) + f (x % 34) := by
  obtain ⟨l, hl, rfl⟩ := rowMap_eq_some h
  have hlen : ∀ g, (l g).length = 34 := fun g => (segmentMap_places (hl g)).choose_spec.length
  refine ⟨by simp [hlen], fun x hx => ?_⟩
  have hg : x / 34 < 4 := by omega
  have hr : x % 34 < 34 := Nat.mod_lt _ (by decide)
  obtain ⟨f, hf⟩ := segmentMap_places (hl ⟨x / 34, hg⟩)
  refine ⟨_, f, hf, ?_⟩
  have hx' := getElem!_segments hlen ⟨x / 34, hg⟩ hr
  rw [Nat.div_add_mod] at hx'
  rw [hx', hf.places]
  simp [hr]

/-! ### Routes (R22, R24) -/

/-- One hop of a route that enters no dead tile. -/
def liveHop (dead : List Nat) (o : Option Nat) (d : Nat) : Option Nat :=
  o.bind fun r => (physNext r d).bind fun n => if dead.contains n then none else some n

/-- A route of `n` hops has `n` hops through live silicon, and ends where it is to. -/
theorem routesOf_walks {dead : List Nat} {q n : Nat} : ∀ {p : Nat} {l : List Nat}, l ∈ routesOf dead q n p →
    l.length = n ∧ l.foldl (liveHop dead) (some p) = some q := by
  induction n with
  | zero =>
    intro p l h
    unfold routesOf at h
    split at h
    next e => simp_all
    next => cases h
  | succ n ih =>
    intro p l h
    obtain ⟨d, -, hd⟩ := List.mem_flatMap.1 h
    cases hn : physNext p d with
    | none => simp [hn] at hd
    | some r =>
      rw [hn] at hd
      dsimp only at hd
      split at hd
      next => cases hd
      next hlive =>
        obtain ⟨k, hk, rfl⟩ := List.mem_map.1 hd
        obtain ⟨hlen, hwalk⟩ := ih hk
        refine ⟨by simp [hlen], ?_⟩
        have h1 : liveHop dead (some p) d = some r := by
          rw [liveHop, Option.bind_some, hn, Option.bind_some, if_neg hlive]
        rw [List.foldl_cons, h1, hwalk]

theorem bestRoutes_sub {dead : List Nat} {p q : Nat} {l : List Nat} (h : l ∈ bestRoutes dead p q) :
    ∃ n, 1 ≤ n ∧ n ≤ 4 ∧ l ∈ routesOf dead q n p := by
  unfold bestRoutes at h
  split at h
  next => cases h
  next n hn =>
    have hm := List.mem_of_find?_eq_some hn
    exact ⟨n, by simp at hm; omega, by simp at hm; omega, (List.mem_filter.1 h).1⟩

theorem mappedRoute_mem {dead : List Nat} {p q : Nat} {l : List Nat} (h : mappedRoute dead p q = some l) :
    l ∈ bestRoutes dead p q := by
  unfold mappedRoute at h
  split at h
  next => cases h
  next r hr => simp_all
  next => exact List.mem_of_getElem? h

/-- Where some route keeps R22's limit the mapper gives one. -/
theorem mappedRoute_isSome_of_linked {dead : List Nat} {p q : Nat} (h : linked dead p q = true) :
    (mappedRoute dead p q).isSome = true := by
  have hne : bestRoutes dead p q ≠ [] := by
    intro e
    simp [linked, e] at h
  unfold mappedRoute
  split
  next e => exact absurd e hne
  next => rfl
  next =>
    have hlt := Nat.mod_lt (Config.routeTie p q) (List.length_pos_of_ne_nil hne)
    simp [List.getElem?_eq_getElem hlt]

/-! ### The rows that are taken (R21, R22) -/

/-- The tiles of two rows that follow each other are linked. -/
def RowsLinked (dead : List Nat) (u v : MappedRow) : Prop :=
  ∀ x p q : Nat, u.2[x]? = some p → v.2[x]? = some q → linked dead (physKey p u.1) (physKey q v.1) = true

theorem rowLinks_linked {dead : List Nat} {u row : MappedRow} (h : rowLinks dead (some u) row = true) : RowsLinked dead u row := by
  intro x p q hp hq
  have ha : (u.2.zip row.2).all (fun e => linked dead (physKey e.1 u.1) (physKey e.2 row.1)) = true :=
    (Bool.and_eq_true_iff.1 h).2
  have hm : (u.2.zip row.2)[x]? = some (p, q) := by
    rw [List.getElem?_zip_eq_some]
    exact ⟨hp, hq⟩
  exact List.all_eq_true.1 ha (p, q) (List.mem_of_getElem? hm)

/-- What a choice of `n` of some physical rows, after row `prev`, keeps. -/
structure RowsTaken (dead pys : List Nat) (prev : Option MappedRow) (n : Nat) (m : List MappedRow) : Prop where
  length : m.length = n
  order : (m.map Prod.fst).Sublist pys
  mapped : ∀ row ∈ m, rowMap dead row.1 = some row.2
  first : ∀ u v, prev = some u → m[0]? = some v → RowsLinked dead u v
  next : ∀ (j : Nat) (u v : MappedRow), m[j]? = some u → m[j + 1]? = some v → RowsLinked dead u v

/-- A row that is not taken changes nothing of what the others keep. -/
theorem RowsTaken.skip {dead pys : List Nat} {prev : Option MappedRow} {n py : Nat} {m : List MappedRow}
    (h : RowsTaken dead pys prev n m) : RowsTaken dead (py :: pys) prev n m :=
  { h with order := h.order.cons _ }

theorem RowsTaken.take {dead pys : List Nat} {prev : Option MappedRow} {n py : Nat} {xs : List Nat} {m : List MappedRow}
    (hr : rowMap dead py = some xs) (hl : rowLinks dead prev (py, xs) = true) (h : RowsTaken dead pys (some (py, xs)) n m) :
    RowsTaken dead (py :: pys) prev (n + 1) ((py, xs) :: m) where
  length := by simp [h.length]
  order := h.order.cons_cons _
  mapped := List.forall_mem_cons.2 ⟨hr, h.mapped⟩
  first u v hu hv := by
    obtain rfl : (py, xs) = v := by simpa using hv
    exact rowLinks_linked (hu ▸ hl)
  next j u v hu hv := by
    cases j with
    | zero =>
      obtain rfl : (py, xs) = u := by simpa using hu
      exact h.first _ v rfl (by simpa using hv)
    | succ j => exact h.next j u v (by simpa using hu) (by simpa using hv)

theorem mapRows_taken {dead : List Nat} : ∀ {pys : List Nat} {prev : Option MappedRow} {n : Nat} {m : List MappedRow},
    mapRows dead pys prev n = some m → RowsTaken dead pys prev n m := by
  have none_taken : ∀ {pys : List Nat} {prev : Option MappedRow}, RowsTaken dead pys prev 0 [] := by
    intros
    exact ⟨rfl, List.nil_sublist _, by simp, by simp, by simp⟩
  intro pys
  induction pys with
  | nil =>
    intro prev n m h
    cases n with
    | zero => cases h; exact none_taken
    | succ n => cases h
  | cons py r ih =>
    intro prev n m h
    cases n with
    | zero => cases h; exact none_taken
    | succ n =>
      unfold mapRows at h
      split at h
      next => exact (ih h).skip
      next xs hr =>
        split at h
        next hl =>
          obtain ⟨k, hk, rfl⟩ := Option.map_eq_some_iff.1 h
          exact (ih hk).take hr hl
        next => exact (ih h).skip

/-! ### The fuses (R23, R29) -/

theorem fuseOf_of_none {dead : List Nat} {m : List MappedRow} {p : Nat} (h : logicalOf m p = none) :
    fuseOf dead m p = (0, 0, 0, 0, 0) := by
  rw [fuseOf, h]

/-- The silicon of a logical tile is LIVE and names it. -/
theorem fuseOf_dself {dead : List Nat} {m : List MappedRow} {p t : Nat} (h : logicalOf m p = some t) (ht : t < tileCount) :
    (fuseOf dead m p).1.toNat = 1 * 2 ^ 29 + tileY t * 2 ^ 8 + tileX t := by
  rw [fuseOf, h]
  have hx : tileX t < 136 := Nat.mod_lt _ (by decide)
  have hy : tileY t < 188 := by
    rw [tileCount] at ht
    rw [tileY]
    omega
  rw [BitVec.toNat_ofNat, Nat.mod_eq_of_lt (by omega)]
  omega

/-- The worked example of R35: tile (39, 24) of the silicon is dead. -/
theorem mapped_worked_example :
    let dead := [physKey 39 24]
    (rowMap dead 24).map (fun xs => (xs[37]!, xs[38]!, xs[67]!)) = some (38, 40, 69)
    ∧ mappedRoute dead (physKey 38 24) (physKey 40 24) = some [1, 0, 0, 3]
    ∧ mappedRoute dead (physKey 40 24) (physKey 39 23) = some [3, 2]
    ∧ hopsEntry [1, 0, 0, 3] = 0xF820 ∧ seamsOf (physKey 38 24) [1, 0, 0, 3] = 1
    ∧ hopsEntry [3, 2] = 0xA160 ∧ seamsOf (physKey 40 24) [3, 2] = 2 := by decide +kernel

/-- Settles O51: the mapper's rows by their segments, its choice of rows by induction on the physical rows, its routes by
induction on their hops. -/
theorem manufacturingMap : Obligations.ManufacturingMap := by
  unfold Obligations.ManufacturingMap
  refine ⟨fun dead py xs h => ⟨(rowMap_places h).1, fun x hx => ?_⟩, fun dead py g a b hg hab hb ha hd => ?_,
    fun dead pys prev n m h => ?_, fun dead p q l h => ?_, fun dead m p => ⟨fuseOf_of_none, fun t => fuseOf_dself⟩,
    mapped_worked_example⟩
  · obtain ⟨l, f, hf, hx'⟩ := (rowMap_places h).2 x hx
    have hr : x % 34 < 34 := Nat.mod_lt _ (by decide)
    refine ⟨by rw [hx']; exact hf.live _ hr, ?_⟩
    rw [hx', Nat.add_assoc]
    exact (hf.shift _ hr).imp (fun ⟨he, hn⟩ => ⟨by rw [he], hn⟩) (fun ⟨he, hn⟩ => ⟨by rw [he], hn⟩)
  · cases h : rowMap dead py with
    | none => rfl
    | some xs =>
      obtain ⟨l, hl, -⟩ := rowMap_eq_some h
      have hs := hl ⟨g, hg⟩
      rw [segmentMap_of_two_dead hab hb ha hd] at hs
      cases hs
  · obtain ⟨hlen, hord, hmap, -, hnext⟩ := mapRows_taken h
    exact ⟨hlen, hord, hmap, fun j u v hu hv x p q hp hq => mappedRoute_isSome_of_linked (hnext j u v hu hv x p q hp hq)⟩
  · obtain ⟨n, h1, h4, hn⟩ := bestRoutes_sub (mappedRoute_mem h)
    obtain ⟨hlen, hwalk⟩ := routesOf_walks hn
    exact ⟨hlen ▸ h1, hlen ▸ h4, hwalk⟩

end Sys2Proof.Machine
end

section
/-!
SUPPORT. What the host's reads and writes (R254, R503, R504) and the stores to control registers that have rows of their own change, and
that they leave memory alone.
-/
namespace Sys2Proof.Machine

/-! ### The command block (R503, R504) -/

@[simp] theorem Mgmt.word_setWord (g : Mgmt) (i j : Nat) (v : Word) :
    (g.setWord i v).word j = if j % 8 = i % 8 then v else g.word j := by
  by_cases h : i % 8 = j % 8
  · simp [Mgmt.setWord, Mgmt.word, h]
  · have h' : j % 8 ≠ i % 8 := fun e => h e.symm
    simp [Mgmt.setWord, Mgmt.word, h, h']

/-- The status byte of an answered command. -/
theorem get_word7_reply (s : State) (status rest : Nat) : get ((s.reply status rest).mgmt.word 7) 7 0 = status % 256 := by
  have hw : (s.reply status rest).mgmt.word 7 = put 0 8 status + put 8 56 rest := by simp [State.reply]
  rw [hw, get, put, put, BitVec.toNat_add, BitVec.toNat_ofNat, BitVec.toNat_ofNat]
  omega

theorem exec_registerWrite_window {s : State} (hf : s.ev.flag = true) :
    exec .registerWrite s = .next (s.windowWrite s.ev.n (s.ev.v.setWidth 64)) :=
  congrArg Host.Outcome.next (if_pos hf)

theorem State.windowWrite_word (s : State) {i : Nat} (hi : i < 8) (v : Word) :
    s.windowWrite (0x1000 + 8 * i) v = { s with mgmt := s.mgmt.setWord i v } := by
  have hd : (0x1000 + 8 * i - 0x1000) / 8 = i := by omega
  rw [State.windowWrite, if_pos (by omega), hd]

theorem State.windowWrite_door (s : State) (v : Word) : s.windowWrite 0x1040 v = s.door := rfl

/-- DOOR starts a known command of a basted part, and answers an unknown one. -/
theorem State.get_word7_door {s : State} (h : s.mgmt.basted = true) :
    get (s.door.mgmt.word 7) 7 0 = if 1 ≤ get (s.mgmt.word 0) 7 0 ∧ get (s.mgmt.word 0) 7 0 ≤ 9 then 0xFF else 3 := by
  unfold State.door
  rw [if_neg (by simp [h])]
  split <;> exact get_word7_reply _ _ _

/-! ### Doorbells (R254, R446) -/

theorem exec_qerrRead_of_not_queue {s : State} (h : 32768 ≤ queueAt s.ev.tile s.ev.n ∨ s.ev.n % 4096 ≠ 0x18) :
    exec .qerrRead s = .next s := congrArg Host.Outcome.next (if_pos h)

theorem exec_qerrRead_of_queue {s : State} (hm : queueAt s.ev.tile s.ev.n < 32768) (hn : s.ev.n % 4096 = 0x18) :
    exec .qerrRead s = .next (s.modQueue (queueAt s.ev.tile s.ev.n) fun q => { q with qerr := 0 }) :=
  congrArg Host.Outcome.next (if_neg (not_or.2 ⟨Nat.not_le.2 hm, not_not.2 hn⟩))

theorem exec_widxWrite_of_not_queue {s : State} (h : 32768 ≤ queueAt s.ev.tile s.ev.n ∨ s.ev.n % 4096 ≠ 0) :
    exec .widxWrite s = .next s := congrArg Host.Outcome.next (if_pos h)

theorem exec_widxWrite_of_queue {s : State} (hm : queueAt s.ev.tile s.ev.n < 32768) (hn : s.ev.n % 4096 = 0) :
    exec .widxWrite s = .next (s.modQueue (queueAt s.ev.tile s.ev.n) fun q =>
      if !q.enabled then { q with qerr := q.qerr ||| 2 }
      else if q.slots < (s.ev.v.setWidth 32 - q.cidx).toNat then { q with qerr := q.qerr ||| 1 }
      else { q with widx := s.ev.v.setWidth 32 }) :=
  congrArg Host.Outcome.next (if_neg (not_or.2 ⟨Nat.not_le.2 hm, not_not.2 hn⟩))

/-- Two changes of a queue that agree on its entry are one. -/
theorem State.modQueue_congr {s : State} {n : Nat} {f g : Queue → Queue} (h : f (s.queue n) = g (s.queue n)) :
    s.modQueue n f = s.modQueue n g := by
  rw [State.modQueue, h, State.modQueue]

theorem hostRegisters : Rules.HostRegisters := by
  intro s
  refine ⟨rfl, exec_qerrRead_of_not_queue, exec_widxWrite_of_not_queue, exec_qerrRead_of_queue, fun hm hn => ?_, fun hf => ?_⟩
  · rw [exec_widxWrite_of_queue hm hn]
    refine ⟨fun he => ?_, fun he hs => ?_, fun he hs => ?_⟩ <;> refine congrArg _ (State.modQueue_congr ?_)
    · exact if_pos (by simp [queueAt, he])
    · exact (if_neg (by simp [queueAt, he])).trans (if_pos hs)
    · exact (if_neg (by simp [queueAt, he])).trans (if_neg (Nat.not_lt.2 hs))
  · rw [exec_registerWrite_window hf]
    refine ⟨fun i hi hn => ?_, fun hn hb => ?_, fun hn hb => ?_⟩ <;> rw [hn]
    · refine ⟨_, congrArg _ (s.windowWrite_word hi _), by simp, fun j hj hne => ?_, sameMemory_of_memory_eq rfl⟩
      rw [Mgmt.word_setWord, if_neg (by omega)]
    · rw [State.windowWrite_door, State.door, if_pos (by simp [hb])]
    · exact ⟨_, rfl, State.get_word7_door hb⟩

/-! ### Stores to control registers -/

theorem exec_registerWrite_core {s : State} {a : Nat} (hf : s.ev.flag = false)
    (h : s.place 0 (0xF0 * 2 ^ 56 + s.ev.n % 2 ^ 56) = some (.control a)) :
    exec .registerWrite s = .next (s.ctlWrite a (s.ev.v.setWidth 64)) := by
  show execRegisterWrite s = _
  rw [execRegisterWrite, if_neg (by simp [hf]), h]

@[simp] theorem State.asid_setAsid_self (s : State) (a : Nat) (v : Word) : (s.setAsid a v).asid (BitVec.ofNat 12 a)
    = { s.asid (BitVec.ofNat 12 a) with root := BitVec.ofNat 52 (get v 63 12), v := v.getLsbD 8 } := by
  unfold State.setAsid State.asid
  rw [BitVec.toNat_ofNat]
  exact Tab.get_put_self _ _ _ _

@[simp] theorem Fabric.gen_modGen_self (F : Fabric) (n : Nat) (f : Stream → Stream) : (F.modGen n f).gen n = f (F.gen n) := by
  by_cases h : n = 8 <;> simp [Fabric.modGen, Fabric.gen, h]

/-- A stopped generator that is resumed waits for its extent again. -/
theorem State.resumeGen_of_stopped {s : State} {t g : Nat} (h2 : 2 ≤ ((s.tile t).fabric.gen g).reason.toNat)
    (h4 : ((s.tile t).fabric.gen g).reason.toNat ≤ 4) :
    s.resumeGen t g = s.modFabric t fun F => F.modGen g fun x =>
      { x with reason := 1, kind := 0, ext := extentRetry x.ext x.gfva } := if_pos ⟨h2, h4⟩

theorem Router.setHqcfg_of_valid {r : Router} {v : Word} (h : get v 36 32 = 0 ∨ (10 ≤ get v 36 32 ∧ get v 36 32 ≤ 24)) :
    r.setHqcfg v = { r with hqFull := false, hqLog := if r.holdq = [] then BitVec.ofNat 5 (get v 36 32) else r.hqLog } := by
  simp [Router.setHqcfg, h]

theorem Router.setHqcfg_of_invalid {r : Router} {v : Word} (h : ¬(get v 36 32 = 0 ∨ (10 ≤ get v 36 32 ∧ get v 36 32 ≤ 24))) :
    r.setHqcfg v = r := if_pos (by simp only [h, decide_false, Bool.not_false])

@[simp] theorem State.router_modRouter_self (s : State) (t : Nat) (f : Router → Router) :
    ((s.modRouter t f).tile t).router = f (s.tile t).router := by simp [State.modRouter]

/-! ### Group entries (R78, R79) -/

theorem exec_groupTableWrite_refused {s : State}
    (h : 1024 ≤ s.ev.n ∨ ((s.group s.ev.n).v = true ∧ (s.group s.ev.n).state ≠ .idle)
      ∨ s.groupWriteOk s.ev.n ((s.group s.ev.n).written s.ev.v) = false) :
    exec .groupTableWrite s = .next s := congrArg Host.Outcome.next (if_pos h)

/-- The selvedge refuses fields that are out of their range. -/
theorem State.groupWriteOk_of_bad_fields (s : State) (n : Nat) {g : Group}
    (h : 768 ≤ g.fibre ∨ 4 < g.fmt.toNat ∨ (g.w2 = true ∧ g.lambda.toNat % 2 = 1)) : s.groupWriteOk n g = false := by
  have hf : g.fieldsOk = false := by
    rw [Bool.eq_false_iff]
    intro hk
    simp only [Group.fieldsOk, Bool.and_eq_true, Bool.or_eq_true, Bool.not_eq_true', decide_eq_true_eq] at hk
    obtain ⟨⟨hfib, hfmt⟩, hw⟩ := hk
    rcases h with h | h | ⟨h1, h2⟩
    · omega
    · omega
    · rw [h1] at hw
      rcases hw with hw | hw
      · cases hw
      · omega
  simp [State.groupWriteOk, hf]

/-- A write that the selvedge takes, with the split mask where the entry sets it. -/
theorem exec_groupTableWrite_taken {s : State} (hn : s.ev.n < 1024)
    (hi : (s.group s.ev.n).v = false ∨ (s.group s.ev.n).state = .idle)
    (hk : s.groupWriteOk s.ev.n ((s.group s.ev.n).written s.ev.v) = true) :
    let h := (s.group s.ev.n).written s.ev.v
    exec .groupTableWrite s
      = .next ((if s.setsSplit s.ev.n h then s.setSplit h.fibre h.split else s).modGroup s.ev.n fun _ => h) := by
  refine congrArg Host.Outcome.next (if_neg ?_)
  rintro (hge | ⟨hv, hne⟩ | hno)
  · omega
  · rcases hi with hv' | he
    · simp [hv] at hv'
    · exact hne he
  · rw [hk] at hno
    cases hno

theorem groupTableWrite_takes {s : State} (hn : s.ev.n < 1024)
    (hi : (s.group s.ev.n).v = false ∨ (s.group s.ev.n).state = .idle)
    (hk : s.groupWriteOk s.ev.n ((s.group s.ev.n).written s.ev.v) = true) :
    let h := (s.group s.ev.n).written s.ev.v
    Rules.nextWith (exec .groupTableWrite s) fun u => u.group s.ev.n = h ∧ Rules.sameMemory s u
      ∧ (s.setsSplit s.ev.n h = true → u.splitMask h.fibre = h.split)
      ∧ (s.setsSplit s.ev.n h = false → ∀ f, u.splitMask f = s.splitMask f) := by
  intro h
  refine nextWith_of_eq (exec_groupTableWrite_taken hn hi hk) ⟨State.group_modGroup_self _ _ _, sameMemory_of_memory_eq ?_,
    fun hs => ?_, fun hs f => ?_⟩
  · split <;> rfl
  · rw [if_pos hs]
    exact Tab.get_put_self _ _ _ _
  · rw [if_neg (Bool.eq_false_iff.1 hs)]
    rfl

theorem controlStores : Rules.ControlStores := by
  intro s
  refine ⟨fun a => exec_registerWrite_core, ⟨_, rfl, ?_⟩, fun hu h2 h4 => ?_, ⟨_, rfl, ?_, sameMemory_of_memory_eq rfl⟩,
    ⟨_, rfl, sameMemory_of_memory_eq rfl, ?_⟩, fun hn hi => ⟨groupTableWrite_takes hn hi, fun hk => ?_, State.groupWriteOk_of_bad_fields s _⟩,
    fun hv hne => exec_groupTableWrite_refused (.inr (.inl ⟨hv, hne⟩))⟩
  · beta_reduce
    rw [State.asid_setAsid_self]
    exact ⟨rfl, rfl, rfl, sameMemory_of_memory_eq rfl⟩
  · have he : exec .gstatResumeWrite s = .next (s.resumeGen s.ev.tile s.ev.unit) := congrArg Host.Outcome.next (if_pos hu)
    rw [State.resumeGen_of_stopped h2 h4] at he
    refine nextWith_of_eq he ?_
    rw [State.tile_modFabric_self, Fabric.gen_modGen_self]
    exact ⟨rfl, rfl, rfl, sameMemory_of_memory_eq rfl⟩
  · rw [State.setReladv, State.tile_modTile_self]
  · rw [State.router_modRouter_self]
    split
    next h =>
      rw [Router.setHqcfg_of_valid h]
      exact ⟨rfl, rfl⟩
    next h => exact Router.setHqcfg_of_invalid h
  · exact exec_groupTableWrite_refused (.inr (.inr hk))

/-- Settles O54: the host's registers, and the stores to control registers that have rows of their own. -/
theorem hostAndControlRegisters : Obligations.HostAndControlRegisters := by
  unfold Obligations.HostAndControlRegisters
  exact ⟨hostRegisters, controlStores⟩

end Sys2Proof.Machine
end

section
/-!
SUPPORT. Clock sources (R42-R44) at the edge of the wafer: a state in which silicon beyond the last row names the silicon of the last
row as its clock source, which does not have it as a neighbour.
-/
namespace Sys2Proof.Machine

/-- The last silicon of the wafer: column 139 of row 191. -/
def lastSilicon : Nat := physKey 139 191

/-- The place south of it, which the wafer does not have. -/
def beyondLast : Nat := physKey 139 192

/-- The map without defects, but that the place beyond the wafer takes its clock from the north, at depth 140; the last silicon is to
lose its clock source, the west. -/
def clockAtEdge : State :=
  { State.reset with
    phys := [(beyondLast, { phys0State beyondLast with clksrc := 0x8C1E4F })]
    ev := { EvArgs.none with tile := lastSilicon } }

/-- The depths of the last silicon and of the place beyond it once the source is lost. -/
def edgeDepths : Option (Nat × Nat) :=
  match exec .clockSourceLoss clockAtEdge with
  | .next t => some ((t.phy lastSilicon).depth, (t.phy beyondLast).depth)
  | _ => none

theorem edgeDepths_eq : edgeDepths = some (141, 140) := by decide +kernel

/-- In the map without defects silicon takes its clock from the west. -/
theorem phys0State_clock (p : Nat) : (phys0State p).clockDir (phys0State p).clockCur = 2 := by
  have hp : p % 140 < 140 := Nat.mod_lt _ (by decide)
  have hw : ∃ o, o < 16 ∧ (phys0State p).clksrc.toNat = (p % 140 + 1) * 2 ^ 16 + 0x1E * 2 ^ 8 + o := by
    refine ⟨if p % 140 = 139 then 0xF else 0x7, by split <;> decide, ?_⟩
    rw [phys0State, BitVec.toNat_ofNat, Nat.mod_eq_of_lt]
    split <;> omega
  obtain ⟨o, ho, hw⟩ := hw
  have hc : (phys0State p).clockCur = 0 := by
    rw [Phys.clockCur, hw]
    omega
  rw [hc, Phys.clockDir, hw]
  omega

theorem phy_clockAtEdge {y : Nat} (h : y ≠ beyondLast) : clockAtEdge.phy y = phys0State y :=
  if_neg h

/-- Who takes its clock from whom: the place beyond the wafer from the last silicon, all others from the west. -/
theorem clockFrom_clockAtEdge {x y : Nat} (h : clockAtEdge.clockFrom x y = true) :
    (x = lastSilicon ∧ y = beyondLast) ∨ (0 < y % 140 ∧ x + 1 = y) := by
  have hn := (Bool.and_eq_true_iff.1 h).2
  rw [decide_eq_true_eq] at hn
  by_cases hy : y = beyondLast
  · subst hy
    have he : physNext beyondLast ((clockAtEdge.phy beyondLast).clockDir (clockAtEdge.phy beyondLast).clockCur) = some lastSilicon := by
      decide
    exact .inl ⟨Option.some.inj (hn.symm.trans he), rfl⟩
  · rw [phy_clockAtEdge hy, phys0State_clock] at hn
    have hpos : 0 < y % 140 := by
      by_contra hz
      simp [physNext, hz] at hn
    rw [physNext, if_pos hpos] at hn
    have := Option.some.inj hn
    exact .inr ⟨hpos, by omega⟩

/-- The clock of the last silicon reaches itself and the place beyond the wafer only. -/
theorem clock_reaches_edge {y : Nat} (h : Relation.ReflTransGen (fun x y => clockAtEdge.clockFrom x y = true) lastSilicon y) :
    y = lastSilicon ∨ y = beyondLast := by
  induction h with
  | refl => exact .inl rfl
  | tail _ hs ih =>
    rcases clockFrom_clockAtEdge hs with ⟨-, hy⟩ | ⟨hpos, hx⟩
    · exact .inr hy
    · -- the places east of both are in the next row
      have h1 : (lastSilicon + 1) % 140 = 0 := by decide
      have h2 : (beyondLast + 1) % 140 = 0 := by decide
      rcases ih with rfl | rfl <;> rw [← hx] at hpos <;> omega

theorem not_clockSources : ¬Rules.ClockSources := by
  intro h
  have hj : ∀ q, physNext lastSilicon ((clockAtEdge.phy lastSilicon).clockDir 1) = some q →
      ¬Relation.ReflTransGen (fun x y => clockAtEdge.clockFrom x y = true) lastSilicon q := by
    intro q hq hr
    have he : physNext lastSilicon ((clockAtEdge.phy lastSilicon).clockDir 1) = some (physKey 139 190) := by decide +kernel
    obtain rfl := Option.some.inj (he.symm.trans hq)
    exact absurd (clock_reaches_edge hr) (by decide)
  obtain ⟨t, ht, -, -, -, -, -, hd⟩ :=
    (h clockAtEdge).1 1 (by decide) (by decide +kernel) (by decide +kernel) (by decide +kernel) hj
  have hq := hd beyondLast (by decide +kernel)
  have he := edgeDepths_eq
  rw [edgeDepths, ht] at he
  obtain ⟨hp, hb⟩ := Prod.mk.inj (Option.some.inj he)
  have hp' : (t.phy clockAtEdge.ev.tile).depth = 141 := hp
  rw [hp', hb] at hq
  exact absurd hq (by decide)

/-- Refutes O48: its statement on clock sources bounds no silicon number. Silicon 140 * 192 + 139, which the wafer does not have, may
name the last silicon of the last row as its clock source (`clockFrom`), but is none of its neighbours (`physNext`), so that its depth
does not follow when that silicon switches to its second candidate: 140, and not 142. -/
theorem not_meshAndClocks : ¬Obligations.MeshAndClocks := by
  unfold Obligations.MeshAndClocks
  exact fun ⟨_, _, h⟩ => not_clockSources h

end Sys2Proof.Machine
end

section
/-!
SUPPORT. What full-empty requests that are served (R309), tests that are abandoned (R422) and a plan's commit (R414) leave alone.
-/
namespace Sys2Proof.Machine

/-! ### Requests that are served change memory and tiles only -/

/-- `u` is `s` but for its tiles, memory, presence bits, marks, stores behind at system scope, and waiting requests. -/
def State.Serves (s u : State) : Prop :=
  u = { s with tiles := u.tiles, mem := u.mem, empties := u.empties, marks := u.marks, behind := u.behind, feWait := u.feWait }

theorem State.Serves.refl (s : State) : s.Serves s := rfl

theorem State.Serves.trans {s u v : State} (h : s.Serves u) (k : u.Serves v) : s.Serves v := by
  unfold State.Serves at *
  rw [h] at k
  exact k

theorem State.Serves.foldl {α : Type} {f : State → α → State} (h : ∀ a x, State.Serves a (f a x)) (l : List α) (s : State) :
    s.Serves (l.foldl f s) := by
  induction l generalizing s with
  | nil => exact .refl s
  | cons x r ih => exact (h s x).trans (ih _)

theorem State.serves_noteStore (s : State) (id t u loc n : Nat) (rel : Bool) : s.Serves (s.noteStore id t u loc n rel) := by
  unfold State.noteStore
  split <;> rfl

theorem State.serves_amoAt (s : State) (loc op b x e : Nat) : s.Serves (s.amoAt loc op b x e).1 := by
  unfold State.amoAt
  dsimp only
  split <;> rfl

theorem State.serves_amoBy (s : State) (id t u loc op b x e : Nat) : s.Serves (s.amoBy id t u loc op b x e).1 := by
  unfold State.amoBy
  split
  · exact s.serves_amoAt _ _ _ _ _
  · exact (s.serves_noteStore _ _ _ _ _ _).trans (State.serves_amoAt _ _ _ _ _ _)

theorem State.serves_feServeNeedle (s : State) (t k : Nat) (p : Pend) : s.Serves (s.feServeNeedle t k p) := by
  unfold State.feServeNeedle
  split
  · exact (s.serves_noteStore p.id t k p.loc 8 true).trans rfl
  · rfl
  · split
    · rfl
    · split
      · rfl
      · rfl
      · exact (s.serves_amoBy _ _ _ _ _ _ _ _).trans rfl
      · rfl
      · rfl

theorem State.serves_performElem (s : State) (t : Nat) (o : ElemOp) : s.Serves (s.performElem t o) := by
  unfold State.performElem
  split
  · dsimp only
    split <;> exact (s.serves_noteStore o.id t 16 o.loc 8 o.fe).trans rfl
  · rfl
  · dsimp only
    split
    · rfl
    · exact (s.serves_amoBy _ _ _ _ _ _ _ _).trans rfl

theorem State.serves_outPerform (s : State) (op : OutOp) (loc : Nat) : s.Serves (s.outPerform op loc) := by
  unfold State.outPerform
  split
  · rfl
  · split <;> rfl
  · split <;> rfl
  · rfl
  · rfl
  · split
    · rfl
    · exact (s.serves_amoAt _ _ _ _ _).trans rfl

theorem State.serves_feServe (s : State) (q : FeReq) : s.Serves (s.feServe q) := by
  have h0 : s.Serves { s with feWait := s.feWait.filter fun x => x.who != q.who } := rfl
  unfold State.feServe
  dsimp only
  split
  · split
    · exact h0.trans (State.serves_feServeNeedle _ _ _ _)
    · exact h0
  · split
    · exact h0.trans (State.serves_performElem _ _ _)
    · exact h0
  · exact h0
  · exact h0.trans (State.serves_outPerform _ _ _)

theorem State.serves_serveWord (n : Nat) (s : State) (w : Nat) : s.Serves (State.serveWord n s w) := by
  induction n generalizing s with
  | zero => rfl
  | succ n ih =>
    unfold State.serveWord
    split
    · split
      · rfl
      · exact (s.serves_feServe _).trans (ih _)
    · rfl

theorem State.serves_serve (s : State) (w : Nat) : s.Serves (s.serve w) := s.serves_serveWord _ _

theorem State.serves_serveAll (s : State) (ws : List Nat) : s.Serves (s.serveAll ws) :=
  .foldl (fun a w => a.serves_serve w) ws s

theorem State.Serves.mgen {s u : State} (h : s.Serves u) : u.mgen = s.mgen := by rw [h]

/-! ### A commit (R414) -/

theorem State.mgen_moveStore (s : State) (t : Nat) (ranges : List (Nat × Nat)) : (s.moveStore t ranges).mgen = s.mgen :=
  (State.serves_serveAll _ _).mgen

theorem State.mgen_moveTile (s : State) (p q : Nat) : (s.moveTile p q).mgen = s.mgen := rfl

theorem State.mgen_sendMarker (s : State) (old : Phys) (c : RouteChange) : (s.sendMarker old c).mgen = s.mgen := by
  unfold State.sendMarker
  dsimp only
  split <;> rfl

/-- The moves, entries and markers of a commit leave MGEN as it is: it advances with the last of them. -/
theorem State.mgen_applyPlan (s : State) (p : Plan) : (s.applyPlan p).mgen = s.mgen := by
  have hmoves : ∀ (tile : PlanEnt → Nat) (ranges : PlanEnt → List (Nat × Nat)) (l : List PlanEnt),
      (l.foldl (fun a e => (a.moveStore (tile e) (ranges e)).moveTile e.phys e.target) s).mgen = s.mgen := fun tile ranges l =>
    foldl_keeps State.mgen _ (fun a e => by rw [State.mgen_moveTile, State.mgen_moveStore]) l s
  have hents : ∀ (l : List PlanEnt) (a : State),
      (l.foldl (fun a e => a.modPhy e.phys fun P => P.applyEnt e) a).mgen = a.mgen := fun l a =>
    foldl_keeps State.mgen (fun a (e : PlanEnt) => a.modPhy e.phys fun P => P.applyEnt e) (fun _ _ => rfl) l a
  have hmarks : ∀ (l : List RouteChange) (a : State),
      (l.foldl (fun a c => a.sendMarker (s.phy c.phys) c) a).mgen = a.mgen := fun l a =>
    foldl_keeps State.mgen _ (fun a _ => a.mgen_sendMarker _ _) l a
  unfold State.applyPlan
  dsimp only
  rw [hmarks]
  exact (hents _ _).trans (hmoves _ _ _)

/-! ### The re-weave of a bank (R39, R40, R417) -/

/-- What the end of a test leaves alone: the silicon, memory, and the re-weave of tile `t`. -/
def State.bankView (s : State) (t : Nat) : Tab Phys × List Host.Cell × Option Nat × Bool :=
  (s.phys, s.mem, (s.tile t).reweave, (s.tile t).reweaving)

theorem State.bankView_modTile (s : State) (u t : Nat) {f : Tile → Tile} (hr : ∀ T, (f T).reweave = T.reweave)
    (hw : ∀ T, (f T).reweaving = T.reweaving) : (s.modTile u f).bankView t = s.bankView t := by
  by_cases h : t = u
  · subst h
    simp [State.bankView, hr, hw]
  · simp [State.bankView, State.tile_modTile_of_ne _ _ h]

theorem State.bankView_hwStitch (s : State) (u dst label : Nat) (elem : Bool) (unit : Nat) (st : BitVec 4) (v w : Word)
    (h : Option (BitVec 32)) (t : Nat) : (s.hwStitch u dst label elem unit st v w h).bankView t = s.bankView t :=
  s.bankView_modTile u t (f := fun T => { T with router := T.router.countUp dst label }) (fun _ => rfl) (fun _ => rfl)

theorem State.bankView_advise (s : State) (u result emask bank t : Nat) :
    (s.advise u result emask bank).bankView t = s.bankView t := by
  unfold State.advise
  dsimp only
  split
  · exact (State.bankView_hwStitch _ _ _ _ _ _ _ _ _ _ _).trans (s.bankView_modTile u t (fun _ => rfl) (fun _ => rfl))
  · rfl

/-- A test that ends without a failure leaves the banks alone. -/
theorem State.bankView_endTest (s : State) (u i fails cycles : Nat) {result : Nat} (h : result ≠ 1) (t : Nat) :
    (s.endTest u i fails cycles result).bankView t = s.bankView t := by
  unfold State.endTest
  split
  · rfl
  next x _ =>
    dsimp only
    rw [if_neg h]
    have h1 : ∀ f d, ((s.modSwatch u f).care1 u 0x000C d).bankView t = s.bankView t := fun f d =>
      s.bankView_modTile u t (f := fun T => { T with swatch := f T.swatch }) (fun _ => rfl) (fun _ => rfl)
    have h2 : ∀ a : State, a.bankView t = s.bankView t → (if x.booked = true
        then (a.unbook x.issuer 40).hwStitch u x.issuer 0 false 0 4 x.desc (resultWord fails cycles result) none else a).bankView t
          = s.bankView t := by
      intro a ha
      split
      · exact (State.bankView_hwStitch _ _ _ _ _ _ _ _ _ _ _).trans ha
      · exact ha
    split
    · exact (State.bankView_advise _ _ _ _ _ _).trans (h2 _ (h1 _ _))
    · exact h2 _ (h1 _ _)

theorem State.bankView_abandon (s : State) (u : Nat) (gone : Test → Bool) (t : Nat) :
    (s.abandon u gone).bankView t = s.bankView t := by
  unfold State.abandon
  refine foldl_keeps (fun a : State => a.bankView t) _ (fun a _ => ?_) _ s
  split
  · exact State.bankView_endTest _ _ _ _ _ (by decide) _
  · rfl

theorem State.phy_modPhy_self (s : State) (p : Nat) (f : Phys → Phys) : (s.modPhy p f).phy p = f (s.phy p) :=
  Tab.get_put_self _ _ _ _

/-- The machine once the bank `b` that tile `t` re-weaves has left its store (R40). -/
def State.rewoven (s : State) (t b : Nat) : State :=
  let s1 := s.modPhy (s.physOf t) fun P => { P with banks := P.banks &&& ~~~(1#16 <<< b) }
  (s1.loseFrom t (s1.lsize t)).modTile t fun T => { T with reweave := none, reweaving := false, marked := natErase b T.marked }

/-- What is left to do after the bank has left, tests and stitches, leaves the banks alone. -/
theorem exec_bankReweaveDone {s : State} {b : Nat} (hb : (s.tile s.ev.tile).reweave = some b)
    (hr : (s.tile s.ev.tile).reweaving = true) :
    Rules.nextWith (exec .bankReweaveDone s) fun u => u.bankView s.ev.tile = (s.rewoven s.ev.tile b).bankView s.ev.tile := by
  have he : exec .bankReweaveDone s = execBankReweaveDone s := rfl
  rw [execBankReweaveDone, hb] at he
  dsimp only at he
  rw [if_neg (by simp [hr])] at he
  refine nextWith_of_eq he ((State.bankView_hwStitch _ _ _ _ _ _ _ _ _ _ _).trans ?_)
  exact State.bankView_abandon _ _ _ _

/-- Above the new size the store is lost; every other byte stays. -/
theorem State.byte_loseFrom (s : State) (t off a : Nat) :
    (s.loseFrom t off).byte a = if localLoc t off ≤ a ∧ a < localLoc t 0x100000 then unlisted else s.byte a := by
  refine (cellGet_filter (fun a => !decide (localLoc t off ≤ a ∧ a < localLoc t 0x100000)) s.mem a).trans ?_
  by_cases h : localLoc t off ≤ a ∧ a < localLoc t 0x100000 <;> simp [h, State.byte]

theorem banksRewoven : Rules.BanksRewoven := by
  intro s b t hb
  have hb' : (s.tile s.ev.tile).reweave = some b := hb
  refine ⟨fun hs => congrArg Host.Outcome.next (if_pos ⟨by simp [hb'], hs⟩),
    fun h1 h2 h3 => congrArg Host.Outcome.next (if_neg fun h => h.2.elim h1 (·.elim h2 h3)), fun hr => ?_⟩
  obtain ⟨u, hu, hv⟩ := exec_bankReweaveDone hb hr
  simp only [State.bankView, Prod.mk.injEq] at hv
  obtain ⟨hphys, hmem, hre, hing⟩ := hv
  refine nextWith_of_eq hu ⟨?_, ?_, ?_, fun a => ?_⟩
  · rw [State.phy, hphys]
    exact congrArg Phys.banks (State.phy_modPhy_self s (s.physOf s.ev.tile) fun P => { P with banks := P.banks &&& ~~~(1#16 <<< b) })
  · rw [hre, State.rewoven, State.tile_modTile_self]
  · rw [hing, State.rewoven, State.tile_modTile_self]
  · rw [State.byte, hmem]
    exact State.byte_loseFrom _ _ _ _

end Sys2Proof.Machine
end

section
/-!
SUPPORT. DARN: its forms case by case (R413, R414, R416, R417), and the check of a plan's routes (R22, R413).
-/
namespace Sys2Proof.Machine

/-! ### Readiness -/

/-- An instruction that reads and writes two ready registers waits for neither. -/
theorem Slot.pendsOn_left {x : Slot} {d a : BitVec 5} (h : x.pendsOn [d, a] = false) : x.pendsOn [d] = false := by
  simp only [Slot.pendsOn, List.any_cons, List.any_nil, Bool.or_false, Bool.or_eq_false_iff] at h ⊢
  exact h.1

/-! ### PREP (R413) -/

theorem State.prepHead_of_busy {s : State} (bs : List Byte) (h : s.planBusy = true) : s.prepHead bs = 1 := if_pos h

theorem State.prepHead_of_stale {s : State} {bs : List Byte} (h : s.planBusy = false)
    (hm : BitVec.ofNat 32 (blkField bs 8 4) ≠ s.mgen) : s.prepHead bs = 2 := by
  rw [State.prepHead, if_neg (by simp [h]), if_pos hm]

theorem State.prepHead_of_count {s : State} {bs : List Byte} (h : s.planBusy = false)
    (hm : BitVec.ofNat 32 (blkField bs 8 4) = s.mgen) (hn : blkField bs 0 2 = 0 ∨ 4096 < blkField bs 0 2) : s.prepHead bs = 3 := by
  rw [State.prepHead, if_neg (by simp [h]), if_neg (not_not.2 hm), if_pos (hn.imp_right .inl)]

theorem State.prepHead_eq_zero {s : State} {bs : List Byte} (h : s.planBusy = false)
    (hm : BitVec.ofNat 32 (blkField bs 8 4) = s.mgen) (h1 : 1 ≤ blkField bs 0 2) (h4 : blkField bs 0 2 ≤ 4096)
    (h2 : blkField bs 2 6 = 0) (h12 : blkField bs 12 4 = 0) : s.prepHead bs = 0 := by
  rw [State.prepHead, if_neg (by simp [h]), if_neg (not_not.2 hm), if_neg (by omega)]

section
variable {s s1 s2 : State} {d a : BitVec 5} {bs all : List Byte}

/-- PREP of a header that is not taken answers its status. -/
theorem exec_darnPrep_head {c : Nat} (hr : Rules.ready s [d, a]) (hm : s.cur.mode = .system)
    (hb : s.readBlock (.darnPrep d a) (s.cur.sreg a) 64 16 = .got s1 bs) (hc : s1.prepHead bs = c) (h0 : c ≠ 0) :
    exec (.darnPrep d a) s = .next (s1.finish d (s1.darnWord c 0)) := by
  show execDarnPrep d a s = _
  rw [execDarnPrep, if_neg (by rw [hr]; decide), if_neg (by simp [hm]), hb]
  dsimp only
  rw [hc, if_pos h0]

/-- PREP of a header that is taken reads the whole plan and checks it. -/
theorem exec_darnPrep_whole (hr : Rules.ready s [d, a]) (hm : s.cur.mode = .system)
    (hb : s.readBlock (.darnPrep d a) (s.cur.sreg a) 64 16 = .got s1 bs) (hc : s1.prepHead bs = 0)
    (ha : s1.readBlock (.darnPrep d a) (s.cur.sreg a) 64 (16 + 16 * blkField bs 0 2) = .got s2 all) :
    exec (.darnPrep d a) s = .next (s2.prep d all) := by
  show execDarnPrep d a s = _
  rw [execDarnPrep, if_neg (by rw [hr]; decide), if_neg (by simp [hm]), hb]
  dsimp only
  rw [hc, if_neg (not_not.2 rfl), ha]

end

theorem State.prep_of_malformed {s : State} {d : BitVec 5} {bs : List Byte} {i : Nat}
    (h : malformedAt 0 [] (planEnts bs (blkField bs 0 2)) = some i) : s.prep d bs = s.finish d (s.darnWord 3 i) := by
  rw [State.prep, State.prepPlan, h]

/-- A plan whose entries are well formed is staged where it passes its checks. -/
theorem State.prep_of_formed {s : State} {d : BitVec 5} {bs : List Byte}
    (h : malformedAt 0 [] (planEnts bs (blkField bs 0 2)) = none) :
    let es := (planEnts bs (blkField bs 0 2)).map (·.2)
    let r := s.checkPlan es
    s.prep d bs = if r.1 = 0 then { s with plan := some ⟨s.ft, es, none, []⟩ }.finish d (s.darnWord 0 0)
      else s.finish d (s.darnWord r.1 r.2) := by
  intro es r
  rw [State.prep, State.prepPlan, h]
  change (match r with
    | (0, _) => ({ s with plan := some ⟨s.ft, es, none, []⟩ }, s.darnWord 0 0)
    | (c, i) => (s, s.darnWord c i)).1.finish d (match r with
    | (0, _) => ({ s with plan := some ⟨s.ft, es, none, []⟩ }, s.darnWord 0 0)
    | (c, i) => (s, s.darnWord c i)).2 = _
  obtain ⟨c, i⟩ := r
  cases c <;> rfl

/-! ### ABORT (R413, R416) -/

/-- A staged plan of an owner, and none of another. -/
theorem State.stagedBy_of_owner {s : State} {p : Plan} {own : Nat} (hp : s.plan = some p) (ho : p.owner = own)
    (hk : p.slot = none) : s.stagedBy own = some p := by
  simp [State.stagedBy, hp, ho, hk]

theorem State.stagedBy_of_plan_none {s : State} (own : Nat) (hp : s.plan = none) : s.stagedBy own = none := by
  rw [State.stagedBy, hp, Option.filter_none]

theorem State.stagedBy_of_other {s : State} {p : Plan} {own : Nat} (hp : s.plan = some p) (ho : p.owner ≠ own) :
    s.stagedBy own = none := by
  simp [State.stagedBy, hp, ho]

section
variable {s : State} {d : BitVec 5} (hr : s.cur.pendsOn [d] = false) (hm : s.cur.mode = .system)
include hr hm

theorem exec_darnAbort_of_none (h : s.stagedHere = none) : exec (.darnAbort d) s = .next (s.finish d (s.darnWord 7 0)) := by
  show execDarnAbort d s = _
  rw [execDarnAbort, if_neg (by simp [hr]), if_neg (by simp [hm]), if_neg (by simp [h])]

theorem exec_darnAbort_of_some {p : Plan} (h : s.stagedHere = some p) :
    exec (.darnAbort d) s = .next ({ s with plan := none }.finish d (s.darnWord 0 0)) := by
  show execDarnAbort d s = _
  rw [execDarnAbort, if_neg (by simp [hr]), if_neg (by simp [hm]), if_pos (by simp [h])]

/-! ### COMMIT (R414) -/

theorem exec_darnCommit_answers {u : State} {w : Word} (h : s.commitPlan s.ft s.fk = (u, some w)) :
    exec (.darnCommit d) s = .next (u.finish d w) := by
  show execDarnCommit d s = _
  rw [execDarnCommit, if_neg (by simp [hr]), if_neg (by simp [hm])]
  dsimp only
  rw [h]

theorem exec_darnCommit_waits {u : State} (h : s.commitPlan s.ft s.fk = (u, none)) : exec (.darnCommit d) s = .next u := by
  show execDarnCommit d s = _
  rw [execDarnCommit, if_neg (by simp [hr]), if_neg (by simp [hm])]
  dsimp only
  rw [h]

end

/-- Without a plan of the owner there is nothing to commit. -/
theorem State.commitPlan_of_no_plan {s : State} {own slot : Nat} (h : ∀ p, s.plan = some p → p.owner ≠ own) :
    s.commitPlan own slot = (s, some (s.darnWord 7 0)) := by
  have hw : (s.plan.any fun p => p.owner == own && p.slot == some slot) = false := by
    cases hp : s.plan with
    | none => rfl
    | some p => simp [h p hp]
  have hs : s.stagedBy own = none := by
    cases hp : s.plan with
    | none => exact State.stagedBy_of_plan_none own hp
    | some p => exact State.stagedBy_of_other hp (h p hp)
  rw [State.commitPlan, hw, if_neg (by decide), hs]

/-- A plan that waits for its drain ends with it. -/
theorem State.commitPlan_of_waiting {s : State} {p : Plan} {own slot : Nat} (hp : s.plan = some p) (ho : p.owner = own)
    (hk : p.slot = some slot) : s.commitPlan own slot
      = if s.drained then ({ s with plan := none }, some (s.darnWord 0 0)) else (s, none) := by
  have hw : (s.plan.any fun p => p.owner == own && p.slot == some slot) = true := by simp [hp, ho, hk]
  rw [State.commitPlan, hw, if_pos rfl]

/-- A staged plan is checked again: it is discarded with the status of a check that fails now, takes effect at once where its routes need
no drain, or waits. -/
theorem State.commitPlan_of_staged {s : State} {p : Plan} {own slot : Nat} (hp : s.plan = some p) (ho : p.owner = own)
    (hk : p.slot = none) :
    let r := s.checkPlan p.ents
    let u := s.applyPlan { p with slot := some slot }
    s.commitPlan own slot = if r.1 ≠ 0 then ({ s with plan := none }, some (s.darnWord r.1 r.2))
      else if u.drained then ({ u.settleDue with plan := none }, some (u.settleDue.darnWord 0 0)) else (u, none) := by
  intro r u
  have hw : (s.plan.any fun p => p.owner == own && p.slot == some slot) = false := by simp [hp, hk]
  rw [State.commitPlan, hw, if_neg (by decide), State.stagedBy_of_owner hp ho hk]
  change (match r with
    | (0, _) => if u.drained then ({ u.settleDue with plan := none }, some (u.settleDue.darnWord 0 0)) else (u, none)
    | (c, i) => ({ s with plan := none }, some (s.darnWord c i))) = _
  obtain ⟨c, i⟩ := r
  cases c <;> rfl

/-! ### BANK (R39, R41, R417) -/

theorem State.bankStatus_of_unmarked {s : State} {x y b : Nat}
    (h : 135 < x ∨ 187 < y ∨ b ∉ (s.tile (tileKey x y)).marked) : s.bankStatus x y b = 8 := if_pos (by simpa using h)

section
variable {s : State} {x y b : Nat} (hx : x ≤ 135) (hy : y ≤ 187) (hb : b ∈ (s.tile (tileKey x y)).marked)
include hx hy hb

theorem State.bankStatus_of_marked : s.bankStatus x y b = if bankCount (s.silicon (tileKey x y)).banks < 13 then 9
    else if (s.tile (tileKey x y)).reweave.isSome then 10 else 0 :=
  if_neg (not_or.2 ⟨Nat.not_lt.2 hx, not_or.2 ⟨Nat.not_lt.2 hy, by simp [hb]⟩⟩)

theorem State.bankStatus_of_few (h : bankCount (s.silicon (tileKey x y)).banks < 13) : s.bankStatus x y b = 9 := by
  rw [State.bankStatus_of_marked hx hy hb, if_pos h]

theorem State.bankStatus_of_reweaving (h : 13 ≤ bankCount (s.silicon (tileKey x y)).banks)
    (hr : (s.tile (tileKey x y)).reweave ≠ none) : s.bankStatus x y b = 10 := by
  rw [State.bankStatus_of_marked hx hy hb, if_neg (Nat.not_lt.2 h), if_pos (Option.isSome_iff_ne_none.2 hr)]

theorem State.bankStatus_eq_zero (h : 13 ≤ bankCount (s.silicon (tileKey x y)).banks)
    (hr : (s.tile (tileKey x y)).reweave = none) : s.bankStatus x y b = 0 := by
  rw [State.bankStatus_of_marked hx hy hb, if_neg (Nat.not_lt.2 h), if_neg (by simp [hr])]

end

section
variable {s : State} {d a : BitVec 5} (hr : Rules.ready s [d, a]) (hm : s.cur.mode = .system)
include hr hm

theorem exec_darnBank_illegal (h : get (s.cur.sreg a) 63 20 ≠ 0) :
    exec (.darnBank d a) s = .next (s.trapIllegal (.darnBank d a)) := by
  show execDarnBank d a s = _
  rw [execDarnBank, if_neg (by rw [hr]; decide), if_neg (by simp [hm]), if_pos h]

theorem exec_darnBank_eq (h : get (s.cur.sreg a) 63 20 = 0) {c : Nat}
    (hc : s.bankStatus (get (s.cur.sreg a) 7 0) (get (s.cur.sreg a) 15 8) (get (s.cur.sreg a) 19 16) = c) :
    let u := if c = 0 then s.modTile (tileKey (get (s.cur.sreg a) 7 0) (get (s.cur.sreg a) 15 8)) fun T =>
      { T with reweave := some (get (s.cur.sreg a) 19 16) } else s
    exec (.darnBank d a) s = .next (u.finish d (u.darnWord c 0)) := by
  show execDarnBank d a s = _
  rw [execDarnBank, if_neg (by rw [hr]; decide), if_neg (by simp [hm]), if_neg (not_not.2 h)]
  dsimp only
  rw [hc]

end

/-! ### The statements on DARN and its routes -/

theorem darnForms : Rules.DarnForms := by
  intro s d a hr hm status
  have hd : s.cur.pendsOn [d] = false := Slot.pendsOn_left hr
  refine ⟨fun s1 bs hb => ⟨fun h => ?_, fun h hg => ?_, fun h hg => ⟨fun hn => ?_, fun h1 h4 h2 h12 s2 all ha => ?_⟩⟩,
    exec_darnAbort_of_none hd hm, fun p => exec_darnAbort_of_some hd hm, fun hp => ?_, fun p hp ho => ⟨?_, ?_⟩,
    fun p hp ho hk => ⟨?_, ?_⟩, fun p hp ho hk => ?_, exec_darnBank_illegal hr hm, fun h0 => ⟨fun hu => ?_, fun hx hy hb => ⟨fun h => ?_,
    fun h hw => ?_, fun h hw => ?_⟩⟩, fun hc => ?_, fun hc => ?_⟩
  · exact exec_darnPrep_head hr hm hb (State.prepHead_of_busy bs h) (by decide)
  · exact exec_darnPrep_head hr hm hb (State.prepHead_of_stale h hg) (by decide)
  · exact exec_darnPrep_head hr hm hb (State.prepHead_of_count h hg hn) (by decide)
  · have he := exec_darnPrep_whole hr hm hb (State.prepHead_eq_zero h hg h1 h4 h2 h12) ha
    exact ⟨fun i hi => he.trans (congrArg _ (State.prep_of_malformed hi)), fun hi => he.trans (congrArg _ (State.prep_of_formed hi))⟩
  · exact exec_darnCommit_answers hd hm (State.commitPlan_of_no_plan (by simp [hp]))
  · exact exec_darnCommit_answers hd hm (State.commitPlan_of_no_plan (by simp [hp, ho]))
  · exact exec_darnAbort_of_none hd hm (State.stagedBy_of_other hp ho)
  · have hc := State.commitPlan_of_staged (slot := s.fk) hp ho hk
    dsimp only at hc ⊢
    split_ifs at hc ⊢
    · exact exec_darnCommit_answers hd hm hc
    · exact exec_darnCommit_answers hd hm hc
    · exact exec_darnCommit_waits hd hm hc
  · exact congrArg (· + 1) (State.mgen_applyPlan _ _)
  · have hc := State.commitPlan_of_waiting hp ho hk
    split_ifs at hc ⊢
    · exact exec_darnCommit_answers hd hm hc
    · exact exec_darnCommit_waits hd hm hc
  · exact exec_darnBank_eq hr hm h0 (State.bankStatus_of_unmarked hu)
  · exact exec_darnBank_eq hr hm h0 (State.bankStatus_of_few hx hy hb h)
  · exact exec_darnBank_eq hr hm h0 (State.bankStatus_of_reweaving hx hy hb h hw)
  · exact exec_darnBank_eq hr hm h0 (State.bankStatus_eq_zero hx hy hb h hw)
  · exact congrArg Host.Outcome.next (if_neg (by simp [hc]))
  · exact congrArg Host.Outcome.next (if_pos hc)

/-- The check of one route is the rule of a right route. -/
theorem routeOk_iff (M : Nat → Phys) (p d : Nat) (data : Bool) : routeOk M p d data = true ↔ Rules.routeRight M p d data := by
  unfold routeOk Rules.routeRight
  dsimp only
  cases hn : tileNext (M p).logical d with
  | none => simp
  | some u =>
    cases hw : walkMap M data p 0 (entryHops (entryOf ((M p).drt data) d)) with
    | none => simp
    | some e =>
      obtain ⟨q, n⟩ := e
      simp only [Bool.and_eq_true, decide_eq_true_eq]
      grind

theorem routesOk_iff (M : Nat → Phys) : routesOk M = true ↔
    ∀ p < 140 * 192, 1 ≤ (M p).state → (M p).state ≤ 3 → ∀ d < 4, ∀ data : Bool, Rules.routeRight M p d data := by
  simp only [routesOk, List.all_eq_true, List.mem_range, Bool.or_eq_true, Bool.not_eq_true', decide_eq_false_iff_not,
    Bool.and_eq_true, routeOk_iff, Bool.forall_bool]
  exact forall₂_congr fun p _ => ⟨fun h h1 h3 d hd => (h.resolve_left (not_not.2 ⟨h1, h3⟩) d hd).symm,
    fun h => or_iff_not_imp_left.2 fun hs d hd => (h (not_not.1 hs).1 (not_not.1 hs).2 d hd).symm⟩

/-- Status 5 is that of the routes. -/
theorem State.checkPlan_routes {s : State} {ents : List PlanEnt}
    (h : (ents.findIdx? fun e => e.reg == 0 && !s.transOk ents e) = none) :
    (s.checkPlan ents).1 = 5 ↔ routesOk (s.planned ents) = false := by
  rw [State.checkPlan, h]
  cases hr : routesOk (s.planned ents)
  · simp
  · simp only [Bool.not_true, Bool.false_eq_true, if_false, Bool.true_eq_false, iff_false]
    split <;> simp

theorem plannedRoutes : Rules.PlannedRoutes := by
  intro s ents h M
  rw [State.checkPlan_routes h, ← routesOk_iff, Bool.not_eq_true]

/-- Settles O49: DARN's forms, the routes that a plan must keep, and the bank that leaves its store. -/
theorem darningAndBanks : Obligations.DarningAndBanks := by
  unfold Obligations.DarningAndBanks
  exact ⟨darnForms, plannedRoutes, banksRewoven⟩

end Sys2Proof.Machine
end

section
/-!
SUPPORT. A stitch refused locally that comes back (R381) to a router whose table of pockets lists the return pocket twice: what moves
the stitches of a pocket that is AWAY (R384) finds the second entry and takes from the first.
-/
namespace Sys2Proof.Machine

/-- A stitch that tile 0 has sent and that was refused there. -/
def refusedStitch : Stitch := ⟨0, false, 0, 1, 5, none, false, 0, 0, 0, none, none⟩

/-- The return pocket, empty with room for 64 stitches, and once more, AWAY with a stitch to move to the hold queue. -/
def pocketTwice : Tab Pocket :=
  [(0, { Pocket.reset with state := .idle, depthM1 := 63 }), (0, { Pocket.reset with state := .away, store := [refusedStitch] })]

/-- Tile 0 with these pockets, one stitch refused locally, and a hold queue of two entries. -/
def returnTwice : State :=
  { State.reset with
    tiles := [(0, { Tile.reset with
      router := { Router.reset with pockets := pocketTwice, localRef := [refusedStitch], hqLog := 1 } })] }

/-- The stitches in the return pocket of tile 0 once the refused one has come back. -/
def returnedTwice : Option (List Stitch) :=
  match exec .localRefusalReturn returnTwice with
  | .next t => some ((t.tile 0).router.pocket 0).store
  | _ => none

/-- The refused stitch has gone on from the return pocket to the hold queue. -/
theorem returnedTwice_eq : returnedTwice = some [] := by decide +kernel

theorem not_resumeClearsRefusal : ¬Rules.ResumeClearsRefusal := by
  intro h
  obtain ⟨t, ht, -, hm⟩ := (h returnTwice 0 0 0 none).2.2 refusedStitch (by decide +kernel) (by decide +kernel)
    (by decide +kernel) (by decide +kernel) (by decide +kernel)
  have he := returnedTwice_eq
  rw [returnedTwice, ht] at he
  have hs : ((t.tile 0).router.pocket 0).store = [] := Option.some.inj he
  have hm' : returnTwice.unload 0 refusedStitch ∈ ((t.tile 0).router.pocket 0).store := hm
  rw [hs] at hm'
  cases hm'

/-- Refutes O28: its statement on a stitch refused locally asks nothing of the table of pockets. In a router that lists the return
pocket twice, first IDLE and then AWAY, `refill` finds the second entry and moves the stitches of the first to the hold queue, so that
the refused stitch is not in the return pocket. -/
theorem not_stitchesTravel : ¬Obligations.StitchesTravel := by
  unfold Obligations.StitchesTravel
  exact fun ⟨_, h⟩ => not_resumeClearsRefusal h

end Sys2Proof.Machine
end

section
/-!
SUPPORT. What an instruction boundary takes (R479, R480, R391), and the steps of the memory hardware: late refusals, retries, walks,
early spills and fills (R231, R309, R357, R358, R224).
-/
namespace Sys2Proof.Machine

/-! ### Instruction boundaries -/

theorem exec_lateRefusalTrap_takes {s : State} {x : Late} {r : List Late} (h : (s.slot s.ev.tile s.ev.unit).late = x :: r)
    (hi : (s.slot s.ev.tile s.ev.unit).inTrap = false) :
    exec .lateRefusalTrap s = .next ((s.modSlot s.ev.tile s.ev.unit fun sl => { sl with late := r }).takeTrap s.ev.tile s.ev.unit
      x.cause (s.slot s.ev.tile s.ev.unit).instrPc (s.slot s.ev.tile s.ev.unit).instrPc x.val) := by
  show execLateRefusalTrap s = _
  simp only [execLateRefusalTrap, h, hi, Bool.false_eq_true, if_false]

theorem exec_budgetExpiry_takes {s : State} (h : (s.slot s.ev.tile s.ev.unit).budgetDue = true)
    (hi : (s.slot s.ev.tile s.ev.unit).inTrap = false) :
    exec .budgetExpiry s = .next ((s.modSlot s.ev.tile s.ev.unit fun sl => { sl with budgetDue := false }).takeTrap s.ev.tile
      s.ev.unit 0x08 (s.slot s.ev.tile s.ev.unit).instrPc (s.slot s.ev.tile s.ev.unit).instrPc 0) :=
  congrArg Host.Outcome.next (if_pos (by simp [h, hi]))

theorem exec_reservedEncoding_word {s : State} (h : s.cur.ext = none) :
    exec .reservedEncoding s = .next (s.takeTrap s.ft s.fk 0x01 s.cur.pc s.cur.pc (s.ev.v.setWidth 64)) := by
  show execReservedEncoding s = _
  have hp : s.cur.instrPc = s.cur.pc := if_neg (by simp [h])
  rw [execReservedEncoding, h, State.trap, hp]
  rfl

/-- The second word of an EXT pair is reported with the EXT word and its address (R138, R477). -/
theorem exec_reservedEncoding_pair {s : State} {p : BitVec 25} (h : s.cur.ext = some p) :
    exec .reservedEncoding s = .next (s.takeTrap s.ft s.fk 0x01 (s.cur.pc - 4) (s.cur.pc - 4)
      (BitVec.ofNat 64 (0x02000000 + p.toNat))) := by
  show execReservedEncoding s = _
  have hp : s.cur.instrPc = s.cur.pc - 4 := if_pos (by simp [h])
  rw [execReservedEncoding, h, State.trap, hp]
  rfl

theorem boundaryTraps : Rules.BoundaryTraps := fun _ =>
  ⟨fun _ _ => exec_lateRefusalTrap_takes, exec_budgetExpiry_takes, rfl, exec_reservedEncoding_word,
    fun _ => exec_reservedEncoding_pair⟩

/-! ### Late refusals (R231, R480) -/

/-- A slot that runs a handler holds a late refusal as the last one. -/
theorem Slot.late_pushLate {x : Slot} {o : Owner} (h : x.run = .handler o) (c sub : Nat) (v : Word) :
    (x.pushLate c sub v).late = x.late ++ [⟨trapWord c sub true, v⟩] := by
  rw [Slot.pushLate, h]

@[simp] theorem Slot.pend_pushLate (x : Slot) (c sub : Nat) (v : Word) : (x.pushLate c sub v).pend = x.pend := by
  unfold Slot.pushLate
  split <;> rfl

section
variable {s : State} {p : Pend}

/-- An outstanding access that comes back refused for a cause that holds of it leaves its slot a late refusal. -/
theorem exec_lateRefusalArrival_pend (hp : (s.slot s.ev.tile s.ev.unit).pend? s.ev.n = some p) (hf : p.fe = false)
    (hk : p.kind ≠ .result)
    (hc : s.causeHolds s.ev.tile (p.place s.ev.v.toNat).1 ((p.pieces.head?.map Piece.n).getD 8) false s.ev.cause = true) :
    exec .lateRefusalArrival s = .next (s.modSlot s.ev.tile s.ev.unit fun sl => (sl.dropPend p.id).pushLate
      (lateCode s.ev.cause (p.place s.ev.v.toNat).1).1 (lateCode s.ev.cause (p.place s.ev.v.toNat).1).2
      (p.place s.ev.v.toNat).2) := by
  show execLateRefusalArrival s = _
  rw [execLateRefusalArrival, hp]
  dsimp only
  split
  next h => exact absurd h hk
  next => rw [if_neg (by simp [hc]), if_neg (by simp [hf])]

/-- A read that a failed path has held is cut off (R32). -/
theorem exec_lateRefusalArrival_cut {loc : Nat} (hp : (s.slot s.ev.tile s.ev.unit).pend? s.ev.n = none)
    (hs : ((s.tile s.ev.tile).stores.find? fun e => e.id == s.ev.n && e.slot == s.ev.unit % 8) = none) (hc : s.ev.cause = .epath)
    (hh : (s.slot s.ev.tile s.ev.unit).held = some loc) (hf : s.pathFailed s.ev.tile loc = true) :
    exec .lateRefusalArrival s = .next (s.modSlot s.ev.tile s.ev.unit fun sl => { sl with cut := true }) := by
  show execLateRefusalArrival s = _
  rw [execLateRefusalArrival, hp]
  dsimp only
  rw [hs]
  dsimp only
  rw [if_pos (by simp [hc, hh, hf])]

end

/-! ### Retries (R309) -/

theorem dropAt_eq_eraseIdx {α : Type} (l : List α) (i : Nat) : dropAt l i = l.eraseIdx i := (List.eraseIdx_eq_take_drop_succ l i).symm

theorem exec_feRequestRetry_again {s : State} {q : FeReq} (hq : s.feWait[s.ev.n]? = some q) (hr : q.retry = true)
    (hn : s.nodeFull q.word = false) (ho : s.pathOpen q.tile q.word = true) :
    exec .feRequestRetry s = .next ({ s with feWait := s.feWait.eraseIdx s.ev.n }.feRequest q.who q.word) := by
  show execFeRequestRetry s = _
  rw [execFeRequestRetry, hq]
  dsimp only
  rw [if_neg (by simp [hr]), if_pos (by simp [hn, ho]), dropAt_eq_eraseIdx]

/-! ### Walks (R353, R357, R358) -/

/-- A level of a walk changes the list of walks only. -/
theorem State.walkOn_walkers (s : State) (t u : Nat) (a : BitVec 12) (g : BitVec 4) (va : Word) :
    ∃ l, s.walkOn t u a g va = { s with walkers := l } := by
  unfold State.walkOn
  dsimp only
  split
  · split
    · exact ⟨s.walkers, rfl⟩
    · exact ⟨_, rfl⟩
  · split
    · exact ⟨_, rfl⟩
    · exact ⟨s.walkers, rfl⟩

section
variable {s : State} {t : Nat} (h : ∀ w ∈ s.walkers, w.tile ≠ t)
include h

theorem State.walkEnd_of_no_walker (u : Nat) : s.walkEnd t u = s := by
  have hf : (s.walkers.filter fun w => !(w.tile == t && w.unit == u)) = s.walkers :=
    List.filter_eq_self.2 fun w hw => by simp [h w hw]
  rw [State.walkEnd, hf]

theorem State.walkOf_of_no_walker (u : Nat) (a : BitVec 12) (g : BitVec 4) (va : Word) :
    s.walkOf t u a g va = s.walk (some t) (s.panelOf t) a g va := by
  have hf : (s.walkers.find? fun w => w.tile == t && w.unit == u && w.asid == a && w.gen == g && w.va == va) = none :=
    List.find?_eq_none.2 fun w hw => by simp [h w hw]
  rw [State.walkOf, hf]

/-- A walk of a slot that finds a leaf fills the caches. -/
theorem State.needleTr_of_leaf {k : Nat} (kind : AccKind) {va : Word} (hc : canonical va = true)
    (hg : (s.slot t k).gen = (s.asid (s.slot t k).asid).gen)
    (ht : ((s.tile t).tlb.find? fun e => e.hits (s.slot t k).asid (s.slot t k).gen va) = none) {e : Word} {l : Nat}
    {r : List WalkEnt} (hw : s.walk (some t) (s.panelOf t) (s.slot t k).asid (s.slot t k).gen va = .leaf e l r) :
    (s.needleTr t k kind va).1 = s.cacheWalk t (s.slot t k).asid (s.slot t k).gen va e l r := by
  rw [State.needleTr, if_neg (by simp [hc]), if_neg (not_not.2 hg), ht]
  dsimp only
  rw [State.walkOf_of_no_walker h, hw]
  dsimp only
  rw [State.walkEnd_of_no_walker h]

end

/-! ### Early spills and fills (R224) -/

theorem exec_earlySpillOrFill_spills {s u : State} (hr : (s.slot s.ev.tile s.ev.unit).runs = true) (hf : s.ev.flag = false)
    (h : s.spill s.ev.tile s.ev.unit .ret = .done u) : exec .earlySpillOrFill s = .next u := by
  show execEarlySpillOrFill s = _
  rw [execEarlySpillOrFill]
  rw [if_neg (by simp [hr]), if_neg (by simp [hf]), h]

theorem exec_earlySpillOrFill_fills {s u : State} (hr : (s.slot s.ev.tile s.ev.unit).runs = true) (hf : s.ev.flag = true)
    (hd : (s.slot s.ev.tile s.ev.unit).frames.length < (s.slot s.ev.tile s.ev.unit).depth.toNat)
    (h5 : (s.slot s.ev.tile s.ev.unit).frames.length < 5) (h : s.fillWindow s.ev.tile s.ev.unit .ret = .done u) :
    exec .earlySpillOrFill s = .next u := by
  show execEarlySpillOrFill s = _
  rw [execEarlySpillOrFill]
  rw [if_neg (by simp [hr]), if_pos hf, if_pos ⟨hd, h5⟩, h]

theorem memoryHardwareSteps : Rules.MemoryHardwareSteps := by
  intro s
  refine ⟨fun p o hp hf hk hr hc => ?_, fun q => exec_feRequestRetry_again, fun hf => ?_, fun hf hc hg ht hn e l r hw => ?_,
    fun u => exec_earlySpillOrFill_spills, fun u => exec_earlySpillOrFill_fills,
    fun hp hs hc ⟨_, hh, hl⟩ => exec_lateRefusalArrival_cut hp hs hc hh hl⟩
  · have hd : ((s.slot s.ev.tile s.ev.unit).dropPend p.id).run = .handler o := hr
    refine nextWith_of_eq (exec_lateRefusalArrival_pend hp hf hk hc) ⟨sameMemory_of_memory_eq rfl, ?_, ?_⟩
    · rw [State.slot_modSlot_self]
      exact Slot.late_pushLate hd _ _ _
    · rw [State.slot_modSlot_self, Slot.pend_pushLate]
      rfl
  · have he : exec .tlbWalk s = .next (s.walkOn s.ev.tile (s.ev.unit % 8) (s.slot s.ev.tile s.ev.unit).asid
        (s.slot s.ev.tile s.ev.unit).gen (s.ev.v.setWidth 64)) := congrArg Host.Outcome.next (if_pos hf)
    obtain ⟨w, hw⟩ := s.walkOn_walkers s.ev.tile (s.ev.unit % 8) (s.slot s.ev.tile s.ev.unit).asid
      (s.slot s.ev.tile s.ev.unit).gen (s.ev.v.setWidth 64)
    rw [hw] at he
    exact nextWith_of_eq he ⟨sameMemory_of_memory_eq rfl, rfl, rfl⟩
  · exact congrArg Host.Outcome.next ((if_neg (by simp [hf])).trans (State.needleTr_of_leaf hn s.ev.kind hc hg ht hw))

/-- Settles O19: the traps of an instruction boundary, and the memory hardware's steps. -/
theorem boundaryTrapsAndWalks : Obligations.BoundaryTrapsAndWalks := by
  unfold Obligations.BoundaryTrapsAndWalks
  exact ⟨boundaryTraps, memoryHardwareSteps⟩

end Sys2Proof.Machine
end

section
/-!
SUPPORT. Stores: how one enters the pending-store table (R230, R329, R331), and what its acknowledgement does to memory, to the table and
to its slot (R231, R295, R308, R329, R488).
-/
namespace Sys2Proof.Machine

/-! ### Bytes written (R324) -/

/-- Of the bytes written from a location, each is read back; every other byte stays. -/
theorem cellGet_cellWrite : ∀ (bs : List Byte) {lo a : Nat} {m : List Host.Cell} (k : Nat), cellsFrom lo m = true → lo ≤ a →
    cellGet (cellWrite m a bs) k = if a ≤ k ∧ k < a + bs.length then bs[k - a]! else cellGet m k
  | [], _, a, m, k, _, _ => by
    rw [if_neg (by simp), cellWrite]
  | b :: r, lo, a, m, k, w, h => by
    rw [cellWrite, cellGet_cellWrite r k (cellsFrom_cellPut a b w h) (Nat.le_succ_of_le h), cellGet_cellPut b w]
    rcases Nat.lt_trichotomy k a with hlt | rfl | hgt
    · rw [if_neg (by omega), if_neg (by omega), if_neg (by omega)]
    · rw [if_neg (by omega), if_pos rfl, if_pos (by simp)]
      simp
    · obtain ⟨j, rfl⟩ : ∃ j, k = a + 1 + j := ⟨k - (a + 1), by omega⟩
      have h1 : a + 1 + j - (a + 1) = j := by omega
      have h2 : a + 1 + j - a = j + 1 := by omega
      rw [if_neg (c := a + 1 + j = a) (by omega), h1, h2, List.length_cons]
      exact if_congr (by omega) (by simp) rfl

section
variable {s : State} (hi : s.Inv)
include hi

theorem State.byte_write (loc : Nat) (bs : List Byte) (a : Nat) :
    (s.write loc bs).byte a = if loc ≤ a ∧ a < loc + bs.length then bs[a - loc]! else s.byte a :=
  cellGet_cellWrite bs a hi (Nat.zero_le _)

end

/-! ### Entering the table (R230, R329, R331) -/

/-- The table entry of a store of slot `k` that leaves as request `id`. -/
def storeEntry (id k : Nat) (va : Word) (loc : Nat) (bs : List Byte) (fe rel : Bool) : StoreEnt :=
  ⟨id, k, va, loc, bs, fe, .bytes, id, false, rel || fe⟩

/-- A store that may leave, to a place that is no control register, enters the table, and its slot goes on. -/
theorem State.needleStore_enters {s s1 : State} {i : Instr} {allowed : Nat → Place → Bool} {va : Word} {bs : List Byte}
    {rel sys fe : Bool} {p : Place} (hc : s.checkIn s.ft s.fk i .store allowed va bs.length = .ok s1 p fe)
    (hm : s1.mayAccess s1.ft s1.fk p.loc bs.length = true)
    (hr : rel = true ∨ fe = true → s1.releasedTo s1.ft s1.fk p.loc sys = true) (hp : ∀ pa, p ≠ .control pa)
    (he : entriesOf (s1.tile s1.ft).stores < 64) :
    s.needleStore i allowed va bs rel sys = (s1.enterStore s1.ft s1.fk va p.loc bs fe rel).modCur Slot.advance := by
  have hn : ¬((!s1.mayAccess s1.ft s1.fk p.loc bs.length || ((rel || fe) && !s1.releasedTo s1.ft s1.fk p.loc sys)) = true) := by
    simpa [hm] using hr
  have hroom : s1.storeRoom s1.ft 1 = true := by simp [State.storeRoom]; omega
  rw [State.needleStore, hc]
  dsimp only
  rw [if_neg hn]
  cases p with
  | control pa => exact absurd rfl (hp pa)
  | _ => exact if_pos hroom

/-- A store to control space takes effect at once. -/
theorem State.needleStore_control {s s1 : State} {i : Instr} {allowed : Nat → Place → Bool} {va : Word} {bs : List Byte}
    {rel sys fe : Bool} {pa : Nat} (hc : s.checkIn s.ft s.fk i .store allowed va bs.length = .ok s1 (.control pa) fe)
    (hm : s1.mayAccess s1.ft s1.fk pa bs.length = true)
    (hr : rel = true ∨ fe = true → s1.releasedTo s1.ft s1.fk pa sys = true) :
    s.needleStore i allowed va bs rel sys = (s1.ctlStore pa bs).modCur Slot.advance := by
  rw [State.needleStore, hc]
  dsimp only
  rw [if_neg (by simpa [Place.loc, hm] using hr)]
  rfl

/-- The machine `u` is `s` with store `e` in the table of its running slot's tile, and the slot gone on. -/
structure State.StoreEntered (s u : State) (e : StoreEnt) : Prop where
  memory : u.memory = s.memory
  table : (u.tile s.ft).stores = (s.tile s.ft).stores ++ [e]
  slot : u.slot s.ft s.fk = s.cur.advance
  others : ∀ t, t ≠ s.ft → u.tile t = s.tile t

theorem State.storeEntered_enterStore (s : State) (va : Word) (loc : Nat) (bs : List Byte) (fe rel : Bool) :
    s.StoreEntered ((s.enterStore s.ft s.fk va loc bs fe rel).modCur Slot.advance) (storeEntry s.seq s.fk va loc bs fe rel) := by
  have hu : (s.enterStore s.ft s.fk va loc bs fe rel).tile s.ft
      = { s.tile s.ft with stores := (s.tile s.ft).stores ++ [storeEntry s.seq s.fk va loc bs fe rel] } :=
    State.tile_modTile_self s.stamp _ _
  have hc : (s.enterStore s.ft s.fk va loc bs fe rel).cur = s.cur := by
    show ((s.enterStore s.ft s.fk va loc bs fe rel).tile s.ft).slot s.fk = _
    rw [hu]
    rfl
  exact {
    memory := rfl
    table := (congrArg Tile.stores (State.tile_modCur (s.enterStore s.ft s.fk va loc bs fe rel) Slot.advance)).trans
      (congrArg Tile.stores hu)
    slot := (State.cur_modCur (s.enterStore s.ft s.fk va loc bs fe rel) Slot.advance).trans
      (congrArg Slot.advance hc)
    others := fun t ht => (State.tile_modCur_of_ne (s.enterStore s.ft s.fk va loc bs fe rel) Slot.advance ht).trans
      (State.tile_modTile_of_ne s.stamp _ ht) }

/-- The order that an XST takes among those of its slot is no part of what a store changes (R425). -/
theorem State.StoreEntered.noteX {s s0 u : State} {e : StoreEnt} (h : s.StoreEntered u e) (hf : s0.ft = s.ft) :
    s.StoreEntered (s0.noteX u) e := by
  unfold State.noteX
  split
  · exact h
  · rw [hf]
    exact {
      memory := h.memory
      table := by rw [State.tile_modTile_self]; exact h.table
      slot := by rw [State.slot, State.tile_modTile_self]; exact h.slot
      others := fun t ht => by rw [State.tile_modTile_of_ne _ _ ht]; exact h.others t ht }

theorem exec_st_of_ready {s : State} {d b : BitVec 5} {z : BitVec 3} {o : BitVec 2} {x : BitVec 10}
    (hr : Rules.ready s (b :: sizeRegs d (2 ^ z.toNat))) :
    exec (.st d b z o x) s = .next (s.needleStore (.st d b z o x) (fun _ _ => true)
      (s.cur.sreg b + s.cur.immS x * BitVec.ofNat 64 (2 ^ z.toNat)) (s.cur.storeBytes d (2 ^ z.toNat)) (o == 2) false) :=
  congrArg Host.Outcome.next (if_neg (Bool.eq_false_iff.1 hr))

theorem exec_xst_of_ready {s : State} {d b : BitVec 5} {z : BitVec 3} {o : BitVec 2} {x : BitVec 10}
    (hr : Rules.ready s (b :: sizeRegs d (2 ^ z.toNat))) :
    exec (.xst d b z o x) s = .next (s.noteX (s.needleStore (.xst d b z o x) peerPlace
      (s.cur.sreg b + s.cur.immS x * BitVec.ofNat 64 (2 ^ z.toNat)) (s.cur.storeBytes d (2 ^ z.toNat)) (o == 2) (o == 2))) :=
  congrArg Host.Outcome.next (if_neg (Bool.eq_false_iff.1 hr))

theorem storesEnterTable : Rules.StoresEnterTable := by
  intro s s1 d b z o x p fe n va bs hr hl hft hfk hm
  have hm' : s1.mayAccess s1.ft s1.fk p.loc bs.length = true := by rw [hl]; exact hm
  have entered : ∀ {u : State}, s1.StoreEntered u (storeEntry s1.seq s1.fk va p.loc bs fe (o == 2)) → u.ft = s1.ft → u.fk = s1.fk →
      Rules.sameMemory s1 u ∧ (u.tile s.ft).stores = (s1.tile s.ft).stores
          ++ [⟨s1.seq, s.fk, va, p.loc, bs, fe, .bytes, s1.seq, false, o == 2 || fe⟩]
        ∧ u.cur = s1.cur.advance ∧ ∀ t, t ≠ s.ft → u.tile t = s1.tile t := by
    intro u h huf huk
    rw [← hft, ← hfk]
    exact ⟨sameMemory_of_memory_eq h.memory, h.table, by rw [State.cur, huf, huk]; exact h.slot, h.others⟩
  refine ⟨fun i hi hst hxst hp he => ?_, fun pa hp hc hrel => ?_⟩
  · have hin := s1.storeEntered_enterStore va p.loc bs fe (o == 2)
    rcases List.mem_pair.1 hi with rfl | rfl
    · obtain ⟨hc, hrel⟩ := hst rfl
      have hx := exec_st_of_ready (d := d) (b := b) (z := z) (o := o) (x := x) hr
      rw [State.needleStore_enters (by rw [hl]; exact hc) hm' (by simpa using hrel) hp he] at hx
      exact nextWith_of_eq hx (entered hin rfl rfl)
    · obtain ⟨hc, hrel⟩ := hxst rfl
      have hx := exec_xst_of_ready (d := d) (b := b) (z := z) (o := o) (x := x) hr
      rw [State.needleStore_enters (by rw [hl]; exact hc) hm' (by simpa using hrel) hp he] at hx
      refine nextWith_of_eq hx (entered (hin.noteX hft.symm) ?_ ?_) <;> (unfold State.noteX; split <;> rfl)
  · subst hp
    rw [exec_st_of_ready hr, State.needleStore_control (by rw [hl]; exact hc) hm' (by simpa using hrel)]
    rfl

/-! ### Acknowledgements (R329) -/

/-- A store that has left the table is performed at system scope after what it is to follow (R332, R334, R344). -/
theorem exec_storeAck_behind {s : State} {b : Behind}
    (hn : ((s.tile s.ev.tile).stores.find? fun e => e.id == s.ev.n) = none)
    (hb : (s.behind.find? fun b => b.id == s.ev.n && b.tile == s.ev.tile) = some b) :
    exec .storeAck s = .next (if (s.behind.takeWhile fun x => x.id != b.id).any (fun x => s.systemAfter x b) = true then s
      else { s with behind := s.behind.filter fun x => x.id != b.id }) := by
  show execStoreAck s = _
  rw [execStoreAck, hn]
  dsimp only
  rw [State.systemAck, hb]

/-- Stores of different tiles without a common byte are performed in any order, unless the later is a release. -/
theorem State.systemAfter_eq_false {s : State} {x b : Behind} (hr : b.rel = false) (ht : x.tile ≠ b.tile)
    (ho : overlaps x.loc x.old.length b.loc b.old.length = false) : s.systemAfter x b = false := by
  simp [State.systemAfter, hr, ht, ho]

theorem State.systemAfter_eq_true {s : State} {x b : Behind} (h : b.rel = true ∨ overlaps x.loc x.old.length b.loc b.old.length = true
    ∨ (x.tile = b.tile ∧ 2 ^ 64 ≤ x.loc ∧ 2 ^ 64 ≤ b.loc)) : s.systemAfter x b = true := by
  rcases h with h | h | ⟨ht, hx, hb⟩
  · simp [State.systemAfter, h]
  · simp [State.systemAfter, h]
  · simp only [State.systemAfter, ht, hx, hb, and_self, decide_true, Bool.true_or, Bool.and_true, Bool.or_true]

/-- What an entry of the table does when it is acknowledged alone. -/
theorem exec_storeAck_alone {s : State} {e : StoreEnt} (he : ((s.tile s.ev.tile).stores.find? fun e => e.id == s.ev.n) = some e)
    (hf : s.ev.flag = true) : exec .storeAck s
      = .next (if s.mayPerform s.ev.tile e.id [(e.loc, e.bytes.length)] = true then s.ackStore s.ev.tile e else s) := by
  have hid : e.id = s.ev.n := by simpa using List.find?_some he
  have he' : ((s.tile s.ev.tile).stores.find? fun x => x.id == e.id) = some e := by rw [hid]; exact he
  show execStoreAck s = _
  rw [execStoreAck, he]
  dsimp only
  rw [if_pos hf, State.ackOne, he']

theorem exec_storeAck_together {s : State} {e : StoreEnt} (he : ((s.tile s.ev.tile).stores.find? fun e => e.id == s.ev.n) = some e)
    (hf : s.ev.flag = false) : exec .storeAck s
      = .next (((s.tile s.ev.tile).stores.filter fun x => x.entry == e.entry).foldl (fun a x => a.ackOne s.ev.tile x.id) s) := by
  show execStoreAck s = _
  rw [execStoreAck, he]
  dsimp only
  rw [if_neg (by simp [hf])]

/-- The machine with an acknowledged store out of the table, and behind at system scope where it is to memory beyond the local stores. -/
def State.acked (s : State) (t : Nat) (e : StoreEnt) : State :=
  (s.noteStore e.id t e.slot e.loc e.bytes.length e.rel).dropStore t e

theorem State.memory_acked (s : State) (t : Nat) (e : StoreEnt) : (s.acked t e).memory = s.memory := by
  unfold State.acked State.noteStore
  split <;> rfl

theorem State.feWait_acked (s : State) (t : Nat) (e : StoreEnt) : (s.acked t e).feWait = s.feWait := by
  unfold State.acked State.noteStore
  split <;> rfl

theorem State.stores_acked (s : State) (t : Nat) (e : StoreEnt) :
    ((s.acked t e).tile t).stores = (s.tile t).stores.filter fun x => x.id != e.id := by
  have h : (s.noteStore e.id t e.slot e.loc e.bytes.length e.rel).tile t = s.tile t := by
    unfold State.noteStore
    split <;> rfl
  rw [State.acked, State.dropStore, State.tile_modTile_self, h]

section
variable {s : State} {t : Nat} {e : StoreEnt}

/-- A store that its owner takes is applied. -/
theorem State.ackStore_applied (hr : s.refusal e.loc = none) (hm : s.narrowMarked e.loc e.bytes.length = false) :
    s.ackStore t e = (s.acked t e).applyStore e := by
  rw [State.ackStore, hr]
  dsimp only
  rw [if_neg (by simp [hm])]
  rfl

theorem State.ackStore_refused {c sub : Nat} (hr : s.refusal e.loc = some (c, sub)) : s.ackStore t e = s.refuseStore t e c sub := by
  rw [State.ackStore, hr]

/-- Outside full-empty pages the bytes of a store are written. -/
theorem State.applyStore_bytes {u : State} (hf : e.fe = false) (hh : e.how = .bytes) : u.applyStore e = u.write e.loc e.bytes := by
  rw [State.applyStore, hh]
  exact if_neg (by simp [hf])

theorem State.applyStore_nibble {u : State} {h : Bool} {b : Byte} (hf : e.fe = false) (hh : e.how = .nibble h) (hb : e.bytes = [b]) :
    u.applyStore e = u.write e.loc [nibbleByte (u.byte e.loc) h b] := by
  rw [State.applyStore, hh, hb]
  exact if_neg (by simp [hf])

/-- Where no request waits an STE only writes its word and leaves it empty. -/
theorem State.applyStore_empty {u : State} (hh : e.how = .empty) (hw : u.feWait = []) :
    u.applyStore e = (u.write e.loc e.bytes).drain e.loc := by
  have h0 : ((u.write e.loc e.bytes).drain e.loc).feWait.length = 0 := by
    rw [List.length_eq_zero_iff]
    exact hw
  rw [State.applyStore, hh]
  dsimp only
  rw [State.storeEmpty, State.serve, h0, State.serveWord]

end

/-- The half of a byte that a lane does not name stays (R295). -/
theorem nibbleByte_toNat (x y : Byte) (h : Bool) : (nibbleByte x h y).toNat
    = if h then y.toNat % 16 * 16 + x.toNat % 16 else x.toNat / 16 * 16 + y.toNat % 16 := by
  have hlow : ∀ b : Byte, (b &&& 0x0F).toNat = b.toNat % 16 := by decide
  have hhigh : ∀ b : Byte, (b &&& 0xF0).toNat = 2 ^ 4 * (b.toNat / 16) := by decide
  have hshift : ∀ b : Byte, (b <<< 4).toNat = 2 ^ 4 * (b.toNat % 16) := by decide
  have hx : x.toNat % 16 < 2 ^ 4 := Nat.mod_lt _ (by decide)
  have hy : y.toNat % 16 < 2 ^ 4 := Nat.mod_lt _ (by decide)
  cases h
  · rw [show nibbleByte x false y = x &&& 0xF0 ||| y &&& 0x0F from rfl, if_neg (by decide), BitVec.toNat_or, hhigh, hlow, ← Nat.two_pow_add_eq_or_of_lt hy]
    omega
  · rw [show nibbleByte x true y = x &&& (0x0F : Byte) ||| y <<< 4 from rfl, if_pos rfl, BitVec.toNat_or, hlow, hshift, Nat.or_comm, ← Nat.two_pow_add_eq_or_of_lt hx]
    omega

/-- A refused store leaves memory alone. -/
theorem State.memory_refuseStore (s : State) (t : Nat) (e : StoreEnt) (c sub : Nat) : (s.refuseStore t e c sub).memory = s.memory := by
  unfold State.refuseStore
  split <;> rfl

/-- The slot of a refused store holds a late refusal, unless one of the instruction's lanes has had it. -/
theorem State.late_refuseStore {s : State} {t : Nat} {e : StoreEnt} {o : Owner} (h : (s.slot t e.slot).run = .handler o) (c sub : Nat) :
    ((s.refuseStore t e c sub).slot t e.slot).late
      = (s.slot t e.slot).late ++ if e.quiet then [] else [⟨trapWord c sub true, e.va⟩] := by
  have hd : (s.dropStore t e).slot t e.slot = s.slot t e.slot := by
    rw [State.slot, State.dropStore, State.tile_modTile_self]
    rfl
  unfold State.refuseStore
  split
  next => simp [hd]
  next =>
    have hs : ((s.dropStore t e).modTile t fun T => { T with stores := T.stores.map fun x =>
        if x.entry == e.entry then { x with quiet := true } else x }).slot t e.slot = s.slot t e.slot := by
      rw [State.slot, State.tile_modTile_self]
      exact hd
    rw [State.slot_modSlot_self, hs, Slot.late_pushLate h]

theorem State.byte_write_acked {s : State} (hi : s.Inv) (t : Nat) (e : StoreEnt) (bs : List Byte) (a : Nat) :
    ((s.acked t e).write e.loc bs).byte a = if e.loc ≤ a ∧ a < e.loc + bs.length then bs[a - e.loc]! else s.byte a := by
  have hmem : (s.acked t e).mem = s.mem := congrArg Prod.fst (s.memory_acked t e)
  have hi' : (s.acked t e).Inv := by rw [State.Inv, hmem]; exact hi
  rw [State.byte_write hi', State.byte, State.byte, hmem]

section
variable {s : State} {t : Nat} {e : StoreEnt} (hi : s.Inv) (hr : s.refusal e.loc = none)
  (hm : s.narrowMarked e.loc e.bytes.length = false)
include hi hr hm

theorem State.ackStore_bytes (hf : e.fe = false) (hh : e.how = .bytes) :
    (∀ i, i < e.bytes.length → (s.ackStore t e).byte (e.loc + i) = e.bytes[i]!)
    ∧ (∀ a, a < e.loc ∨ e.loc + e.bytes.length ≤ a → (s.ackStore t e).byte a = s.byte a)
    ∧ ((s.ackStore t e).tile t).stores = (s.tile t).stores.filter fun x => x.id != e.id := by
  rw [State.ackStore_applied hr hm, State.applyStore_bytes hf hh]
  refine ⟨fun i hl => ?_, fun a ha => ?_, s.stores_acked t e⟩
  · rw [State.byte_write_acked hi, if_pos (by omega), Nat.add_sub_cancel_left]
  · rw [State.byte_write_acked hi, if_neg (by omega)]

theorem State.ackStore_nibble {h : Bool} {b : Byte} (hf : e.fe = false) (hh : e.how = .nibble h) (hb : e.bytes = [b]) :
    ((s.ackStore t e).byte e.loc).toNat = (if h then b.toNat % 16 * 16 + (s.byte e.loc).toNat % 16
      else (s.byte e.loc).toNat / 16 * 16 + b.toNat % 16)
    ∧ ∀ a, a ≠ e.loc → (s.ackStore t e).byte a = s.byte a := by
  have hold : (s.acked t e).byte e.loc = s.byte e.loc := by
    rw [State.byte, State.byte, show (s.acked t e).mem = s.mem from congrArg Prod.fst (s.memory_acked t e)]
  rw [State.ackStore_applied hr hm, State.applyStore_nibble hf hh hb, hold]
  refine ⟨?_, fun a ha => ?_⟩
  · rw [State.byte_write_acked hi, if_pos (by simp), Nat.sub_self, ← nibbleByte_toNat]
    rfl
  · rw [State.byte_write_acked hi, if_neg (by simp only [List.length_singleton]; omega)]

end

theorem storeAcknowledged : Rules.StoreAcknowledged := by
  intro s hi
  refine ⟨fun hn b hb => ?_, fun e he => ⟨exec_storeAck_together he, fun hf hno => ?_, fun hf hp => ⟨fun hr hm => ⟨fun hfe hh => ?_,
    fun h b hfe hh hb => ?_, fun hh hw hempty => ?_⟩, fun c sub hr => ?_⟩⟩⟩
  · intro older
    rw [exec_storeAck_behind hn hb]
    refine ⟨fun h => congrArg _ (if_neg ?_), fun ⟨x, hx, h⟩ => congrArg _ (if_pos (List.any_eq_true.2 ⟨x, hx, State.systemAfter_eq_true (x := x) (b := b) h⟩))⟩
    rw [Bool.not_eq_true, List.any_eq_false]
    intro x hx
    rcases h with h | ⟨hrel, h⟩
    · rw [show (s.behind.takeWhile fun x => x.id != b.id) = [] from h] at hx
      cases hx
    · obtain ⟨ht, ho⟩ := h x hx
      simp [State.systemAfter_eq_false hrel ht ho]
  · rw [exec_storeAck_alone he hf, if_neg (by simp [hno])]
  all_goals
    have hx := exec_storeAck_alone he hf
    rw [if_pos hp] at hx
    refine nextWith_of_eq hx ?_
  · exact State.ackStore_bytes hi hr hm hfe hh
  · exact State.ackStore_nibble hi hr hm hfe hh hb
  · have hmem := s.memory_acked s.ev.tile e
    simp only [State.memory, Prod.mk.injEq] at hmem
    obtain ⟨hmem, hemp, -⟩ := hmem
    rw [State.ackStore_applied hr hm, State.applyStore_empty hh ((s.feWait_acked _ _).trans hw)]
    refine ⟨congrArg (cellWrite · e.loc e.bytes) hmem, ?_⟩
    show natInsert e.loc (s.acked s.ev.tile e).empties = _
    rw [hemp, hempty, natInsert]
  · rw [State.ackStore_refused hr]
    exact ⟨sameMemory_of_memory_eq (s.memory_refuseStore _ _ _ _), fun o ho => State.late_refuseStore ho c sub⟩

/-- Settles O13: a store enters the table, and what its acknowledgement does. -/
theorem storesComplete : Obligations.StoresComplete := by
  unfold Obligations.StoresComplete
  exact ⟨storesEnterTable, storeAcknowledged⟩

end Sys2Proof.Machine
end

section
/-!
SUPPORT. A number written as bytes is read back (R45).
-/
namespace Sys2Proof.Machine

@[simp] theorem length_natBytes (n v : Nat) : (natBytes n v).length = n := by
  induction n generalizing v with
  | zero => rfl
  | succ n ih => rw [natBytes, List.length_cons, ih]

theorem bytesNat_natBytes (n v : Nat) (h : v < 256 ^ n) : bytesNat (natBytes n v) = v := by
  induction n generalizing v with
  | zero => rw [Nat.pow_zero, Nat.lt_one_iff] at h; rw [h]; rfl
  | succ n ih =>
    have hq : v / 256 < 256 ^ n := Nat.div_lt_of_lt_mul (by rwa [Nat.pow_succ'] at h)
    rw [natBytes, bytesNat, ih _ hq, BitVec.toNat_ofNat]
    exact Nat.mod_add_div v 256

theorem cellBytes_eq_of_getElem : ∀ (bs : List Byte) {m : List Host.Cell} {a : Nat},
    (∀ i, i < bs.length → cellGet m (a + i) = bs[i]!) → cellBytes m a bs.length = bs
  | [], _, _, _ => rfl
  | b :: r, m, a, h => by
    rw [List.length_cons, cellBytes, show cellGet m a = b from h 0 (Nat.succ_pos _),
      cellBytes_eq_of_getElem r fun i hi => ?_]
    rw [Nat.add_right_comm]
    exact h (i + 1) (Nat.succ_lt_succ hi)

theorem State.byte_write_of_mem {s : State} (hi : s.Inv) (loc : Nat) (bs : List Byte) {i : Nat} (h : i < bs.length) :
    (s.write loc bs).byte (loc + i) = bs[i]! := by
  rw [State.byte_write hi, if_pos (by omega), Nat.add_sub_cancel_left]

/-- Settles O10: the bytes written are read back one by one, and a number of `n` bytes is the number of its bytes. -/
theorem memoryReadAfterWrite : Obligations.MemoryReadAfterWrite := by
  unfold Obligations.MemoryReadAfterWrite
  intro s loc bs hi
  refine ⟨fun i h => State.byte_write_of_mem hi loc bs h, fun a ha => ?_, fun n v hv => ?_⟩
  · rw [State.byte_write hi, if_neg (by omega)]
  · have h := cellBytes_eq_of_getElem (natBytes n v) fun i h => State.byte_write_of_mem hi loc (natBytes n v) h
    rw [length_natBytes] at h
    rw [State.readNat, State.bytes, h, bytesNat_natBytes n v hv]
end Sys2Proof.Machine
end

section
/-!
SUPPORT. Every step keeps memory in its canonical form: the forms that instructions share, the instructions that check an access or
read a block, every other one by the operation that it ends in, and the turn that picks one.
-/
namespace Sys2Proof.Machine


/-- The next state, if the outcome is one, has memory in canonical form. -/
def KeepsForm (o : Host.Outcome State Fault Refusal) : Prop := ∀ t, o = .next t → t.Inv

theorem keepsForm_next {t : State} (h : Memory.wf t.mem = true) : KeepsForm (.next t) := fun _ e => by cases e; exact h

theorem State.wf_of_mem {s t : State} (hm : t.mem = s.mem) (hw : Memory.wf s.mem = true) : Memory.wf t.mem = true := hm ▸ hw

theorem keepsForm_of_mem {s t : State} (hm : t.mem = s.mem) (hw : Memory.wf s.mem = true) : KeepsForm (.next t) :=
  keepsForm_next (State.wf_of_mem hm hw)

/-! ### The forms that instructions share -/

@[simp] theorem State.abandon_mem (s : State) (t : Nat) (gone : Test → Bool) : (s.abandon t gone).mem = s.mem :=
  foldl_mem _ (fun a _ => by split <;> simp) _ _

@[simp] theorem State.routerTest_mem (s : State) (p test sub : Nat) : (s.routerTest p test sub).mem = s.mem := by
  unfold State.routerTest
  dsimp only
  split <;> simp

@[simp] theorem State.lanesEnter_mem (s : State) (w : Nat) (val : Nat → Nat) (l : List LaneAcc) : (s.lanesEnter w val l).mem = s.mem :=
  foldl_mem _ (fun _ _ => State.ctlStore_mem _ _ _) _ s

@[simp] theorem State.lanesLeave_mem (s : State) (d : BitVec 3) (w : Nat) (zero : Bool) (l : List LaneAcc) :
    (s.lanesLeave d w zero l).mem = s.mem := by
  unfold State.lanesLeave
  extract_lets far got p
  split
  · rfl
  · split
    · exact State.performLanes_mem _ _ _ _ _
    · rfl

theorem State.arbitrate_wf {s u : State} {t n : Nat} (e : s.arbitrate t n = some u) (hw : Memory.wf s.mem = true) :
    Memory.wf u.mem = true := by
  unfold State.arbitrate at e
  dsimp only at e
  split at e
  · split at e
    · cases e; exact hw
    · cases e
  · cases e; exact State.plogWrite_wf _ _ _ hw

theorem State.spill_wf {s : State} {t k : Nat} {i : Instr} (hw : Memory.wf s.mem = true) :
    (∀ u, s.spill t k i = .wait u → Memory.wf u.mem = true) ∧ (∀ u c sub v, s.spill t k i = .trap u c sub v → Memory.wf u.mem = true)
    ∧ ∀ u, s.spill t k i = .done u → Memory.wf u.mem = true :=
  ⟨fun _ e => by rw [State.spill_mem.1 _ e]; exact hw, fun _ _ _ _ e => by rw [State.spill_mem.2.1 _ _ _ _ e]; exact hw,
    fun _ e => State.spill_mem.2.2 _ e hw⟩

section
variable {s : State} (hw : Memory.wf s.mem = true)
include hw

theorem fpOp_keepsForm (rs : List (BitVec 5)) (rm n : Nat) (f : Slot → FRes) (w : Slot → Nat → Slot) :
    KeepsForm (.next (s.fpOp rs rm n f w)) := by
  refine keepsForm_next ?_
  unfold State.fpOp
  split
  · exact hw
  · exact State.fpEnd_wf _ _ _ _ _ hw

theorem vfp_wf (d : BitVec 3) (m : BitVec 2) (z : BitVec 1) (t : BitVec 3) (rm n : Nat) (f : Slot → Nat → Nat → FRes) :
    Memory.wf (s.vfp d m z t rm n f).mem = true := by
  unfold State.vfp
  exact State.fpEnd_wf _ _ _ _ _ hw

theorem vround_keepsForm (d a b c : BitVec 3) (m : BitVec 2) (z : BitVec 1) (t r : BitVec 3)
    (f : FFmt → Nat → Nat → Nat → Nat → Nat → FRes) : KeepsForm (.next (s.vround d a b c m z t r f)) := by
  unfold State.vround
  exact keepsForm_next (vfp_wf hw _ _ _ _ _ _ _)

theorem vexact_keepsForm (d a b : BitVec 3) (m : BitVec 2) (z : BitVec 1) (t : BitVec 3) (f : FFmt → Nat → Nat → FRes) :
    KeepsForm (.next (s.vexact d a b m z t f)) := by
  unfold State.vexact
  exact keepsForm_next (vfp_wf hw _ _ _ _ _ _ _)

theorem vredf_keepsForm (d a : BitVec 3) (m : BitVec 2) (t : BitVec 3) (rm : Nat) (i : FFmt → Nat)
    (f : FFmt → Nat → Nat → Nat → FRes) : KeepsForm (.next (s.vredf d a m t rm i f)) := by
  unfold State.vredf
  exact keepsForm_next (State.fpEnd_wf _ _ _ _ _ hw)

theorem onSlot_keepsForm (rs : List (BitVec 5)) (f : Slot → Slot) : KeepsForm (.next (s.onSlot rs f)) :=
  keepsForm_of_mem (State.onSlot_mem _ _ _) hw

theorem amo_keepsForm (i : Instr) (op : Nat) (d a b : BitVec 5) (w : BitVec 1) (o : BitVec 2) (c : BitVec 3) :
    KeepsForm (.next (s.amo i op d a b w o c)) := by
  refine keepsForm_next ?_
  unfold State.amo
  extract_lets rs xs
  split
  · exact hw
  · simp [hw]

theorem xamo_keepsForm (i : Instr) (op : Nat) (d a b : BitVec 5) (w : BitVec 1) (o : BitVec 2) (c : BitVec 3) :
    KeepsForm (.next (s.xamo i op d a b w o c)) := by
  refine keepsForm_next ?_
  unfold State.xamo
  extract_lets rs xs
  split
  · exact hw
  · simp [hw]

theorem loadLanes_wf (i : Instr) (d : BitVec 3) (w : Nat) (zero : Bool) (lanes : List (Nat × Word)) :
    Memory.wf (s.loadLanes i d w zero lanes).mem = true := by
  unfold State.loadLanes State.checkLanes
  split
  next q => simp [State.checkAll_wait q, hw]
  next q => simp [State.checkAll_trap q, hw]
  next q =>
    have hm := State.checkAll_ok q
    dsimp only
    repeat' split
    all_goals simp [hm, hw]

theorem storeLanes_wf (i : Instr) (w : Nat) (val : Nat → Nat) (lanes : List (Nat × Word)) :
    Memory.wf (s.storeLanes i w val lanes).mem = true := by
  unfold State.storeLanes State.checkLanes
  split
  next q => simp [State.checkAll_wait q, hw]
  next q => simp [State.checkAll_trap q, hw]
  next q =>
    have hm := State.checkAll_ok q
    dsimp only
    split
    · simp [hm, hw]
    · simp [hm, hw]

theorem fireFixed_keepsForm (f : TForm) (ok : Bool) (go : State → Token → Token → State) (hgo : ∀ x a b, (go x a b).mem = x.mem) :
    KeepsForm (.next (s.fireFixed f ok go)) :=
  keepsForm_of_mem (State.fireFixed_mem s f ok go hgo) hw

/-! ### Needle instructions that check an access or read a block -/

theorem execExt_keepsForm (p : BitVec 25) : KeepsForm (execExt p s) := by
  refine keepsForm_next ?_
  split
  next q => rw [State.fetch_wait q]; exact hw
  next q => exact State.trap_wf _ _ _ _ (by rw [State.fetch_trap q]; exact hw)
  next u _ q =>
    have hu : Memory.wf u.mem = true := by rw [State.fetch_word q]; exact hw
    extract_lets follows
    split
    · exact State.trapIllegal_wf _ _ hu
    · exact hu

theorem execLdf_keepsForm (d b : BitVec 5) (x : BitVec 10) : KeepsForm (execLdf d b x s) := by
  refine keepsForm_next ?_
  split
  · exact hw
  · split
    next q => simp [State.check_wait q, hw]
    next q => simp [State.check_trap q, hw]
    next q => split <;> simp [State.check_ok q, hw]

theorem execStf_keepsForm (d b : BitVec 5) (x : BitVec 10) : KeepsForm (execStf d b x s) := by
  refine keepsForm_next ?_
  split
  · exact hw
  · split
    next q => simp [State.check_wait q, hw]
    next q => simp [State.check_trap q, hw]
    next q => split <;> simp [State.check_ok q, hw]

theorem execSte_keepsForm (d b : BitVec 5) (x : BitVec 10) : KeepsForm (execSte d b x s) := by
  refine keepsForm_next ?_
  split
  · exact hw
  · split
    next q => simp [State.check_wait q, hw]
    next q => simp [State.check_trap q, hw]
    next q => split <;> simp [State.check_ok q, hw]

theorem execRet_keepsForm : KeepsForm (execRet s) := by
  refine keepsForm_next ?_
  split
  · exact hw
  split
  · simp [hw]
  split
  · simp [hw]
  · have hf := State.fillWindow_wf (s := s) (t := s.ft) (k := s.fk) (i := .ret) hw
    split
    next q =>
      split at q
      · exact hf.1 _ q
      · cases q
    next q =>
      split at q
      · exact State.trap_wf _ _ _ _ (hf.2.1 _ _ _ _ q)
      · cases q
    next q =>
      split at q
      · rw [State.modCur_mem]; exact hf.2.2 _ q
      · cases q; exact hw

theorem execPbind_keepsForm (d a : BitVec 5) : KeepsForm (execPbind d a s) := by
  obtain ⟨hgot, hwait, htrap⟩ := State.readBlock_wf (s := s) (i := .pbind d a) (va := s.cur.sreg a) (al := 64) (n := 64) hw
  refine keepsForm_next ?_
  split
  · exact hw
  · split
    next q => exact State.trap_wf _ _ _ _ (htrap _ _ _ _ q)
    next q => exact hwait _ q
    next q => simp [hgot _ _ q]

theorem execCopy_keepsForm (d a : BitVec 5) : KeepsForm (execCopy d a s) := by
  obtain ⟨hgot, hwait, htrap⟩ := State.readBlock_wf (s := s) (i := .copy d a) (va := s.cur.sreg a) (al := 64) (n := 128) hw
  refine keepsForm_next ?_
  split
  · exact hw
  · split
    next q => split <;> exact State.trap_wf _ _ _ _ (htrap _ _ _ _ q)
    next q => exact hwait _ q
    next u _ q =>
      have hu := hgot _ _ q
      obtain ⟨hg, hwt, ht⟩ := State.blockWritable_mem (s := u) (i := .copy d a) (va := s.cur.sreg a)
      split
      next r => rw [hwt _ r]; exact hu
      next r => split <;> exact State.trap_wf _ _ _ _ (by rw [ht _ _ _ _ r]; exact hu)
      next r => split <;> simp [hg _ _ r, hu]

theorem execSnap_keepsForm (d a b : BitVec 5) : KeepsForm (execSnap d a b s) := by
  refine keepsForm_next ?_
  split
  · exact hw
  split
  · simp [hw]
  · split
    next q => simp [State.checkAll_wait q, hw]
    next q => simp [State.checkAll_trap q, hw]
    next q => split <;> simp [State.checkAll_ok q, hw]

theorem execDarnPrep_keepsForm (d a : BitVec 5) : KeepsForm (execDarnPrep d a s) := by
  obtain ⟨hgot, hwait, htrap⟩ := State.readBlock_wf (s := s) (i := .darnPrep d a) (va := s.cur.sreg a) (al := 64) (n := 16) hw
  refine keepsForm_next ?_
  split
  · exact hw
  split
  · simp [hw]
  · split
    next q => exact State.trap_wf _ _ _ _ (htrap _ _ _ _ q)
    next q => exact hwait _ q
    next u bs q =>
      have hu := hgot _ _ q
      obtain ⟨hg, hwt, ht⟩ := State.readBlock_wf (s := u) (i := .darnPrep d a) (va := s.cur.sreg a) (al := 64)
        (n := 16 + 16 * blkField bs 0 2) hu
      split
      · simp [hu]
      · split
        next r => exact State.trap_wf _ _ _ _ (ht _ _ _ _ r)
        next r => exact hwt _ r
        next r => simp [hg _ _ r]

/-! ### Elements, islands, folds, streams -/

theorem execTSteer_keepsForm (g : BitVec 2) (x : BitVec 3) (u : BitVec 1) (a : BitVec 4) (i : BitVec 2) :
    KeepsForm (execTSteer g x u a i s) :=
  fireFixed_keepsForm hw _ _ _ fun _ _ _ => by
    repeat' split
    all_goals simp

theorem execTMsel_keepsForm (g : BitVec 2) (x : BitVec 3) (u : BitVec 1) (a : BitVec 4) (q : BitVec 2) :
    KeepsForm (execTMsel g x u a q s) :=
  fireFixed_keepsForm hw _ _ _ fun _ _ _ => by
    repeat' split
    all_goals simp

theorem execFoldCombine_keepsForm : KeepsForm (execFoldCombine s) := by
  refine keepsForm_next ?_
  split
  · exact hw
  · split
    · split <;> simp [hw]
    · split
      · simp [hw]
      · split
        · exact hw
        · split
          · exact hw
          next q => rw [State.modFold_mem]; exact State.foldOut_wf _ _ _ _ _ q hw

theorem streamPathError_wf (t g u : Nat) : Memory.wf (s.streamPathError t g u).mem = true := by
  unfold State.streamPathError
  extract_lets G lost
  have hp : Memory.wf (s.pollDone t g).mem = true := State.pollDone_wf _ _ _ hw
  split
  · exact hw
  · split
    · split
      · simp [hw]
      · exact hp
    · split
      · split <;> simp [hw]
      · split
        · exact hw
        · rw [State.modGen_mem, State.modTile_mem, State.wirePush_mem]; exact hp

theorem execGeneratorAccessRefused_keepsForm : KeepsForm (execGeneratorAccessRefused s) := by
  refine keepsForm_next ?_
  split
  · split
    · exact hw
    · split
      · exact hw
      · split <;> simp [hw]
  · split
    · exact hw
    · split
      · simp [hw]
      · simp [hw]
      · exact streamPathError_wf hw _ _ _
      · exact hw

theorem execCopyComplete_keepsForm : KeepsForm (execCopyComplete s) := by
  refine keepsForm_next ?_
  split
  · exact hw
  · split
    · exact hw
    · extract_lets w s1
      have h1 : Memory.wf s1.mem = true := by
        unfold s1
        split
        · exact hw
        · split
          · exact State.apply_wf _ _ _ _ hw
          · exact hw
      rw [State.notify_mem]
      exact State.deliver_wf _ _ _ _ (State.pollDone_wf _ _ _ h1)

/-! ### Steps of the hardware -/

theorem execEarlySpillOrFill_keepsForm : KeepsForm (execEarlySpillOrFill s) := by
  refine keepsForm_next ?_
  split
  · exact hw
  · split
    next q =>
      split at q
      · split at q
        · exact (State.fillWindow_wf hw).2.2 _ q
        · cases q
      · exact State.spill_mem.2.2 _ q hw
    · exact hw

theorem execFirstStageImageCheck_keepsForm : KeepsForm (execFirstStageImageCheck s) := by
  refine keepsForm_next ?_
  split
  · exact hw
  · split
    · simp [hw]
    · exact foldl_wf _ (fun _ _ h => State.baste_wf _ _ _ h) _ _ hw

theorem execStoreAck_keepsForm : KeepsForm (execStoreAck s) := by
  refine keepsForm_next ?_
  split
  · simp [hw]
  · split
    · simp [hw]
    · exact foldl_wf _ (fun _ _ h => State.ackOne_wf _ _ _ h) _ _ hw

theorem execThermalSample_keepsForm : KeepsForm (execThermalSample s) := by
  unfold execThermalSample
  extract_lets p tb vb c s1 s2 r
  have h2 : s2.mem = s.mem := by
    unfold s2
    split <;> rfl
  refine keepsForm_of_mem ?_ hw
  rw [foldl_mem _ fun a q => State.modTile_mem a _ _]
  exact h2

theorem execClockSourceLoss_keepsForm : KeepsForm (execClockSourceLoss s) := by
  refine keepsForm_next ?_
  split
  · simp [hw]
  · refine State.wf_of_mem ((foldl_mem _ (fun _ _ => ?_) _ _).trans ?_) hw
    · split <;> rfl
    · simp

theorem execBankReweaveDone_keepsForm : KeepsForm (execBankReweaveDone s) := by
  refine keepsForm_next ?_
  split
  · exact hw
  · split
    · exact hw
    · simp [hw]

theorem execDrainWaveAnswer_keepsForm : KeepsForm (execDrainWaveAnswer s) := by
  refine keepsForm_next ?_
  split
  · exact hw
  · split
    · exact hw
    · refine State.wf_of_mem ((State.waveUp_mem _ _ _ _ fun _ => ?_).trans (State.settle_mem _ _)) hw
      split <;> rfl

theorem execLaunchAdmit_keepsForm : KeepsForm (execLaunchAdmit s) := by
  refine keepsForm_next ?_
  split
  · exact hw
  next l _ =>
    extract_lets rs
    split
    · exact hw
    split
    · exact foldl_wf _ (fun _ _ h => by split <;> simp [h]) _ _ hw
    split
    · simp [hw]
    · have hp : ∀ named, Memory.wf (s.placeLaunch s.ev.n l named).1.mem = true := fun _ => State.placeLaunch_wf _ _ _ _ hw
      split
      · exact State.rejectLaunch_wf _ _ _ _ _ (hp _)
      · exact State.startLaunch_wf _ _ _ (hp _)

theorem execStage_keepsForm : KeepsForm (execStage s) := by
  refine keepsForm_next ?_
  split
  · exact hw
  split
  · exact hw
  · have h := State.stageCopy_wf (s.queue (s.mgmt.word 1).toNat) (s.mgmt.word 4).toNat (s.mgmt.word 4).toNat
      (s.mgmt.word 2) (s.mgmt.word 3) 0 s hw
    split
    next q => rw [q] at h; exact h
    next q => rw [q] at h; exact h

theorem execSnapComplete_keepsForm : KeepsForm (execSnapComplete s) := by
  refine keepsForm_next ?_
  split
  · exact hw
  · split
    · exact hw
    · exact State.deliver_wf _ _ _ _ (State.snapWrite_wf _ _ _ hw)

theorem execWeftFrameSend_keepsForm : KeepsForm (execWeftFrameSend s) := by
  refine keepsForm_next ?_
  split
  · exact hw
  split
  · simp [hw]
  · split
    · simp [hw]
    · exact hw
    next q =>
      rw [State.groupCheck_mem, State.modGroup_mem]
      exact foldl_wf _ (fun _ _ h => by split <;> simp [h]) _ _ (State.arbitrate_wf q hw)

theorem execRouterFlitArrival_keepsForm : KeepsForm (execRouterFlitArrival s) := by
  refine keepsForm_next ?_
  split
  · exact hw
  · dsimp only
    repeat' split
    all_goals simp [hw]

theorem execVcvt_keepsForm (d a : BitVec 3) (f : BitVec 5) (m : BitVec 2) (z : BitVec 1) (r : BitVec 3) (t : BitVec 5) :
    KeepsForm (execVcvt d a f m z r t s) := by
  unfold execVcvt
  refine keepsForm_next ?_
  split
  · unfold State.vcvtTo
    exact State.fpEnd_wf _ _ _ _ _ hw
  · split
    · unfold State.vcvtFrom
      exact State.fpEnd_wf _ _ _ _ _ hw
    · unfold State.vcvt
      exact State.fpEnd_wf _ _ _ _ _ hw

theorem execVld_keepsForm (m : BitVec 2) (v : BitVec 3) (b : BitVec 5) (w : BitVec 3) (x : BitVec 10) : KeepsForm (execVld m v b w x s) := by
  refine keepsForm_next ?_
  split
  · exact hw
  · exact loadLanes_wf hw _ _ _ _ _

theorem execVgather_keepsForm (d a c : BitVec 3) (m : BitVec 2) (z : BitVec 1) (w : BitVec 3) : KeepsForm (execVgather d a c m z w s) := by
  refine keepsForm_next ?_
  split
  · exact hw
  · exact loadLanes_wf hw _ _ _ _ _

theorem execVst_keepsForm (m : BitVec 2) (v : BitVec 3) (b : BitVec 5) (w : BitVec 3) (x : BitVec 10) : KeepsForm (execVst m v b w x s) := by
  refine keepsForm_next ?_
  split
  · exact hw
  · exact storeLanes_wf hw _ _ _ _

theorem execVscatter_keepsForm (d a c : BitVec 3) (m : BitVec 2) (z : BitVec 1) (w : BitVec 3) :
    KeepsForm (execVscatter d a c m z w s) := by
  refine keepsForm_next ?_
  split
  · exact hw
  · exact storeLanes_wf hw _ _ _ _

/-- Every instruction and every step of the hardware keeps the form. The cases are grouped by the operation that they end in. -/
theorem exec_keepsForm (i : Instr) : KeepsForm (exec i s) := by
  cases i
  case ext => exact execExt_keepsForm hw _
  case ldf => exact execLdf_keepsForm hw _ _ _
  case stf => exact execStf_keepsForm hw _ _ _
  case ste => exact execSte_keepsForm hw _ _ _
  case ret => exact execRet_keepsForm hw
  case pbind => exact execPbind_keepsForm hw _ _
  case copy => exact execCopy_keepsForm hw _ _
  case snap => exact execSnap_keepsForm hw _ _ _
  case darnPrep => exact execDarnPrep_keepsForm hw _ _
  case foldCombine => exact execFoldCombine_keepsForm hw
  case generatorAccessRefused => exact execGeneratorAccessRefused_keepsForm hw
  case copyComplete => exact execCopyComplete_keepsForm hw
  case earlySpillOrFill => exact execEarlySpillOrFill_keepsForm hw
  case firstStageImageCheck => exact execFirstStageImageCheck_keepsForm hw
  case storeAck => exact execStoreAck_keepsForm hw
  case thermalSample => exact execThermalSample_keepsForm hw
  case clockSourceLoss => exact execClockSourceLoss_keepsForm hw
  case bankReweaveDone => exact execBankReweaveDone_keepsForm hw
  case drainWaveAnswer => exact execDrainWaveAnswer_keepsForm hw
  case launchAdmit => exact execLaunchAdmit_keepsForm hw
  case stage => exact execStage_keepsForm hw
  case snapComplete => exact execSnapComplete_keepsForm hw
  case weftFrameSend => exact execWeftFrameSend_keepsForm hw
  case routerFlitArrival => exact execRouterFlitArrival_keepsForm hw
  case tSteer => exact execTSteer_keepsForm hw _ _ _ _ _
  case tMsel => exact execTMsel_keepsForm hw _ _ _ _ _
  case vcvt => exact execVcvt_keepsForm hw _ _ _ _ _ _ _
  case vld => exact execVld_keepsForm hw _ _ _ _ _
  case vgather => exact execVgather_keepsForm hw _ _ _ _ _ _
  case vst => exact execVst_keepsForm hw _ _ _ _ _
  case vscatter => exact execVscatter_keepsForm hw _ _ _ _ _ _
  case fadd | fsub | fmul | ffma | fdiv | fsqrt | fmin | fmax | fabs | fneg | fcvt | fcmp =>
    exact fpOp_keepsForm hw _ _ _ _ _
  case amoAdd | amoMinI | amoMaxI | amoMinN | amoMaxN | amoAnd | amoOr | amoXor | amoSwap | amoCas | amoFadd =>
    exact amo_keepsForm hw _ _ _ _ _ _ _ _
  case xamoAdd | xamoMinI | xamoMaxI | xamoMinN | xamoMaxN | xamoAnd | xamoOr | xamoXor | xamoSwap | xamoCas | xamoFadd =>
    exact xamo_keepsForm hw _ _ _ _ _ _ _ _
  case add | sub | mul | mulh | mulhu | div | divu | rem | remu | and | or | xor | andn | shl | shr | sra | min | max | minu |
      maxu | lea | clz | ctz | popc | cmp | cmpi | sel | addi | andi | ori | xori | shli | shri | srai | muli | pand | por |
      pxor | pandn | vmad | vsplat | vcmp | vperm | vslup | vsldn | vziplo | vziphi | vunzlo | vunzhi | vcomp | vexpd | vget |
      vradd | vrmin | vrmax | vrminu | vrmaxu | vrand | vror | vrxor | vmand | vmor | vmxor | vmandn | vmnot =>
    exact onSlot_keepsForm hw _ _
  case vadd | vsub | vmul | vmulh | vmulhu | vand | vor | vxor | vandn | vshl | vshr | vsra | vmin | vmax | vminu | vmaxu |
      vadds | vaddsu | vsubs | vsubsu | vabs | vmov =>
    exact keepsForm_of_mem (State.lanes2_mem _ _ _ _ _ _ _ _) hw
  case vfadd | vfsub | vfmul | vffma | vfdiv | vfsqrt => exact vround_keepsForm hw _ _ _ _ _ _ _ _ _
  case vfmin | vfmax | vfabs | vfneg => exact vexact_keepsForm hw _ _ _ _ _ _ _
  case vrfadd | vrfmin | vrfmax => exact vredf_keepsForm hw _ _ _ _ _ _ _
  case vfcmp => exact keepsForm_next (State.fpEnd_wf _ _ _ _ _ hw)
  case tAdd | tSub | tMul | tMulh | tAnd | tOr | tXor | tShl | tShr | tSra | tMin | tMax | tMinu | tMaxu | tCmp | tMov | tSel |
      tTag | tDup | tMaskb | tCrng | tFadd | tFsub | tFmul | tFfma | tFmin | tFmax | tFcmpF64 | tFcmpF32 | tFcvt =>
    exact keepsForm_of_mem (State.fireVal_mem _ _) hw
  case tLdr | tStr | tAmoAdd | tAmoMinI | tAmoMaxI | tAmoMinN | tAmoMaxN | tAmoAnd | tAmoOr | tAmoXor | tAmoSwap | tAmoCas |
      tAmoFadd =>
    exact keepsForm_of_mem (State.fireMem_mem _ _ _) hw
  case tSig | tSig2 => exact fireFixed_keepsForm hw _ _ _ fun _ _ _ => State.sig_mem _ _ _ _ _
  case tHalt => exact fireFixed_keepsForm hw _ _ _ fun _ _ _ => rfl
  -- one operation that keeps the form
  case b | bc | ifence | trap | send | sendNr | send2 | send2Nr | leaveMatrix | leaveSwap | leaveStream | leaveSwatch |
      tlbinvAll | tlbinvAsid | tlbinvVa | powerOn | powerLoss | alertRead | localRefusalReturn | pick | careCheckpoint |
      swatchRound | elementParityError | pathHoldTimeout | linkFailure | asidsWrite | reladvWrite |
      hqcfgWrite | burstBeat | predicateSquash | ldrReply | receiverLock | linkFarEndTimeout | linkPortDown | actcmdEvict |
      actcmdRestore | reservedEncoding | fetchFault =>
    exact keepsForm_next (by simp [hw])
  -- conditions whose every branch is an operation that keeps the form
  case call | callr | br | loop | eret | hend | mfs | mts | fence | swatchRun | swatchStat | swatchStop | asidret |
      ld | lds | st | xst | weft | foldPut | foldCfg | foldStat | mload | mrow | mdrain | mres | darnCommit | darnAbort |
      darnBank |
      pfree | pstatPocket | pstatWaiting | pstatAllocation | resume | spawn | steal | stitchInject | stitchArrival |
      stitchAnswerArrival | stitchReturnArrival | resumeMarkerArrival | stealRequestTimeout | plogReplayTimeout |
      allocationQueryAnswer |
      budgetExpiry | lateRefusalArrival | lateRefusalTrap | needleMemoryReply | feRequestRetry | tlbWalk |
      invalidationArrival | leaveGrant | tileClockGate | tileWake | swatchTestEnd | swatchTestAbandon |
      extentPatch | residentLoadComplete | rowDeliver | islandFire | islandRefire | resultPortSend | matComplete |
      foldDrainIncomplete | compactStep | mergeStep | copySrcRead | copyDstWrite | ctTokenIn | ctTokenOut |
      elementMemCompletion | groupStartByLoader | groupStreamingStart | weftFrameReceive | weftHeldDrain |
      replayRequestArrival | weftWatchdog | memberCompletionReport | ringRangeEnd | ringRelockDone | weftStatusReturn |
      launchRecordRead | launchComplete | loadZeroConfigured | drainWaveDown | reconfigToken | configSwap | tackPrefetch |
      stopWave | stopFiringTimeout | quietWave | saveWave | resumeWave |
      tileFwdToDead | drainMarkerArrival | clockSwitchHoldEnd | bankReweave | darnPlanTimeout | linkPortUp | linkLaneFence |
      linkTokenArrival | peerTrafficForward |
      qset | winset | swround | careread | attest | setid | fetch | idkey | qerrRead | widxWrite | registerWrite |
      gstatResumeWrite | lpchWrite | lpchQuiesceDone | groupTableWrite | careLogFlush =>
    refine keepsForm_next ?_
    dsimp -failIfUnchanged only
    repeat' split
    all_goals simp [hw]

end

/-! ### A turn, and a step -/

/-- The machine that a turn comes to has memory in canonical form. -/
def Pick.Canonical : Pick → Prop
  | .pass s => Memory.wf s.mem = true
  | .run _ s => Memory.wf s.mem = true
  | .absent => True

@[simp] theorem Pick.canonical_pass (s : State) : (Pick.pass s).Canonical ↔ Memory.wf s.mem = true := .rfl
@[simp] theorem Pick.canonical_run (i : Instr) (s : State) : (Pick.run i s).Canonical ↔ Memory.wf s.mem = true := .rfl
@[simp] theorem Pick.canonical_absent : Pick.absent.Canonical := trivial

theorem State.registerTrap_wf (s : State) (t : Nat) (hw : Memory.wf s.mem = true) : Memory.wf (s.registerTrap t).mem = true := by
  refine State.trap_wf _ _ _ _ ?_
  rw [foldl_mem _ fun _ _ => State.queueTest_mem _ _ _, State.care1_mem, State.useFree_mem]
  exact hw

section
variable {s : State} (hw : Memory.wf s.mem = true)
include hw

theorem issue_canonical (t k : Nat) : (s.issue t k).Canonical := by
  unfold State.issue
  extract_lets sl u
  have hu : u.mem = s.mem := by
    unfold u
    split <;> rfl
  split
  next q => rw [Pick.canonical_pass, State.fetch_wait q, hu]; exact hw
  next v _ _ q =>
    have hv : Memory.wf v.mem = true := by rw [State.fetch_trap q, hu]; exact hw
    exact hv
  next v _ q =>
    have hv : Memory.wf v.mem = true := by rw [State.fetch_word q, hu]; exact hw
    split
    · split
      · exact hv
      · split
        · exact State.registerTrap_wf _ _ hv
        · exact hv
    · exact hv

theorem needleTurn_canonical (t k : Nat) : (s.needleTurn t k).Canonical := by
  unfold State.needleTurn
  split
  · trivial
  split
  · exact hw
  · extract_lets T u sl
    have hu : Memory.wf u.mem = true := hw
    split
    · exact hu
    split
    · exact hu
    split
    · exact issue_canonical hu _ _
    iterate 4
      split
      · exact hu
    exact issue_canonical hu _ _

theorem elemTurn_canonical (t e : Nat) : (s.elemTurn t e).Canonical := by
  unfold State.elemTurn
  repeat' split
  all_goals simp [hw]

theorem eventTurn_canonical (i : Instr) (a : EvArgs) : (s.eventTurn i a).Canonical := by
  unfold State.eventTurn
  repeat' split
  all_goals simp [hw]

theorem registerError_canonical (t k r : Nat) (double : Bool) : (s.registerError t k r double).Canonical := by
  unfold State.registerError
  repeat' split
  all_goals simp [hw]

theorem idleTurn_canonical : s.idleTurn.Canonical := by
  unfold State.idleTurn
  extract_lets t needle
  have hn : needle.Canonical := needleTurn_canonical hw _ _
  split
  · split
    · exact hw
    · exact hn
  · split
    · exact hw
    · exact hn
  · exact elemTurn_canonical hw _ _
  · exact hn

theorem nextUp_canonical : s.nextUp.Canonical := by
  unfold State.nextUp
  extract_lets u
  have hu : Memory.wf u.mem = true := hw
  split
  case h_1 => exact idleTurn_canonical hu
  case h_2 x r _ =>
    extract_lets v
    have hv : Memory.wf v.mem = true := hw
    cases x with
    | needle t k => exact needleTurn_canonical hv t k
    | elem t e => exact elemTurn_canonical hv t e
    | event i a => exact eventTurn_canonical hv i a
    | upset loc double => dsimp only; split <;> simp [hv]
    | register t k r double => exact registerError_canonical hv t k r double
    | core n op loc => dsimp only; split <;> simp [hv]
    | outside p op loc => dsimp only; split <;> simp [hv]
    | link p y => dsimp only; split <;> simp [hv]

theorem step_keepsForm : KeepsForm (step s) := by
  have hn := nextUp_canonical hw
  unfold step
  split
  next q => rw [q] at hn; exact keepsForm_next hn
  next q => rw [q] at hn; exact exec_keepsForm hn _
  next => intro t e; cases e

end

/-- Settles O59: every turn comes to a machine in canonical form, and every instruction keeps it. -/
theorem stepKeepsInvariant : Obligations.StepKeepsInvariant := by
  unfold Obligations.StepKeepsInvariant
  exact fun _ t hi e => step_keepsForm hi t e

end Sys2Proof.Machine
end

section
/-!
SUPPORT. The end of a floating-point instruction, and the scalar instructions that end by it (R56-R58, R219-R221).
-/
namespace Sys2Proof.Machine
open Sys2Proof.Rules

/-! ### The running slot -/

/-- A change of the running slot is what it makes of that slot. -/
theorem State.modCur_congr {s : State} {f g : Slot → Slot} (h : f s.cur = g s.cur) : s.modCur f = s.modCur g := by
  have ht : (s.tile s.ft).modSlot s.fk f = (s.tile s.ft).modSlot s.fk g := by
    rw [Tile.modSlot, Tile.modSlot, show f ((s.tile s.ft).slot s.fk) = g ((s.tile s.ft).slot s.fk) from h]
  exact congrArg (fun T => { s with tiles := s.tiles.put s.ft T }) ht

/-- Where no register of a list waits, none of a part of it does. -/
theorem Slot.pendsOn_of_subset {x : Slot} {rs qs : List (BitVec 5)} (hr : x.pendsOn rs = false) (hs : qs ⊆ rs) :
    x.pendsOn qs = false := by
  simp only [Slot.pendsOn, List.any_eq_false] at hr ⊢
  exact fun r h => hr r (hs h)

/-! ### The end of a floating-point instruction (R57, R58) -/

theorem State.fpEnd_of_none {s : State} {x : Exc} (h : x &&& s.cur.fpcs.en = 0) (rm n : Nat) (f : Slot → Slot) :
    s.fpEnd x rm n f = s.modCur fun sl => (f ((sl.raise x).consume rm n)).advance := if_neg (not_not.2 h)

theorem State.fpEnd_of_enabled {s : State} {x : Exc} (h : x &&& s.cur.fpcs.en ≠ 0) (rm n : Nat) (f : Slot → Slot) :
    s.fpEnd x rm n f = (s.modCur fun sl => sl.raise x).trap 0x07 0 (x.zeroExtend 64) := if_pos h

theorem State.fpOp_of_ready {s : State} {rs : List (BitVec 5)} (h : s.cur.pendsOn rs = false) (rm n : Nat) (f : Slot → FRes)
    (w : Slot → Nat → Slot) : s.fpOp rs rm n f w = s.fpEnd (f s.cur).exc rm n fun sl => w sl (f s.cur).bits := by
  rw [State.fpOp, h]
  rfl

/-- An instruction that ends so with no enabled exception, and whose result reads what the exceptions leave alone. -/
theorem slotDone_of_fpEnd {i : Instr} {s : State} {x : Exc} {rm n : Nat} {f g : Slot → Slot} (hi : exec i s = .next (s.fpEnd x rm n f))
    (hx : x &&& s.cur.fpcs.en = 0) (hf : f ((s.cur.raise x).consume rm n) = g s.cur) : slotDone i s g := by
  rw [slotDone, hi, State.fpEnd_of_none hx]
  exact congrArg _ (State.modCur_congr (congrArg Slot.advance hf))

/-! ### Scalar floating point (R219-R221) -/

section
variable {i : Instr} {s : State} {d a b : BitVec 5} {t : BitVec 2} {r : BitVec 3}

theorem exec_fpRound {F : FFmt → Nat → Nat → Nat → Nat → Nat → FRes} (hi : exec i s = .next (s.fpRound d a b t r F))
    (hr : ready s [d, a, b]) {e : FRes}
    (he : F (scalarFmt t) (s.cur.mode3 r) (s.cur.draw 0) (s.cur.sreg a).toNat (s.cur.sreg b).toNat (s.cur.sreg d).toNat = e) :
    exec i s = .next (s.fpEnd e.exc (s.cur.mode3 r) 1 fun sl => sl.setSreg d (BitVec.ofNat 64 e.bits)) := by
  rw [hi, State.fpRound, State.fpOp_of_ready hr, he]

theorem exec_fpExact {F : FFmt → Nat → Nat → FRes} (hi : exec i s = .next (s.fpExact d a b t F)) (hr : ready s [d, a, b]) {e : FRes}
    (he : F (scalarFmt t) (s.cur.sreg a).toNat (s.cur.sreg b).toNat = e) :
    exec i s = .next (s.fpEnd e.exc 0 0 fun sl => sl.setSreg d (BitVec.ofNat 64 e.bits)) := by
  rw [hi, State.fpExact, State.fpOp_of_ready hr, he]

theorem exec_fcvt {g h : BitVec 5} (hr : ready s [d, a]) {e : FRes}
    (he : convert (etype h.toNat) (etype g.toNat) (s.cur.mode3 r) (s.cur.draw 0) (s.cur.sreg a).toNat = e) :
    exec (.fcvt d a g h r) s = .next (s.fpEnd e.exc (s.cur.mode3 r) 1 fun sl => sl.setSreg d ((etype h.toNat).image e.bits)) := by
  rw [show exec (.fcvt d a g h r) s = execFcvt d a g h r s from rfl, execFcvt, State.fpOp_of_ready hr, he]

theorem exec_fcmp {p : BitVec 3} {c : BitVec 4} (hr : ready s [a, b]) {e : Bool × Exc}
    (he : (scalarFmt t).compare c.toNat (s.cur.sreg a).toNat (s.cur.sreg b).toNat = e) :
    exec (.fcmp p a b t c) s = .next (s.fpEnd e.2 0 0 fun sl => sl.setPred p e.1) := by
  have hb : ∀ v : Bool, (bit v == 1) = v := by decide
  rw [show exec (.fcmp p a b t c) s = execFcmp p a b t c s from rfl, execFcmp, State.fpOp_of_ready hr]
  simp only [he, hb]

theorem slotDone_fpRound {F : FFmt → Nat → Nat → Nat → Nat → Nat → FRes} (hi : exec i s = .next (s.fpRound d a b t r F))
    (hr : ready s [d, a, b]) :
    let e := F (scalarFmt t) (s.cur.mode3 r) (s.cur.draw 0) (s.cur.sreg a).toNat (s.cur.sreg b).toNat (s.cur.sreg d).toNat
    e.exc &&& s.cur.fpcs.en = 0 →
      slotDone i s fun sl => ((sl.raise e.exc).consume (s.cur.mode3 r) 1).setSreg d (BitVec.ofNat 64 e.bits) := by
  intro e hx
  exact slotDone_of_fpEnd (exec_fpRound hi hr rfl) hx rfl

theorem slotDone_fpExact {F : FFmt → Nat → Nat → FRes} (hi : exec i s = .next (s.fpExact d a b t F)) (hr : ready s [d, a, b]) :
    let e := F (scalarFmt t) (s.cur.sreg a).toNat (s.cur.sreg b).toNat
    e.exc &&& s.cur.fpcs.en = 0 → slotDone i s fun sl => (sl.raise e.exc).setSreg d (BitVec.ofNat 64 e.bits) := by
  intro e hx
  exact slotDone_of_fpEnd (exec_fpExact hi hr rfl) hx rfl

end

theorem scalarType_cases (t : BitVec 2) : t = 0 ∨ t = 1 ∨ t = 2 ∨ t = 3 := by
  revert t
  decide

/-- Settles O5: every instruction ends as the operation of its format says, with its exceptions, its draw and its register. -/
theorem floatResults : Obligations.FloatResults := by
  unfold Obligations.FloatResults
  intro s d a b t r hr f rm x y z w
  have hf : f = scalarFmt t := by rcases scalarType_cases t with rfl | rfl | rfl | rfl <;> rfl
  have h3 : ready s [d, a, b] := Slot.pendsOn_of_subset hr (by simp)
  have h2 : ready s [d, a, 0] := Slot.pendsOn_of_subset hr (by simp)
  rw [hf]
  simp only [List.forall_mem_cons, List.not_mem_nil, false_imp_iff, implies_true, and_true]
  refine ⟨⟨slotDone_fpRound (F := fun f rm w x y _ => f.add rm w x y) rfl h3,
    slotDone_fpRound (F := fun f rm w x y _ => f.sub rm w x y) rfl h3, slotDone_fpRound (F := fun f rm w x y _ => f.mul rm w x y) rfl h3,
    slotDone_fpRound (F := fun f rm w x y z => f.fma rm w x y z) rfl h3, slotDone_fpRound (F := fun f rm w x y _ => f.div rm w x y) rfl h3,
    slotDone_fpRound (F := fun f rm w x _ _ => f.sqrt rm w x) rfl h2⟩,
    ⟨slotDone_fpExact (F := fun f x y => f.minmax false x y) rfl h3, slotDone_fpExact (F := fun f x y => f.minmax true x y) rfl h3,
    slotDone_fpExact (F := fun f x _ => f.abs x) rfl h2, slotDone_fpExact (F := fun f x _ => f.negate x) rfl h2⟩,
    fun c hx p => ?_, fun g h hx => ?_⟩
  · exact slotDone_of_fpEnd (exec_fcmp (Slot.pendsOn_of_subset hr (by simp)) rfl) hx rfl
  · exact slotDone_of_fpEnd (exec_fcvt (Slot.pendsOn_of_subset hr (by simp)) rfl) hx rfl

end Sys2Proof.Machine
end

section
/-!
SUPPORT. The enabled exceptions, the frame of the scalar floating-point instructions and the rounding of a magnitude (R54, R58).
-/
namespace Sys2Proof.Machine
open Sys2Proof.Rules

/-! ### What the end of an instruction changes of its slot (R228) -/

theorem Slot.dropTop_eq (x : Slot) : x.dropTop = { x with top := x.dropTop.top, below := x.dropTop.below } := by
  unfold Slot.dropTop
  split <;> rfl

/-- The loop entries alone change at the end of a body. -/
theorem Slot.loopRounds_eq (n : Nat) (x : Slot) (next : Word) (taken : Bool) :
    (Slot.loopRounds n x next taken).1
      = { x with top := (Slot.loopRounds n x next taken).1.top, below := (Slot.loopRounds n x next taken).1.below } := by
  induction n generalizing x next with
  | zero => rfl
  | succ n ih =>
    unfold Slot.loopRounds
    split
    · rfl
    split
    · split
      · rfl
      · rw [ih, Slot.dropTop_eq]
    split
    · rfl
    · dsimp only
      split
      · rfl
      · rw [ih, Slot.dropTop_eq]

/-- An instruction that goes on to the next word changes the pc, the EXT payload and the loop entries. -/
theorem Slot.advance_eq (x : Slot) :
    x.advance = { x with pc := x.advance.pc, ext := x.advance.ext, top := x.advance.top, below := x.advance.below } := by
  have h := Slot.loopRounds_eq 3 x (x.pc + 4) false
  unfold Slot.advance Slot.goto Slot.loopStep
  dsimp only
  rw [h]

@[simp] theorem Slot.sreg_advance (x : Slot) (r : BitVec 5) : x.advance.sreg r = x.sreg r := by
  rw [Slot.advance_eq]
  rfl

theorem Slot.bad_setSreg {x : Slot} {d : BitVec 5} {v : Word} {n : Nat} (h : n ∈ (x.setSreg d v).bad) : n ∈ x.bad := by
  unfold Slot.setSreg at h
  split at h
  · exact h
  · exact List.mem_of_mem_filter h

theorem Slot.consume_eq (x : Slot) (rm n : Nat) : x.consume rm n = { x with rctr := (x.consume rm n).rctr } := by
  unfold Slot.consume
  split <;> rfl

/-! ### The frame of a change of the running slot -/

theorem sameOutsideSlot_refl (s : State) : sameOutsideSlot s s := ⟨rfl, fun _ _ => rfl, rfl, fun _ _ => rfl⟩

theorem sameOutsideSlot_modCur (s : State) (f : Slot → Slot) : sameOutsideSlot s (s.modCur f) :=
  ⟨s.modCur_eq f, fun _ h => s.tile_modCur_of_ne f h, s.tile_modCur f, fun _ h => s.slot_modCur_of_ne f h⟩

theorem sameMemory_refl (s : State) : sameMemory s s := ⟨fun _ => rfl, rfl, rfl⟩

theorem sameMemory_modCur (s : State) (f : Slot → Slot) : sameMemory s (s.modCur f) := ⟨fun _ => rfl, rfl, rfl⟩

theorem onlyRegsFp_refl (rs : List (BitVec 5)) (x : Slot) : onlyRegsFp rs x x := ⟨rfl, fun _ _ => rfl, fun _ h => h⟩

/-- A result written to a register with its exceptions and draws. -/
theorem onlyRegsFp_write (x : Slot) (e : Exc) (rm n : Nat) (d : BitVec 5) (v : Word) :
    onlyRegsFp [d] x (((x.raise e).consume rm n).setSreg d v).advance := by
  have hc := Slot.consume_eq (x.raise e) rm n
  refine ⟨?_, fun r hr => ?_, fun k hk => ?_⟩
  · rw [Slot.advance_eq, Slot.setSreg_eq, hc]
    rfl
  · rw [Slot.sreg_advance, Slot.sreg_setSreg, hc]
    split
    next h => rw [h, Slot.sreg_zero]
    next =>
      rw [if_neg (by simpa using hr)]
      rfl
  · rw [Slot.advance_eq] at hk
    have hb := Slot.bad_setSreg hk
    rw [hc] at hb
    exact hb

/-! ### The scalar floating-point instructions with no exception enabled -/

/-- What a floating-point instruction that does not trap leaves alone, for a destination `d`. -/
def State.FpFrame (s t : State) (d : BitVec 5) : Prop := sameOutsideSlot s t ∧ sameMemory s t ∧ onlyRegsFp [d] s.cur t.cur

theorem State.fpFrame_fpOp {s : State} (hen : s.cur.fpcs.en = 0) (rs : List (BitVec 5)) (rm n : Nat) (f : Slot → FRes) (d : BitVec 5)
    (v : Nat → Word) : s.FpFrame (s.fpOp rs rm n f fun sl x => sl.setSreg d (v x)) d := by
  unfold State.fpOp
  split
  · exact ⟨sameOutsideSlot_refl s, sameMemory_refl s, onlyRegsFp_refl _ _⟩
  · rw [State.fpEnd_of_none (by rw [hen]; exact BitVec.and_zero)]
    refine ⟨sameOutsideSlot_modCur s _, sameMemory_modCur s _, ?_⟩
    rw [State.cur_modCur]
    exact onlyRegsFp_write _ _ _ _ _ _

theorem floatFrame : FloatFrame := by
  intro s t d a b f r g h hen
  simp only [List.forall_mem_cons, List.not_mem_nil, false_imp_iff, implies_true, and_true]
  refine ⟨?_, ?_, ?_, ?_, ?_, ?_, ?_, ?_, ?_, ?_, ?_⟩
  all_goals
    intro e
    cases e
    exact State.fpFrame_fpOp hen _ _ _ _ _ _

/-! ### Enabled exceptions (R58) -/

section
variable {i : Instr} {s : State} {d a b : BitVec 5} {t : BitVec 2} {r : BitVec 3}

theorem exec_fpRound_traps {F : FFmt → Nat → Nat → Nat → Nat → Nat → FRes} (hi : exec i s = .next (s.fpRound d a b t r F))
    (hr : ready s [d, a, b]) :
    let e := F (scalarFmt t) (s.cur.mode3 r) (s.cur.draw 0) (s.cur.sreg a).toNat (s.cur.sreg b).toNat (s.cur.sreg d).toNat
    e.exc &&& s.cur.fpcs.en ≠ 0 → exec i s = .next ((s.modCur fun sl => sl.raise e.exc).trap 0x07 0 (e.exc.zeroExtend 64)) := by
  intro e hx
  rw [exec_fpRound hi hr rfl, State.fpEnd_of_enabled hx]

theorem exec_fpExact_traps {F : FFmt → Nat → Nat → FRes} (hi : exec i s = .next (s.fpExact d a b t F)) (hr : ready s [d, a, b]) :
    let e := F (scalarFmt t) (s.cur.sreg a).toNat (s.cur.sreg b).toNat
    e.exc &&& s.cur.fpcs.en ≠ 0 → exec i s = .next ((s.modCur fun sl => sl.raise e.exc).trap 0x07 0 (e.exc.zeroExtend 64)) := by
  intro e hx
  rw [exec_fpExact hi hr rfl, State.fpEnd_of_enabled hx]

end

theorem floatExceptionTraps : FloatExceptionTraps := by
  intro s d a b t r p c hr f rm x y w
  have h3 : ready s [d, a, b] := Slot.pendsOn_of_subset hr (by simp)
  have h2 : ready s [d, a, 0] := Slot.pendsOn_of_subset hr (by simp)
  simp only [List.forall_mem_cons, List.not_mem_nil, false_imp_iff, implies_true, and_true]
  refine ⟨exec_fpRound_traps (F := fun f rm w x y _ => f.add rm w x y) rfl h3,
    exec_fpRound_traps (F := fun f rm w x y _ => f.sub rm w x y) rfl h3, exec_fpRound_traps (F := fun f rm w x y _ => f.mul rm w x y) rfl h3,
    exec_fpRound_traps (F := fun f rm w x y z => f.fma rm w x y z) rfl h3, exec_fpRound_traps (F := fun f rm w x y _ => f.div rm w x y) rfl h3,
    exec_fpRound_traps (F := fun f rm w x _ _ => f.sqrt rm w x) rfl h2,
    exec_fpExact_traps (F := fun f x y => f.minmax false x y) rfl h3, exec_fpExact_traps (F := fun f x y => f.minmax true x y) rfl h3,
    exec_fpExact_traps (F := fun f x _ => f.abs x) rfl h2, exec_fpExact_traps (F := fun f x _ => f.negate x) rfl h2, fun hx => ?_⟩
  rw [exec_fcmp (Slot.pendsOn_of_subset hr (by simp)) rfl, State.fpEnd_of_enabled hx]
  rfl

/-! ### Rounding a magnitude (R54) -/

section
variable {x : Exact} {q : Int} (hq : x.e < q) (hs : x.sticky = false)
include hq hs

theorem Exact.roundAt_nearest (w : Nat) :
    (x.roundAt 0 w q).1 = x.m / 2 ^ (q - x.e).toNat +
      if 2 ^ (q - x.e).toNat < 2 * (x.m % 2 ^ (q - x.e).toNat)
        ∨ (2 * (x.m % 2 ^ (q - x.e).toNat) = 2 ^ (q - x.e).toNat ∧ x.m / 2 ^ (q - x.e).toNat % 2 = 1) then 1 else 0 := by
  rw [Exact.roundAt, if_neg (by omega)]
  simp only [hs, Bool.false_or, Bool.or_eq_true, Bool.and_eq_true, decide_eq_true_eq]
  split <;> rfl

omit hs in
theorem Exact.roundAt_truncates {rm : Nat} (h : rm = 1 ∨ (rm = 2 ∧ x.neg = true) ∨ (rm = 3 ∧ x.neg = false)) (w : Nat) :
    (x.roundAt rm w q).1 = x.m / 2 ^ (q - x.e).toNat := by
  rw [Exact.roundAt, if_neg (by omega)]
  rcases h with rfl | ⟨rfl, hn⟩ | ⟨rfl, hn⟩
  · rfl
  · simp [hn]
  · simp [hn]

theorem Exact.roundAt_away {rm : Nat} (h : (rm = 2 ∧ x.neg = false) ∨ (rm = 3 ∧ x.neg = true)) (w : Nat) :
    (x.roundAt rm w q).1 = x.m / 2 ^ (q - x.e).toNat + if x.m % 2 ^ (q - x.e).toNat = 0 then 0 else 1 := by
  rw [Exact.roundAt, if_neg (by omega)]
  rcases h with ⟨rfl, hn⟩ | ⟨rfl, hn⟩
  all_goals
    simp only [hn, hs, Bool.or_false, Bool.not_false, Bool.and_true, decide_eq_true_eq, ite_not]
    split <;> rfl

end

theorem roundingModes : RoundingModes := by
  intro x q hq hs u
  have hu : 2 ^ (q - x.e).toNat = u := rfl
  have hm : x.m = x.m / u * u + x.m % u := (Nat.div_add_mod' x.m u).symm
  have hr : x.m % u < u := Nat.mod_lt _ (Nat.two_pow_pos _)
  have hsucc : (x.m / u + 1) * u = x.m / u * u + u := Nat.succ_mul _ u
  have hnear := Exact.roundAt_nearest hq hs 0
  refine ⟨fun r e => ?_, fun rm h => ?_, fun rm h => ?_⟩
  · rw [hu] at hnear
    split at hnear
    next hup =>
      rw [e, hnear, hsucc]
      exact ⟨by omega, by omega, by omega⟩
    next hdown =>
      rw [e, hnear, Nat.add_zero]
      exact ⟨by omega, by omega, by omega⟩
  · rw [Exact.roundAt_truncates hq h, hu, hsucc]
    exact ⟨by omega, by omega⟩
  · have haway := Exact.roundAt_away hq hs h 0
    rw [hu] at haway
    split at haway
    · rw [haway, Nat.add_zero]
      exact ⟨by omega, by omega⟩
    · rw [haway, hsucc]
      exact ⟨by omega, by omega⟩

/-- Settles O6: a trap by the branch of `State.fpEnd` that an enabled exception selects, the frame by the branch where none is enabled, and
the rounding of a magnitude by its quotient and remainder at the unit. -/
theorem floatTrapsAndFrame : Obligations.FloatTrapsAndFrame := ⟨floatExceptionTraps, floatFrame, roundingModes⟩

end Sys2Proof.Machine
end

section
/-!
SUPPORT. The floating-point lanes, their conversions and the tree of a reduction (R285, R288-R292, R61).
-/
namespace Sys2Proof.Machine
open Sys2Proof.Rules

/-! ### The floating-point lanes (R285, R288, R289) -/

theorem vlane_toNat (x : Slot) (n : Nat) (r : BitVec 3) (k : Nat) : (vlane x n r k).toNat = lane n (x.vreg r) k := BitVec.toNat_ofNat _ _

section
variable {i : Instr} {s : State} {d a b c : BitVec 3} {m : BitVec 2} {z : BitVec 1} {t r : BitVec 3}

/-- A lane-wise instruction with no enabled exception, from the result of each lane. -/
theorem slotDone_vfp {rm n : Nat} {F : Slot → Nat → Nat → FRes} (hi : exec i s = .next (s.vfp d m z t rm n F)) {g : Nat → FRes}
    (hg : ∀ k, F s.cur (s.cur.draw k) k = g k)
    (hx : s.cur.laneExc m (4096 / (vectorFmt t).width) (fun k => (g k).exc) &&& s.cur.fpcs.en = 0) :
    slotDone i s fun sl => ((sl.raise (s.cur.laneExc m (4096 / (vectorFmt t).width) fun k => (g k).exc)).consume rm n).setVreg d
      (s.cur.merged (vectorFmt t).width d m z fun k => (g k).bits) := by
  refine slotDone_of_fpEnd (f := fun sl => sl.setVreg d (s.cur.merged (vectorFmt t).width d m z fun k => (g k).bits)) ?_ hx rfl
  simp only [hi, State.vfp, hg]

theorem slotDone_vround {F : FFmt → Nat → Nat → Nat → Nat → Nat → FRes} (hi : exec i s = .next (s.vround d a b c m z t r F))
    {g : Nat → FRes} (hg : ∀ k, F (vectorFmt t) (s.cur.mode3 r) (s.cur.draw k) (lane (vectorFmt t).width (s.cur.vreg a) k)
      (lane (vectorFmt t).width (s.cur.vreg b) k) (lane (vectorFmt t).width (s.cur.vreg c) k) = g k)
    (hx : s.cur.laneExc m (4096 / (vectorFmt t).width) (fun k => (g k).exc) &&& s.cur.fpcs.en = 0) :
    slotDone i s fun sl => ((sl.raise (s.cur.laneExc m (4096 / (vectorFmt t).width) fun k => (g k).exc)).consume (s.cur.mode3 r)
      (4096 / (vectorFmt t).width)).setVreg d (s.cur.merged (vectorFmt t).width d m z fun k => (g k).bits) :=
  slotDone_vfp (F := fun sl w k => F (vectorFmt t) (sl.mode3 r) w (lane (vectorFmt t).width (sl.vreg a) k)
    (lane (vectorFmt t).width (sl.vreg b) k) (lane (vectorFmt t).width (sl.vreg c) k)) hi hg hx

theorem slotDone_vexact {F : FFmt → Nat → Nat → FRes} (hi : exec i s = .next (s.vexact d a b m z t F))
    {g : Nat → FRes} (hg : ∀ k, F (vectorFmt t) (lane (vectorFmt t).width (s.cur.vreg a) k)
      (lane (vectorFmt t).width (s.cur.vreg b) k) = g k)
    (hx : s.cur.laneExc m (4096 / (vectorFmt t).width) (fun k => (g k).exc) &&& s.cur.fpcs.en = 0) :
    slotDone i s fun sl => (sl.raise (s.cur.laneExc m (4096 / (vectorFmt t).width) fun k => (g k).exc)).setVreg d
      (s.cur.merged (vectorFmt t).width d m z fun k => (g k).bits) :=
  slotDone_vfp (rm := 0) (n := 0) (F := fun sl _ k => F (vectorFmt t) (lane (vectorFmt t).width (sl.vreg a) k)
    (lane (vectorFmt t).width (sl.vreg b) k)) hi hg hx

end

theorem vectorFloatLanesHold : VectorFloatLanesHold := by
  intro s d a b c m z t r _ _ f n l rm u x y e w exc res
  have hl : ∀ v k, (vlane u n v k).toNat = lane n (u.vreg v) k := vlane_toNat u n
  simp only [List.forall_mem_cons, List.not_mem_nil, false_imp_iff, implies_true, and_true]
  refine ⟨⟨?_, ?_, ?_, ?_, ?_, ?_⟩, ⟨?_, ?_, ?_, ?_⟩, ?_⟩
  · exact slotDone_vround (F := fun f rm w x y _ => f.add rm w x y) rfl fun k => by simp only [x, y, hl]; rfl
  · exact slotDone_vround (F := fun f rm w x y _ => f.sub rm w x y) rfl fun k => by simp only [x, y, hl]; rfl
  · exact slotDone_vround (F := fun f rm w x y _ => f.mul rm w x y) rfl fun k => by simp only [x, y, hl]; rfl
  · exact slotDone_vround (F := fun f rm w x y _ => f.div rm w x y) rfl fun k => by simp only [x, y, hl]; rfl
  · exact slotDone_vround (F := fun f rm w x y e => f.fma rm w x y e) rfl fun k => by simp only [x, y, e, hl]; rfl
  · exact slotDone_vround (F := fun f rm w x _ _ => f.sqrt rm w x) rfl fun k => by simp only [x, hl]; rfl
  · exact slotDone_vexact (F := fun f x y => f.minmax false x y) rfl fun k => by simp only [x, y, hl]; rfl
  · exact slotDone_vexact (F := fun f x y => f.minmax true x y) rfl fun k => by simp only [x, y, hl]; rfl
  · exact slotDone_vexact (F := fun f x _ => f.abs x) rfl fun k => by simp only [x, hl]; rfl
  · exact slotDone_vexact (F := fun f x _ => f.negate x) rfl fun k => by simp only [x, hl]; rfl
  · intro p cc hx
    simp only [exc, x, y, hl] at hx ⊢
    exact slotDone_of_fpEnd rfl hx rfl

/-! ### The tree of a reduction (R61, R292) -/

/-- A level over pairs halves them and uses a draw for each. -/
theorem reduceLevel_length_draws (f : Nat → Nat → Nat → FRes) (n : Nat) : ∀ (l : List Nat) (i : Nat) (e : Exc), l.length = 2 * n →
    (reduceLevel f l i e).1.length = n ∧ (reduceLevel f l i e).2.1 = i + n := by
  induction n with
  | zero =>
    intro l i e h
    rw [List.length_eq_zero_iff.1 (by omega : l.length = 0)]
    exact ⟨rfl, rfl⟩
  | succ n ih =>
    intro l i e h
    match l, h with
    | x :: y :: r, h =>
      obtain ⟨hlen, hi⟩ := ih r (i + 1) (e ||| (f i x y).exc) (by simp only [List.length_cons] at h; omega)
      exact ⟨congrArg (· + 1) hlen, by rw [reduceLevel, hi]; omega⟩

/-- The whole tree over 2^n lanes uses 2^n − 1 draws. -/
theorem reduceTree_draws (f : Nat → Nat → Nat → FRes) (n : Nat) : ∀ (l : List Nat) (i : Nat) (e : Exc), l.length = 2 ^ n →
    (reduceTree f n l i e).2.1 = i + (2 ^ n - 1) := by
  induction n with
  | zero => intro l i e _; rfl
  | succ n ih =>
    intro l i e h
    obtain ⟨hlen, hi⟩ := reduceLevel_length_draws f (2 ^ n) l i e (by rw [h, Nat.pow_succ'])
    rw [reduceTree, ih _ _ _ hlen, hi, Nat.pow_succ']
    have := Nat.two_pow_pos n
    omega

/-- The vector types, by their lane counts and the encodings of the identities. -/
theorem vectorFmt_facts (t : BitVec 3) :
    2 ^ Nat.log2 (4096 / (vectorFmt t).width) = 4096 / (vectorFmt t).width
      ∧ (vectorFmt t).withSign true 0 = 2 ^ ((vectorFmt t).width - 1)
      ∧ (vectorFmt t).withSign true ((vectorFmt t).maxBits + 1) = 2 ^ ((vectorFmt t).width - 1) + ((vectorFmt t).maxBits + 1) := by
  unfold vectorFmt
  split <;> exact ⟨rfl, rfl, rfl⟩

section
variable {i : Instr} {s : State} {d a : BitVec 3} {m : BitVec 2} {t : BitVec 3}

/-- The lanes of a reduction: an inactive one is the identity. -/
def Slot.reduceLanes (x : Slot) (a : BitVec 3) (m : BitVec 2) (w ident : Nat) : List Nat :=
  (List.range (4096 / w)).map fun k => if x.active m k then lane w (x.vreg a) k else ident

/-- A reduction with no enabled exception. -/
theorem slotDone_vredf {rm : Nat} {I : FFmt → Nat} {F : FFmt → Nat → Nat → Nat → FRes} (hi : exec i s = .next (s.vredf d a m t rm I F))
    {ident : Nat} (hI : I (vectorFmt t) = ident) :
    let l := 4096 / (vectorFmt t).width
    let x := reduceTree (fun i => F (vectorFmt t) (s.cur.draw i)) (Nat.log2 l) (s.cur.reduceLanes a m (vectorFmt t).width ident) 0 0
    x.2.2 &&& s.cur.fpcs.en = 0 →
      slotDone i s fun sl => ((sl.raise x.2.2).consume rm (l - 1)).setVreg d (BitVec.ofNat 4096 (x.1.headD 0)) := by
  intro l x hx
  have hn : x.2.1 = l - 1 := by
    rw [reduceTree_draws _ _ _ _ _ (by rw [Slot.reduceLanes, List.length_map, List.length_range, (vectorFmt_facts t).1]),
      (vectorFmt_facts t).1, Nat.zero_add]
  rw [← hn]
  refine slotDone_of_fpEnd (f := fun sl => sl.setVreg d (BitVec.ofNat 4096 (x.1.headD 0))) ?_ hx rfl
  subst hI
  exact hi

end

theorem vectorConversionsAndFloatReductions : VectorConversionsAndFloatReductions := by
  intro s d a m z r u rm
  refine ⟨?_, fun t _ _ => ⟨?_, ?_, ?_⟩⟩
  · intro f t hf ht src dst l g exc hx
    refine slotDone_of_fpEnd ?_ hx ?_ (rm := rm) (n := l)
      (f := fun x => x.setVreg d (x.mergedLow dst.laneW l d m z fun k => dst.lane (g k).bits))
    · rw [show exec (.vcvt d a f m z r t) s = execVcvt d a f m z r t s from rfl, execVcvt, if_neg (by omega), if_neg (by omega)]
      rfl
    · unfold Slot.consume
      split <;> rfl
  · exact slotDone_vredf (I := fun f => f.withSign true 0) (F := fun f w x y => f.add (s.cur.mode3 r) w x y) rfl (vectorFmt_facts t).2.1
  · exact slotDone_vredf (rm := 0) (I := fun f => f.maxBits + 1) (F := fun f _ x y => f.minmax false x y) rfl rfl
  · exact slotDone_vredf (rm := 0) (I := fun f => f.withSign true (f.maxBits + 1)) (F := fun f _ x y => f.minmax true x y)
      rfl (vectorFmt_facts t).2.2

/-- Settles O22: a lane-wise instruction, a conversion and a reduction each end by `State.fpEnd`; the tree of a reduction over 2^n lanes uses
2^n − 1 draws. -/
theorem vectorFloatLanes : Obligations.VectorFloatLanes := ⟨vectorFloatLanesHold, vectorConversionsAndFloatReductions⟩

end Sys2Proof.Machine
end

section
/-!
SUPPORT. Poison reports, the firings of an island and the values of a result row (R63, R69-R72, R179).
-/
namespace Sys2Proof.Machine
open Sys2Proof.Rules

/-! ### The fabric and the router of a tile that is changed -/

@[simp] theorem State.fabric_modFabric_self (s : State) (t : Nat) (f : Fabric → Fabric) :
    ((s.modFabric t f).tile t).fabric = f (s.tile t).fabric := by rw [State.tile_modFabric_self]

@[simp] theorem State.router_modFabric (s : State) (t : Nat) (f : Fabric → Fabric) :
    ((s.modFabric t f).tile t).router = (s.tile t).router := by
  rw [State.tile_modFabric_self]

@[simp] theorem State.fabric_modIsland_self (s : State) (t i : Nat) (g : Island → Island) :
    ((s.modIsland t i g).tile t).fabric = (s.tile t).fabric.modIsland i g := State.fabric_modFabric_self _ _ _

@[simp] theorem State.router_modIsland (s : State) (t i : Nat) (g : Island → Island) :
    ((s.modIsland t i g).tile t).router = (s.tile t).router := State.router_modFabric _ _ _

@[simp] theorem State.fabric_startTest (s : State) (t a b c : Nat) (x : Bool) :
    ((s.startTest t a b c x).tile t).fabric = (s.tile t).fabric := by
  rw [State.startTest, State.queueTest, State.modSwatch, State.tile_modTile_self]

@[simp] theorem State.router_startTest (s : State) (t a b c : Nat) (x : Bool) :
    ((s.startTest t a b c x).tile t).router = (s.tile t).router := by
  rw [State.startTest, State.queueTest, State.modSwatch, State.tile_modTile_self]

@[simp] theorem State.tile_care1 (s : State) (t ev d u : Nat) : (s.care1 t ev d).tile u = s.tile u := rfl

@[simp] theorem State.tile_write (s : State) (loc : Nat) (bs : List Byte) (u : Nat) : (s.write loc bs).tile u = s.tile u := rfl

/-! ### A poison report (R179) -/

@[simp] theorem State.fabric_report (s : State) (t unit : Nat) (st : BitVec 4) (v w : Word) :
    ((s.report t unit st v w).tile t).fabric = (s.tile t).fabric := by
  unfold State.report
  dsimp only
  split
  · rw [State.fabric_modRouter]
  · rfl

/-- What a unit that has reported `r` remembers after one more poisoned value. -/
def SinkRep.after (r : SinkRep) (origin : Word) (what : Nat) : SinkRep :=
  if !r.first then ⟨true, 0, 0, 0⟩
  else if r.count = 0 then ⟨true, origin, what, 1⟩
  else { r with count := if r.count = 65535 then 65535 else r.count + 1 }

/-- A report changes the unit's sink alone of the fabric. -/
theorem State.fabric_sinkReport (s : State) (t unit what : Nat) (w : Word) :
    ((s.sinkReport t unit what w).tile t).fabric
      = { (s.tile t).fabric with
          sinks := (s.tile t).fabric.sinks.put unit (((s.tile t).fabric.sinks.get SinkRep.reset unit).after w what) } := by
  unfold State.sinkReport SinkRep.after
  dsimp only
  split
  · rw [State.fabric_report, State.fabric_modFabric_self]
  · split
    · exact State.fabric_modFabric_self _ _ _
    · exact State.fabric_modFabric_self _ _ _

@[simp] theorem State.island_sinkReport (s : State) (t unit what : Nat) (w : Word) (i : Nat) :
    ((s.sinkReport t unit what w).tile t).fabric.island i = (s.tile t).fabric.island i := by
  rw [State.fabric_sinkReport]
  rfl

theorem SinkRep.first_after (r : SinkRep) (w : Word) (what : Nat) : (r.after w what).first = true := by
  unfold SinkRep.after
  split
  · rfl
  · split
    · rfl
    next h _ => simpa using h

theorem SinkRep.count_after {r : SinkRep} (h : r.first = true) (w : Word) (what : Nat) :
    (r.after w what).count = if r.count = 65535 then 65535 else r.count + 1 := by
  rw [SinkRep.after, if_neg (by simp [h])]
  split
  next h0 => rw [h0]; rfl
  next => rfl

/-- A report that the return pocket takes at once stands in it. -/
theorem State.report_stored {s : State} {t : Nat} (hr : (s.tile t).router.returnRoom = true)
    (hh : ((s.tile t).router.pocket 0).held = false) (unit : Nat) (st : BitVec 4) (v w : Word) :
    ∃ x ∈ (((s.report t unit st v w).tile t).router.pocket 0).store, x.status = st ∧ x.src = t ∧ x.w0 = v ∧ x.w1 = w := by
  refine ⟨⟨t, true, unit % 16, t, 0, none, true, v, w, st, none, none⟩, ?_, rfl, rfl, rfl, rfl⟩
  rw [State.report, if_pos (by simp [hr, hh]), State.modRouter, State.tile_modTile_self, Router.placeReturn, if_pos (by simp [hr, hh]),
    Router.pocket, Router.modPocket, Tab.get_put_self]
  unfold Pocket.settle
  split <;> simp

/-- A report is one of R179. -/
theorem reported_sinkReport (s : State) (t unit what : Nat) (w : Word) : reported s (s.sinkReport t unit what w) t unit what w := by
  refine ⟨?_, fun h => ?_, fun h hr hh => ?_⟩
  · rw [State.fabric_sinkReport, Tab.get_put_self, SinkRep.first_after]
  · rw [State.fabric_sinkReport, Tab.get_put_self, SinkRep.count_after h]
  · rw [State.sinkReport, if_pos (by rw [h]; rfl)]
    exact State.report_stored (by rwa [State.router_modFabric]) (by rwa [State.router_modFabric]) _ _ _ _

/-- A report is read in the reports and the return pocket of its tile alone. -/
theorem reported_of_eq {s s' u u' : State} {t unit what : Nat} {w : Word} (h : reported s u t unit what w)
    (hs : (s'.tile t).fabric.sinks = (s.tile t).fabric.sinks) (hr : (s'.tile t).router = (s.tile t).router)
    (hu : (u'.tile t).fabric.sinks = (u.tile t).fabric.sinks) (hv : (u'.tile t).router = (u.tile t).router) :
    reported s' u' t unit what w := by
  simpa only [reported, hs, hr, hu, hv] using h

/-! ### An island fires (R69-R72) -/

/-- The count of second firings that MISM shows, which stays at its greatest (R301). -/
def Island.countMism (I : Island) : Island := { I with mism := if I.mism = BitVec.allOnes 16 then I.mism else I.mism + 1 }

/-- A second firing is counted, and its island tested. -/
def State.countRefire (s : State) (t i : Nat) : State := (s.modIsland t i Island.countMism).startTest t 2 (16 + i) 0 true

theorem State.fabric_countRefire (s : State) (t i : Nat) :
    ((s.countRefire t i).tile t).fabric = (s.tile t).fabric.modIsland i Island.countMism := by
  rw [State.countRefire, State.fabric_startTest, State.fabric_modIsland_self]

theorem State.router_countRefire (s : State) (t i : Nat) : ((s.countRefire t i).tile t).router = (s.tile t).router := by
  rw [State.countRefire, State.router_startTest, State.router_modIsland]

/-- What a second firing comes to: the row's results, or a row of poisoned values and their report. -/
theorem exec_islandRefire {s : State} {r : Row} {rest : List Row}
    (hrows : ((s.tile s.ev.tile).fabric.island s.ev.unit).rows = r :: rest) (hfire : s.mayFire s.ev.tile s.ev.unit = true)
    (hre : ((s.tile s.ev.tile).fabric.island s.ev.unit).refire = true) :
    exec .islandRefire s = .next (
      if residueOk ((s.tile s.ev.tile).fabric.island s.ev.unit) r s.ev.upset then
        ((s.care1 s.ev.tile 0x0003 s.ev.unit).modIsland s.ev.tile s.ev.unit fun J =>
          J.done (islandRow s.ev.tile s.ev.unit J r s.ev.upset)).countRefire s.ev.tile s.ev.unit
      else
        ((s.modIsland s.ev.tile s.ev.unit fun J =>
            J.done (List.replicate (mxColumns J.fmt) ⟨true, 0, originWord s.ev.tile (16 + s.ev.unit) 8⟩)).sinkReport
          s.ev.tile (16 + s.ev.unit) 7 (originWord s.ev.tile (16 + s.ev.unit) 8)).countRefire s.ev.tile s.ev.unit) := by
  rw [show exec .islandRefire s = execIslandRefire s from rfl, execIslandRefire]
  simp only [hrows]
  rw [if_neg (by simp [hfire, hre])]
  rfl

theorem islandFiringsHold : IslandFiringsHold := by
  intro s r rest t i I hrows hfire
  have hhead : (s.tile s.ev.tile).fabric.island s.ev.unit = I := rfl
  refine ⟨fun hre hok => ?_, fun hre hbad => ?_, fun hre => ?_⟩
  · refine nextWith_of_eq (t := s.modIsland t i fun J => J.done (islandRow t i J r s.ev.upset)) ?_ ⟨?_, sameMemory_of_memory_eq rfl⟩
    · rw [show exec .islandFire s = execIslandFire s from rfl, execIslandFire]
      simp only [hhead, hrows, hok]
      rw [if_neg (by simp [t, i, hfire, hre])]
      rfl
    · rw [State.fabric_modIsland_self, Fabric.island_modIsland_self, Island.done, show (s.tile t).fabric.island i = I from rfl, hrows]
      rfl
  · refine nextWith_of_eq (t := s.modIsland t i fun J => { J with refire := true }) ?_ ⟨?_, sameMemory_of_memory_eq rfl⟩
    · rw [show exec .islandFire s = execIslandFire s from rfl, execIslandFire]
      simp only [hhead, hrows, hbad]
      rw [if_neg (by simp [t, i, hfire, hre])]
      rfl
    · rw [State.fabric_modIsland_self, Fabric.island_modIsland_self]
  · rw [exec_islandRefire hrows hfire hre]
    split
    next hok =>
      refine nextWith_of_eq rfl ?_
      rw [State.fabric_countRefire, State.fabric_modIsland_self, Fabric.island_modIsland_self, Fabric.island_modIsland_self,
        State.tile_care1]
      exact ⟨congrArg (List.drop 1) hrows, rfl, List.length_append, fun _ => rfl, fun hbad => absurd hok (by rw [hhead, hbad]; decide), rfl⟩
    next hbad =>
      refine nextWith_of_eq rfl ?_
      rw [State.fabric_countRefire, Fabric.island_modIsland_self, State.island_sinkReport, State.fabric_modIsland_self,
        Fabric.island_modIsland_self]
      refine ⟨congrArg (List.drop 1) hrows, rfl, List.length_append, fun hok => absurd hok hbad, fun _ => ⟨rfl, ?_⟩, rfl⟩
      exact reported_of_eq (reported_sinkReport (s.modIsland t i fun J =>
          J.done (List.replicate (mxColumns J.fmt) ⟨true, 0, originWord t (16 + i) 8⟩)) t (16 + i) 7 (originWord t (16 + i) 8))
        (by rw [State.fabric_modIsland_self]; rfl) (State.router_modIsland _ _ _ _).symm (by rw [State.fabric_countRefire]; rfl)
        (State.router_countRefire _ _ _)

/-! ### Rounding does not see the unit of its exact value (R54) -/

theorem Exact.roundAt_scale (neg : Bool) (m k w : Nat) (e q : Int) :
    (⟨neg, m * 2 ^ k, e, false⟩ : Exact).roundAt 0 w q = (⟨neg, m, e + k, false⟩ : Exact).roundAt 0 w q := by
  unfold Exact.roundAt
  dsimp only
  split
  next hfine =>
    rw [if_pos (by omega), Nat.mul_assoc, ← Nat.pow_add, show (e + k - q).toNat = k + (e - q).toNat by omega]
  next hcoarse =>
    by_cases h : q ≤ e + k
    · have hs : k = (e + k - q).toNat + (q - e).toNat := by omega
      have hu := Nat.two_pow_pos (q - e).toNat
      rw [if_pos h, show m * 2 ^ k = m * 2 ^ (e + k - q).toNat * 2 ^ (q - e).toNat by rw [Nat.mul_assoc, ← Nat.pow_add, ← hs],
        Nat.mul_mod_left, Nat.mul_div_cancel _ hu]
      simp [hu.ne]
    · have hk := Nat.two_pow_pos k
      rw [if_neg h, show (q - e).toNat = (q - (e + k)).toNat + k by omega, Nat.pow_add, Nat.mul_mod_mul_right,
        Nat.mul_div_mul_right _ _ hk, ← Nat.mul_assoc]
      simp only [Nat.mul_lt_mul_right hk, Nat.mul_left_inj hk.ne', Nat.mul_eq_zero, hk.ne', or_false, ne_eq]

theorem log2_mul_two_pow {m : Nat} (hm : m ≠ 0) (k : Nat) : Nat.log2 (m * 2 ^ k) = Nat.log2 m + k := by
  rw [Nat.log2_eq_log_two, Nat.log2_eq_log_two]
  induction k with
  | zero => rw [Nat.pow_zero, Nat.mul_one, Nat.add_zero]
  | succ k ih => rw [Nat.pow_succ, ← Nat.mul_assoc, Nat.log_mul_base (by decide) (by simp [hm]), ih, Nat.add_assoc]

theorem FFmt.round_scale (f : FFmt) (neg : Bool) (m k w : Nat) (e : Int) :
    f.round 0 w ⟨neg, m * 2 ^ k, e, false⟩ = f.round 0 w ⟨neg, m, e + k, false⟩ := by
  unfold FFmt.round
  by_cases hm : m = 0
  · rw [if_pos (by simp [hm]), if_pos hm]
  · rw [if_neg (by simp [hm]), if_neg hm]
    simp only [Exact.roundAt_scale, log2_mul_two_pow hm]
    rw [show e + ((Nat.log2 m + k : Nat) : Int) = e + k + Nat.log2 m by omega]

/-! ### The values of a result row (R63, R71) -/

theorem foldl_min_le (l : List Nat) (a : Nat) : l.foldl min a ≤ a ∧ ∀ x ∈ l, l.foldl min a ≤ x := by
  induction l generalizing a with
  | nil => simp
  | cons y l ih =>
    obtain ⟨ha, hl⟩ := ih (min a y)
    simp only [List.foldl_cons, List.forall_mem_cons]
    exact ⟨by omega, by omega, hl⟩

theorem leastOf_le {l : List Nat} {x : Nat} (h : x ∈ l) : leastOf l ≤ x := (foldl_min_le l _).2 x h

section
variable {I : Island} {r : Row} {c : Nat}

theorem columnOk_iff : I.columnOk c = true ↔ ∀ b < 4, I.scale c b ≠ 0xFF := by simp [Island.columnOk]

theorem scalesOk_iff : r.scalesOk = true ↔ ∀ b < 4, r.scale b ≠ 0xFF := by simp [Row.scalesOk]

theorem Island.base_le (hc : c < mxColumns I.fmt) (hok : I.columnOk c = true) {b : Nat} (hb : b < 4) : I.base r ≤ r.scale b + I.scale c b :=
  calc I.base r
    _ ≤ r.scale b + leastOf ((((List.range (mxColumns I.fmt)).filter I.columnOk)).map fun c => I.scale c b) :=
      leastOf_le (List.mem_map_of_mem (List.mem_range.2 hb))
    _ ≤ r.scale b + I.scale c b :=
      Nat.add_le_add_left (leastOf_le (List.mem_map.2 ⟨c, List.mem_filter.2 ⟨List.mem_range.2 hc, hok⟩, rfl⟩)) _

/-- A finer unit scales the exact sum. -/
theorem Island.sum_scale {m n : Nat} (hmn : m ≤ n) (hn : ∀ b < 4, n ≤ r.scale b + I.scale c b) :
    I.sum r m c = I.sum r n c * (2 ^ (n - m) : Nat) := by
  rw [Island.sum, Island.sum, ← List.sum_map_mul_right]
  refine congrArg List.sum (List.map_congr_left fun b hb => ?_)
  have h := hn b (List.mem_range.1 hb)
  rw [Int.mul_assoc, ← Int.natCast_mul, ← Nat.pow_add, show r.scale b + I.scale c b - n + (n - m) = r.scale b + I.scale c b - m by omega]

/-- The exact sum of a column in units of 2^(m - 254). -/
def Island.exact (I : Island) (r : Row) (c m : Nat) : Exact := ⟨decide (I.sum r m c < 0), (I.sum r m c).natAbs, (m : Int) - 254, false⟩

theorem Island.round_exact_of_le (f : FFmt) {m n : Nat} (hmn : m ≤ n) (hn : ∀ b < 4, n ≤ r.scale b + I.scale c b) :
    f.round 0 0 (I.exact r c m) = f.round 0 0 (I.exact r c n) := by
  have hneg : I.sum r n c * (2 ^ (n - m) : Nat) < 0 ↔ I.sum r n c < 0 :=
    ⟨fun h => neg_of_mul_neg_left h (Int.natCast_nonneg _), fun h => Int.mul_neg_of_neg_of_pos h (by exact_mod_cast Nat.two_pow_pos _)⟩
  rw [Island.exact, Island.sum_scale hmn hn, Int.natAbs_mul, Int.natAbs_natCast, FFmt.round_scale, decide_eq_decide.2 hneg, Island.exact,
    show (m : Int) - 254 + (n - m : Nat) = n - 254 by omega]

theorem Island.round_exact (f : FFmt) {m n : Nat} (hm : ∀ b < 4, m ≤ r.scale b + I.scale c b)
    (hn : ∀ b < 4, n ≤ r.scale b + I.scale c b) :
    f.round 0 0 (I.exact r c m) = f.round 0 0 (I.exact r c n) :=
  (le_total m n).elim (fun h => I.round_exact_of_le f h hn) fun h => (I.round_exact_of_le f h hm).symm

theorem resultValue_exact (m : Nat) (o : Nat → Word) :
    resultValue (I.sum r m c) ((m : Int) - 254) o
      = if (f32.round 0 0 (I.exact r c m)).exc.getLsbD 2 then ⟨true, 0, o 3⟩
        else ⟨false, 0, BitVec.ofNat 64 (f32.round 0 0 (I.exact r c m)).bits⟩ := rfl

theorem islandRow_of_poison (t i : Nat) (hc : c < mxColumns I.fmt) (u : Upset) {w : Word} (hp : r.poison = some w) :
    (islandRow t i I r u)[c]? = some ⟨true, 0, w⟩ := by
  simp only [islandRow, List.getElem?_map, List.getElem?_range hc, Option.map_some, hp]

/-- Column `c` of a result row without an error of the array. -/
theorem islandRow_of_clean (t i : Nat) (hc : c < mxColumns I.fmt) (hp : r.poison = none) :
    (islandRow t i I r [])[c]? = some (
      if !r.scalesOk || !I.columnOk c then ⟨true, 0, originWord t (16 + i) 1⟩
      else resultValue (I.sum r (I.base r) c) ((I.base r : Int) - 254) (originWord t (16 + i))) := by
  simp only [islandRow, List.getElem?_map, List.getElem?_range hc, Option.map_some, hp, upsetAt, List.filter_nil, List.map_nil,
    List.sum_nil, Int.add_zero]

end

theorem islandValues : IslandValues := by
  intro t i c I r hc
  refine ⟨fun w hp => ?_, fun hp hbad => ?_, fun hp hgood m hm => ?_⟩
  · exact islandRow_of_poison t i hc [] hp
  · rw [islandRow_of_clean t i hc hp, if_pos]
    obtain ⟨b, hb, h | h⟩ := hbad
    · simp only [Bool.or_eq_true, Bool.not_eq_true', ← Bool.not_eq_true, scalesOk_iff]
      exact .inl fun h' => h' b hb h
    · simp only [Bool.or_eq_true, Bool.not_eq_true', ← Bool.not_eq_true, columnOk_iff]
      exact .inr fun h' => h' b hb h
  · have hr : r.scalesOk = true := scalesOk_iff.2 fun b hb => (hgood b hb).1
    have hok : I.columnOk c = true := columnOk_iff.2 fun b hb => (hgood b hb).2
    intro sum v
    rw [islandRow_of_clean t i hc hp, hr, hok, if_neg (by decide), resultValue_exact, I.round_exact f32 (fun b hb => I.base_le hc hok hb) hm]
    rfl

end Sys2Proof.Machine
end

section
/-!
SUPPORT. The result port of an island (R70, R74, R247, R300).
-/
namespace Sys2Proof.Machine
open Sys2Proof.Rules

/-! ### The result port (R70, R74, R247, R300) -/

/-- The result rows of an island and how far the oldest has gone. -/
def Island.outgoing (I : Island) : List (List Token) × Nat := (I.results, I.sent)

/-- A change of a fabric that leaves every island's result rows alone. -/
theorem State.outgoing_modFabric {s : State} {t u : Nat} {f : Fabric → Fabric} {i : Nat}
    (h : ∀ F, ((f F).island i).outgoing = (F.island i).outgoing) :
    (((s.modFabric u f).tile t).fabric.island i).outgoing = ((s.tile t).fabric.island i).outgoing := by
  by_cases e : t = u
  · subst e
    rw [State.fabric_modFabric_self, h]
  · rw [State.modFabric, State.tile_modTile_of_ne _ _ e]

theorem State.outgoing_modPart (s : State) (u : Nat) (g : Part → Part) (t i : Nat) :
    (((s.modPart u g).tile t).fabric.island i).outgoing = ((s.tile t).fabric.island i).outgoing :=
  State.outgoing_modFabric fun _ => rfl

theorem State.outgoing_sinkPut (s : State) (d : Nat × Sink) (k : Token) (t i : Nat) :
    (((s.sinkPut d k).tile t).fabric.island i).outgoing = ((s.tile t).fabric.island i).outgoing := by
  unfold State.sinkPut
  split
  case h_2 j _ =>
    refine State.outgoing_modFabric fun F => ?_
    by_cases e : i = j
    · subst e
      rw [Fabric.island_modIsland_self]
      rfl
    · rw [Fabric.island, Fabric.modIsland, Tab.get_put_of_ne _ _ _ e]
      rfl
  all_goals exact State.outgoing_modFabric fun _ => rfl

/-- A token that leaves reaches no result row. -/
theorem State.outgoing_sendToken (s : State) (u : Nat) (d : Nat × Sink) (k : Token) (t i : Nat) :
    (((s.sendToken u d k).tile t).fabric.island i).outgoing = ((s.tile t).fabric.island i).outgoing := by
  unfold State.sendToken
  dsimp only
  split
  · rw [State.wakePart, State.outgoing_modPart, State.outgoing_sinkPut]
  · split
    all_goals exact State.outgoing_modPart s u (fun p => { p with s := p.s + 1 }) t i

/-- A token to an element of the sending tile stands at the end of its channel. -/
theorem State.chan_sendToken (s : State) (t e c : Nat) (k : Token) :
    (((s.sendToken t (t, .elem e c) k).tile t).fabric.elem e).chans.get [] c = ((s.tile t).fabric.elem e).chans.get [] c ++ [k] := by
  rw [State.sendToken, if_pos rfl, State.wakePart, State.modPart, State.fabric_modFabric_self, State.sinkPut]
  simp only [State.modElem, State.fabric_modFabric_self, Fabric.elem, Fabric.modElem, Tab.get_put_self]

/-- The job at the head of the queue may run. -/
theorem Island.next_of_head {I : Island} {j : MatJob} {rest : List MatJob} (h : I.jobs = j :: rest) : I.next j.kind = some 0 := by
  simp [Island.next, h, List.findIdx?_cons]

/-- What an MDRAIN does with the oldest result row. -/
def Island.drained (vals : List Token) (I : Island) : Island :=
  (I.modJob 0 fun x => { x with done := x.done + 1, started := true, poisoned := x.poisoned || vals.any fun k => k.poison }).rowSent

section
variable {s : State} {t i : Nat} {vals : List Token} {j : MatJob} {rest : List MatJob}

theorem State.drainRow_of_head (hj : ((s.tile t).fabric.island i).jobs = j :: rest) (hk : j.kind = .drain) (hc : j.done < j.count)
    (hq : s.storeQuiet t (j.a + j.done * (4 * vals.length)) (4 * vals.length) = true)
    (hl : j.a + j.done * (4 * vals.length) + 4 * vals.length ≤ s.lsize t) :
    s.drainRow t i vals = ((vals.filter fun k => k.poison).foldl (fun a k => a.sinkReport t (16 + i) 6 k.data)
      (s.write (localLoc t (j.a + j.done * (4 * vals.length))) (drainBytes vals))).modIsland t i (Island.drained vals) := by
  rw [State.drainRow, ← hk, Island.next_of_head hj]
  simp only [hj, List.getElem?_cons_zero]
  rw [if_pos ⟨hc, hq⟩, if_neg (by omega)]
  rfl

theorem State.ownResult_of_head (hj : ((s.tile t).fabric.island i).jobs = j :: rest) (hk : j.kind = .drain)
    (hs : ((s.tile t).fabric.island i).sent = 0) : s.ownResult t i vals = s.drainRow t i vals := by
  rw [State.ownResult]
  split
  · rw [if_pos ⟨hs, by rw [← hk, Island.next_of_head hj]; rfl⟩]
  · rfl

end

theorem Island.results_drained {I : Island} {vals : List Token} {more : List (List Token)} (h : I.results = vals :: more) :
    (I.drained vals).results = more := congrArg (List.drop 1) h

theorem Island.jobs_drained {I : Island} {j : MatJob} {rest : List MatJob} (h : I.jobs = j :: rest) (vals : List Token) :
    (I.drained vals).jobs
      = { j with done := j.done + 1, started := true, poisoned := j.poisoned || vals.any fun k => k.poison } :: rest := by
  rw [Island.drained, Island.rowSent, Island.modJob]
  simp only [h, List.getElem?_cons_zero]
  rfl

/-- A run of reports leaves every island of the tile alone. -/
theorem State.island_reports (s : State) (t unit what i : Nat) (l : List Token) :
    ((l.foldl (fun a k => a.sinkReport t unit what k.data) s).tile t).fabric.island i = (s.tile t).fabric.island i :=
  foldl_keeps (fun a : State => (a.tile t).fabric.island i) _ (fun _ _ => State.island_sinkReport _ _ _ _ _ _) l s

theorem State.reports_mem (s : State) (t unit what : Nat) (l : List Token) :
    (l.foldl (fun a k => a.sinkReport t unit what k.data) s).mem = s.mem :=
  foldl_keeps State.mem _ (fun _ _ => State.sinkReport_mem _ _ _ _ _) l s

theorem State.outgoing_sendTokens (s : State) (u : Nat) (ds : List (Nat × Sink)) (k : Token) (t i : Nat) :
    (((ds.foldl (fun a d => a.sendToken u d k) s).tile t).fabric.island i).outgoing = ((s.tile t).fabric.island i).outgoing :=
  foldl_keeps (fun a : State => ((a.tile t).fabric.island i).outgoing) _ (fun _ _ => State.outgoing_sendToken _ _ _ _ _ _) ds s

/-- A route with room at each of its ends takes a token of two values; the row is gone after its last. -/
theorem State.sendResult_of_room {s : State} {t i : Nat} {vals : List Token} {ds : List (Nat × Sink)} {routes : List (List (Nat × Sink))}
    (hr : (s.tile t).fabric.routesOf i = ds :: routes) (hne : ds ≠ []) (hroom : ∀ d ∈ ds, s.sinkRoom t d 1 = true) :
    s.sendResult t i vals 0 =
      (ds.foldl (fun a d => a.sendToken t d (pairToken vals vals.length ((s.tile t).fabric.island i).sent)) s).modIsland t i
        (if vals.length ≤ 2 * ((s.tile t).fabric.island i).sent + 2 then Island.rowSent else fun J => { J with sent := J.sent + 1 }) := by
  rw [State.sendResult]
  simp only [hr, List.getElem?_cons_zero]
  cases ds with
  | nil => exact absurd rfl hne
  | cons d ds =>
    rw [if_pos (List.all_eq_true.2 hroom)]
    split <;> rfl

theorem resultPort : ResultPort := by
  intro s vals more t i I hres
  refine ⟨fun j rest hcl hsent hjobs hk hc hq hl => ?_, fun ds routes hcl hle hr hne hroom => ?_⟩
  · have hrun : exec .resultPortSend s = .next (s.drainRow t i vals) := by
      rw [show exec .resultPortSend s = execResultPortSend s from rfl, execResultPortSend]
      simp only [show ((s.tile s.ev.tile).fabric.island s.ev.unit).results = vals :: more from hres,
        show ((s.tile s.ev.tile).fabric.island s.ev.unit).claimResults = false from hcl]
      exact congrArg _ (State.ownResult_of_head hjobs hk hsent)
    refine nextWith_of_eq (hrun.trans (congrArg _ (State.drainRow_of_head hjobs hk hc hq hl))) ⟨?_, ?_, ?_, fun w hw => ?_⟩
    · rw [State.fabric_modIsland_self, Fabric.island_modIsland_self, State.island_reports]
      exact Island.results_drained hres
    · rw [State.modIsland_mem, State.reports_mem]
      rfl
    · rw [State.fabric_modIsland_self, Fabric.island_modIsland_self, State.island_reports, State.tile_write, Island.jobs_drained hjobs]
      rfl
    · rw [hw, List.foldl_cons, List.foldl_nil]
      exact reported_of_eq (reported_sinkReport (s.write (localLoc t (j.a + j.done * (4 * vals.length))) (drainBytes vals)) t (16 + i) 6
        w.data) rfl rfl (by rw [State.fabric_modIsland_self]; rfl) (State.router_modIsland _ _ _ _)
  · have hrun : exec .resultPortSend s = .next (s.sendResult t i vals 0) := by
      rw [show exec .resultPortSend s = execResultPortSend s from rfl, execResultPortSend]
      simp only [show ((s.tile s.ev.tile).fabric.island s.ev.unit).results = vals :: more from hres,
        show ((s.tile s.ev.tile).fabric.island s.ev.unit).claimResults = true from hcl]
      exact congrArg _ (if_pos hle)
    have hout := State.outgoing_sendTokens s t ds (pairToken vals vals.length I.sent) t i
    simp only [Island.outgoing, Prod.mk.injEq] at hout
    obtain ⟨hrows, hsent⟩ := hout
    refine nextWith_of_eq (hrun.trans (congrArg _ (State.sendResult_of_room hr hne hroom)))
      ⟨fun hlast => ?_, fun hmore => ?_, fun e c he => ?_⟩
    · rw [if_pos hlast, State.fabric_modIsland_self, Fabric.island_modIsland_self]
      exact ⟨congrArg (List.drop 1) (hrows.trans hres), rfl⟩
    · rw [if_neg (by simpa only [I] using Nat.not_le.2 hmore), State.fabric_modIsland_self, Fabric.island_modIsland_self]
      exact ⟨hrows, congrArg (· + 1) hsent⟩
    · rw [he, List.foldl_cons, List.foldl_nil, State.fabric_modIsland_self]
      exact State.chan_sendToken s t e c _

/-- Settles O33: a firing by what it leaves of the island, the values by the scaling of the exact sum to any unit, and the result port by
what a token and a report leave of the result rows. -/
theorem islandFirings : Obligations.IslandFirings := ⟨islandFiringsHold, islandValues, resultPort⟩

end Sys2Proof.Machine
end

section
/-!
SUPPORT. A fold slot's inputs, its combines, and the rows that stay incomplete (R62, R92-R99).
-/
namespace Sys2Proof.Machine
open Sys2Proof.Rules

/-! ### A fold slot of a tile (R92-R98) -/

@[simp] theorem Fabric.fold_modFold_self (F : Fabric) (n : Nat) (h : FoldSlot → FoldSlot) : (F.modFold n h).fold n = h (F.fold n) :=
  Tab.get_put_self _ _ _ _

@[simp] theorem State.fold_modFold_self (s : State) (t n : Nat) (g : FoldSlot → FoldSlot) :
    ((s.modFold t n g).tile t).fabric.fold n = g ((s.tile t).fabric.fold n) := by
  rw [State.modFold, State.fabric_modFabric_self, Fabric.fold_modFold_self]

@[simp] theorem State.fold_modPart (s : State) (t : Nat) (g : Part → Part) (n : Nat) :
    ((s.modPart t g).tile t).fabric.fold n = (s.tile t).fabric.fold n := by
  rw [State.modPart, State.fabric_modFabric_self]
  rfl

/-! ### The inputs of a slot (R94) -/

theorem FoldSlot.nodup_inputs (f : FoldSlot) : f.inputs.Nodup := by
  have hdirs : f.inDirs.Nodup := List.Nodup.filter _ (by decide)
  have hloc : (f.locals.map (8 + ·)).Nodup := (List.nodup_range.filter _).map fun a b h => by simpa using h
  have hapart : ∀ a ∈ f.locals.map (8 + ·), ∀ b ∈ f.inDirs, a ≠ b := by
    intro a ha b hb
    obtain ⟨k, -, rfl⟩ := List.mem_map.1 ha
    have hb4 : b ∈ [2, 3, 0, 1] := List.mem_of_mem_filter hb
    simp only [List.mem_cons, List.not_mem_nil, or_false] at hb4
    omega
  unfold FoldSlot.inputs
  split
  · exact List.nodup_append.2 ⟨hloc, hdirs, hapart⟩
  · exact hdirs

theorem FoldSlot.inq_pop (f : FoldSlot) (k j : Nat) :
    (f.pop k).inq.get [] j = if j = k then (f.inq.get [] k).drop 1 else f.inq.get [] j := Tab.get_put _ _ _ _ _

/-- A pop of some inputs leaves every other alone. -/
theorem FoldSlot.inq_pops_of_not_mem {l : List Nat} {j : Nat} (h : j ∉ l) (f : FoldSlot) :
    (l.foldl FoldSlot.pop f).inq.get [] j = f.inq.get [] j := by
  induction l generalizing f with
  | nil => rfl
  | cons k l ih =>
    rw [List.mem_cons, not_or] at h
    rw [List.foldl_cons, ih h.2, FoldSlot.inq_pop, if_neg h.1]

theorem FoldSlot.inq_pops_of_mem {l : List Nat} (hl : l.Nodup) {j : Nat} (h : j ∈ l) (f : FoldSlot) :
    (l.foldl FoldSlot.pop f).inq.get [] j = (f.inq.get [] j).drop 1 := by
  induction l generalizing f with
  | nil => cases h
  | cons k l ih =>
    obtain ⟨hk, hl⟩ := List.nodup_cons.1 hl
    rw [List.foldl_cons]
    rcases List.mem_cons.1 h with rfl | hj
    · rw [FoldSlot.inq_pops_of_not_mem hk, FoldSlot.inq_pop, if_pos rfl]
    · rw [ih hl hj, FoldSlot.inq_pop, if_neg (by rintro rfl; exact hk hj)]

/-- A slot one of whose inputs is empty is not ready. -/
theorem FoldSlot.ready_of_empty {f : FoldSlot} {k : Nat} (hk : k ∈ f.inputs) (h : f.inq.get [] k = []) (t : Nat) : f.ready t = none := by
  refine if_pos (.inr fun hlen => ?_)
  have hall := List.filterMap_length_eq_length.1 hlen k hk
  simp [h] at hall

@[simp] theorem FoldSlot.inq_stepOn (f : FoldSlot) : f.stepOn.inq = f.inq := by
  unfold FoldSlot.stepOn
  split <;> rfl

theorem FoldSlot.outq_tokenOut (f : FoldSlot) (r : List Token) : (f.tokenOut r).outq = r := by
  unfold FoldSlot.tokenOut FoldSlot.stepOn
  split
  · split <;> rfl
  · rfl

/-! ### A token down a wire (R267) -/

theorem State.memory_sinkPut (s : State) (d : Nat × Sink) (k : Token) : (s.sinkPut d k).memory = s.memory := by
  unfold State.sinkPut
  split <;> rfl

theorem State.memory_sendToken (s : State) (t : Nat) (d : Nat × Sink) (k : Token) : (s.sendToken t d k).memory = s.memory := by
  unfold State.sendToken
  dsimp only
  split
  · exact State.memory_sinkPut s d k
  · split <;> rfl

theorem State.memory_wirePush (s : State) (t : Nat) (src : Source) (k : Token) : (s.wirePush t src k).memory = s.memory := by
  unfold State.wirePush
  split
  · exact foldl_keeps State.memory _ (fun _ _ => State.memory_sendToken _ _ _ _) _ _
  · rfl

/-- The flit that has room for a token is on its way from its tile, with the tokens it holds. -/
theorem State.mem_flights_of_openFlit {s : State} {t : Nat} {d : Nat × Sink} {i : Nat} {ks : List Token} (h : s.openFlit t d = some (i, ks)) :
    ∃ q ∈ s.flights, q.id = i ∧ q.src = t ∧ q.dst = d.1 := by
  unfold State.openFlit at h
  split at h
  · cases h
  next q hq =>
    have hmem := List.mem_filter.1 (List.mem_of_getLast? hq)
    simp only [Bool.and_eq_true, beq_iff_eq] at hmem
    obtain ⟨hin, ⟨hsrc, hdst⟩, -⟩ := hmem
    split at h
    · split at h
      · cases h
        exact ⟨q, hin, rfl, hsrc, hdst⟩
      · cases h
    · cases h

/-- A token to another tile is the last of a flit on its way there. -/
theorem State.flight_sendToken (s : State) {t : Nat} {d : Nat × Sink} (hd : d.1 ≠ t) (k : Token) :
    ∃ q ∈ (s.sendToken t d k).flights, q.src = t ∧ q.dst = d.1 ∧ ∃ ks, q.msg = .tokens d.2 (ks ++ [k]) := by
  rw [State.sendToken, if_neg hd]
  dsimp only
  split
  next i ks ho =>
    obtain ⟨q, hin, hid, hsrc, hdst⟩ := State.mem_flights_of_openFlit ho
    refine ⟨_, List.mem_map_of_mem hin, ?_⟩
    rw [if_pos (by rw [hid]; exact beq_self_eq_true i)]
    exact ⟨hsrc, hdst, ks, rfl⟩
  · exact ⟨_, List.mem_append_right _ (List.mem_singleton_self _), rfl, rfl, [], rfl⟩

theorem State.wirePush_of_wire {s : State} {t : Nat} {src : Source} {w : Wire} (h : (s.tile t).fabric.wire? src = some w) (k : Token) :
    s.wirePush t src k = w.ends.foldl (fun a d => a.sendToken t d k) s := by
  rw [State.wirePush, h]

/-- A token that a source pushes goes down its wire; what then changes neither the elements of the tile nor the messages leaves it so. -/
theorem tookWire_wirePush {s u : State} {t : Nat} {src : Source} {k : Token}
    (he : (u.tile t).fabric.elems = ((s.wirePush t src k).tile t).fabric.elems) (hf : u.flights = (s.wirePush t src k).flights) :
    tookWire s u t src k := by
  intro w hw
  rw [State.wirePush_of_wire hw] at he hf
  refine ⟨fun e c hends => ?_, fun d hends hd => ?_⟩
  · rw [hends] at he
    rw [Fabric.elem, he]
    exact State.chan_sendToken s t e c k
  · rw [hf, hends]
    exact State.flight_sendToken s hd k

/-! ### A slot combines its inputs (R93, R94, R98) -/

section
variable {s : State} {t n : Nat} (fl : FoldFlit)

/-- The slot's parent has room for a flit of it. -/
def State.ParentTakes (s : State) (t n : Nat) (f : FoldSlot) : Prop :=
  let u := neighbour t f.out.toNat
  let i := opposite f.out.toNat
  let g := (s.tile u).fabric.fold n
  hasNeighbour t f.out.toNat = true ∧ g.v = true ∧ g.ins.getLsbD (inBit i) = true
    ∧ ((s.part u).launch = (s.part t).launch ∧ (s.part u).load = (s.part t).load)
    ∧ (g.inq.get [] i).length + s.foldsOnWay u n i < 4

/-- A flit on its way to the parent's slot of the same number. -/
def State.flitSent (s : State) (t n : Nat) (f : FoldSlot) (fl : FoldFlit) : State :=
  (s.modPart t fun p => { p with s := p.s + 1 }).post (.fold n (opposite f.out.toNat) fl) t (neighbour t f.out.toNat) true

theorem State.foldSend_of_takes {f : FoldSlot} (h : s.ParentTakes t n f) : s.foldSend t n f fl = some (s.flitSent t n f fl) := by
  obtain ⟨hn, hv, hin, hload, hroom⟩ := h
  exact if_pos (by rw [hn, hv, hin, decide_eq_true hload, decide_eq_true hroom]; rfl)

theorem State.foldOut_of_takes (h4 : ((s.tile t).fabric.fold n).out ≠ 4) (h : s.ParentTakes t n ((s.tile t).fabric.fold n)) :
    s.foldOut t n fl = some ((s.flitSent t n ((s.tile t).fabric.fold n) fl).modFold t n FoldSlot.stepOn) := by
  rw [State.foldOut, if_neg h4, State.foldSend_of_takes fl h]
  rfl

end

section
variable {s : State} {f : FoldSlot} (hf : (s.tile s.ev.tile).fabric.fold s.ev.unit = f)
include hf

theorem exec_foldCombine_waits (hout : f.outq = []) (hidx : f.idx = false) (hready : f.ready s.ev.tile = none) :
    exec .foldCombine s = .next s := by
  rw [show exec .foldCombine s = execFoldCombine s from rfl, execFoldCombine]
  simp only [hf, hout, hidx, hready]
  split <;> rfl

theorem exec_foldCombine_hands_on (hv : f.v = true) (hst : s.stopped s.ev.tile = false) (hout : f.outq = []) (hidx : f.idx = false)
    {fl : FoldFlit} (hready : f.ready s.ev.tile = some fl) {s1 : State} (hs : s.foldOut s.ev.tile s.ev.unit fl = some s1) :
    exec .foldCombine s = .next (s1.modFold s.ev.tile s.ev.unit fun x => f.inputs.foldl FoldSlot.pop x) := by
  rw [show exec .foldCombine s = execFoldCombine s from rfl, execFoldCombine]
  simp only [hf, hout, hidx, hready, hs, hv, hst]
  rfl

theorem exec_foldCombine_token (hv : f.v = true) (hst : s.stopped s.ev.tile = false) {k : Token} {r : List Token} (hout : f.outq = k :: r)
    (hroom : s.wireRoom s.ev.tile (.fold s.ev.unit) 1 = true) :
    exec .foldCombine s
      = .next ((s.wirePush s.ev.tile (.fold s.ev.unit) k).modFold s.ev.tile s.ev.unit fun x => x.tokenOut r) := by
  rw [show exec .foldCombine s = execFoldCombine s from rfl, execFoldCombine]
  simp only [hf, hout, hroom, hv, hst]
  rfl

end

theorem foldCombinesHold : FoldCombinesHold := by
  intro s t n f d u g
  refine ⟨fun hout hidx hempty => ?_, fun fl hv hst hout hidx hready hd hn hgv hgin hlaunch hload hroom => ?_, fun i fl hv hin => ?_,
    fun k r hv hst hout hroom => ?_⟩
  · obtain ⟨k, hk, he⟩ := hempty
    exact exec_foldCombine_waits rfl hout hidx (FoldSlot.ready_of_empty hk he _)
  · have h4 : f.out ≠ 4 := fun h => absurd hd (by rw [show d = f.out.toNat from rfl, h]; decide)
    refine nextWith_of_eq (exec_foldCombine_hands_on rfl hv hst hout hidx hready
      (State.foldOut_of_takes fl h4 ⟨hn, hgv, hgin, ⟨hlaunch, hload⟩, hroom⟩)) ⟨?_, fun k hk => ?_, sameMemory_of_memory_eq rfl⟩
    · exact ⟨_, List.mem_append_right _ (List.mem_singleton_self _), rfl, rfl, rfl, rfl⟩
    · rw [State.fold_modFold_self, State.fold_modFold_self, FoldSlot.inq_pops_of_mem f.nodup_inputs hk, FoldSlot.inq_stepOn,
        State.flitSent, State.tile_post, State.fold_modPart]
  · rw [State.foldArrive, State.fold_modPart, State.wakePart, State.fold_modPart]
    rw [if_pos (by rw [Bool.and_eq_true]; exact ⟨hv, hin⟩), State.fold_modFold_self]
  · refine nextWith_of_eq (exec_foldCombine_token rfl hv hst hout hroom) ⟨?_, tookWire_wirePush ?_ rfl, ?_⟩
    · rw [State.fold_modFold_self, FoldSlot.outq_tokenOut]
    · rw [State.modFold, State.fabric_modFabric_self]
      rfl
    · exact sameMemory_of_memory_eq (State.memory_wirePush s t (.fold n) k)

/-! ### The values of a combine (R62, R93, R97) -/

theorem foldFloat_nv (t : Nat) {r : FRes} (h : r.exc.getLsbD 4 = true) : foldFloat t r = ⟨0, some (originWord t 22 1)⟩ := if_pos h

theorem foldFloat_of (t : Nat) {r : FRes} (h : r.exc.getLsbD 4 = false) :
    foldFloat t r = if r.exc.getLsbD 2 then ⟨0, some (originWord t 22 3)⟩ else ⟨(r.bits : Int), none⟩ := by
  rw [foldFloat, h]
  rfl

section
variable {t : Nat} {op : BitVec 3} {a b : FoldVal}

theorem foldCombine2_poison_left {w : Word} (h : a.poison = some w) : foldCombine2 t op a b = ⟨0, some w⟩ := by
  rw [foldCombine2, h]

theorem foldCombine2_poison_right {w : Word} (ha : a.poison = none) (h : b.poison = some w) : foldCombine2 t op a b = ⟨0, some w⟩ := by
  rw [foldCombine2, ha, h]

end

theorem foldValues : FoldValues := by
  intro t a b
  refine ⟨fun op w h => foldCombine2_poison_left h, fun op w => foldCombine2_poison_right, fun ha hb => ?_⟩
  simp only [foldCombine2, ha, hb]
  refine ⟨rfl, rfl, rfl, rfl, ?_⟩
  have hfloat : ∀ r : FRes, (r.exc.getLsbD 4 = true → foldFloat t r = ⟨0, some (originWord t 22 1)⟩)
      ∧ (r.exc.getLsbD 4 = false → r.exc.getLsbD 2 = true → foldFloat t r = ⟨0, some (originWord t 22 3)⟩)
      ∧ (r.exc.getLsbD 4 = false → r.exc.getLsbD 2 = false → foldFloat t r = ⟨(r.bits : Int), none⟩) := fun r =>
    ⟨foldFloat_nv t, fun h h2 => by rw [foldFloat_of t h, h2]; rfl, fun h h2 => by rw [foldFloat_of t h, h2]; rfl⟩
  intro op r h
  simp only [List.mem_cons, List.not_mem_nil, or_false, Prod.mk.injEq] at h
  obtain ⟨rfl, rfl⟩ | ⟨rfl, rfl⟩ | ⟨rfl, rfl⟩ := h
  all_goals exact hfloat _

/-! ### Rows that stay incomplete (R99) -/

section
variable {s : State} {m : Nat} {l : Launch}

theorem exec_foldDrainIncomplete (hm : (s.part s.ev.tile).launch = some m) (hl : s.launch? m = some l) :
    exec .foldDrainIncomplete s = .next (
      if ((s.tile s.ev.tile).fabric.fold s.ev.unit).v && ((s.tile s.ev.tile).fabric.fold s.ev.unit).pattern
          && s.loadIn m l (s.part s.ev.tile).load then s.drainFold m l s.ev.tile s.ev.unit else s) := by
  rw [show exec .foldDrainIncomplete s = execFoldDrainIncomplete s from rfl, execFoldDrainIncomplete]
  simp only [hm, Option.bind_some, hl]

/-- The inputs of a slot that hold a flit. -/
def FoldSlot.held (f : FoldSlot) : List Nat := f.inputs.filter fun k => !(f.inq.get [] k).isEmpty

/-- Every input of a slot holds a flit or has ended. -/
def State.inputsSettled (s : State) (m : Nat) (l : Launch) (t n : Nat) : Bool :=
  ((s.tile t).fabric.fold n).inputs.all fun k => ((s.tile t).fabric.fold n).held.contains k || s.inputOver m l (s.ended m l) t n k

theorem State.inputsSettled_iff (t n : Nat) : s.inputsSettled m l t n = true ↔ ∀ k ∈ ((s.tile t).fabric.fold n).inputs,
    k ∈ ((s.tile t).fabric.fold n).held ∨ s.inputOver m l (s.ended m l) t n k = true := by
  simp [State.inputsSettled]

/-- The poisoned flit of the row that a slot has in hand. -/
def FoldSlot.incomplete (f : FoldSlot) (w : Word) : FoldFlit :=
  ⟨f.rows.toNat, f.nextK, List.replicate (foldPer f.op) ⟨0, some w⟩, 0, 255⟩

/-- An incomplete row is reported where it begins. -/
def State.tellShort (x : State) (f : FoldSlot) (t n : Nat) (w : Word) : State :=
  if f.nextK = 0 ∨ f.short = false then (x.sinkReport t 22 9 w).modFold t n fun y => { y with short := true } else x

theorem State.drainFold_eq (t n : Nat) : s.drainFold m l t n =
    let f := (s.tile t).fabric.fold n
    let fl := f.incomplete (originWord t 22 9)
    if !f.outq.isEmpty || !s.inputsSettled m l t n then s
    else
      ((if f.idx then (if f.held.isEmpty then s.drainIndex t n fl else none)
        else if f.held.isEmpty || f.held.length == f.inputs.length then none
        else (s.foldOut t n fl).map fun a => a.modFold t n fun x => f.held.foldl FoldSlot.pop x).map fun x =>
          x.tellShort f t n (originWord t 22 9)).getD s := rfl

theorem State.drainFold_waits {t n : Nat} (h : ((s.tile t).fabric.fold n).outq ≠ [] ∨ s.inputsSettled m l t n = false) :
    s.drainFold m l t n = s := by
  rw [State.drainFold_eq]
  exact if_pos (by simpa using h)

variable {t n : Nat} (hout : ((s.tile t).fabric.fold n).outq = []) (hset : s.inputsSettled m l t n = true) {s1 : State}
include hout hset

theorem State.drainFold_ports (hidx : ((s.tile t).fabric.fold n).idx = false) (hsome : ((s.tile t).fabric.fold n).held ≠ [])
    (hnot : ((s.tile t).fabric.fold n).held.length ≠ ((s.tile t).fabric.fold n).inputs.length)
    (ho : s.foldOut t n (((s.tile t).fabric.fold n).incomplete (originWord t 22 9)) = some s1) :
    s.drainFold m l t n = (s1.modFold t n fun x => ((s.tile t).fabric.fold n).held.foldl FoldSlot.pop x).tellShort
      ((s.tile t).fabric.fold n) t n (originWord t 22 9) := by
  rw [State.drainFold_eq]
  dsimp only
  rw [hout, hset, hidx, ho, if_neg (by decide), if_neg (by decide), if_neg (by simp [hsome, hnot])]
  rfl

theorem State.drainFold_index (hidx : ((s.tile t).fabric.fold n).idx = true) (hnone : ((s.tile t).fabric.fold n).held = [])
    (ho : s.drainIndex t n (((s.tile t).fabric.fold n).incomplete (originWord t 22 9)) = some s1) :
    s.drainFold m l t n = s1.tellShort ((s.tile t).fabric.fold n) t n (originWord t 22 9) := by
  rw [State.drainFold_eq]
  dsimp only
  rw [hout, hset, hidx, hnone, ho, if_neg (by decide), if_pos rfl, if_pos (by decide)]
  rfl

end

theorem foldIncompleteRows : FoldIncompleteRows := by
  intro s s1 m l t n f held w fl isOver hm hl
  rw [exec_foldDrainIncomplete hm hl]
  refine ⟨fun h => ?_, ?_⟩
  · split
    next hrun =>
      simp only [Bool.and_eq_true] at hrun
      obtain ⟨⟨hv, hp⟩, hin⟩ := hrun
      refine congrArg _ (State.drainFold_waits ?_)
      rcases h with h | h | h | h | ⟨k, hk, hnot, hopen⟩
      · exact absurd hv (by rw [h]; decide)
      · exact absurd hp (by rw [h]; decide)
      · exact absurd hin (by rw [h]; decide)
      · exact .inl h
      · refine .inr (Bool.eq_false_iff.2 fun hset => ?_)
        exact ((State.inputsSettled_iff t n).1 hset k hk).elim hnot fun ho => Bool.false_ne_true (hopen.symm.trans ho)
    · rfl
  · intro hv hp hin hout hall told
    have hset : s.inputsSettled m l t n = true := (State.inputsSettled_iff t n).2 hall
    rw [if_pos (by simp only [Bool.and_eq_true]; exact ⟨⟨hv, hp⟩, hin⟩)]
    exact ⟨fun hidx hsome hnot ho => congrArg _ (State.drainFold_ports hout hset hidx hsome hnot ho),
      fun hidx hnone ho => congrArg _ (State.drainFold_index hout hset hidx hnone ho)⟩

/-- Settles O35: what a slot combines and hands on by the branches of its step, each input popped once since no two are the same; the
table of a combine; and a row that stays incomplete by the branches of `State.drainFold`. -/
theorem foldCombines : Obligations.FoldCombines := ⟨foldCombinesHold, foldValues, foldIncompleteRows⟩

end Sys2Proof.Machine
end

section
/-!
SUPPORT. The MAT instructions and the queue of an island (R66-R68, R298-R302, R448, R496).
-/
namespace Sys2Proof.Machine
open Sys2Proof.Rules

/-! ### Fields of a word -/

theorem put_of_lt {n v : Nat} (lo : Nat) (h : v < 2 ^ n) : put lo n v = BitVec.ofNat 64 (v * 2 ^ lo) := by
  rw [put, Nat.mod_eq_of_lt h]

theorem bit_lt (b : Bool) : bit b < 2 ^ 1 := by cases b <;> decide

theorem matWord_eq (count : Nat) {status : Nat} (h : status < 2 ^ 8) :
    matWord count status = BitVec.ofNat 64 (count % 2 ^ 32 * 2 ^ 8 + status) := by
  rw [matWord, put_of_lt 0 h, put, ← BitVec.ofNat_add, Nat.pow_zero, Nat.mul_one]

theorem Island.map_eq (I : Island) : I.map = BitVec.ofNat 64 (I.mism.toNat * 2 ^ 48 + I.rows.length % 32 * 2 ^ 16
    + I.results.length % 4 * 2 ^ 14 + I.rowFmt.toNat * 2 ^ 11 + I.fmt.toNat * 2 ^ 8 + I.src.toNat * 2 + if I.valid then 1 else 0) := by
  rw [Island.map, put_of_lt 48 I.mism.isLt, put_of_lt 11 I.rowFmt.isLt, put_of_lt 8 I.fmt.isLt, put_of_lt 1 I.src.isLt,
    put_of_lt 0 (bit_lt I.valid)]
  simp only [put, ← BitVec.ofNat_add, Nat.pow_zero, Nat.pow_one, Nat.mul_one]
  rfl

theorem getLsbD_zero_iff (w : Word) : w.getLsbD 0 = true ↔ w.toNat % 2 = 1 := by
  rw [BitVec.getLsbD, Nat.testBit_zero, decide_eq_true_iff]

/-! ### What a change of a slot or a fabric leaves alone -/

@[simp] theorem State.fabric_modSlot (s : State) (t k : Nat) (f : Slot → Slot) (u : Nat) :
    ((s.modSlot t k f).tile u).fabric = (s.tile u).fabric := by
  by_cases h : u = t
  · subst h
    rw [State.modSlot, State.tile_modTile_self]
    rfl
  · rw [State.modSlot, State.tile_modTile_of_ne _ _ h]

@[simp] theorem State.fabric_modCur (s : State) (f : Slot → Slot) (u : Nat) :
    ((s.modCur f).tile u).fabric = (s.tile u).fabric := State.fabric_modSlot _ _ _ _ _

@[simp] theorem State.slot_modFabric (s : State) (t : Nat) (f : Fabric → Fabric) (u k : Nat) : (s.modFabric t f).slot u k = s.slot u k := by
  by_cases h : u = t
  · subst h
    rw [State.slot, State.tile_modFabric_self]
    rfl
  · rw [State.slot, State.modFabric, State.tile_modTile_of_ne _ _ h]
    rfl

@[simp] theorem State.slot_modIsland (s : State) (t i : Nat) (g : Island → Island) (u k : Nat) :
    (s.modIsland t i g).slot u k = s.slot u k := State.slot_modFabric _ _ _ _ _

@[simp] theorem State.island_modIsland_self (s : State) (t i : Nat) (g : Island → Island) :
    ((s.modIsland t i g).tile t).fabric.island i = g ((s.tile t).fabric.island i) := by
  rw [State.fabric_modIsland_self, Fabric.island_modIsland_self]

@[simp] theorem State.fabric_deliver (s : State) (t i : Nat) (vals : List Word) (u : Nat) :
    ((s.deliver t i vals).tile u).fabric = (s.tile u).fabric :=
  State.deliver_keeps (fun a => (a.tile u).fabric) (fun _ _ _ => rfl) (fun _ _ _ => State.fabric_modRouter _ _ _ _)
    (fun _ _ _ _ => State.fabric_modSlot _ _ _ _ _) s t i vals

/-! ### Returned units (R494) -/

/-- Of tile `t` a returned unit changes no more than what is due. -/
theorem State.tile_matReturn (s : State) (t k : Nat) : ∃ m, (s.matReturn t k).tile t = { s.tile t with matDue := m } := by
  unfold State.matReturn
  split
  · exact ⟨_, State.tile_modTile_self _ _ _⟩
  · exact ⟨_, rfl⟩

@[simp] theorem State.fabric_matReturn (s : State) (t k : Nat) : ((s.matReturn t k).tile t).fabric = (s.tile t).fabric := by
  obtain ⟨m, h⟩ := s.tile_matReturn t k
  rw [h]

@[simp] theorem State.slot_matReturn (s : State) (t k j : Nat) : (s.matReturn t k).slot t j = s.slot t j := by
  obtain ⟨m, h⟩ := s.tile_matReturn t k
  rw [State.slot, h]
  rfl

theorem State.memory_matReturn (s : State) (t k : Nat) : (s.matReturn t k).memory = s.memory := by
  unfold State.matReturn
  split <;> rfl

/-! ### A job that ends (R299, R302) -/

/-- A job's word goes to the slot that waits for it, and units that waited for the job go back. -/
def State.jobWord (s : State) (t : Nat) (j : MatJob) (v : Word) : State := (s.deliver t j.pend [v]).matReturn t j.slot

@[simp] theorem State.fabric_jobWord (s : State) (t : Nat) (j : MatJob) (v : Word) : ((s.jobWord t j v).tile t).fabric = (s.tile t).fabric := by
  rw [State.jobWord, State.fabric_matReturn, State.fabric_deliver]

/-- The slot that waits gets the word, whatever changed in the tile beside its slots. -/
theorem awarded_jobWord {s u : State} {t : Nat} (h : ∀ k, u.slot t k = s.slot t k) (j : MatJob) (v : Word) :
    awarded s (u.jobWord t j v) t j.pend v id := by
  intro k hk p hp hm
  have hw : u.waitsFirst t j.pend k p := ⟨hk, by rw [h]; exact hp, fun m hmk => by rw [h]; exact hm m hmk⟩
  have hc : (u.jobWord t j v).slot t k = (s.slot t k).complete j.pend [v] := by
    rw [State.jobWord, State.slot_matReturn, State.deliver_of_waitsFirst hw, State.slot_modSlot_self, h]
  exact ⟨hc, fun r hr hd => hc ▸ Slot.sreg_complete v hp hr hd⟩

/-- A word for a slot that runs reaches no memory. -/
theorem State.memory_jobWord {s : State} {t : Nat} {j : MatJob} (h : ∃ k < 8, ((s.slot t k).pend? j.pend).isSome = true) (v : Word) :
    (s.jobWord t j v).memory = s.memory := by
  rw [State.jobWord, State.memory_matReturn]
  unfold State.deliver
  split
  · rfl
  next hnone =>
    obtain ⟨k, hk, hp⟩ := h
    exact absurd hp (List.find?_eq_none.1 hnone k (List.mem_range.2 hk))

/-- The queue without its head. -/
def Island.dropHead (I : Island) : Island := { I with jobs := dropAt I.jobs 0 }

theorem Island.jobs_dropHead {I : Island} {j : MatJob} {rest : List MatJob} (h : I.jobs = j :: rest) : I.dropHead.jobs = rest := by
  rw [Island.dropHead, h]
  rfl

theorem State.endJob_head {s : State} {t i : Nat} {j : MatJob} {rest : List MatJob} (h : ((s.tile t).fabric.island i).jobs = j :: rest)
    (status : Nat) : s.endJob t i 0 status
      = (s.modIsland t i Island.dropHead).jobWord t j (matWord (if j.kind = .load then 0 else j.done) status) := by
  rw [State.endJob, h]
  rfl

/-! ### A MAT instruction joins the queue, or is refused (R298, R302) -/

section
variable {s : State} {d a b : BitVec 5} {f : BitVec 3} {n : BitVec 2}

/-- What `matQueue` leaves. -/
theorem State.matQueue_joins {o : Owner} (ho : s.cur.run = .handler o) (d : BitVec 5) (i : Nat) (k : MatKind) (f : BitVec 3) (x y c : Nat) :
    let t := s.matQueue d i k f x y c
    ((t.tile s.ft).fabric.island i).jobs = ((s.tile s.ft).fabric.island i).jobs
        ++ [⟨k, f, x, y, c, 0, false, false, s.seq, s.fk, o, s.cur.asid⟩]
      ∧ sameMemory s t ∧ t.cur.pc = s.cur.advance.pc
      ∧ t.cur.pend = s.cur.pend ++ [⟨s.seq, [s.cur.absReg d], .result, 0, 0, false, false⟩] := by
  have hcur : ∀ g : Island → Island, (s.stamp.modIsland s.ft i g).cur = s.cur := fun g => State.slot_modIsland s.stamp _ _ _ _ _
  dsimp only [State.matQueue]
  rw [State.fabric_modCur, State.island_modIsland_self, State.cur_modCur, hcur, ho]
  exact ⟨rfl, sameMemory_of_memory_eq rfl, rfl, rfl⟩

theorem slotDone_of_claim {i : Instr} {c : Bool} {u : State} (h : exec i s = .next (if c then s.matRefused d else u)) (hc : c = true) :
    slotDone i s fun sl => sl.setSreg d 1 := h.trans (congrArg _ (if_pos hc))

theorem exec_of_no_claim {i : Instr} {c : Bool} {u : State} (h : exec i s = .next (if c then s.matRefused d else u)) (hc : c = false) :
    exec i s = .next u := h.trans (congrArg _ (if_neg (Bool.eq_false_iff.1 hc)))

theorem exec_mload (hr : ready s [d, a, b]) : exec (.mload d a b f n) s = .next (
    if 4 ≤ f.toNat then s.trapIllegal (.mload d a b f n)
    else if (s.cur.sreg a).toNat % 64 ≠ 0 then s.trap 0x02 0 (s.cur.sreg a)
    else if (s.cur.sreg b).toNat % 64 ≠ 0 then s.trap 0x02 0 (s.cur.sreg b)
    else if s.lsize s.ft < (s.cur.sreg a).toNat + 32768 then s.trap 0x05 0 (s.cur.sreg a)
    else if s.lsize s.ft < (s.cur.sreg b).toNat + 4 * mxColumns f then s.trap 0x05 0 (s.cur.sreg b)
    else if ((s.tile s.ft).fabric.island n.toNat).claimBlock then s.matRefused d
    else s.matQueue d n.toNat .load f (s.cur.sreg a).toNat (s.cur.sreg b).toNat 0) :=
  congrArg _ (if_neg (by rw [hr]; decide))

theorem exec_mrow (hr : ready s [d, a, b]) : exec (.mrow d a b f n) s = .next (
    if 4 ≤ f.toNat then s.trapIllegal (.mrow d a b f n)
    else if (s.cur.sreg a).toNat % 8 ≠ 0 then s.trap 0x02 0 (s.cur.sreg a)
    else if !matCount (s.cur.sreg b).toNat then s.trapIllegal (.mrow d a b f n)
    else if s.lsize s.ft < (s.cur.sreg a).toNat + (s.cur.sreg b).toNat * rowBytes f then s.trap 0x05 0 (s.cur.sreg a)
    else if ((s.tile s.ft).fabric.island n.toNat).claimRows then s.matRefused d
    else if s.cur.balance 0 ≠ 0 then s.matQueue d n.toNat .row f (s.cur.sreg a).toNat 0 (s.cur.sreg b).toNat
    else if (s.takeLeave s.ft s.fk 0 1).2 then
      (s.takeLeave s.ft s.fk 0 1).1.matQueue d n.toNat .row f (s.cur.sreg a).toNat 0 (s.cur.sreg b).toNat
    else (s.takeLeave s.ft s.fk 0 1).1) :=
  congrArg _ (if_neg (by rw [hr]; decide))

theorem exec_mdrain (hr : ready s [d, a, b]) : exec (.mdrain d a b n) s = .next (
    if (s.cur.sreg a).toNat % 32 ≠ 0 then s.trap 0x02 0 (s.cur.sreg a)
    else if !matCount (s.cur.sreg b).toNat then s.trapIllegal (.mdrain d a b n)
    else if s.lsize s.ft < (s.cur.sreg a).toNat
        + (s.cur.sreg b).toNat * (4 * mxColumns ((s.tile s.ft).fabric.island n.toNat).fmtAhead) then s.trap 0x05 0 (s.cur.sreg a)
    else if ((s.tile s.ft).fabric.island n.toNat).claimResults then s.matRefused d
    else s.matQueue d n.toNat .drain 0 (s.cur.sreg a).toNat 0 (s.cur.sreg b).toNat) :=
  congrArg _ (if_neg (by rw [hr]; decide))

theorem matCount_bad {c : Nat} (h : c = 0 ∨ 65535 < c) : (!matCount c) = true := by
  rw [matCount, Bool.not_eq_true', decide_eq_false_iff_not]
  omega

theorem matCount_good {c : Nat} (h1 : 1 ≤ c) (h2 : c ≤ 65535) : ¬(!matCount c) = true := by
  rw [matCount, decide_eq_true ⟨h1, h2⟩]
  decide

/-! Of operands that are aligned, in range and within the tile's size the island's claim decides. -/

theorem exec_mload_in_range (hr : ready s [d, a, b]) (hf : f.toNat < 4) (hx : (s.cur.sreg a).toNat % 64 = 0)
    (hy : (s.cur.sreg b).toNat % 64 = 0) (hl : (s.cur.sreg a).toNat + 32768 ≤ s.lsize s.ft)
    (hm : (s.cur.sreg b).toNat + 4 * mxColumns f ≤ s.lsize s.ft) : exec (.mload d a b f n) s = .next (
      if ((s.tile s.ft).fabric.island n.toNat).claimBlock then s.matRefused d
      else s.matQueue d n.toNat .load f (s.cur.sreg a).toNat (s.cur.sreg b).toNat 0) := by
  rw [exec_mload hr, if_neg (Nat.not_le.2 hf), if_neg (not_not.2 hx), if_neg (not_not.2 hy), if_neg (Nat.not_lt.2 hl),
    if_neg (Nat.not_lt.2 hm)]

theorem exec_mrow_in_range (hr : ready s [d, a, b]) (hf : f.toNat < 4) (hx : (s.cur.sreg a).toNat % 8 = 0)
    (h1 : 1 ≤ (s.cur.sreg b).toNat) (h2 : (s.cur.sreg b).toNat ≤ 65535)
    (hl : (s.cur.sreg a).toNat + (s.cur.sreg b).toNat * rowBytes f ≤ s.lsize s.ft) :
    exec (.mrow d a b f n) s = .next (
      if ((s.tile s.ft).fabric.island n.toNat).claimRows then s.matRefused d
      else if s.cur.balance 0 ≠ 0 then s.matQueue d n.toNat .row f (s.cur.sreg a).toNat 0 (s.cur.sreg b).toNat
      else if (s.takeLeave s.ft s.fk 0 1).2 then
        (s.takeLeave s.ft s.fk 0 1).1.matQueue d n.toNat .row f (s.cur.sreg a).toNat 0 (s.cur.sreg b).toNat
      else (s.takeLeave s.ft s.fk 0 1).1) := by
  rw [exec_mrow hr, if_neg (Nat.not_le.2 hf), if_neg (not_not.2 hx), if_neg (matCount_good h1 h2), if_neg (Nat.not_lt.2 hl)]

theorem exec_mdrain_in_range (hr : ready s [d, a, b]) (hx : (s.cur.sreg a).toNat % 32 = 0)
    (h1 : 1 ≤ (s.cur.sreg b).toNat) (h2 : (s.cur.sreg b).toNat ≤ 65535)
    (hl : (s.cur.sreg a).toNat + (s.cur.sreg b).toNat * (4 * mxColumns ((s.tile s.ft).fabric.island n.toNat).fmtAhead) ≤ s.lsize s.ft) :
    exec (.mdrain d a b n) s = .next (
      if ((s.tile s.ft).fabric.island n.toNat).claimResults then s.matRefused d
      else s.matQueue d n.toNat .drain 0 (s.cur.sreg a).toNat 0 (s.cur.sreg b).toNat) := by
  rw [exec_mdrain hr, if_neg (not_not.2 hx), if_neg (matCount_good h1 h2), if_neg (Nat.not_lt.2 hl)]

end

end Sys2Proof.Machine
end

section
/-!
SUPPORT. MRES and its release, and the statement of the MAT instructions (R298-R302, R496).
-/
namespace Sys2Proof.Machine
open Sys2Proof.Rules

/-! ### A release (R300, R302) -/

theorem State.pollDone_of_quiet {s : State} {t u : Nat} (h : ∀ q ∈ s.feWait, q.who ≠ .poll t u) : s.pollDone t u = s := by
  have hnone : (s.feWait.filter fun q => q.who == FeWho.poll t u) = [] := List.filter_eq_nil_iff.2 fun q hq => by simpa using h q hq
  rw [State.pollDone, hnone]
  rfl

/-- A released island: of its queue the loads stay. -/
def Island.released (I : Island) : Island :=
  { I with valid := false, rows := [], results := [], sent := 0, refire := false,
           jobs := I.jobs.filter fun j => decide (j.kind = MatKind.load) }

/-- The jobs that a release ends get their words in turn. -/
def State.jobsReleased (s : State) (t : Nat) (l : List MatJob) : State := l.foldl (fun a j => a.jobWord t j (matWord j.done 3)) s

theorem State.matRelease_of_quiet {s : State} {t i : Nat} (h : ∀ q ∈ s.feWait, q.who ≠ .poll t (16 + i)) :
    s.matRelease t i = (s.modIsland t i Island.released).jobsReleased t
      (((s.tile t).fabric.island i).jobs.filter fun j => j.kind != .load) :=
  congrArg (State.jobsReleased · t _) (State.pollDone_of_quiet (s := s.modIsland t i Island.released) h)

@[simp] theorem State.fabric_jobsReleased (s : State) (t : Nat) (l : List MatJob) :
    ((s.jobsReleased t l).tile t).fabric = (s.tile t).fabric :=
  foldl_keeps (fun a : State => (a.tile t).fabric) _ (fun _ _ => State.fabric_jobWord _ _ _ _) l s

section
variable {s : State} {d a : BitVec 5} {n : BitVec 2}

theorem exec_mres (hr : s.cur.pendsOn [d, a] = false) : exec (.mres d a n) s = .next (
    if (s.cur.sreg a).getLsbD 0 && !(((s.tile s.ft).fabric.island n.toNat).claimBlock
        || ((s.tile s.ft).fabric.island n.toNat).claimRows || ((s.tile s.ft).fabric.island n.toNat).claimResults)
    then (s.finish d ((s.tile s.ft).fabric.island n.toNat).map).matRelease s.ft n.toNat
    else s.finish d ((s.tile s.ft).fabric.island n.toNat).map) :=
  congrArg _ (if_neg (by rw [hr]; decide))

/-- MRES reads the map, whatever keeps it from releasing. -/
theorem exec_mres_keeps (hr : s.cur.pendsOn [d, a] = false)
    (h : (s.cur.sreg a).toNat % 2 = 0 ∨ ((s.tile s.ft).fabric.island n.toNat).claimBlock = true
      ∨ ((s.tile s.ft).fabric.island n.toNat).claimRows = true ∨ ((s.tile s.ft).fabric.island n.toNat).claimResults = true) :
    slotDone (.mres d a n) s fun sl => sl.setSreg d ((s.tile s.ft).fabric.island n.toNat).map := by
  refine (exec_mres hr).trans (congrArg _ (if_neg ?_))
  rw [Bool.and_eq_true, getLsbD_zero_iff]
  rintro ⟨hodd, hfree⟩
  simp only [Bool.not_eq_true', Bool.or_eq_false_iff] at hfree
  obtain ⟨⟨hb, hw⟩, hc⟩ := hfree
  simp only [hb, hw, hc, Bool.false_eq_true, or_false] at h
  omega

theorem exec_mres_releases (hr : s.cur.pendsOn [d, a] = false) (hodd : (s.cur.sreg a).toNat % 2 = 1)
    (hb : ((s.tile s.ft).fabric.island n.toNat).claimBlock = false) (hw : ((s.tile s.ft).fabric.island n.toNat).claimRows = false)
    (hc : ((s.tile s.ft).fabric.island n.toNat).claimResults = false) (hq : ∀ q ∈ s.feWait, q.who ≠ .poll s.ft (16 + n.toNat)) :
    exec (.mres d a n) s = .next (((s.finish d ((s.tile s.ft).fabric.island n.toNat).map).modIsland s.ft n.toNat
      Island.released).jobsReleased s.ft (((s.tile s.ft).fabric.island n.toNat).jobs.filter fun j => j.kind != .load)) := by
  refine (exec_mres hr).trans (congrArg _ ((if_pos ?_).trans ((State.matRelease_of_quiet (s := s.finish d _) hq).trans ?_)))
  · rw [hb, hw, hc, (getLsbD_zero_iff _).2 hodd]
    rfl
  · rw [State.finish, State.fabric_modCur]

end

/-! ### The statement of the MAT instructions -/

theorem matrixInstructionsHold : MatrixInstructionsHold := by
  intro s d a b f n hr x y I queued map
  have hda : s.cur.pendsOn [d, a] = false := Slot.pendsOn_of_subset hr (by simp)
  have hmap : I.map = map := I.map_eq
  refine ⟨fun h4 => ?_, fun hf => ?_, fun hx => ?_, fun hx hy => ?_, fun hx h1 h2 hl => ?_, fun hx h1 h2 hl => ?_,
    fun h => hmap ▸ exec_mres_keeps hda h, fun hodd hb hw hc hq => ?_⟩
  · simp only [List.forall_mem_cons, List.not_mem_nil, false_imp_iff, implies_true, and_true]
    exact ⟨(exec_mload hr).trans (congrArg _ (if_pos h4)), (exec_mrow hr).trans (congrArg _ (if_pos h4))⟩
  · have h4 : ¬4 ≤ f.toNat := Nat.not_le.2 hf
    refine ⟨fun hx => ?_, fun hx hy => ?_, fun hx hy hl => ?_, fun hx hy hl hm => ?_, fun hx hy hl hm => ?_,
      fun hx => ?_, fun hx hy => ?_, fun hx h1 h2 hl => ?_, fun hx h1 h2 hl => ?_⟩
    · rw [exec_mload hr, if_neg h4, if_pos hx]
    · rw [exec_mload hr, if_neg h4, if_neg (not_not.2 hx), if_pos hy]
    · rw [exec_mload hr, if_neg h4, if_neg (not_not.2 hx), if_neg (not_not.2 hy), if_pos hl]
    · rw [exec_mload hr, if_neg h4, if_neg (not_not.2 hx), if_neg (not_not.2 hy), if_neg (Nat.not_lt.2 hl), if_pos hm]
    · have hrun := exec_mload_in_range (n := n) hr hf hx hy hl hm
      exact ⟨slotDone_of_claim hrun, fun hc o ho =>
        nextWith_of_eq (exec_of_no_claim hrun hc) (State.matQueue_joins ho d n.toNat .load f x y 0)⟩
    · rw [exec_mrow hr, if_neg h4, if_pos hx]
    · rw [exec_mrow hr, if_neg h4, if_neg (not_not.2 hx), if_pos (matCount_bad hy)]
    · rw [exec_mrow hr, if_neg h4, if_neg (not_not.2 hx), if_neg (matCount_good h1 h2), if_pos hl]
    · have hrun := exec_mrow_in_range (n := n) hr hf hx h1 h2 hl
      exact ⟨slotDone_of_claim hrun, fun hc hb o ho => nextWith_of_eq ((exec_of_no_claim hrun hc).trans (congrArg _ (if_pos hb)))
        (State.matQueue_joins ho d n.toNat .row f x 0 y)⟩
  · rw [exec_mdrain hr, if_pos hx]
  · rw [exec_mdrain hr, if_neg (not_not.2 hx), if_pos (matCount_bad hy)]
  · rw [exec_mdrain hr, if_neg (not_not.2 hx), if_neg (matCount_good h1 h2), if_pos hl]
  · have hrun := exec_mdrain_in_range (n := n) hr hx h1 h2 hl
    exact ⟨slotDone_of_claim hrun, fun hc o ho =>
      nextWith_of_eq (exec_of_no_claim hrun hc) (State.matQueue_joins ho d n.toNat .drain 0 x 0 y)⟩
  · refine nextWith_of_eq (exec_mres_releases hda hodd hb hw hc hq) ?_
    rw [State.fabric_jobsReleased, State.island_modIsland_self, State.finish, State.fabric_modCur]
    refine ⟨rfl, rfl, rfl, fun j hj => of_decide_eq_true (List.mem_filter.1 hj).2, fun hnone => ?_, fun j hone hk => ?_⟩
    · rw [show ((s.tile s.ft).fabric.island n.toNat).jobs = [] from hnone, ← hmap]
      exact ⟨(State.slot_modIsland _ _ _ _ _ _).trans (State.cur_modCur _ _), sameMemory_of_memory_eq rfl⟩
    · rw [show ((s.tile s.ft).fabric.island n.toNat).jobs = [j] from hone, ← hmap, List.filter_cons_of_pos (by simpa using hk),
        ← matWord_eq j.done (by decide)]
      exact awarded_jobWord (State.slot_modIsland _ _ _ _ _) j _

end Sys2Proof.Machine
end

section
/-!
SUPPORT. What an island does with its queue and with an element's row (R66-R68, R300, R302, R448).
-/
namespace Sys2Proof.Machine
open Sys2Proof.Rules

/-! ### A change of the job at the head of the queue -/

theorem Island.jobs_modJob_head {I : Island} {j : MatJob} {rest : List MatJob} (h : I.jobs = j :: rest) (g : MatJob → MatJob) :
    (I.modJob 0 g).jobs = g j :: rest := by
  rw [Island.modJob, h]
  rfl

section
variable {s : State} {j : MatJob} {rest : List MatJob} {I : Island} (hI : (s.tile s.ev.tile).fabric.island s.ev.unit = I)
  (hjobs : I.jobs = j :: rest)
include hI hjobs

/-! ### The block of an MLOAD (R66, R67, R300) -/

theorem exec_residentLoadComplete_starts (hq : ∀ q ∈ s.feWait, q.who ≠ .poll s.ev.tile (16 + s.ev.unit)) (hk : j.kind = .load)
    (hl : I.loading = false) (hv : I.valid = false ∨ I.rows = []) (hf : I.refire = false) (hs : s.stops s.ev.tile = false)
    (hr : s.storeReads s.ev.tile s.ev.unit (blockSpans j.fmt j.a j.b) = true) :
    exec .residentLoadComplete s = .next ((s.modIsland s.ev.tile s.ev.unit fun J =>
      { J with fmt := j.fmt, ebase := j.a, sbase := j.b, elems := s.bytes (localLoc s.ev.tile j.a) 32768,
               scales := s.bytes (localLoc s.ev.tile j.b) (4 * mxColumns j.fmt), loading := true,
               valid := false }).modIsland s.ev.tile s.ev.unit fun J => J.modJob 0 fun x => { x with started := true }) := by
  have hgo : j.kind = .load ∧ (!s.stops s.ev.tile) = true ∧ (!I.refire) = true ∧ ((!I.valid) = true ∨ I.rows.isEmpty = true) :=
    ⟨hk, by rw [hs]; rfl, by rw [hf]; rfl, hv.imp (by rintro h; rw [h]; rfl) (by rintro h; rw [h]; rfl)⟩
  rw [show exec .residentLoadComplete s = execResidentLoadComplete s from rfl, execResidentLoadComplete]
  simp only [hI, hl, hjobs, hr]
  rw [if_neg (by decide), if_pos hgo, if_pos trivial, State.snapBlock, State.pollDone_of_quiet hq]

theorem exec_residentLoadComplete_ends (hk : j.kind = .load) (hst : j.started = true) (hl : I.loading = true) :
    exec .residentLoadComplete s = .next (((s.modIsland s.ev.tile s.ev.unit Island.loaded).modIsland s.ev.tile s.ev.unit
      Island.dropHead).jobWord s.ev.tile j 0) := by
  have hhead : (((s.modIsland s.ev.tile s.ev.unit Island.loaded).tile s.ev.tile).fabric.island s.ev.unit).jobs = j :: rest := by
    rw [State.island_modIsland_self, hI]
    exact hjobs
  rw [show exec .residentLoadComplete s = execResidentLoadComplete s from rfl, execResidentLoadComplete]
  simp only [hI, hl, hjobs]
  rw [if_pos trivial, if_pos ⟨hk, hst⟩, State.endJob_head hhead, if_pos hk]
  rfl

/-! ### The rows of an MROW (R68, R300) -/

theorem exec_rowDeliver_job (hw : (s.tile s.ev.tile).fabric.elemRowWire s.ev.tile s.ev.unit = none)
    (hq : ∀ q ∈ s.feWait, q.who ≠ .poll s.ev.tile (16 + s.ev.unit)) (hk : j.kind = .row) (hd : j.done < j.count) (h16 : I.rows.length < 16)
    (hr : s.storeReads s.ev.tile s.ev.unit [(j.a + j.done * rowBytes j.fmt, rowBytes j.fmt)] = true) :
    exec .rowDeliver s = .next (s.modIsland s.ev.tile s.ev.unit fun J =>
      { J.modJob 0 (fun x => { x with done := x.done + 1, started := true }) with
        rows := J.rows ++ [rowOf j.fmt (s.bytes (localLoc s.ev.tile (j.a + j.done * rowBytes j.fmt)) (rowBytes j.fmt))
          (if s.marked (localLoc s.ev.tile (j.a + j.done * rowBytes j.fmt)) (rowBytes j.fmt - 4) then some (originWord s.ev.tile 27 5)
            else none)],
        rowFmt := j.fmt, src := 0 }) := by
  have hnext : I.next .row = some 0 := hk ▸ Island.next_of_head hjobs
  rw [show exec .rowDeliver s = execRowDeliver s from rfl, execRowDeliver]
  simp only [hw, hI, hnext, hjobs, List.getElem?_cons_zero, hr]
  rw [if_neg (by omega), if_neg (by decide), State.pollDone_of_quiet hq]

/-! ### A job that has done its rows (R299, R302) -/

theorem exec_matComplete_head (hn : s.ev.n = 0) (hk : j.kind ≠ .load) (hd : j.done = j.count) :
    exec .matComplete s = .next ((s.modIsland s.ev.tile s.ev.unit Island.dropHead).jobWord s.ev.tile j
      (matWord j.done (if j.poisoned then 2 else 0))) := by
  have hhead : ((s.tile s.ev.tile).fabric.island s.ev.unit).jobs = j :: rest := hI ▸ hjobs
  rw [show exec .matComplete s = execMatComplete s from rfl, execMatComplete]
  simp only [hI, hn, hjobs, List.getElem?_cons_zero]
  rw [if_pos ⟨hk, hd⟩, State.endJob_head hhead, if_neg hk]

end

/-! ### A row from an element (R68, R448) -/

/-- Row `r` enters the buffers of some islands of a tile. -/
def State.rowsEnter (s : State) (t : Nat) (r : Row) (l : List Nat) : State :=
  l.foldl (fun a k => a.modIsland t k fun I => { I with rows := I.rows ++ [r] }) s

theorem State.island_modIsland (s : State) (t k i : Nat) (g : Island → Island) :
    ((s.modIsland t k g).tile t).fabric.island i
      = if i = k then g ((s.tile t).fabric.island k) else (s.tile t).fabric.island i := by
  rw [State.fabric_modIsland_self]
  exact Tab.get_put _ _ _ _ _

/-- Rows that enter keep what was in the buffer, in place, and the tokens of rows to come. -/
theorem State.island_rowsEnter (s : State) (t i : Nat) (r : Row) (l : List Nat) :
    let I := (s.tile t).fabric.island i
    let J := ((s.rowsEnter t r l).tile t).fabric.island i
    J.parts = I.parts ∧ I.rows <+: J.rows ∧ (i ∈ l → r ∈ J.rows) := by
  induction l generalizing s with
  | nil => exact ⟨rfl, ⟨[], List.append_nil _⟩, fun h => absurd h List.not_mem_nil⟩
  | cons k l ih =>
    obtain ⟨hparts, hrows, hin⟩ := ih (s.modIsland t k fun I => { I with rows := I.rows ++ [r] })
    rw [State.island_modIsland] at hparts hrows
    by_cases h : i = k
    · subst h
      rw [if_pos rfl] at hparts hrows
      exact ⟨hparts, List.IsPrefix.trans ⟨_, rfl⟩ hrows, fun _ => hrows.subset (by simp)⟩
    · rw [if_neg h] at hparts hrows
      exact ⟨hparts, hrows, fun hi => hin ((List.mem_cons.1 hi).resolve_left h)⟩

theorem Fabric.mem_rowTargets {F : Fabric} {w : Wire} {t i : Nat} (hs : w.sel = none) (h : (t, Sink.island i) ∈ w.dsts) :
    i ∈ (F.rowTargets w).getD [] := by
  rw [Fabric.rowTargets, hs]
  exact List.mem_filterMap.2 ⟨_, h, rfl⟩

theorem State.deliverRow_of_no_select {w : Wire} (hs : w.sel = none) (s : State) (t unit : Nat) (r : Row) :
    s.deliverRow t unit w r = s.rowsEnter t r (((s.tile t).fabric.rowTargets w).getD []) := by
  rw [State.deliverRow, hs]
  rfl

theorem exec_rowDeliver_element {s : State} {I : Island} (hI : (s.tile s.ev.tile).fabric.island s.ev.unit = I) {e : Nat} {w : Wire}
    (hw : (s.tile s.ev.tile).fabric.elemRowWire s.ev.tile s.ev.unit = some (e, w)) (hp : rowTokens I.rowFmt ≤ I.parts.length)
    (hroom : (s.tile s.ev.tile).fabric.rowRoom w = true) :
    exec .rowDeliver s = .next ((s.deliverRow s.ev.tile e w (rowOfTokens I.rowFmt (I.parts.take (rowTokens I.rowFmt)))).modIsland
      s.ev.tile s.ev.unit fun J => { J with parts := J.parts.drop (rowTokens I.rowFmt) }) := by
  rw [show exec .rowDeliver s = execRowDeliver s from rfl, execRowDeliver]
  simp only [hw, hI]
  rw [if_pos ⟨hp, hroom⟩]

/-! ### The statement of the queues -/

theorem islandQueues : IslandQueues := by
  intro s j rest t i I quiet
  have hI : (s.tile s.ev.tile).fabric.island s.ev.unit = I := rfl
  refine ⟨fun hj hq hk hl hv hf hs hr => ?_, fun hj hk hst hl hc => ?_, fun hj hq hw hk hd h16 hr => ?_, fun e w hw hp hs hd hroom => ?_,
    fun hj hn hk hd => ?_⟩
  · refine nextWith_of_eq (exec_residentLoadComplete_starts hI hj hq hk hl hv hf hs hr) ?_
    rw [State.island_modIsland_self, State.island_modIsland_self]
    exact ⟨rfl, rfl, rfl, rfl, rfl, rfl, rfl, sameMemory_of_memory_eq rfl⟩
  · refine nextWith_of_eq (exec_residentLoadComplete_ends hI hj hk hst hl) ?_
    rw [State.fabric_jobWord, State.island_modIsland_self, State.island_modIsland_self]
    refine ⟨rfl, ?_, rfl, Island.jobs_dropHead (I := I.loaded) hj, awarded_jobWord (fun k => ?_) j 0⟩
    · exact (congrArg not hc : (!I.cordoned) = true)
    · rw [State.slot_modIsland, State.slot_modIsland]
  · refine nextWith_of_eq (exec_rowDeliver_job hI hj hw hq hk hd h16 hr) ?_
    rw [State.island_modIsland_self]
    refine ⟨List.length_append, ?_, rfl, fun hm => ?_, sameMemory_of_memory_eq rfl⟩
    · rw [Island.jobs_modJob_head (I := (s.tile t).fabric.island i) hj]
      rfl
    · rw [hm]
      rfl
  · refine nextWith_of_eq (exec_rowDeliver_element hI hw hp hroom) ?_
    obtain ⟨hparts, hrows, hin⟩ := s.island_rowsEnter t i (rowOfTokens I.rowFmt (I.parts.take (rowTokens I.rowFmt)))
      (((s.tile t).fabric.rowTargets w).getD [])
    rw [State.island_modIsland_self, State.deliverRow_of_no_select hs]
    exact ⟨congrArg (List.drop _) hparts, hin (Fabric.mem_rowTargets hs hd), hrows⟩
  · refine nextWith_of_eq (exec_matComplete_head hI hj hn hk hd) ⟨?_, ?_, fun hrun => ?_⟩
    · rw [State.fabric_jobWord, State.island_modIsland_self]
      exact Island.jobs_dropHead (I := I) hj
    · rw [← matWord_eq j.done (by split <;> decide)]
      exact awarded_jobWord (fun k => State.slot_modIsland _ _ _ _ _ k) j _
    · have hslot : ∃ k < 8, (((s.modIsland t i Island.dropHead).slot t k).pend? j.pend).isSome = true := by
        simpa only [State.slot_modIsland] using hrun
      exact sameMemory_of_memory_eq (State.memory_jobWord hslot _)

/-- Settles O32: the instructions by their checks in order and what `State.matQueue` leaves, the queue by the branches of the steps that
serve it, and each word that a job ends with by `awarded_jobWord`. That a block's load takes two steps, its start and its end, is the model's choice
(log 35). -/
theorem matrixInstructions : Obligations.MatrixInstructions := ⟨matrixInstructionsHold, islandQueues⟩

end Sys2Proof.Machine
end

section
/-!
SUPPORT. FOLD.PUT, FOLD.CFG and FOLD.STAT (R92, R243-R245).
-/
namespace Sys2Proof.Machine
open Sys2Proof.Rules

/-! ### A fold slot that is changed -/

@[simp] theorem State.cur_modFold (s : State) (t n : Nat) (g : FoldSlot → FoldSlot) : (s.modFold t n g).cur = s.cur :=
  State.slot_modFabric _ _ _ _ _

@[simp] theorem State.cur_wakePart (s : State) (t : Nat) : (s.wakePart t).cur = s.cur := State.slot_modFabric _ _ _ _ _

section
variable {s : State} {d a b : BitVec 5} {n : BitVec 4}

/-! ### FOLD.PUT (R243) -/

/-- The slot takes the needle and the registers are a group of four. -/
def State.PutAllowed (s : State) (b : BitVec 5) (n : BitVec 4) : Prop :=
  b.toNat % 4 = 0 ∧ ((s.tile s.ft).fabric.fold n.toNat).v = true ∧ ((s.tile s.ft).fabric.fold n.toNat).srcs.getLsbD 0 = true

theorem exec_foldPut_illegal (h : ¬s.PutAllowed b n) : exec (.foldPut b n) s = .next (s.trapIllegal (.foldPut b n)) := by
  refine congrArg _ (if_pos ?_)
  simp only [State.PutAllowed, not_and_or, Bool.not_eq_true] at h
  simpa only [Bool.not_eq_true'] using h

/-- A group that the slot takes enters where the slot has room for a flit, and waits else. -/
theorem exec_foldPut (h : s.PutAllowed b n) (hr : ready s [b, b + 1, b + 2, b + 3]) : exec (.foldPut b n) s = .next (
    if !((s.tile s.ft).fabric.fold n.toNat).roomLocal 5 then s
    else ((s.modFold s.ft n.toNat fun x =>
      x.pushLocal 5 (flitValues x.op ([b, b + 1, b + 2, b + 3].map s.cur.sreg))).wakePart s.ft).modCur Slot.advance) := by
  obtain ⟨hb, hv, hs⟩ := h
  refine congrArg _ ((if_neg ?_).trans (if_neg (by rw [hr]; decide)))
  rw [hv, hs, hb]
  decide

theorem FoldSlot.roomLocal_iff (f : FoldSlot) (k : Nat) : f.roomLocal k = true ↔ (f.inq.get [] (8 + k)).length < 4 := decide_eq_true_iff

theorem FoldSlot.inq_pushLocal (f : FoldSlot) (k : Nat) (vals : List FoldVal) :
    (f.pushLocal k vals).inq.get [] (8 + k) = f.inq.get [] (8 + k)
      ++ [⟨f.pushed.get 0 k / f.flits, f.pushed.get 0 k % f.flits, vals, f.sliceOf k, f.sliceOf k⟩] := Tab.get_put_self _ _ _ _

/-! ### FOLD.CFG (R244) -/

/-- A slot of the pattern, an invalid value, or an offset for a slot that is no root. -/
def State.CfgIllegal (s : State) (a b : BitVec 5) (n : BitVec 4) : Prop :=
  let f := (s.tile s.ft).fabric.fold n.toNat
  (f.v = true ∧ f.pattern = true) ∨ foldValueOk s.ft (s.cur.sreg a) = false ∨ (get (s.cur.sreg a) 53 51 ≠ 4 ∧ (s.cur.sreg b).toNat ≠ 0)

/-- The slot holds no row, and none is on its way to it. -/
def State.FoldFree (s : State) (n : BitVec 4) : Prop :=
  let f := (s.tile s.ft).fabric.fold n.toNat
  f.v = false ∨ (f.empty = true ∧ ∀ k ∈ f.inDirs, s.foldsOnWay s.ft n.toNat k = 0)

theorem exec_foldCfg_illegal (hr : ready s [a, b]) (h : s.CfgIllegal a b n) :
    exec (.foldCfg a b n) s = .next (s.trapIllegal (.foldCfg a b n)) := by
  refine congrArg _ ((if_neg (by rw [hr]; decide)).trans (if_pos ?_))
  simpa [State.CfgIllegal, or_assoc] using h

/-- A value that the slot takes is written where its root's offset is one and the slot is empty. -/
theorem exec_foldCfg_legal (hr : ready s [a, b]) (h : ¬s.CfgIllegal a b n) : exec (.foldCfg a b n) s = .next (
    if (decide (get (s.cur.sreg a) 53 51 = 4) && decide ((s.cur.sreg b).toNat % 32 ≠ 0)) = true then s.trap 0x02 0 (s.cur.sreg b)
    else if (decide (get (s.cur.sreg a) 53 51 = 4) && decide (s.lsize s.ft ≤ (s.cur.sreg b).toNat)) = true then
      s.trap 0x05 0 (s.cur.sreg b)
    else if (((s.tile s.ft).fabric.fold n.toNat).v && (!((s.tile s.ft).fabric.fold n.toNat).empty
        || ((s.tile s.ft).fabric.fold n.toNat).inDirs.any fun d => s.foldsOnWay s.ft n.toNat d != 0)) = true then s
    else (s.modFold s.ft n.toNat fun _ => foldOfWord (s.cur.sreg a)
      (if decide (get (s.cur.sreg a) 53 51 = 4) = true then some (s.cur.sreg b).toNat else none)).modCur Slot.advance) := by
  refine congrArg _ ((if_neg (by rw [hr]; decide)).trans (if_neg fun hbad => h ?_))
  simpa [State.CfgIllegal, or_assoc] using hbad

/-- A value without a fault of its own waits until the slot is empty. -/
theorem exec_foldCfg_faultless (hr : ready s [a, b]) (h : ¬s.CfgIllegal a b n)
    (ho : get (s.cur.sreg a) 53 51 = 4 → (s.cur.sreg b).toNat % 32 = 0 ∧ (s.cur.sreg b).toNat < s.lsize s.ft) :
    (¬s.FoldFree n → exec (.foldCfg a b n) s = .next s)
    ∧ (s.FoldFree n → exec (.foldCfg a b n) s = .next ((s.modFold s.ft n.toNat fun _ => foldOfWord (s.cur.sreg a)
      (if get (s.cur.sreg a) 53 51 = 4 then some (s.cur.sreg b).toNat else none)).modCur Slot.advance)) := by
  have hfree : (((s.tile s.ft).fabric.fold n.toNat).v && (!((s.tile s.ft).fabric.fold n.toNat).empty
      || ((s.tile s.ft).fabric.fold n.toNat).inDirs.any fun d => s.foldsOnWay s.ft n.toNat d != 0)) = true ↔ ¬s.FoldFree n := by
    simp [State.FoldFree, imp_iff_not_or]
  have halign : ¬(decide (get (s.cur.sreg a) 53 51 = 4) && decide ((s.cur.sreg b).toNat % 32 ≠ 0)) = true := by
    simpa using fun hroot => (ho hroot).1
  have hsize : ¬(decide (get (s.cur.sreg a) 53 51 = 4) && decide (s.lsize s.ft ≤ (s.cur.sreg b).toNat)) = true := by
    simpa using fun hroot => (ho hroot).2
  rw [exec_foldCfg_legal hr h, if_neg halign, if_neg hsize]
  refine ⟨fun hwait => congrArg _ (if_pos (hfree.2 hwait)), fun hgo => ?_⟩
  rw [if_neg (mt hfree.1 (not_not.2 hgo))]
  simp only [decide_eq_true_eq]

/-! ### FOLD.STAT (R245) -/

theorem exec_foldStat (hr : ready s [d]) : exec (.foldStat d n) s = .next (s.finish d (BitVec.ofNat 64
    (((s.tile s.ft).fabric.fold n.toNat).rows.toNat * 2 ^ 32 + (if ((s.tile s.ft).fabric.fold n.toNat).ovf then 2 else 0)
      + if ((s.tile s.ft).fabric.fold n.toNat).v then 1 else 0))) := by
  have hbit : ∀ x : Bool, bit x * 2 ^ 1 = if x then 2 else 0 := by decide
  refine congrArg _ ((if_neg (by rw [hr]; decide)).trans ?_)
  rw [put_of_lt 32 (BitVec.isLt _), put_of_lt 1 (bit_lt _), put_of_lt 0 (bit_lt _), ← BitVec.ofNat_add, ← BitVec.ofNat_add, hbit,
    Nat.pow_zero, Nat.mul_one]
  rfl

end

/-- Settles O34: FOLD.PUT by whether the slot takes the group and has room, FOLD.CFG by its checks in order, FOLD.STAT by the fields of its
word. -/
theorem foldInstructions : Obligations.FoldInstructions := by
  intro s d a b n f v o free
  refine ⟨fun h => exec_foldPut_illegal ?_, fun hr hb hv hs => ?_, fun hr h => exec_foldCfg_illegal hr h, fun hr hp hok => ?_, exec_foldStat⟩
  · rintro ⟨hb, hv, hs⟩
    rcases h with h | h | h
    · exact h hb
    · exact Bool.false_ne_true (h.symm.trans hv)
    · exact Bool.false_ne_true (h.symm.trans hs)
  · have hrun := exec_foldPut (n := n) ⟨hb, hv, hs⟩ hr
    refine ⟨fun hfull => hrun.trans (congrArg _ (if_pos ?_)), fun hroom => nextWith_of_eq (hrun.trans (congrArg _ (if_neg ?_))) ?_⟩
    · rw [Bool.not_eq_true', ← Bool.not_eq_true, FoldSlot.roomLocal_iff]
      exact Nat.not_lt.2 hfull
    · rw [(f.roomLocal_iff 5).2 hroom]
      decide
    · have hcur : ∀ g, (((s.modFold s.ft n.toNat g).wakePart s.ft).modCur Slot.advance).cur = s.cur.advance := fun g => by
        rw [State.cur_modCur, State.cur_wakePart, State.cur_modFold]
      rw [State.fabric_modCur, State.wakePart, State.fold_modPart, State.fold_modFold_self]
      exact ⟨_, f.inq_pushLocal 5 _, rfl, rfl, rfl, hcur _, sameMemory_of_memory_eq rfl⟩
  · have hlegal : (get v 53 51 ≠ 4 → o = 0) → ¬s.CfgIllegal a b n := by
      rintro ho (⟨hv, hpat⟩ | hbad | ⟨hroot, hoff⟩)
      · exact hp.elim (fun h => Bool.false_ne_true (h.symm.trans hv)) fun h => Bool.false_ne_true (h.symm.trans hpat)
      · exact Bool.false_ne_true (hbad.symm.trans hok)
      · exact hoff (ho hroot)
    refine ⟨fun hroot hal => ?_, fun hroot hal hsz => ?_, fun h => ?_⟩
    · rw [exec_foldCfg_legal hr (hlegal (absurd hroot)), if_pos (by simpa using ⟨hroot, hal⟩)]
    · rw [exec_foldCfg_legal hr (hlegal (absurd hroot)), if_neg (by simpa using fun _ => hal), if_pos (by simpa using ⟨hroot, hsz⟩)]
    · have hoff : get v 53 51 ≠ 4 → o = 0 := fun hroot => h.elim (fun h => absurd h.1 hroot) fun h => h.2
      have hin : get v 53 51 = 4 → o % 32 = 0 ∧ o < s.lsize s.ft := fun hroot => h.elim (fun h => h.2) fun h => absurd hroot h.1
      obtain ⟨hwaits, hwrites⟩ := exec_foldCfg_faultless hr (hlegal hoff) hin
      refine ⟨hwaits, fun hfree => nextWith_of_eq (hwrites hfree) ⟨?_, ?_, sameMemory_of_memory_eq rfl⟩⟩
      · rw [State.fabric_modCur, State.fold_modFold_self]
      · rw [State.cur_modCur, State.cur_modFold]

end Sys2Proof.Machine
end

section
/-!
SUPPORT. A panel's samples, clock gating, and the storage of the care label (R91, R493, R498, R500-R502, R506, R510).
-/
namespace Sys2Proof.Machine
open Sys2Proof.Rules

/-! ### The buckets of a panel's silicon (R498, R501) -/

/-- The buckets of a tile have a RATE, the weft's DEPTH 64. -/
def Tile.HasRate (T : Tile) (r : Nat) : Prop :=
  let x := BitVec.ofNat 16 r
  T.buckW.rate = x ∧ T.buckC0.rate = x ∧ T.buckC1.rate = x ∧ T.buckW.depth = 64

theorem Tile.hasRate_rated (T : Tile) (r : Nat) : (T.rated r).HasRate r := ⟨rfl, rfl, rfl, rfl⟩

/-- The tiles that some silicon names by its key take a RATE. -/
def State.rateAll (s : State) (key : Nat → Nat) (r : Nat) (l : List Nat) : State :=
  l.foldl (fun a q => a.modTile (key q) fun T => T.rated r) s

theorem State.rateAll_keeps {β : Type} (p : State → β) (h : ∀ s t f, p (State.modTile s t f) = p s) (s : State) (key : Nat → Nat) (r : Nat)
    (l : List Nat) : p (s.rateAll key r l) = p s := foldl_keeps p _ (fun _ _ => h _ _ _) l s

/-- A tile that has the RATE, or that some silicon names, has it in the end, whatever silicon comes after. -/
theorem State.hasRate_rateAll {key : Nat → Nat} {r t : Nat} {l : List Nat} {s : State}
    (h : (s.tile t).HasRate r ∨ ∃ q ∈ l, key q = t) : ((s.rateAll key r l).tile t).HasRate r := by
  induction l generalizing s with
  | nil => exact h.resolve_right (by simp)
  | cons q l ih =>
    refine ih (s := s.modTile (key q) fun T => T.rated r) ?_
    by_cases ht : t = key q
    · rw [ht, State.tile_modTile_self]
      exact .inl (Tile.hasRate_rated _ _)
    · rw [State.tile_modTile_of_ne _ _ ht]
      refine h.imp_right ?_
      rintro ⟨p, hp, hk⟩
      exact ⟨p, (List.mem_cons.1 hp).resolve_left (by rintro rfl; exact ht hk.symm), hk⟩

/-! ### The level after a sample (R500) -/

section
variable (P : Panel) (n : Nat)

theorem Panel.level_sampled : (P.sampled n).level =
    if P.tcrit.toNat ≤ n then 2
    else if P.talert.toNat ≤ n ∧ 1 ≤ P.hotMs then max 2 (P.level - 2)
    else if n + P.thyst.toNat ≤ P.talert.toNat ∧ P.coolMs = 10 then min 8 (P.level + 2)
    else P.level := by
  simp only [Panel.sampled, Bool.and_eq_true, decide_eq_true_eq]

variable {P n}

theorem Panel.level_sampled_critical (h : P.tcrit.toNat ≤ n) : (P.sampled n).level = 2 := by
  rw [Panel.level_sampled, if_pos h]

theorem Panel.level_sampled_hot (h : n < P.tcrit.toNat) (ha : P.talert.toNat ≤ n) (hh : 1 ≤ P.hotMs) :
    (P.sampled n).level = max 2 (P.level - 2) := by
  rw [Panel.level_sampled, if_neg (by omega), if_pos ⟨ha, hh⟩]

theorem Panel.level_sampled_cool (h : n < P.tcrit.toNat) (ha : n < P.talert.toNat) (hy : n + P.thyst.toNat ≤ P.talert.toNat)
    (hc : P.coolMs = 10) : (P.sampled n).level = min 8 (P.level + 2) := by
  rw [Panel.level_sampled, if_neg (by omega), if_neg (by omega), if_pos ⟨hy, hc⟩]

/-- A first sample at TALERT, and one cooler by less than THYST, leave the level. -/
theorem Panel.level_sampled_stays (h : n < P.tcrit.toNat) (hh : P.talert.toNat ≤ n → P.hotMs = 0)
    (hy : P.talert.toNat < n + P.thyst.toNat) : (P.sampled n).level = P.level := by
  rw [Panel.level_sampled, if_neg (by omega), if_neg (by omega), if_neg (by omega)]

end

/-! ### A sample (R493, R500, R501, R506) -/

theorem State.alert_raise (s : State) {b : Nat} (h : b < 4) : (s.raise b).mgmt.alert.getLsbD b = true := by
  simp [State.raise, h]

/-- The sample is counted and moves the panel's level. -/
def State.levelled (s : State) : State :=
  let p := s.ev.tile
  let tb := 128 * p + min 63 (s.ev.n / 2)
  let vb := 128 * p + 64 + min 63 ((s.ev.v.toNat - 500) / 10)
  { s with care := { s.care with hist := bump (bump s.care.hist tb) vb } }.modPanel p fun P => P.sampled s.ev.n

/-- A sample at TCRIT is an alert as well. -/
def State.sampled (s : State) : State := if (s.panel s.ev.tile).tcrit.toNat ≤ s.ev.n then s.levelled.thermalAlert else s.levelled

theorem State.panel_levelled (s : State) : s.levelled.panel s.ev.tile = (s.panel s.ev.tile).sampled s.ev.n := Tab.get_put_self _ _ _ _

/-- What the alert leaves alone, the sample leaves as `levelled` does. -/
theorem State.sampled_keeps {β : Type} (p : State → β) (h : ∀ s, p (State.thermalAlert s) = p s) (s : State) :
    p s.sampled = p s.levelled := by
  unfold State.sampled
  split
  · exact h _
  · rfl

theorem State.panel_sampled (s : State) : s.sampled.panel s.ev.tile = (s.panel s.ev.tile).sampled s.ev.n :=
  (State.sampled_keeps (State.panel · s.ev.tile) (fun _ => rfl) s).trans s.panel_levelled

theorem State.memory_sampled (s : State) : s.sampled.memory = s.memory := State.sampled_keeps State.memory (fun _ => rfl) s

/-- The silicon of the panel, in some order, takes the RATE of the level after the sample. -/
theorem exec_thermalSample (s : State) : ∃ l : List Nat, (∀ q < 140 * 192, physPanel q = s.ev.tile → q ∈ l)
    ∧ exec .thermalSample s = .next (s.sampled.rateAll s.keyAt ((s.panel s.ev.tile).sampled s.ev.n).rate l) := by
  have hcrit : (s.levelled.panel s.ev.tile).tcrit = (s.panel s.ev.tile).tcrit := by
    rw [State.panel_levelled]
    rfl
  refine ⟨(List.range (140 * 192)).filter fun q => physPanel q == s.ev.tile,
    fun q hq hp => List.mem_filter.2 ⟨List.mem_range.2 hq, beq_iff_eq.2 hp⟩, ?_⟩
  rw [show exec .thermalSample s = execThermalSample s from rfl, execThermalSample, ← State.panel_sampled, State.rateAll, State.sampled,
    ← hcrit]
  dsimp only
  generalize (List.range (140 * 192)).filter _ = l
  rfl

theorem thermalSamples : ThermalSamples := by
  intro s p P n
  obtain ⟨l, hl, hrun⟩ := exec_thermalSample s
  refine nextWith_of_eq hrun ?_
  intro Q
  have hQ : Q = P.sampled n := (State.rateAll_keeps (State.panel · p) (fun _ _ _ => rfl) _ _ _ _).trans s.panel_sampled
  have hm := State.rateAll_keeps State.mgmt (fun _ _ _ => rfl) s.sampled s.keyAt (P.sampled n).rate l
  rw [hQ]
  refine ⟨rfl, rfl, rfl, ?_, fun hc => ⟨Panel.level_sampled_critical hc, ?_⟩,
    fun hc => ⟨?_, Panel.level_sampled_hot hc, fun ha hh hy => Panel.level_sampled_stays hc (fun _ => hh) (by omega),
      fun hy ha => Panel.level_sampled_cool hc ha hy, fun ha => Panel.level_sampled_stays hc (by omega)⟩, fun q hq hp => ?_⟩
  · exact sameMemory_of_memory_eq ((State.rateAll_keeps State.memory (fun _ _ _ => rfl) _ _ _ _).trans s.memory_sampled)
  · rw [hm, State.sampled, if_pos hc]
    exact State.alert_raise _ (by decide)
  · rw [hm, State.sampled, if_neg (Nat.not_le.2 hc)]
    rfl
  · exact State.hasRate_rateAll (.inr ⟨q, hl q hq hp, rfl⟩)

/-! ### Clock gating and the care label's storage (R91, R510) -/

/-- Buffered records reach the log, of which the newest stay. -/
def State.logFlushed (s : State) : State :=
  { s with care := { s.care with buf := [], log := (s.care.log ++ s.care.buf).drop ((s.care.log ++ s.care.buf).length - 2 ^ 26),
                                 total := s.care.total + s.care.buf.length } }

theorem exec_careLogFlush (s : State) : exec .careLogFlush s
    = .next (if 2 ^ 26 < s.care.log.length + s.care.buf.length then s.logFlushed.raise 2 else s.logFlushed) := by
  rw [← List.length_append]
  rfl

theorem careLogFlushed (s : State) : nextWith (exec .careLogFlush s) fun u =>
    u.care.buf = [] ∧ u.care.total = s.care.total + s.care.buf.length
    ∧ (s.care.log.length + s.care.buf.length ≤ 2 ^ 26 → u.care.log = s.care.log ++ s.care.buf ∧ u.mgmt = s.mgmt)
    ∧ (2 ^ 26 < s.care.log.length + s.care.buf.length → u.care.log.length = 2 ^ 26 ∧ u.mgmt.alert.getLsbD 2 = true
      ∧ u.mgmt.msix = s.mgmt.msix + if s.mgmt.alert.getLsbD 2 = true then 0 else 1)
    ∧ sameMemory s u := by
  refine nextWith_of_eq (exec_careLogFlush s) ?_
  split
  next hfull =>
    refine ⟨rfl, rfl, fun h => absurd hfull (Nat.not_lt.2 h), fun _ => ⟨?_, State.alert_raise _ (by decide), ?_⟩,
      sameMemory_of_memory_eq rfl⟩
    · rw [State.raise, State.logFlushed, List.length_drop, List.length_append]
      omega
    · exact (apply_ite (s.mgmt.msix + ·) _ 0 1).symm
  next hroom =>
    refine ⟨rfl, rfl, fun h => ⟨?_, rfl⟩, fun h => absurd h hroom, sameMemory_of_memory_eq rfl⟩
    rw [State.logFlushed, List.length_append, Nat.sub_eq_zero_of_le h, List.drop_zero]

theorem gatingAndCare : GatingAndCare := fun s =>
  ⟨fun h => ⟨congrArg _ (if_pos h), congrArg _ (if_pos h)⟩,
    fun h => ⟨congrArg _ (if_neg (Bool.eq_false_iff.1 h)), congrArg _ (if_neg (Bool.eq_false_iff.1 h))⟩, careLogFlushed s, rfl⟩

/-- Settles O55: a sample by the branches of its level and the tiles that its panel's silicon names, the log by whether it overflows. -/
theorem heatGatingAndCare : Obligations.HeatGatingAndCare := ⟨thermalSamples, gatingAndCare⟩

end Sys2Proof.Machine
end

section
/-!
SUPPORT. What the steps of a launch's life change and leave alone: the table of launches, the part that a tile takes, its fabric.
-/
namespace Sys2Proof.Machine

/-! ### The table of launches -/

theorem Tab.find?_put_self {α : Type} (t : Tab α) (n : Nat) (v : α) : (t.put n v).find? (fun e => e.1 == n) = some (n, v) := by
  induction t with
  | nil => simp [Tab.put]
  | cons e r ih =>
    obtain ⟨k, w⟩ := e
    unfold Tab.put
    split
    · simp
    · split
      · simp
      next hne => simp [ih, Ne.symm hne]

theorem State.launch?_of_launches_eq {s u : State} (h : u.launches = s.launches) (n : Nat) : u.launch? n = s.launch? n := by
  rw [State.launch?, h, State.launch?]

theorem State.launch?_modLaunch {s : State} {n : Nat} {l : Launch} (h : s.launch? n = some l) (f : Launch → Launch) :
    (s.modLaunch n f).launch? n = some (f l) := by
  rw [State.modLaunch, h, State.launch?, Tab.find?_put_self]
  rfl

/-- What no unit given back to a panel changes, the end of some streams leaves alone. -/
theorem State.unbookStreams_keeps {β : Type} (p : State → β) (hp : ∀ s t mw, p (State.unbook s t mw) = p s) (s : State)
    (which : Group → Bool) : p (s.unbookStreams which) = p s := by
  refine foldl_keeps p _ (fun a e => ?_) _ _
  split
  · split
    · exact hp _ _ _
    · rfl
  · rfl

/-! ### The part of a tile in its launch -/

theorem State.fabric_modFabric_of_ne (s : State) {t u : Nat} (f : Fabric → Fabric) (h : u ≠ t) :
    ((s.modFabric t f).tile u).fabric = (s.tile u).fabric := by rw [State.modFabric, State.tile_modTile_of_ne _ _ h]

theorem State.part_of_tiles_eq {s u : State} (h : u.tiles = s.tiles) (t : Nat) : u.part t = s.part t := by
  rw [State.part, State.tile, h, State.part, State.tile]

@[simp] theorem State.part_modPart_self (s : State) (t : Nat) (g : Part → Part) : (s.modPart t g).part t = g (s.part t) := by
  rw [State.part, State.modPart, State.fabric_modFabric_self, State.part]

theorem State.part_modPart_of_ne (s : State) {t u : Nat} (g : Part → Part) (h : u ≠ t) : (s.modPart t g).part u = s.part u := by
  rw [State.part, State.modPart, State.fabric_modFabric_of_ne _ _ h, State.part]

/-- What a change of a part leaves alone of it, it leaves alone of every tile's part. -/
theorem State.part_modPart_keeps {β : Type} (p : Part → β) {g : Part → Part} (hg : ∀ P, p (g P) = p P) (s : State) (c t : Nat) :
    p ((s.modPart c g).part t) = p (s.part t) := by
  by_cases h : t = c
  · subst h
    rw [State.part_modPart_self, hg]
  · rw [State.part_modPart_of_ne _ _ h]

/-- A mark that some tiles get stands in their parts, and in no other part. -/
theorem State.part_foldl_modPart {g : Part → Part} (hg : ∀ P, g (g P) = g P) (l : List Nat) (s : State) (c : Nat) :
    (l.foldl (fun a x => a.modPart x g) s).part c = if c ∈ l then g (s.part c) else s.part c := by
  induction l generalizing s with
  | nil => rfl
  | cons x r ih =>
    rw [List.foldl_cons, ih]
    by_cases h : c = x
    · subst h
      simp [hg]
    · simp [State.part_modPart_of_ne _ _ h, h]

/-! ### The leave that a loader asks for (R497) -/

theorem State.part_loaderAsk (s : State) (t : Nat) (qs : List LeaveReq) :
    (s.loaderAsk t qs).part t = { s.part t with wanted := (s.part t).wanted ++ qs } :=
  State.part_modPart_self (s.modPanel _ _) t fun P => { P with wanted := P.wanted ++ qs }

theorem State.part_loaderGive (s : State) (t : Nat) (which : LeaveReq → Bool) :
    (s.loaderGive t which).part t = { s.part t with leave := (s.part t).leave.filter fun q => !which q } :=
  State.part_modPart_self (s.unbook _ _) t fun P => { P with leave := (s.part t).leave.filter fun q => !which q }

theorem State.tile_modPanel (s : State) (p : Nat) (f : Panel → Panel) (u : Nat) : (s.modPanel p f).tile u = s.tile u := rfl

/-- A loader that gives back all it holds and has asked for changes its tile's part alone. -/
theorem State.fabric_loaderReturn_self (s : State) (t : Nat) : ((s.loaderReturn t).tile t).fabric
    = { (s.tile t).fabric with part := { (s.tile t).fabric.part with leave := [], wanted := [] } } := by
  rw [State.loaderReturn, State.fabric_modFabric_self, State.tile_modPanel, State.loaderGive, State.fabric_modFabric_self,
    State.tile_unbook]
  simp

theorem State.fabric_loaderReturn_of_ne (s : State) {t u : Nat} (h : u ≠ t) :
    ((s.loaderReturn t).tile u).fabric = (s.tile u).fabric := by
  rw [State.loaderReturn, State.fabric_modFabric_of_ne _ _ h, State.tile_modPanel, State.loaderGive, State.fabric_modFabric_of_ne _ _ h,
    State.tile_unbook]

/-- What a loader asks for stands last with the tile's panel. -/
theorem State.reqs_loaderAsk (s : State) (t : Nat) (qs : List LeaveReq) :
    ((s.loaderAsk t qs).panel ((s.loaderAsk t qs).panelOf t)).reqs = (s.panel (s.panelOf t)).reqs ++ qs :=
  congrArg Panel.reqs (Tab.get_put_self _ _ _ _)

end Sys2Proof.Machine
end

section
/-!
SUPPORT. The configuration of a load on a tile (R130, R261, R279, R280, R497).
-/
namespace Sys2Proof.Machine
open Sys2Proof.Rules

/-! ### The checks of a load leave every tile's state alone (R126, R130) -/

theorem State.tiles_light (s : State) (g : Group) : (s.light g).tiles = s.tiles := by
  refine (foldl_keeps State.tiles _ (fun a f => ?_) _ _).trans rfl
  split <;> rfl

theorem State.tiles_addGroup {s u : State} {n k : Nat} {L : Load} {os : List (Nat × Nat)} {x : Node}
    (h : s.addGroup n k L os x = .ok u) : u.tiles = s.tiles := by
  unfold State.addGroup at h
  dsimp only at h
  split at h
  · exact nomatch h
  · split at h
    next g _ =>
      rw [← Except.ok.inj h]
      exact s.tiles_light g
    · exact nomatch h

/-- What every accepted step of a fold of checks leaves alone, the fold leaves alone. -/
theorem foldl_check_keeps {α β : Type} (p : State → β) {f : Check State → α → Check State}
    (hf : ∀ c a u, f c a = .ok u → ∃ v, c = .ok v ∧ p u = p v) (l : List α) {c : Check State} {u : State}
    (h : l.foldl f c = .ok u) : ∃ v, c = .ok v ∧ p u = p v := by
  induction l generalizing c with
  | nil => exact ⟨u, h, rfl⟩
  | cons a r ih =>
    obtain ⟨v, hv, huv⟩ := ih h
    obtain ⟨w, hw, hvw⟩ := hf c a v hv
    exact ⟨w, hw, huv.trans hvw⟩

theorem State.tiles_addGroups {s u : State} {n k : Nat} {L : Load} {os : List (Nat × Nat)}
    (h : s.addGroups n k L os = .ok u) : u.tiles = s.tiles := by
  obtain ⟨v, hv, huv⟩ := foldl_check_keeps State.tiles (fun c x u hc => by
    cases c with
    | error e => exact nomatch hc
    | ok a => exact ⟨a, rfl, State.tiles_addGroup hc⟩) _ h
  rw [huv, ← Except.ok.inj hv]

theorem State.tiles_prepareLoad {s u : State} {n k : Nat} {l : Launch} (h : s.prepareLoad n k l = .ok u) : u.tiles = s.tiles := by
  have hcut : (s.cutGroups n (some k)).tiles = s.tiles := State.unbookStreams_keeps State.tiles (fun _ _ _ => rfl) _ _
  unfold State.prepareLoad at h
  split at h
  · exact nomatch h
  next L _ =>
    rcases hplaced : L.unplaced with _ | c
    · rcases hstatic : L.static l.alloc l.pat.actors with c | x
      · rw [hplaced, hstatic] at h
        exact nomatch h
      · rcases hsite : s.siteOk L l.alloc with c | y
        · rw [hplaced, hstatic, hsite] at h
          exact nomatch h
        · rw [hplaced, hstatic, hsite] at h
          exact (State.tiles_addGroups h).trans hcut
    · rw [hplaced] at h
      exact nomatch h

theorem State.tiles_replace (s : State) (k : Nat) (l : Launch) : (s.replace k l).1.tiles = s.tiles := by
  unfold State.replace
  split <;> rfl

theorem State.tiles_write (s : State) (loc : Nat) (bs : List Byte) : (s.write loc bs).tiles = s.tiles := rfl

theorem State.tiles_writeLaunch (s : State) (n : Nat) (l : Launch) : (s.writeLaunch n l).tiles = s.tiles := by
  rw [State.writeLaunch, State.tiles_write, State.tiles_write, State.tiles_write]

/-- A new placement leaves the state of every tile's part alone. -/
theorem State.partState_joinTree (s : State) (n : Nat) (old new : Launch) (t : Nat) :
    ((s.joinTree n old new).part t).state = (s.part t).state := by
  have hspool := s.tiles_writeLaunch n new
  unfold State.joinTree
  generalize s.writeLaunch n new = x at hspool ⊢
  dsimp only
  refine (foldl_keeps (fun a : State => (a.part t).state) _ (fun a u => ?_) _ _).trans
    ((foldl_keeps (fun a : State => (a.part t).state) _ (fun a u => ?_) _ _).trans
      (congrArg Part.state (State.part_of_tiles_eq hspool t)))
  · exact foldl_keeps (fun a : State => (a.part t).state) _ (fun _ _ => by rfl) _ _
  · exact State.part_modPart_keeps Part.state (fun _ => by rfl) a u t

theorem State.partState_readyLoad (s : State) (n k : Nat) (l : Launch) (t : Nat) :
    ((s.readyLoad n k l).1.part t).state = (s.part t).state := by
  have hrep : ∀ k, ((s.replace k l).1.part t).state = (s.part t).state := fun k =>
    congrArg Part.state (State.part_of_tiles_eq (s.tiles_replace k l) t)
  have hstart : ((if decide (l.mgen = s.mgen) = true then (s, Except.ok l) else s.replace k l).1.part t).state = (s.part t).state := by
    split
    · rfl
    · exact hrep k
  unfold State.readyLoad
  dsimp only
  split
  · split
    · rfl
    · split
      · rfl
      · exact (State.partState_joinTree _ _ _ _ _).trans (hrep _)
  · split
    · rfl
    · split
      · exact hstart
      · split
        · exact hstart
        next hprep =>
          have hready := (congrArg Part.state (State.part_of_tiles_eq (State.tiles_prepareLoad hprep) t)).trans hstart
          dsimp only
          split
          · exact hready
          · exact (State.partState_joinTree _ _ _ _ _).trans hready

/-! ### A tile is about to configure a load -/

/-- Tile `t` is about to configure its load of launch `n`, and no COPY is on the streams of the load. -/
structure State.Configures (s : State) (t n : Nat) (l : Launch) : Prop where
  launch : (s.part t).launch = some n
  found : s.launch? n = some l
  config : (s.part t).state = .config
  live : l.live = true
  free : s.streamsFree t (s.part t).load l = true

/-- A tile runs load `k` of launch `n`. -/
def State.RunsLoad (s : State) (t n k : Nat) : Prop :=
  (s.part t).state = .running ∧ (s.part t).load = k ∧ (s.part t).launch = some n

theorem State.runsLoad_configure {l : Launch} {k : Nat} {L : Load} (hL : l.pat.loads[k]? = some L) (s : State) (t n : Nat) :
    (s.configure t n l k).RunsLoad t n k := by
  unfold State.configure State.RunsLoad
  rw [hL]
  dsimp only
  split
  · rw [State.part_modPart_self]
    exact ⟨rfl, rfl, rfl⟩
  · rw [State.part_modPart_self]
    exact ⟨rfl, rfl, rfl⟩

/-- Both steps that configure a load do so. -/
theorem exec_configures {s : State} {i : Instr} {n : Nat} {l : Launch} (h : s.Configures s.ev.tile n l)
    (hi : (i = .loadZeroConfigured ∧ (s.part s.ev.tile).load = 0)
      ∨ (i = .configSwap ∧ (s.part s.ev.tile).load ≠ 0 ∧ (s.tile s.ev.tile).reweaving = false ∧ (s.tile s.ev.tile).reweave = none
        ∧ (s.part s.ev.tile).wanted.any LeaveReq.swap = false)) : exec i s = .next (s.configureNext s.ev.tile) := by
  rcases hi with ⟨rfl, hload⟩ | ⟨rfl, hload, hweaving, hweave, hwanted⟩
  · rw [show exec .loadZeroConfigured s = execLoadZeroConfigured s from rfl, execLoadZeroConfigured, if_pos hload]
  · rw [show exec .configSwap s = execConfigSwap s from rfl, execConfigSwap]
    simp [hweaving, hweave, hwanted, h.config, hload]

section
variable {s s1 : State} {t n : Nat} {l0 l : Launch} {L : Load} {o p : Nat × Nat}

theorem State.configureNext_error (h : s.Configures t n l0) {c : Nat} (hr : s.readyLoad n (s.part t).load l0 = (s1, .error c)) :
    s.configureNext t = s1.failLaunch n l0 1 c := by
  obtain ⟨hn, hl, hstate, hlive, hfree⟩ := h
  simp [State.configureNext, hn, hl, hstate, hlive, hfree, hr]

/-- A tile outside the load swaps at once. -/
theorem State.configureNext_outside (h : s.Configures t n l0) (hr : s.readyLoad n (s.part t).load l0 = (s1, .ok l))
    (hL : l.pat.loads[(s.part t).load]? = some L) (hsite : L.site l.alloc t = none) :
    s.configureNext t = (s1.loaderGive t LeaveReq.swap).configure t n l (s.part t).load := by
  obtain ⟨hn, hl, hstate, hlive, hfree⟩ := h
  simp [State.configureNext, hn, hl, hstate, hlive, hfree, hr, hL, hsite]

section
variable (h : s.Configures t n l0) (hr : s.readyLoad n (s.part t).load l0 = (s1, .ok l))
  (hL : l.pat.loads[(s.part t).load]? = some L) (hsite : L.site l.alloc t = some (o, p)) (hwanted : (s.part t).wanted = [])
include h hr hL hsite hwanted

/-- A tile without the leave that the load needs asks for it. -/
theorem State.configureNext_asks {needs : List LeaveReq}
    (hneeds : s1.loadLeave t n (s.part t).load (s1.fabricFor t n l (s.part t).load L o p) = needs)
    (hleave : ((s.part t).leave.filter fun q => !q.swap) ≠ needs) :
    s.configureNext t = (s1.loaderGive t fun q => !q.swap).loaderAsk t needs := by
  subst hneeds
  obtain ⟨hn, hl, hstate, hlive, hfree⟩ := h
  simp [State.configureNext, hn, hl, hstate, hlive, hfree, hr, hL, hsite, hwanted, hleave]

/-- A tile with that leave swaps once its blocks can be read. -/
theorem State.configureNext_swaps
    (hleave : ((s.part t).leave.filter fun q => !q.swap) = s1.loadLeave t n (s.part t).load (s1.fabricFor t n l (s.part t).load L o p))
    (hblocks : s1.blocksReady t L p = true) :
    s.configureNext t = (s1.loaderGive t LeaveReq.swap).configure t n l (s.part t).load := by
  obtain ⟨hn, hl, hstate, hlive, hfree⟩ := h
  simp [State.configureNext, hn, hl, hstate, hlive, hfree, hr, hL, hsite, hwanted, hleave, hblocks]

end
end

/-! ### The statement of the configuration -/

theorem exec_tackPrefetch {s : State} {n : Nat} {l : Launch} (hn : (s.part s.ev.tile).launch = some n) (hl : s.launch? n = some l)
    (hstate : (s.part s.ev.tile).state = .running ∨ (s.part s.ev.tile).state = .settled)
    (hmore : (s.part s.ev.tile).load + 1 < l.pat.loads.length) :
    exec .tackPrefetch s = .next (s.modPart s.ev.tile fun p => { p with tacked := true }) := by
  rw [show exec .tackPrefetch s = execTackPrefetch s from rfl, execTackPrefetch]
  simp only [hn, Option.bind_some, hl, if_pos (And.intro hstate hmore)]

theorem loadsConfigured : LoadsConfigured := by
  intro s s1 n l0 l L i t P hn hl hi
  refine ⟨fun hstate hlive hfree => ?_, exec_tackPrefetch hn hl⟩
  have h : s.Configures t n l0 := ⟨hn, hl, hstate, hlive, hfree⟩
  have hrun := exec_configures h hi
  refine ⟨fun c hr => hrun.trans (congrArg _ (State.configureNext_error h hr)), fun hr hL => ⟨fun hsite => ?_,
    fun o p hsite hwanted => ⟨fun hleave => ?_, fun hleave hblocks => ?_⟩⟩⟩
  · exact nextWith_of_eq (hrun.trans (congrArg _ (State.configureNext_outside h hr hL hsite))) (State.runsLoad_configure hL _ _ _)
  · refine nextWith_of_eq (hrun.trans (congrArg _ (State.configureNext_asks h hr hL hsite hwanted rfl hleave))) ⟨?_, ?_⟩
    · rw [State.part_loaderAsk, State.part_loaderGive]
      have hkeep := State.partState_readyLoad s n P.load l0 t
      rw [hr] at hkeep
      exact hkeep.trans hstate
    · rw [State.reqs_loaderAsk, List.length_append, Nat.add_sub_cancel, List.drop_left]
  · exact nextWith_of_eq (hrun.trans (congrArg _ (State.configureNext_swaps h hr hL hsite hwanted hleave hblocks)))
      (State.runsLoad_configure hL _ _ _)

end Sys2Proof.Machine
end

section
/-!
SUPPORT. The drain wave of a load (R276-R278).
-/
namespace Sys2Proof.Machine
open Sys2Proof.Rules

/-! ### A tile says whether it has settled (R276, R281) -/

/-- What no change of a part changes, settling leaves alone. -/
theorem State.settle_keeps {β : Type} (p : State → β) (hp : ∀ s t g, p (State.modPart s t g) = p s) (s : State) (t : Nat) :
    p (s.settle t) = p s := by
  unfold State.settle
  split
  · exact hp _ _ _
  · split
    · exact hp _ _ _
    · rfl

theorem State.part_settle_of_ne (s : State) {t u : Nat} (h : u ≠ t) : (s.settle t).part u = s.part u := by
  unfold State.settle
  split
  · exact State.part_modPart_of_ne _ _ h
  · split
    · exact State.part_modPart_of_ne _ _ h
    · rfl

/-- A tile whose load has settled says so. -/
theorem State.part_settle_of_settled {s : State} {t : Nat} (hstate : (s.part t).state = .running ∨ (s.part t).state = .settled)
    (h : s.settledNow t = true) : (s.settle t).part t = { s.part t with state := .settled } := by
  unfold State.settle
  rcases hstate with hrun | hset
  · rw [if_pos ⟨hrun, h⟩, State.part_modPart_self]
  · rw [if_neg (by simp [hset]), if_neg (by simp [h]), ← hset]

/-- A settled tile whose guard has come to hold runs again, and is dirty. -/
theorem State.part_settle_of_woken {s : State} {t : Nat} (hstate : (s.part t).state = .settled) (h : s.settledNow t = false) :
    (s.settle t).part t = { s.part t with state := .running, dirty := true } := by
  rw [State.settle, if_neg (by simp [hstate]), if_pos (by simp [hstate, h]), State.wakePart, State.part_modPart_self, if_pos hstate]

/-- A tile that does not leave the settled state changes its state at most. -/
theorem State.part_settle {s : State} {t : Nat} (h : (s.part t).state = .settled → s.settledNow t = true) :
    ∃ x, (s.settle t).part t = { s.part t with state := x } := by
  by_cases hset : (s.part t).state = .settled
  · exact ⟨_, State.part_settle_of_settled (.inr hset) (h hset)⟩
  · by_cases hrun : (s.part t).state = .running ∧ s.settledNow t = true
    · exact ⟨_, State.part_settle_of_settled (.inl hrun.1) hrun.2⟩
    · exact ⟨(s.part t).state, by rw [State.settle, if_neg hrun, if_neg fun hwoken => hset hwoken.1]⟩

theorem State.memory_settle (s : State) (t : Nat) : (s.settle t).memory = s.memory :=
  State.settle_keeps State.memory (fun _ _ _ => rfl) s t

theorem State.groups_settle (s : State) (t : Nat) : (s.settle t).groups = s.groups :=
  State.settle_keeps State.groups (fun _ _ _ => rfl) s t

/-! ### The wave goes down (R277) -/

/-- The children of tile `t` have launch `n` and are in the tile's load. -/
def State.ChildrenIn (s : State) (t n : Nat) (l : Launch) : Prop :=
  ∀ c ∈ l.children t, (s.part c).launch = some n ∧ (s.part c).load = (s.part t).load ∧ (s.part c).tokenHere = false

theorem State.waveOn_of_children {s : State} {t n : Nat} {l : Launch} (h : s.ChildrenIn t n l) :
    s.waveOn t n l = (l.children t).foldl (fun a c => a.modPart c fun p => { p with waveHere := true })
      (s.modPart t fun p => { p with waveHere := true, waveDown := true }) := by
  rw [State.waveOn, if_pos]
  refine List.all_eq_true.2 fun c hc => ?_
  obtain ⟨hn, hload, htoken⟩ := h c hc
  simp [State.hasLaunch, hn, hload, htoken]

/-- The wave that goes on leaves the state of the tile, and stands at its children. -/
theorem State.waveOn_reaches {s : State} {t n : Nat} {l : Launch} (h : s.ChildrenIn t n l) :
    ((s.waveOn t n l).part t).state = (s.part t).state ∧ ((s.waveOn t n l).part t).waveDown = true
    ∧ (∀ c ∈ l.children t, ((s.waveOn t n l).part c).waveHere = true) ∧ (s.waveOn t n l).memory = s.memory := by
  rw [State.waveOn_of_children h]
  refine ⟨?_, ?_, fun c hc => ?_, (foldl_keeps State.memory _ (fun _ _ => by rfl) _ _).trans rfl⟩
  · refine (foldl_keeps (fun a : State => (a.part t).state) _ (fun a c => ?_) _ _).trans (by rw [State.part_modPart_self])
    exact State.part_modPart_keeps Part.state (fun _ => by rfl) a c t
  · refine (foldl_keeps (fun a : State => (a.part t).waveDown) _ (fun a c => ?_) _ _).trans (by rw [State.part_modPart_self])
    exact State.part_modPart_keeps Part.waveDown (fun _ => by rfl) a c t
  · rw [State.part_foldl_modPart (g := fun p => { p with waveHere := true }) (fun _ => rfl), if_pos hc]

section
variable {s : State} {n : Nat} {l : Launch} (hn : (s.part s.ev.tile).launch = some n) (hl : s.launch? n = some l)
include hn hl

/-- A settled tile that the wave has reached passes it on. -/
theorem exec_drainWaveDown_settled (hstate : (s.part s.ev.tile).state = .running ∨ (s.part s.ev.tile).state = .settled)
    (hset : s.settledNow s.ev.tile = true) (hdown : (s.part s.ev.tile).waveDown = false) (hrun : l.state = .running)
    (hhere : (s.part s.ev.tile).waveHere = true ∨ s.ev.tile = l.root) :
    exec .drainWaveDown s = .next ((s.settle s.ev.tile).waveOn s.ev.tile n l) := by
  rw [show exec .drainWaveDown s = execDrainWaveDown s from rfl, execDrainWaveDown]
  simp only [State.part_settle_of_settled hstate hset, hn, Option.bind_some, hl, Option.getD_some]
  rw [if_pos ⟨trivial, by simp [hdown], hrun, hhere⟩]

/-- A tile that has left the settled state passes no wave on. -/
theorem exec_drainWaveDown_woken (hstate : (s.part s.ev.tile).state = .settled) (hset : s.settledNow s.ev.tile = false) :
    exec .drainWaveDown s = .next (s.settle s.ev.tile) := by
  rw [show exec .drainWaveDown s = execDrainWaveDown s from rfl, execDrainWaveDown]
  simp only [State.part_settle_of_woken hstate hset, hn, Option.bind_some, hl]
  rw [if_neg fun h => PartState.noConfusion h.1]

end

/-! ### The sums go up (R278) -/

/-- The sums of some answers, with counts that stand already. -/
theorem foldl_sums (l : List (Nat × Nat × Nat × Bool)) (a b : Nat) (d : Bool) :
    l.foldl (fun a x => (a.1 + x.2.1, a.2.1 + x.2.2.1, a.2.2 || x.2.2.2)) (a, b, d)
      = (a + (l.map fun x => x.2.1).sum, b + (l.map fun x => x.2.2.1).sum, d || l.any fun x => x.2.2.2) := by
  induction l generalizing a b d with
  | nil => simp
  | cons x r ih => simp [ih, Nat.add_assoc, Bool.or_assoc]

theorem Part.sums_eq (P : Part) : P.sums = (P.s + (P.answers.map fun x => x.2.1).sum, P.a + (P.answers.map fun x => x.2.2.1).sum,
    P.dirty || P.answers.any fun x => x.2.2.2) := foldl_sums _ _ _ _

/-- The wave is back at tile `t`: its children have all answered, and these are the sums of its subtree. -/
structure State.WaveBack (s : State) (t : Nat) (l : Launch) (A B : Nat) (D : Bool) : Prop where
  down : (s.part t).waveDown = true
  answers : (l.children t).all (fun c => (s.part t).answers.any fun x => x.1 == c) = true
  sums : (s.part t).sums = (A, B, D)

section
variable {s : State} {t : Nat} {l : Launch} {A B : Nat} {D : Bool} (h : s.WaveBack t l A B D)
include h

/-- A tile that does not leave the settled state counts as before. -/
theorem State.WaveBack.settle (hstay : (s.part t).state = .settled → s.settledNow t = true) : (s.settle t).WaveBack t l A B D := by
  obtain ⟨x, hx⟩ := State.part_settle hstay
  obtain ⟨hdown, hanswers, hsums⟩ := h
  exact ⟨by rw [hx]; exact hdown, by rw [hx]; exact hanswers, by rw [hx]; exact hsums⟩

/-- A tile whose children have all answered answers its parent. -/
theorem State.waveUp_answers {p : Nat} (hp : l.parent t = some p) (done : State → State) : s.waveUp t l done
    = (s.modPart t Part.answered).modPart p fun q => { q with answers := q.answers ++ [(t, A, B, D)] } := by
  unfold State.waveUp
  simp only [h.down, h.sums, hp]
  rw [if_neg (by simp [h.answers])]

/-- At the root the load ends after two waves with the same balanced sums and nothing dirty. -/
theorem State.waveUp_ends (hp : l.parent t = none) (hD : D = false) (hAB : A = B) (hlast : (s.part t).lastSum = some (A, B))
    (done : State → State) : s.waveUp t l done = done (s.modPart t fun q => { q.answered with lastSum := none }) := by
  unfold State.waveUp
  simp only [h.down, h.sums, hp]
  rw [if_neg (by simp [h.answers]), if_pos (by simp [hD, hAB, hlast])]

/-- At the root the next wave starts after any other one. -/
theorem State.waveUp_again (hp : l.parent t = none) (hnot : D = true ∨ A ≠ B ∨ (s.part t).lastSum ≠ some (A, B))
    (done : State → State) :
    s.waveUp t l done = s.modPart t fun q => { q.answered with lastSum := some (A, B), waveHere := true } := by
  have hend : ¬(!D && decide (A = B) && decide ((s.part t).lastSum = some (A, B))) = true := by
    simp only [Bool.and_eq_true, Bool.not_eq_true', decide_eq_true_eq]
    rintro ⟨⟨hD, hAB⟩, hlast⟩
    rcases hnot with hdirty | hne | hother
    · exact Bool.false_ne_true (hD.symm.trans hdirty)
    · exact hne hAB
    · exact hother hlast
  unfold State.waveUp
  simp only [h.down, h.sums, hp]
  rw [if_neg (by simp [h.answers]), if_neg hend]

end

/-- What the root does after two waves that agree: a stream that is under way calls for another wave, else the token starts (R242). -/
def State.waveEnds (t n k : Nat) (x : State) : State :=
  if x.streaming n k then x.modPart t fun p => { p with waveHere := true } else x.modPart t fun p => { p with tokenHere := true }

theorem State.part_waveEnds (t n k : Nat) (x : State) : (State.waveEnds t n k x).part t
    = if x.streaming n k then { x.part t with waveHere := true } else { x.part t with tokenHere := true } := by
  unfold State.waveEnds
  split <;> rw [State.part_modPart_self]

theorem State.memory_waveEnds (t n k : Nat) (x : State) : (State.waveEnds t n k x).memory = x.memory := by
  unfold State.waveEnds
  split <;> rfl

theorem exec_drainWaveAnswer {s : State} {n : Nat} {l : Launch} (hn : (s.part s.ev.tile).launch = some n) (hl : s.launch? n = some l)
    (hrun : l.state = .running) : exec .drainWaveAnswer s
      = .next ((s.settle s.ev.tile).waveUp s.ev.tile l (State.waveEnds s.ev.tile n (s.part s.ev.tile).load)) := by
  rw [show exec .drainWaveAnswer s = execDrainWaveAnswer s from rfl, execDrainWaveAnswer]
  simp only [hn, Option.bind_some, hl, hrun, ne_eq, not_true_eq_false, if_false, Option.getD_some]
  rfl

theorem State.streaming_of_groups_eq {s u : State} (h : u.groups = s.groups) (n k : Nat) : u.streaming n k = s.streaming n k := by
  rw [State.streaming, h, State.streaming]

theorem State.streaming_eq_true_iff (s : State) (n k : Nat) :
    s.streaming n k = true ↔ ∃ e ∈ s.groups, e.2.launch = some n ∧ e.2.load = k ∧ e.2.state ≠ .idle := by
  simp [State.streaming, and_assoc]

theorem State.streaming_eq_false_iff (s : State) (n k : Nat) :
    s.streaming n k = false ↔ ∀ e ∈ s.groups, e.2.launch = some n → e.2.load = k → e.2.state = .idle := by
  rw [← Bool.not_eq_true, State.streaming_eq_true_iff]
  push Not
  rfl

end Sys2Proof.Machine
end

section
/-!
SUPPORT. The token of a load's boundary (R279), and the statement of the drain waves.
-/
namespace Sys2Proof.Machine
open Sys2Proof.Rules

/-! ### What the boundary does at a tile leaves alone (R179, R279, R490) -/

/-- The launches and every tile's fabric. -/
def State.launchesAndFabrics (s : State) : Tab Launch × (Nat → Fabric) := (s.launches, fun u => (s.tile u).fabric)

/-- A change of a tile but for its fabric. -/
theorem State.launchesAndFabrics_modTile (s : State) (t : Nat) {f : Tile → Tile} (h : ∀ T, (f T).fabric = T.fabric) :
    (s.modTile t f).launchesAndFabrics = s.launchesAndFabrics := by
  refine Prod.ext rfl (funext fun u => ?_)
  by_cases hu : u = t
  · subst hu
    exact (congrArg Tile.fabric (State.tile_modTile_self _ _ _)).trans (h _)
  · exact congrArg Tile.fabric (State.tile_modTile_of_ne _ _ hu)

@[simp] theorem State.launchesAndFabrics_care1 (s : State) (t ev d : Nat) : (s.care1 t ev d).launchesAndFabrics = s.launchesAndFabrics := rfl

@[simp] theorem State.launchesAndFabrics_modPhy (s : State) (q : Nat) (f : Phys → Phys) :
    (s.modPhy q f).launchesAndFabrics = s.launchesAndFabrics := rfl

@[simp] theorem State.launchesAndFabrics_modSwatch (s : State) (t : Nat) (f : Swatch → Swatch) :
    (s.modSwatch t f).launchesAndFabrics = s.launchesAndFabrics := s.launchesAndFabrics_modTile t fun _ => rfl

@[simp] theorem State.launchesAndFabrics_modRouter (s : State) (t : Nat) (f : Router → Router) :
    (s.modRouter t f).launchesAndFabrics = s.launchesAndFabrics := s.launchesAndFabrics_modTile t fun _ => rfl

@[simp] theorem State.launchesAndFabrics_hwStitch (s : State) (t dst label : Nat) (elem : Bool) (unit : Nat) (st : BitVec 4) (v w : Word)
    (h : Option (BitVec 32)) : (s.hwStitch t dst label elem unit st v w h).launchesAndFabrics = s.launchesAndFabrics :=
  s.launchesAndFabrics_modRouter t fun r => r.countUp dst label

@[simp] theorem State.launchesAndFabrics_report (s : State) (t unit : Nat) (status : BitVec 4) (v w : Word) :
    (s.report t unit status v w).launchesAndFabrics = s.launchesAndFabrics := by
  unfold State.report
  dsimp only
  split <;> simp

@[simp] theorem State.launchesAndFabrics_adviseTile (s : State) (t : Nat) :
    (s.adviseTile t).launchesAndFabrics = s.launchesAndFabrics := by
  unfold State.adviseTile State.advise
  dsimp only
  split
  · rw [State.launchesAndFabrics_hwStitch]
    exact s.launchesAndFabrics_modTile t fun _ => by rfl
  · rfl

@[simp] theorem State.launchesAndFabrics_enterEmap (s : State) (t : Nat) : (s.enterEmap t).launchesAndFabrics = s.launchesAndFabrics := by
  unfold State.enterEmap
  split
  · rfl
  · split <;> simp

/-- What the boundary of a load does at a tile before its fabric is cleared: the reports are made, the loader's leave goes back, and a
cordoned element is entered (R179, R490, R497). -/
def State.boundaryMade (s : State) (t : Nat) : State := ((s.boundaryReports t).loaderReturn t).enterEmap t

/-- Of the launches and fabrics it changes the tile's reports and leave. -/
theorem State.launchesAndFabrics_boundaryMade (s : State) (t : Nat) : (s.boundaryMade t).launchesAndFabrics
    = (s.modFabric t fun F => { F with sinks := [], part := { F.part with leave := [], wanted := [] } }).launchesAndFabrics := by
  have hreports : ((s.tile t).fabric.sinks.foldl (fun a e =>
      if e.2.count = 0 then a else a.report t e.1 3 e.2.origin (reportWord e.2.count.toNat e.1 e.2.what)) s).launchesAndFabrics
        = s.launchesAndFabrics := foldl_keeps State.launchesAndFabrics _ (fun a e => by
    split
    · rfl
    · exact State.launchesAndFabrics_report _ _ _ _ _ _) _ _
  rw [State.boundaryMade, State.launchesAndFabrics_enterEmap, State.boundaryReports]
  generalize List.foldl _ s _ = a at hreports ⊢
  have hfabric : ∀ u, (a.tile u).fabric = (s.tile u).fabric := fun u => congrFun (congrArg Prod.snd hreports) u
  refine Prod.ext (show a.launches = s.launches from congrArg Prod.fst hreports) (funext fun u => ?_)
  show (State.tile _ u).fabric = (State.tile _ u).fabric
  by_cases hu : u = t
  · subst hu
    rw [State.fabric_loaderReturn_self, State.fabric_modFabric_self, State.fabric_modFabric_self, hfabric]
  · rw [State.fabric_loaderReturn_of_ne _ hu, State.fabric_modFabric_of_ne _ _ hu, State.fabric_modFabric_of_ne _ _ hu, hfabric]

/-! ### The token (R279) -/

/-- A value of every entry of a table that gives its reset value for itself. -/
theorem Tab.get_map {α : Type} (f : α → α) {d : α} (hd : f d = d) (t : Tab α) (n : Nat) :
    Tab.get d (t.map fun e => (e.1, f e.2)) n = f (Tab.get d t n) := by
  induction t with
  | nil => exact hd.symm
  | cons e r ih =>
    rw [List.map_cons, Tab.get, Tab.get, ih]
    split <;> rfl

/-- Of an element a boundary leaves the counters (R266). -/
def Elem.cleared (E : Elem) : Elem := { Elem.reset with fires := E.fires, squash := E.squash }

theorem Fabric.elem_clear (F : Fabric) (e : Nat) : F.clear.elem e = (F.elem e).cleared :=
  Tab.get_map Elem.cleared (d := Elem.reset) rfl F.elems e

/-- The token goes on to those children of tile `t` that are in its load. -/
def State.tokenPassed (s : State) (t : Nat) (l : Launch) : State :=
  ((l.children t).filter fun c => (s.part c).load == (s.part t).load).foldl
    (fun a c => a.modPart c fun p => { p with tokenHere := true }) s

/-- What a tile holds once the token has been there: with `more` it waits for load `k + 1`, else it is idle. -/
def Part.afterToken (P : Part) (k : Nat) (more tacked : Bool) : Part :=
  { P.noWave with
    state := if more then .config else .idle
    load := if more then k + 1 else k
    tacked := tacked && more, s := 0, a := 0, dirty := false, tokenHere := false }

/-- The token's effect on the tile itself: its load is cleared, and its loader asks for the unit of the swap. -/
def State.tokenTaken (s : State) (t k : Nat) (more tacked : Bool) : State :=
  (((s.boundaryMade t).modFabric t fun F => { F.clear with part := F.part.afterToken k more tacked }).dropTokens [t]).loaderAsk t
    [⟨t, none, 1, 1⟩]

theorem State.tile_dropTokens (s : State) (ts : List Nat) (u : Nat) : (s.dropTokens ts).tile u = s.tile u := rfl

section
variable (s : State) (t k : Nat) (more tacked : Bool)

theorem State.launches_tokenTaken : (s.tokenTaken t k more tacked).launches = s.launches := by
  have hmade : (s.boundaryMade t).launches = s.launches := congrArg Prod.fst (s.launchesAndFabrics_boundaryMade t)
  rw [State.tokenTaken]
  generalize s.boundaryMade t = a at hmade ⊢
  exact hmade

theorem State.fabric_boundaryMade (u : Nat) : ((s.boundaryMade t).tile u).fabric
    = ((s.modFabric t fun F => { F with sinks := [], part := { F.part with leave := [], wanted := [] } }).tile u).fabric :=
  congrFun (congrArg Prod.snd (s.launchesAndFabrics_boundaryMade t)) u

theorem State.fabric_tokenTaken_self : ((s.tokenTaken t k more tacked).tile t).fabric
    = { (s.tile t).fabric.clear with
        part := { (s.part t).afterToken k more tacked with leave := [], wanted := [⟨t, none, 1, 1⟩] } } := by
  rw [State.tokenTaken, State.loaderAsk, State.fabric_modFabric_self, State.tile_modPanel, State.tile_dropTokens,
    State.fabric_modFabric_self, State.fabric_boundaryMade, State.fabric_modFabric_self]
  rfl

theorem State.fabric_tokenTaken_of_ne {u : Nat} (h : u ≠ t) : ((s.tokenTaken t k more tacked).tile u).fabric = (s.tile u).fabric := by
  rw [State.tokenTaken, State.loaderAsk, State.fabric_modFabric_of_ne _ _ h, State.tile_modPanel, State.tile_dropTokens,
    State.fabric_modFabric_of_ne _ _ h, State.fabric_boundaryMade, State.fabric_modFabric_of_ne _ _ h]

end

section
variable (s : State) (t : Nat) (l : Launch)

theorem State.launches_tokenPassed : (s.tokenPassed t l).launches = s.launches := foldl_keeps State.launches _ (fun _ _ => by rfl) _ _

theorem State.elem_tokenPassed (u e : Nat) : ((s.tokenPassed t l).tile u).fabric.elem e = (s.tile u).fabric.elem e := by
  refine foldl_keeps (fun a : State => (a.tile u).fabric.elem e) _ (fun a c => ?_) _ _
  by_cases h : u = c
  · subst h
    rw [State.modPart, State.fabric_modFabric_self]
    rfl
  · rw [State.modPart, State.fabric_modFabric_of_ne _ _ h]

theorem State.tokenHere_tokenPassed {c : Nat} (hc : c ∈ l.children t) (hload : (s.part c).load = (s.part t).load) :
    ((s.tokenPassed t l).part c).tokenHere = true := by
  rw [State.tokenPassed, State.part_foldl_modPart (g := fun p => { p with tokenHere := true }) (fun _ => rfl),
    if_pos (by simp [hc, hload])]

end

/-- What the tiles hold once the token has been at a tile. -/
def State.tokenDone (s : State) (t : Nat) (l : Launch) : State :=
  (s.tokenPassed t l).tokenTaken t (s.part t).load (decide ((s.part t).load + 1 < l.pat.loads.length)) (s.part t).tacked

/-- The token at a tile; at the root the load's groups go too, and after the last load the launch has passed its last boundary. -/
theorem exec_reconfigToken {s : State} {n : Nat} {l : Launch} (hn : (s.part s.ev.tile).launch = some n) (hl : s.launch? n = some l)
    (htoken : (s.part s.ev.tile).tokenHere = true) (hlive : l.live = true) : exec .reconfigToken s = .next (
      if s.ev.tile = l.root then
        if decide ((s.part s.ev.tile).load + 1 < l.pat.loads.length) then (s.tokenDone s.ev.tile l).dropGroups n (s.part s.ev.tile).load
        else ((s.tokenDone s.ev.tile l).dropGroups n (s.part s.ev.tile).load).modLaunch n fun x => { x with loadsDone := true }
      else s.tokenDone s.ev.tile l) := by
  rw [show exec .reconfigToken s = execReconfigToken s from rfl, execReconfigToken]
  simp only [hn, Option.bind_some, hl, htoken, hlive, Option.getD_some, Bool.not_true, Bool.or_self, Bool.false_eq_true, if_false]
  rfl

theorem State.launches_dropGroups (s : State) (n k : Nat) : (s.dropGroups n k).launches = s.launches := rfl

theorem State.tiles_dropGroups (s : State) (n k : Nat) : (s.dropGroups n k).tiles = s.tiles := rfl

theorem State.tiles_modLaunch (s : State) (n : Nat) (f : Launch → Launch) : (s.modLaunch n f).tiles = s.tiles := by
  unfold State.modLaunch
  split <;> rfl

/-- The tiles once the token has been at a tile, and the launch where that was its last boundary. -/
theorem reconfigToken_done {s : State} {n : Nat} {l : Launch} (hn : (s.part s.ev.tile).launch = some n) (hl : s.launch? n = some l)
    (htoken : (s.part s.ev.tile).tokenHere = true) (hlive : l.live = true) : ∃ u, exec .reconfigToken s = .next u
      ∧ u.tiles = (s.tokenDone s.ev.tile l).tiles
      ∧ (¬(s.part s.ev.tile).load + 1 < l.pat.loads.length → s.ev.tile = l.root → (u.launch? n).map (·.loadsDone) = some true) := by
  refine ⟨_, exec_reconfigToken hn hl htoken hlive, ?_, fun hlast hroot => ?_⟩
  · split
    · split
      · exact State.tiles_dropGroups _ _ _
      · exact (State.tiles_modLaunch _ _ _).trans (State.tiles_dropGroups _ _ _)
    · rfl
  · have hfound : ((s.tokenDone s.ev.tile l).dropGroups n (s.part s.ev.tile).load).launch? n = some l := by
      rw [State.launch?_of_launches_eq (State.launches_dropGroups _ _ _), State.tokenDone,
        State.launch?_of_launches_eq (State.launches_tokenTaken _ _ _ _ _), State.launch?_of_launches_eq (State.launches_tokenPassed _ _ _),
        hl]
    rw [if_pos hroot, if_neg (by simpa using hlast), State.launch?_modLaunch hfound, Option.map_some]

theorem State.fabric_of_tiles_eq {s u : State} (h : u.tiles = s.tiles) (t : Nat) : (u.tile t).fabric = (s.tile t).fabric := by
  rw [State.tile, h, State.tile]

theorem reconfigToken_clears {s : State} {n : Nat} {l : Launch} (hn : (s.part s.ev.tile).launch = some n) (hl : s.launch? n = some l)
    (htoken : (s.part s.ev.tile).tokenHere = true) (hrun : l.state = .running ∨ l.state = .stopping) :
    nextWith (exec .reconfigToken s) fun u =>
      (∀ e, (u.tile s.ev.tile).fabric.elem e = { Elem.reset with fires := ((s.tile s.ev.tile).fabric.elem e).fires,
                                                                 squash := ((s.tile s.ev.tile).fabric.elem e).squash })
      ∧ (u.tile s.ev.tile).fabric.wires = [] ∧ (u.part s.ev.tile).tokenHere = false
      ∧ (∀ c ∈ l.children s.ev.tile, c ≠ s.ev.tile → (s.part c).load = (s.part s.ev.tile).load → (u.part c).tokenHere = true)
      ∧ if (s.part s.ev.tile).load + 1 < l.pat.loads.length then
          (u.part s.ev.tile).state = .config ∧ (u.part s.ev.tile).load = (s.part s.ev.tile).load + 1
        else (u.part s.ev.tile).state = .idle
          ∧ (s.ev.tile = l.root → (u.launch? n).map (·.loadsDone) = some true) := by
  obtain ⟨u, hexec, htiles, hdone⟩ := reconfigToken_done hn hl htoken (decide_eq_true hrun)
  have hself := (State.fabric_of_tiles_eq htiles s.ev.tile).trans (State.fabric_tokenTaken_self _ _ _ _ _)
  have hpart := congrArg Fabric.part hself
  refine nextWith_of_eq hexec ⟨fun e => ?_, by rw [hself]; rfl, congrArg Part.tokenHere hpart, fun c hc hne hload => ?_, ?_⟩
  · rw [hself, ← State.elem_tokenPassed s s.ev.tile l]
    exact Fabric.elem_clear _ e
  · rw [State.part, State.fabric_of_tiles_eq htiles, State.tokenDone, State.fabric_tokenTaken_of_ne _ _ _ _ _ hne]
    exact s.tokenHere_tokenPassed s.ev.tile l hc hload
  · split
    next hmore => exact ⟨(congrArg Part.state hpart).trans (if_pos (decide_eq_true hmore)),
      (congrArg Part.load hpart).trans (if_pos (decide_eq_true hmore))⟩
    next hlast => exact ⟨(congrArg Part.state hpart).trans (if_neg (by simpa using hlast)), hdone hlast⟩

/-! ### The statement of the drain waves -/

section
variable {s : State} {n : Nat} {l : Launch} (hn : (s.part s.ev.tile).launch = some n) (hl : s.launch? n = some l)
include hn hl

theorem drainWaveDown_reaches (hstate : (s.part s.ev.tile).state = .running ∨ (s.part s.ev.tile).state = .settled)
    (hset : s.settledNow s.ev.tile = true) (hdown : (s.part s.ev.tile).waveDown = false) (hrun : l.state = .running)
    (hhere : (s.part s.ev.tile).waveHere = true ∨ s.ev.tile = l.root) (hchildren : s.ChildrenIn s.ev.tile n l) :
    nextWith (exec .drainWaveDown s) fun u => (u.part s.ev.tile).state = .settled ∧ (u.part s.ev.tile).waveDown = true
      ∧ (∀ c ∈ l.children s.ev.tile, (u.part c).waveHere = true) ∧ sameMemory s u := by
  have hpart := State.part_settle_of_settled hstate hset
  have hkeeps : ∀ {β : Type} (p : Part → β), (∀ P : Part, p { P with state := .settled } = p P) → ∀ c,
      p ((s.settle s.ev.tile).part c) = p (s.part c) := fun p hp c => by
    by_cases h : c = s.ev.tile
    · rw [h, hpart, hp]
    · rw [State.part_settle_of_ne _ h]
  have hin : (s.settle s.ev.tile).ChildrenIn s.ev.tile n l := fun c hc => by
    rw [hkeeps Part.launch (fun _ => rfl), hkeeps Part.load (fun _ => rfl), hkeeps Part.load (fun _ => rfl),
      hkeeps Part.tokenHere (fun _ => rfl)]
    exact hchildren c hc
  obtain ⟨hsame, hwave, hreach, hmemory⟩ := State.waveOn_reaches hin
  exact nextWith_of_eq (exec_drainWaveDown_settled hn hl hstate hset hdown hrun hhere)
    ⟨hsame.trans (by rw [hpart]), hwave, hreach, sameMemory_of_memory_eq (hmemory.trans (s.memory_settle _))⟩

theorem drainWaveDown_wakes (hstate : (s.part s.ev.tile).state = .settled) (hset : s.settledNow s.ev.tile = false) :
    nextWith (exec .drainWaveDown s) fun u => (u.part s.ev.tile).state = .running ∧ (u.part s.ev.tile).dirty = true := by
  refine nextWith_of_eq (exec_drainWaveDown_woken hn hl hstate hset) ?_
  rw [State.part_settle_of_woken hstate hset]
  exact ⟨rfl, rfl⟩

section
variable (hrun : l.state = .running) (hstay : (s.part s.ev.tile).state = .settled → s.settledNow s.ev.tile = true) {A B : Nat} {D : Bool}
  (hback : s.WaveBack s.ev.tile l A B D)
include hrun hstay hback

theorem drainWaveAnswer_answers {p : Nat} (hp : l.parent s.ev.tile = some p) (hne : p ≠ s.ev.tile) :
    nextWith (exec .drainWaveAnswer s) fun u => (u.part p).answers = (s.part p).answers ++ [(s.ev.tile, A, B, D)]
      ∧ (u.part s.ev.tile).dirty = false ∧ (u.part s.ev.tile).waveDown = false ∧ sameMemory s u := by
  refine nextWith_of_eq ((exec_drainWaveAnswer hn hl hrun).trans (congrArg _ (State.waveUp_answers (hback.settle hstay) hp _))) ?_
  rw [State.part_modPart_self, State.part_modPart_of_ne _ _ hne, State.part_settle_of_ne _ hne, State.part_modPart_of_ne _ _ hne.symm,
    State.part_modPart_self]
  exact ⟨rfl, rfl, rfl, sameMemory_of_memory_eq (s.memory_settle _)⟩

/-- Two waves at the root agree: what then stands in its part is what a stream under way, or none, makes of it. -/
theorem drainWaveAnswer_ends (hp : l.parent s.ev.tile = none) (hD : D = false) (hAB : A = B)
    (hlast : (s.part s.ev.tile).lastSum = some (A, B)) : nextWith (exec .drainWaveAnswer s) fun u =>
      (s.streaming n (s.part s.ev.tile).load = true → (u.part s.ev.tile).tokenHere = (s.part s.ev.tile).tokenHere
        ∧ (u.part s.ev.tile).waveHere = true)
      ∧ (s.streaming n (s.part s.ev.tile).load = false → (u.part s.ev.tile).tokenHere = true) ∧ sameMemory s u := by
  obtain ⟨x, hx⟩ := State.part_settle hstay
  have hgroups : ((s.settle s.ev.tile).modPart s.ev.tile fun q => { q.answered with lastSum := none }).streaming n (s.part s.ev.tile).load
      = s.streaming n (s.part s.ev.tile).load := State.streaming_of_groups_eq (s.groups_settle s.ev.tile) _ _
  refine nextWith_of_eq ((exec_drainWaveAnswer hn hl hrun).trans (congrArg _ (State.waveUp_ends (hback.settle hstay) hp hD hAB
    (by rw [hx]; exact hlast) _))) ⟨fun hstream => ?_, fun hquiet => ?_,
      sameMemory_of_memory_eq ((State.memory_waveEnds _ _ _ _).trans (s.memory_settle _))⟩
  · rw [State.part_waveEnds, hgroups, if_pos hstream, State.part_modPart_self, hx]
    exact ⟨rfl, rfl⟩
  · rw [State.part_waveEnds, hgroups, if_neg (by simp [hquiet])]

theorem drainWaveAnswer_again (hp : l.parent s.ev.tile = none)
    (hnot : D = true ∨ A ≠ B ∨ (s.part s.ev.tile).lastSum ≠ some (A, B)) : nextWith (exec .drainWaveAnswer s) fun u =>
      (u.part s.ev.tile).waveHere = true ∧ (u.part s.ev.tile).waveDown = false ∧ (u.part s.ev.tile).lastSum = some (A, B)
      ∧ sameMemory s u := by
  obtain ⟨x, hx⟩ := State.part_settle hstay
  refine nextWith_of_eq ((exec_drainWaveAnswer hn hl hrun).trans (congrArg _ (State.waveUp_again (hback.settle hstay) hp
    (by rw [hx]; exact hnot) _))) ?_
  rw [State.part_modPart_self]
  exact ⟨rfl, rfl, rfl, sameMemory_of_memory_eq (s.memory_settle _)⟩

end
end

theorem drainWaves : DrainWaves := by
  intro s n l t P A B D hn hl
  refine ⟨drainWaveDown_reaches hn hl, drainWaveDown_wakes hn hl, fun hrun hstay hdown hanswers => ?_,
    reconfigToken_clears hn hl⟩
  have hback : s.WaveBack t l A B D := ⟨hdown, by simpa [P] using hanswers, P.sums_eq⟩
  refine ⟨fun p => drainWaveAnswer_answers hn hl hrun hstay hback, fun hp hD hAB hlast hidle => ?_, fun hp hD hAB hlast hbusy => ?_,
    drainWaveAnswer_again hn hl hrun hstay hback⟩
  · obtain ⟨u, hu, -, htoken, hmem⟩ := drainWaveAnswer_ends hn hl hrun hstay hback hp hD hAB hlast
    exact ⟨u, hu, htoken ((s.streaming_eq_false_iff n P.load).2 hidle), hmem⟩
  · obtain ⟨u, hu, hstream, -, hmem⟩ := drainWaveAnswer_ends hn hl hrun hstay hback hp hD hAB hlast
    obtain ⟨htoken, hwave⟩ := hstream ((s.streaming_eq_true_iff n P.load).2 hbusy)
    exact ⟨u, hu, htoken, hwave, hmem⟩

end Sys2Proof.Machine
end

section
/-!
SUPPORT. The end of a launch (R257, R262), and the statement of the loads.
-/
namespace Sys2Proof.Machine
open Sys2Proof.Rules

/-! ### A record completes (R256, R257) -/

theorem State.serves_apply (s : State) (loc : Nat) (bs : List Byte) (fe : Bool) : s.Serves (s.apply loc bs fe) := by
  have hwrite : s.Serves (s.write loc bs) := rfl
  unfold State.apply
  dsimp only
  split
  · exact hwrite.trans ((State.Serves.foldl (fun _ _ => by rfl) _ _).trans (State.serves_serveAll _ _))
  · exact hwrite

theorem State.serves_writeVirt (t : Nat) (a : BitVec 12) (g : BitVec 4) (bs : List Byte) (va : Word) (s : State) :
    s.Serves (s.writeVirt t a g va bs).1 := by
  induction bs generalizing va s with
  | nil => exact .refl s
  | cons b r ih =>
    unfold State.writeVirt
    split
    · exact .refl s
    · exact (show s.Serves (s.expose _ _) from rfl).trans ((State.serves_apply _ _ _ _).trans (ih _ _))

theorem State.Serves.launches {s u : State} (h : s.Serves u) : u.launches = s.launches := by rw [h]

theorem State.launches_notify (s : State) (t k : Nat) (a : Alloc) (x v w : Word) : (s.notify t k a x v w).launches = s.launches := by
  unfold State.notify
  split <;> rfl

theorem State.launches_endRecord (s : State) (e : Ending) (t status code : Nat) (cycles : Word) :
    (s.endRecord e t status code cycles).launches = s.launches := by
  unfold State.endRecord
  dsimp only
  split
  · exact (State.launches_notify _ _ _ _ _ _ _).trans (State.serves_writeVirt _ _ _ _ _ _).launches
  · rfl

@[simp] theorem State.queue_modQueue_self (s : State) (n : Nat) (f : Queue → Queue) : (s.modQueue n f).queue n = f (s.queue n) :=
  Tab.get_put_self _ _ _ _

/-- A queue's CIDX passes the record that completes, and the queue takes the next one. -/
theorem State.queue_endRecord (s : State) (e : Ending) (t status code : Nat) (cycles : Word) :
    ((s.endRecord e t status code cycles).queue e.queue).cidx = e.index + 1
    ∧ ((s.endRecord e t status code cycles).queue e.queue).busy = false := by
  unfold State.endRecord
  dsimp only
  split
  · rw [State.queue_modQueue_self]
    exact ⟨rfl, rfl⟩
  · rw [State.queue_modQueue_self, State.queue_modQueue_self]
    exact ⟨rfl, rfl⟩

/-! ### A launch ends (R257, R262) -/

/-- Launch `n` is gone, and its record is complete. -/
def State.LaunchGone (s : State) (n : Nat) (l : Launch) : Prop :=
  s.launch? n = none ∧ (s.queue l.queue).cidx = l.index + 1 ∧ (s.queue l.queue).busy = false

theorem State.launchGone_endRecord {s : State} {n : Nat} (h : s.launch? n = none) (l : Launch) (t status code : Nat) (cycles : Word) :
    (s.endRecord l.ending t status code cycles).LaunchGone n l :=
  ⟨(State.launch?_of_launches_eq (s.launches_endRecord _ _ _ _ _) n).trans h, s.queue_endRecord l.ending t status code cycles⟩

theorem State.launch?_del (s : State) (L : Tab Launch) (n : Nat) : ({ s with launches := L.del n } : State).launch? n = none := by
  rw [State.launch?, Tab.find?_del_self, Option.map_none]

theorem State.launchGone_rejectLaunch (s : State) (n : Nat) (l : Launch) (status code : Nat) :
    (s.rejectLaunch n l status code).LaunchGone n l := State.launchGone_endRecord (s.launch?_del _ n) l _ _ _ _

theorem State.launchGone_finishLaunch (s : State) (n : Nat) (l : Launch) (status code : Nat) :
    (s.finishLaunch n l status code).LaunchGone n l := State.launchGone_endRecord (State.launch?_del _ _ n) l _ _ _ _

/-- A launch that fails keeps its place until its completion, with the status and code that this is to have. -/
theorem State.launch?_failLaunch {s : State} {n : Nat} {l : Launch} (h : s.launch? n = some l) (m : Launch) (status code : Nat) :
    ((s.failLaunch n m status code).launch? n).map (fun x => (x.fault, x.loadsDone)) = some (some (status, code), true) := by
  unfold State.failLaunch
  extract_lets ts s1 back s2
  have h1 : s1.launches = s.launches := (foldl_keeps State.launches _ (fun _ _ => by rfl) ts s)
  have h2 : s2.launches = s.launches := (State.unbookStreams_keeps State.launches (fun _ _ _ => by rfl) s1 _).trans h1
  rw [State.launch?_modLaunch ((State.launch?_of_launches_eq h2 n).trans h), Option.map_some]

/-! ### The statement of the completion -/

section
variable {s : State} {l : Launch} (hl : s.launch? s.ev.n = some l)
include hl

theorem exec_launchComplete_over (hflag : s.ev.flag = false) (hover : s.launchOver s.ev.n l = true) : exec .launchComplete s
    = .next (s.finishLaunch s.ev.n l (l.fault.getD (0, 0)).1 (l.fault.getD (0, 0)).2) := by
  rw [show exec .launchComplete s = execLaunchComplete s from rfl, execLaunchComplete]
  simp only [hl, hflag, hover, Bool.false_eq_true, if_false, if_true]

theorem exec_launchComplete_abort (hflag : s.ev.flag = true) :
    exec .launchComplete s = .next (s.abortLaunch s.ev.n l (s.ev.unit % 256)) := by
  rw [show exec .launchComplete s = execLaunchComplete s from rfl, execLaunchComplete]
  simp only [hl, hflag, if_true]

end

theorem launchCompletes : LaunchCompletes := by
  intro s l n isOver hl
  refine ⟨fun hflag hlive hdone hstitches hquiet => ?_, fun hflag => ⟨?_, ?_⟩⟩
  · have hover : s.launchOver n l = true := by
      simp only [State.launchOver, Launch.live, State.hasLaunch, hdone, hstitches, Bool.and_eq_true, decide_eq_true_eq, List.all_eq_true]
      refine ⟨⟨⟨hlive, trivial⟩, trivial⟩, fun t ht => ?_⟩
      obtain ⟨hactors, hlaunch, hidle, hwanted, hleave, hbehind⟩ := hquiet t ht
      simpa [hactors, hlaunch, hidle, hwanted, hleave] using hbehind
    exact nextWith_of_eq (exec_launchComplete_over hl hflag hover) (State.launchGone_finishLaunch _ _ _ _ _)
  · rintro (hwaiting | hsaved)
    · refine nextWith_of_eq (exec_launchComplete_abort hl hflag) ?_
      rw [State.abortLaunch, hwaiting]
      exact State.launchGone_rejectLaunch _ _ _ _ _
    · refine nextWith_of_eq (exec_launchComplete_abort hl hflag) ?_
      rw [State.abortLaunch, hsaved]
      exact State.launchGone_finishLaunch _ _ _ _ _
  · intro hstate
    have habort : s.abortLaunch n l (s.ev.unit % 256) = s.failLaunch n l 4 (s.ev.unit % 256) := by
      rcases hstate with h | h | h <;> rw [State.abortLaunch, h]
    refine nextWith_of_eq (exec_launchComplete_abort hl hflag) ?_
    rw [habort]
    exact State.launch?_failLaunch hl l _ _

/-- Settles O46: the configuration by what the checks of the load answer, the drain wave by what the root's last two sums say, the
completion by where the launch stands. -/
theorem fabricLoads : Obligations.FabricLoads := ⟨loadsConfigured, drainWaves, launchCompletes⟩

end Sys2Proof.Machine
end

section
/-!
SUPPORT. The layout of a word (R133, R161): a constant and the fields that are put over it, and what a decoder reads of it.
-/
namespace Sys2Proof.Encoding

/-! ### Fields of a word -/

theorem toNat_fld (w lo n : Nat) : (fld w lo n).toNat = bits w lo n := BitVec.toNat_ofNat ..

/-- The bits below `lo + n` are the field of `n` bits at `lo`, above the bits below `lo`. -/
theorem mod_add_bits (w lo n : Nat) : w % 2 ^ (lo + n) = w % 2 ^ lo + 2 ^ lo * bits w lo n := by
  rw [pow_add, Nat.mod_mul, bits]

/-- Numbers below `2 ^ n` and multiples of `2 ^ n` add up without a carry. -/
theorem mul_add_mod_two_pow {n x : Nat} (hx : x < 2 ^ n) (h j : Nat) :
    (2 ^ n * h + x) % 2 ^ j = 2 ^ n * h % 2 ^ j + x % 2 ^ j := by
  rcases Nat.le_total j n with hj | hj
  · obtain ⟨d, rfl⟩ := Nat.exists_eq_add_of_le hj
    rw [pow_add, Nat.mul_assoc, Nat.mul_add_mod_self_left, Nat.mul_mod_right, Nat.zero_add]
  · obtain ⟨d, rfl⟩ := Nat.exists_eq_add_of_le hj
    rw [mod_add_bits, bits, Nat.mul_add_mod_self_left, Nat.mul_add_div (Nat.two_pow_pos n), Nat.div_eq_of_lt hx, Nat.add_zero,
      Nat.mod_eq_of_lt hx, Nat.mod_eq_of_lt (hx.trans_le (Nat.pow_le_pow_right (by omega) hj)), pow_add, Nat.mul_mod_mul_left,
      Nat.add_comm]

/-- A field of `n` bits put where a number has zeros: below any bit, the two add up without a carry. -/
theorem add_mod_of_bits_eq_zero {u k n : Nat} (x : BitVec n) (h : bits u k n = 0) (j : Nat) :
    (u + x.toNat * 2 ^ k) % 2 ^ j = u % 2 ^ j + x.toNat * 2 ^ k % 2 ^ j := by
  rcases Nat.le_total j k with hj | hj
  · obtain ⟨d, rfl⟩ := Nat.exists_eq_add_of_le hj
    rw [pow_add, Nat.mul_left_comm, Nat.add_mul_mod_self_left, Nat.mul_mod_right, Nat.add_zero]
  · obtain ⟨d, rfl⟩ := Nat.exists_eq_add_of_le hj
    have hu : 2 ^ n * (u / 2 ^ k / 2 ^ n) = u / 2 ^ k := Nat.mul_div_cancel' (Nat.dvd_of_mod_eq_zero h)
    have hsum := mul_add_mod_two_pow x.isLt (u / 2 ^ k / 2 ^ n) d
    rw [hu] at hsum
    rw [mod_add_bits, mod_add_bits u, bits, bits, Nat.add_mul_mod_self_right, Nat.add_mul_div_right _ _ (Nat.two_pow_pos k), hsum,
      pow_add, Nat.mul_comm (x.toNat), Nat.mul_mod_mul_left, Nat.mul_add, Nat.add_assoc]

theorem bits_add_of_bits_eq_zero {u k n : Nat} (x : BitVec n) (h : bits u k n = 0) (lo m : Nat) :
    bits (u + x.toNat * 2 ^ k) lo m = bits u lo m + bits (x.toNat * 2 ^ k) lo m := by
  have hsum := mod_add_bits (u + x.toNat * 2 ^ k) lo m
  rw [add_mod_of_bits_eq_zero x h, add_mod_of_bits_eq_zero x h, mod_add_bits, mod_add_bits (x.toNat * 2 ^ k)] at hsum
  refine Nat.eq_of_mul_eq_mul_left (Nat.two_pow_pos lo) ?_
  rw [Nat.mul_add]
  omega

theorem bits_mul_below {x k lo m : Nat} (h : lo + m ≤ k) : bits (x * 2 ^ k) lo m = 0 := by
  obtain ⟨j, rfl⟩ := Nat.exists_eq_add_of_le h
  rw [bits, show x * 2 ^ (lo + m + j) = 2 ^ lo * (2 ^ m * (x * 2 ^ j)) by ring, Nat.mul_div_cancel_left _ (Nat.two_pow_pos lo),
    Nat.mul_mod_right]

theorem bits_mul_above {n : Nat} {x : BitVec n} {k lo m : Nat} (h : k + n ≤ lo) : bits (x.toNat * 2 ^ k) lo m = 0 := by
  have hx : x.toNat * 2 ^ k < 2 ^ lo := calc
    x.toNat * 2 ^ k < 2 ^ n * 2 ^ k := by gcongr; exact x.isLt
    _ = 2 ^ (k + n) := by ring
    _ ≤ 2 ^ lo := Nat.pow_le_pow_right (by omega) h
  rw [bits, Nat.div_eq_of_lt hx, Nat.zero_mod]

theorem bits_mul_self {n : Nat} {x : BitVec n} {k : Nat} : bits (x.toNat * 2 ^ k) k n = x.toNat := by
  rw [bits, Nat.mul_div_cancel _ (Nat.two_pow_pos k), Nat.mod_eq_of_lt x.isLt]

/-! ### The layout of a word -/

/-- A field of a word and the bit where it begins. -/
structure Field where
  lo : Nat
  {n : Nat}
  x : BitVec n

/-- The bits from `lo` and those of the field have none in common. -/
def Field.apart (f : Field) (lo n : Nat) : Bool := decide (lo + n ≤ f.lo) || decide (f.lo + f.n ≤ lo)

/-- The bits of a word that holds the fields `l` over the constant `c`. -/
def readBits (c : Nat) (l : List Field) (lo n : Nat) : Nat :=
  l.foldr (fun f r => r + bits (f.x.toNat * 2 ^ f.lo) lo n) (bits c lo n)

/-- The constant and the fields leave the `n` bits from `k` zero, and these are bits of a word. -/
def free (c : Nat) (l : List Field) (k n : Nat) : Bool :=
  decide (bits c k n = 0) && (decide (k + n ≤ 32) && l.all fun f => f.apart k n)

/-- The word `w` is the constant `c` with the fields `l`, each put where the others leave zeros. -/
inductive Layout : Nat → Nat → List Field → Prop where
  | put {u c n : Nat} {l : List Field} {x : BitVec n} (k : Nat) :
      Layout u c l → free c l k n = true → Layout (u + x.toNat * 2 ^ k) c (⟨k, x⟩ :: l)
  | const (c : Nat) : decide (c < 2 ^ 32) = true → Layout c c []

/-! ### What a layout reads -/

variable {w c lo n k m : Nat} {l : List Field} {x : BitVec m}

theorem readBits_nil : readBits c [] lo n = c / 2 ^ lo % 2 ^ n := by rw [readBits, List.foldr_nil, bits]

theorem readBits_cons : readBits c (⟨k, x⟩ :: l) lo n = readBits c l lo n + bits (x.toNat * 2 ^ k) lo n := rfl

theorem readBits_apart : (lo + n ≤ k → readBits c (⟨k, x⟩ :: l) lo n = readBits c l lo n)
    ∧ (k + m ≤ lo → readBits c (⟨k, x⟩ :: l) lo n = readBits c l lo n) := by
  refine ⟨fun h => ?_, fun h => ?_⟩
  · rw [readBits_cons, bits_mul_below h, Nat.add_zero]
  · rw [readBits_cons, bits_mul_above h, Nat.add_zero]

/-- The fields only add to what the constant has at a place. -/
theorem readBits_ne {v : Nat} (h : v < c / 2 ^ lo % 2 ^ n) : (readBits c l lo n = v) = False := by
  have hle : c / 2 ^ lo % 2 ^ n ≤ readBits c l lo n := by
    induction l with
    | nil => exact readBits_nil.ge
    | cons f l ih => exact ih.trans (Nat.le_add_right _ _)
  exact eq_false (by omega)

theorem readBits_eq_zero (h : free c l k m = true) : readBits c l k m = 0 := by
  simp only [free, Bool.and_eq_true, decide_eq_true_eq] at h
  obtain ⟨hc, -, hl⟩ := h
  induction l with
  | nil => exact hc
  | cons f l ih =>
    rw [List.all_cons, Bool.and_eq_true, Field.apart, Bool.or_eq_true, decide_eq_true_eq, decide_eq_true_eq] at hl
    obtain ⟨hf, hl⟩ := hl
    rcases hf with hf | hf
    · exact (readBits_apart.1 hf).trans (ih hl)
    · exact (readBits_apart.2 hf).trans (ih hl)

theorem Layout.bits_eq (h : Layout w c l) : ∀ lo n, bits w lo n = readBits c l lo n := by
  induction h with
  | const c _ => exact fun _ _ => rfl
  | put k _ hfree ih =>
    intro lo n
    rw [bits_add_of_bits_eq_zero _ ((ih _ _).trans (readBits_eq_zero hfree)), ih, readBits_cons]

theorem Layout.lt (h : Layout w c l) : w < 2 ^ 32 := by
  induction h with
  | const c hc => exact of_decide_eq_true hc
  | @put u c n l x k h hfree ih =>
    have hz := (h.bits_eq k n).trans (readBits_eq_zero hfree)
    have hx : x.toNat * 2 ^ k < 2 ^ 32 := by
      simp only [free, Bool.and_eq_true, decide_eq_true_eq] at hfree
      obtain ⟨-, hk, -⟩ := hfree
      calc
        x.toNat * 2 ^ k < 2 ^ n * 2 ^ k := by gcongr; exact x.isLt
        _ = 2 ^ (k + n) := by ring
        _ ≤ 2 ^ 32 := Nat.pow_le_pow_right (by omega) hk
    have hsum := add_mod_of_bits_eq_zero x hz 32
    rw [Nat.mod_eq_of_lt ih, Nat.mod_eq_of_lt hx] at hsum
    exact hsum ▸ Nat.mod_lt _ (Nat.two_pow_pos 32)

/-- The field that a layout reads at a place. -/
def readFld (c : Nat) (l : List Field) (lo n : Nat) : BitVec n := BitVec.ofNat n (readBits c l lo n)

theorem readFld_apart : (lo + n ≤ k → readFld c (⟨k, x⟩ :: l) lo n = readFld c l lo n)
    ∧ (k + m ≤ lo → readFld c (⟨k, x⟩ :: l) lo n = readFld c l lo n) := by
  refine ⟨fun h => ?_, fun h => ?_⟩
  · rw [readFld, readBits_apart.1 h, readFld]
  · rw [readFld, readBits_apart.2 h, readFld]

theorem readFld_self (h : readBits c l k m = 0) : readFld c (⟨k, x⟩ :: l) k m = x := by
  rw [readFld, readBits_cons, h, Nat.zero_add, bits_mul_self, BitVec.ofNat_toNat, BitVec.setWidth_eq]

theorem Layout.fld_eq (h : Layout w c l) (lo n : Nat) : fld w lo n = readFld c l lo n := by
  rw [readFld, ← h.bits_eq, ← toNat_fld, BitVec.ofNat_toNat, BitVec.setWidth_eq]

/-- What a decoder answers a word by the layout of the word alone. -/
theorem Layout.decode {D : Nat → Option Instr} {i : Instr} (h : Layout w c l)
    (hD : ∀ v, (∀ lo n, bits v lo n = readBits c l lo n) → (∀ lo n, fld v lo n = readFld c l lo n) → D v = some i) :
    w < 2 ^ 32 ∧ D w = some i := ⟨h.lt, hD w h.bits_eq h.fld_eq⟩

/-- What the encoder puts where. -/
theorem at_eq {n : Nat} (x : BitVec n) :
    at0 x = x.toNat * 2 ^ 0 ∧ at1 x = x.toNat * 2 ^ 1 ∧ at2 x = x.toNat * 2 ^ 2 ∧ at3 x = x.toNat * 2 ^ 3
    ∧ at4 x = x.toNat * 2 ^ 4 ∧ at5 x = x.toNat * 2 ^ 5 ∧ at6 x = x.toNat * 2 ^ 6 ∧ at7 x = x.toNat * 2 ^ 7
    ∧ at10 x = x.toNat * 2 ^ 10 ∧ at11 x = x.toNat * 2 ^ 11 ∧ at12 x = x.toNat * 2 ^ 12 ∧ at13 x = x.toNat * 2 ^ 13
    ∧ at14 x = x.toNat * 2 ^ 14 ∧ at15 x = x.toNat * 2 ^ 15 ∧ at16 x = x.toNat * 2 ^ 16 ∧ at19 x = x.toNat * 2 ^ 19
    ∧ at20 x = x.toNat * 2 ^ 20 ∧ at21 x = x.toNat * 2 ^ 21 ∧ at22 x = x.toNat * 2 ^ 22 ∧ at23 x = x.toNat * 2 ^ 23
    ∧ at26 x = x.toNat * 2 ^ 26 ∧ at27 x = x.toNat * 2 ^ 27 ∧ at30 x = x.toNat * 2 ^ 30 := by
  repeat' constructor

/-- A row with selectors, whatever definition it stands in. -/
theorem ite_id {p : Prop} [Decidable p] {a b o : Option Instr} (h : (if p then a else b) = o) : (if p then a else b) = o := h

/-- A row without selectors, whatever definition it stands in. -/
theorem some_id {i j : Instr} (h : some i = some j) : some i = some j := h

end Sys2Proof.Encoding
end

section
/-!
SUPPORT. The decoder reads the encoder's words back (R133-R168): every row's word has its layout, of which the decoder's
selectors and fields are read.
-/
namespace Sys2Proof.Encoding
open Sys2Proof.Rules

/-! ### Sequenced rows (R145-R160) -/

theorem rowS_of_encodePart0 {i : Instr} {w : Nat} (h : encodePart0 i = some w) : w < 2 ^ 32 ∧ rowS w = some (asRead i) := by
  cases i <;> cases h
  all_goals
    refine Layout.decode (D := rowS) (by repeat' constructor) fun v hb hf => ?_
    have hop := hb 25 7
    simp only [readBits_apart, readBits_nil, Nat.reduceLeDiff, Nat.reduceAdd, Nat.reducePow, Nat.reduceDiv,
      Nat.reduceMod] at hop
    rw [rowS, hop]
    first | refine ite_id ?_ | refine some_id ?_
    simp only [hb, hf, readFld_self, readFld_apart, readBits_apart, readBits_nil, Nat.reduceLeDiff,
      Nat.reduceAdd, Nat.reducePow, Nat.reduceDiv, Nat.reduceMod, Nat.reduceEqDiff, if_true, if_false, true_and, false_and]
    rfl

theorem rowS_of_encodePart1 {i : Instr} {w : Nat} (h : encodePart1 i = some w) : w < 2 ^ 32 ∧ rowS w = some (asRead i) := by
  cases i <;> cases h
  all_goals
    refine Layout.decode (D := rowS) (by repeat' constructor) fun v hb hf => ?_
    have hop := hb 25 7
    simp only [readBits_apart, readBits_nil, Nat.reduceLeDiff, Nat.reduceAdd, Nat.reducePow, Nat.reduceDiv,
      Nat.reduceMod] at hop
    rw [rowS, hop]
    first | refine ite_id ?_ | refine some_id ?_
    simp only [hb, hf, readFld_self, readFld_apart, readBits_ne, Nat.reduceLT, readBits_apart, readBits_nil, Nat.reduceLeDiff,
      Nat.reduceAdd, Nat.reducePow, Nat.reduceDiv, Nat.reduceMod, Nat.reduceEqDiff, if_true, if_false, true_and, false_and]
    rfl

theorem rowS_of_encodePart2 {i : Instr} {w : Nat} (h : encodePart2 i = some w) : w < 2 ^ 32 ∧ rowS w = some (asRead i) := by
  cases i <;> cases h
  all_goals
    refine Layout.decode (D := rowS) (by repeat' constructor) fun v hb hf => ?_
    have hop := hb 25 7
    simp only [readBits_apart, readBits_nil, Nat.reduceLeDiff, Nat.reduceAdd, Nat.reducePow, Nat.reduceDiv,
      Nat.reduceMod] at hop
    rw [rowS, hop]
    refine ite_id ?_
    simp only [hb, hf, readFld_self, readFld_apart, readBits_ne, Nat.reduceLT, readBits_apart, readBits_nil, Nat.reduceLeDiff,
      Nat.reduceAdd, Nat.reducePow, Nat.reduceDiv, Nat.reduceMod, Nat.reduceEqDiff, if_true, if_false, true_and, false_and]
    rfl

theorem rowS_of_encodePart3 {i : Instr} {w : Nat} (h : encodePart3 i = some w) (hi : i.tform.isSome = false) :
    w < 2 ^ 32 ∧ rowS w = some (asRead i) := by
  cases i <;> cases h
  any_goals exact Bool.noConfusion hi
  all_goals
    refine Layout.decode (D := rowS) (by repeat' constructor) fun v hb hf => ?_
    have hop := hb 25 7
    simp only [readBits_apart, readBits_nil, Nat.reduceLeDiff, Nat.reduceAdd, Nat.reducePow, Nat.reduceDiv,
      Nat.reduceMod] at hop
    rw [rowS, hop]
    first | refine ite_id ?_ | refine some_id ?_
    simp only [hb, hf, readFld_self, readFld_apart, readBits_ne, Nat.reduceLT, readBits_apart, readBits_nil, Nat.reduceLeDiff,
      Nat.reduceAdd, Nat.reducePow, Nat.reduceDiv, Nat.reduceMod, Nat.reduceEqDiff, if_true, if_false, true_and, false_and]
    rfl

theorem rowS_of_encodePart4 {i : Instr} {w : Nat} (h : encodePart4 i = some w) (hi : i.tform.isSome = false) :
    w < 2 ^ 32 ∧ rowS w = some (asRead i) := by
  cases i <;> cases h
  any_goals exact Bool.noConfusion hi
  all_goals exact ⟨by decide, rfl⟩

/-! ### Triggered rows (R161-R166) -/

/-- The six floating-point opcodes have their type in the two lowest bits of the opcode field. -/
theorem bits_opcode_of_bits_major {w q : Nat} (h : bits w 21 5 = q) :
    bits w 19 7 = 4 * q ∨ bits w 19 7 = 4 * q + 1 ∨ bits w 19 7 = 4 * q + 2 ∨ bits w 19 7 = 4 * q + 3 := by
  rw [bits] at h ⊢
  omega

theorem rowT_float (w : Nat) :
    (bits w 21 5 = 6 → rowT w = decodeT18 w) ∧ (bits w 21 5 = 7 → rowT w = decodeT1C w)
    ∧ (bits w 21 5 = 8 → rowT w = decodeT20 w) ∧ (bits w 21 5 = 9 → rowT w = decodeT24 w)
    ∧ (bits w 21 5 = 10 → rowT w = decodeT28 w) ∧ (bits w 21 5 = 11 → rowT w = decodeT2C w) := by
  refine ⟨?_, ?_, ?_, ?_, ?_, ?_⟩
  all_goals
    intro h
    rcases bits_opcode_of_bits_major h with h | h | h | h <;> rw [rowT, h] <;> rfl

theorem encodePart_eq_none_of_tform {i : Instr} (hi : i.tform.isSome = true) :
    encodePart0 i = none ∧ encodePart1 i = none ∧ encodePart2 i = none := by
  cases i
  any_goals exact Bool.noConfusion hi
  all_goals exact ⟨rfl, rfl, rfl⟩

theorem rowT_of_encodePart3 {i : Instr} {w : Nat} (h : encodePart3 i = some w) (hi : i.tform.isSome = true) :
    w < 2 ^ 32 ∧ rowT w = some i := by
  cases i <;> cases h
  any_goals exact Bool.noConfusion hi
  all_goals
    refine Layout.decode (D := rowT) (by repeat' constructor) fun v hb hf => ?_
    have hop := hb 19 7
    simp only [readBits_apart, readBits_nil, Nat.reduceLeDiff, Nat.reduceAdd, Nat.reducePow, Nat.reduceDiv,
      Nat.reduceMod] at hop
    rw [rowT, hop]
    refine ite_id ?_
    simp only [hb, hf, readFld_self, readFld_apart, readBits_apart, readBits_nil, Nat.reduceLeDiff,
      Nat.reduceAdd, Nat.reducePow, Nat.reduceDiv, Nat.reduceMod, if_true]

theorem rowT_of_encodePart4 {i : Instr} {w : Nat} (h : encodePart4 i = some w) (hi : i.tform.isSome = true) :
    w < 2 ^ 32 ∧ rowT w = some i := by
  cases i <;> cases h
  any_goals exact Bool.noConfusion hi
  case tFadd | tFsub | tFmul | tFfma | tFmin | tFmax =>
    refine Layout.decode (D := rowT) (by repeat' constructor) fun v hb hf => ?_
    have hop := hb 21 5
    simp only [readBits_apart, readBits_nil, Nat.reduceLeDiff, Nat.reduceAdd, Nat.reducePow, Nat.reduceDiv,
      Nat.reduceMod] at hop
    simp only [rowT_float v, hop]
    refine ite_id ?_
    simp only [hb, hf, readFld_self, readFld_apart, readBits_apart, readBits_nil, Nat.reduceLeDiff,
      Nat.reduceAdd, Nat.reducePow, Nat.reduceDiv, Nat.reduceMod, if_true]
  all_goals
    refine Layout.decode (D := rowT) (by repeat' constructor) fun v hb hf => ?_
    have hop := hb 19 7
    simp only [readBits_apart, readBits_nil, Nat.reduceLeDiff, Nat.reduceAdd, Nat.reducePow, Nat.reduceDiv,
      Nat.reduceMod] at hop
    rw [rowT, hop]
    first | refine ite_id ?_ | refine some_id ?_
    simp only [hb, hf, readFld_self, readFld_apart, readBits_apart, readBits_nil, Nat.reduceLeDiff,
      Nat.reduceAdd, Nat.reducePow, Nat.reduceDiv, Nat.reduceMod, Nat.reduceEqDiff, if_true, if_false, true_and]

end Sys2Proof.Encoding
end

section
/-!
SUPPORT. The encoder writes the decoder's words again (R133-R168), so no bit of a decoded word is ignored, and the statement of
the encodings.
-/
namespace Sys2Proof.Encoding
open Sys2Proof.Rules

/-! ### A word is the sum of its fields -/

/-- The bits of a word below `k`, as an integer: every field is a difference of two of them. -/
def low (w k : Nat) : Int := ((w % 2 ^ k : Nat) : Int)

theorem low_zero (w : Nat) : low w 0 = 0 := by rw [low, pow_zero, Nat.mod_one, Nat.cast_zero]

theorem low_word {w : Nat} (hw : w < 2 ^ 32) : low w 32 = w := by rw [low, Nat.mod_eq_of_lt hw]

theorem bits_eq_iff_low (w lo n v : Nat) : bits w lo n = v ↔ low w (lo + n) = low w lo + 2 ^ lo * v := by
  rw [low, low, mod_add_bits]
  push_cast
  rw [add_right_inj, mul_right_inj' (by positivity), Nat.cast_inj]

theorem toNat_fld_mul (w lo n : Nat) : (((fld w lo n).toNat * 2 ^ lo : Nat) : Int) = low w (lo + n) - low w lo := by
  rw [(bits_eq_iff_low w lo n _).1 rfl, toNat_fld]
  push_cast
  ring

/-- Whatever the decoder's row answers has this word. -/
def Encodes (w : Nat) (o : Option Instr) : Prop := ∀ i ∈ o, encode i = some w

theorem Encodes.none (w : Nat) : Encodes w none := fun _ h => nomatch h

theorem Encodes.some {w n : Nat} {i : Instr} (hw : w < 2 ^ 32) (hi : encode i = some n) (h : (n : Int) = low w 32) :
    Encodes w (some i) := by
  rintro j ⟨⟩
  rw [hi, ← Int.natCast_inj.1 (h.trans (low_word hw))]

theorem Encodes.ite {w : Nat} {p : Prop} [Decidable p] {a b : Option Instr} (ha : p → Encodes w a) (hb : Encodes w b) :
    Encodes w (if p then a else b) := by
  split
  · exact ha ‹_›
  · exact hb

theorem encodes_rowS {w : Nat} (hw : w < 2 ^ 32) : Encodes w (rowS w) := by
  unfold rowS
  split
  all_goals repeat' refine Encodes.ite (fun hsel => ?_) ?_
  any_goals exact Encodes.none w
  all_goals
    refine Encodes.some hw rfl ?_
    simp only [bits_eq_iff_low, low_zero, Nat.reduceAdd] at *
    simp only [at_eq, Int.natCast_add, toNat_fld_mul, low_zero, Nat.reduceAdd, Int.cast_ofNat_Int]
    omega

theorem encodes_rowT {w : Nat} (hw : w < 2 ^ 32) : Encodes w (rowT w) := by
  have hmajor : bits w 21 5 = bits w 19 7 / 4 := by
    rw [bits, bits]
    omega
  unfold rowT
  split
  all_goals repeat' refine Encodes.ite (fun hsel => ?_) ?_
  any_goals exact Encodes.none w
  all_goals
    rename_i hop
    rw [hop] at hmajor
    refine Encodes.some hw rfl ?_
    simp only [bits_eq_iff_low, low_zero, Nat.reduceAdd] at *
    simp only [at_eq, Int.natCast_add, toNat_fld_mul, low_zero, Nat.reduceAdd, Int.cast_ofNat_Int]
    omega

/-! ### The statement of the encodings -/

/-- The check of field values that both decoders end with. -/
theorem checked_eq_ok_iff {i j : Instr} : (if j.wellFormed then Except.ok j else .error DecodeError.reserved) = .ok i
    ↔ some j = some i ∧ i.wellFormed = true := by
  constructor
  · intro h
    split_ifs at h with hj
    obtain rfl := Except.ok.inj h
    exact ⟨rfl, hj⟩
  · rintro ⟨hji, hi⟩
    obtain rfl := Option.some_inj.1 hji
    exact if_pos hi

theorem decodeS_eq_ok_iff (w : Nat) (i : Instr) : decodeS w = .ok i ↔ rowS w = some i ∧ i.wellFormed = true := by
  unfold decodeS
  cases rowS w with
  | none => simp
  | some j => exact checked_eq_ok_iff

theorem decodeT_eq_ok_iff (w : Nat) (i : Instr) : decodeT w = .ok i ↔ rowT w = some i ∧ i.wellFormed = true := by
  unfold decodeT
  cases rowT w with
  | none => simp
  | some j => exact checked_eq_ok_iff

theorem wellFormed_asRead (i : Instr) : (asRead i).wellFormed = i.wellFormed := by
  unfold asRead
  split <;> rfl

theorem encode_eq_some {i : Instr} {w : Nat} (h : encode i = some w) :
    encodePart0 i = some w ∨ encodePart1 i = some w ∨ encodePart2 i = some w ∨ encodePart3 i = some w ∨ encodePart4 i = some w := by
  simp only [encode, Option.orElse_eq_orElse, Option.orElse_eq_or, Option.or_eq_some_iff] at h
  tauto

theorem rowS_of_encode {i : Instr} {w : Nat} (h : encode i = some w) (hi : i.tform = none) :
    w < 2 ^ 32 ∧ rowS w = some (asRead i) := by
  have hs : i.tform.isSome = false := by rw [hi, Option.isSome_none]
  rcases encode_eq_some h with h | h | h | h | h
  · exact rowS_of_encodePart0 h
  · exact rowS_of_encodePart1 h
  · exact rowS_of_encodePart2 h
  · exact rowS_of_encodePart3 h hs
  · exact rowS_of_encodePart4 h hs

theorem rowT_of_encode {i : Instr} {w : Nat} (h : encode i = some w) (hi : i.tform.isSome = true) :
    w < 2 ^ 32 ∧ rowT w = some i := by
  obtain ⟨h0, h1, h2⟩ := encodePart_eq_none_of_tform hi
  rcases encode_eq_some h with h | h | h | h | h
  · exact nomatch h0.symm.trans h
  · exact nomatch h1.symm.trans h
  · exact nomatch h2.symm.trans h
  · exact rowT_of_encodePart3 h hi
  · exact rowT_of_encodePart4 h hi

theorem scalarEncodings : ScalarEncodings := by
  refine ⟨fun i w hwf hi h => ?_, fun i w hw h => ?_⟩
  · obtain ⟨hlt, hrow⟩ := rowS_of_encode h hi
    exact ⟨hlt, (decodeS_eq_ok_iff w _).2 ⟨hrow, (wellFormed_asRead i).trans hwf⟩⟩
  · obtain ⟨hrow, hwf⟩ := (decodeS_eq_ok_iff w i).1 h
    exact ⟨hwf, encodes_rowS hw i hrow⟩

theorem fabricEncodings : FabricEncodings := by
  refine ⟨fun i w hwf hi h => ?_, fun i w hw h => ?_⟩
  · obtain ⟨hlt, hrow⟩ := rowT_of_encode h hi
    exact ⟨hlt, (decodeT_eq_ok_iff w i).2 ⟨hrow, hwf⟩⟩
  · obtain ⟨hrow, hwf⟩ := (decodeT_eq_ok_iff w i).1 h
    exact ⟨hwf, encodes_rowT hw i hrow⟩

/-- Settles O56: every row's word is read back by its layout, and the fields that a decoder reads make up the whole word. -/
theorem encodingsRoundTrip : Obligations.EncodingsRoundTrip := ⟨scalarEncodings, fabricEncodings⟩

end Sys2Proof.Encoding
end

section
/-!
SUPPORT. The spec's own encoded examples, decoded (R145-R168).
-/
namespace Sys2Proof.Encoding

/-- Settles O57: each word of the table is decoded by evaluation, and so is the instruction at each end of the two maps. -/
theorem decodedWords : Obligations.DecodedWords := by
  refine ⟨?_, ?_, ⟨_, rfl⟩, ⟨_, rfl⟩⟩
  · simp only [List.forall_mem_cons]
    refine ⟨rfl, rfl, rfl, rfl, rfl, rfl, rfl, rfl, rfl, rfl, rfl, rfl, rfl, rfl, rfl, rfl, fun _ h => nomatch h⟩
  · simp only [List.forall_mem_cons]
    refine ⟨rfl, rfl, rfl, rfl, fun _ h => nomatch h⟩

end Sys2Proof.Encoding
end

section
/-!
SUPPORT. The system instructions in user mode (R135, R477).
-/
namespace Sys2Proof.Machine
open Sys2Proof.Rules

/-- An instruction of the system whose registers are ready, in user mode, traps with EPRIV before it does anything of its own. -/
theorem exec_user_of_eq {i : Instr} {s : State} {rs : List (BitVec 5)} {rest : State}
    (hi : exec i s = .next (if s.cur.pendsOn rs then s else if s.cur.mode = .user then s.trapPriv i else rest))
    (hr : ready s rs) (hu : s.cur.mode = .user) :
    exec i s = .next (s.takeTrap s.ft s.fk 0x03 s.cur.instrPc s.cur.instrPc (s.cur.instrWord i)) := by
  rw [hi, hr, if_neg Bool.false_ne_true, if_pos hu]
  rfl

/-- Settles O24: each of the instructions asks for its registers, and then for the mode. -/
theorem privilegedInUserMode : Obligations.PrivilegedInUserMode := by
  intro s d a b hr hu
  have ha : ready s [a] := Slot.pendsOn_of_subset hr (by simp)
  have hab : ready s [a, b] := Slot.pendsOn_of_subset hr (by simp)
  have hd : ready s [d] := Slot.pendsOn_of_subset hr (by simp)
  have hda : ready s [d, a] := Slot.pendsOn_of_subset hr (by simp)
  simp only [List.forall_mem_cons, List.not_mem_nil, false_imp_iff, implies_true, and_true]
  exact ⟨exec_user_of_eq rfl ha hu, exec_user_of_eq rfl ha hu, exec_user_of_eq rfl hab hu, exec_user_of_eq rfl hda hu,
    exec_user_of_eq rfl hda hu, exec_user_of_eq rfl hda hu, exec_user_of_eq rfl hda hu, exec_user_of_eq rfl hda hu,
    exec_user_of_eq rfl hd hu, exec_user_of_eq rfl hd hu, exec_user_of_eq rfl hda hu⟩

end Sys2Proof.Machine
end

section
/-!
SUPPORT. The integer instructions: what they leave alone (R228), the hard-wired registers (R132), and the registers that they
wait for (R209).
-/
namespace Sys2Proof.Machine
open Sys2Proof.Rules

/-! ### What an integer instruction leaves alone (R228) -/

theorem onlyRegs_refl (rs : List (BitVec 5)) (x : Slot) : onlyRegs rs x x := ⟨rfl, fun _ _ => rfl, fun _ h => h⟩

theorem onlyPreds_refl (ps : List (BitVec 3)) (x : Slot) : onlyPreds ps x x := ⟨rfl, fun _ _ => rfl⟩

/-- A slot that writes a register and goes on. -/
theorem onlyRegs_setSreg (x : Slot) (d : BitVec 5) (v : Word) : onlyRegs [d] x (x.setSreg d v).advance := by
  refine ⟨?_, fun r hr => ?_, fun k hk => ?_⟩
  · rw [Slot.advance_eq, Slot.setSreg_eq]
  · rw [Slot.sreg_advance, Slot.sreg_setSreg]
    split
    next h => rw [h, Slot.sreg_zero]
    next => exact if_neg (by simpa using hr)
  · rw [Slot.advance_eq] at hk
    exact Slot.bad_setSreg hk

@[simp] theorem Slot.pred_advance (x : Slot) (p : BitVec 3) : x.advance.pred p = x.pred p := by
  rw [Slot.advance_eq]
  rfl

/-- A slot that writes a predicate and goes on. -/
theorem onlyPreds_setPred (x : Slot) (p : BitVec 3) (v : Bool) : onlyPreds [p] x (x.setPred p v).advance := by
  refine ⟨?_, fun r hr => ?_⟩
  · rw [Slot.advance_eq, Slot.setPred_eq]
  · rw [Slot.pred_advance, Slot.pred_setPred]
    split
    next h => rw [h, Slot.pred_zero]
    next => exact if_neg (by simpa using hr)

/-- An instruction that works on its slot alone keeps the rest of the machine, and of the slot what the change keeps. -/
theorem frame_onSlot {P : Slot → Slot → Prop} {s : State} {rs : List (BitVec 5)} {f : Slot → Slot} (h0 : P s.cur s.cur)
    (h1 : P s.cur (f s.cur).advance) :
    sameOutsideSlot s (s.onSlot rs f) ∧ sameMemory s (s.onSlot rs f) ∧ P s.cur (s.onSlot rs f).cur := by
  rcases s.onSlot_cases rs f with h | h
  · rw [h]
    exact ⟨sameOutsideSlot_refl s, sameMemory_refl s, h0⟩
  · rw [h, State.cur_modCur]
    exact ⟨sameOutsideSlot_modCur s _, sameMemory_modCur s _, h1⟩

/-- The frame of an instruction that writes s[d]. -/
theorem frame_setSreg {i : Instr} {s t : State} {rs : List (BitVec 5)} {d : BitVec 5} {v : Slot → Word}
    (hi : exec i s = .next (s.onSlot rs fun sl => sl.setSreg d (v sl))) (ht : exec i s = .next t) :
    sameOutsideSlot s t ∧ sameMemory s t ∧ onlyRegs [d] s.cur t.cur := by
  obtain rfl : s.onSlot rs (fun sl => sl.setSreg d (v sl)) = t := Host.Outcome.next.inj (hi.symm.trans ht)
  exact frame_onSlot (onlyRegs_refl _ _) (onlyRegs_setSreg _ _ _)

/-- The frame of an instruction that writes p[p]. -/
theorem frame_setPred {i : Instr} {s t : State} {rs : List (BitVec 5)} {p : BitVec 3} {v : Slot → Bool}
    (hi : exec i s = .next (s.onSlot rs fun sl => sl.setPred p (v sl))) (ht : exec i s = .next t) :
    sameOutsideSlot s t ∧ sameMemory s t ∧ onlyPreds [p] s.cur t.cur := by
  obtain rfl : s.onSlot rs (fun sl => sl.setPred p (v sl)) = t := Host.Outcome.next.inj (hi.symm.trans ht)
  exact frame_onSlot (onlyPreds_refl _ _) (onlyPreds_setPred _ _ _)

theorem integerFrame : IntegerFrame := by
  intro s t d a b p q r i n h c j o
  simp only [List.forall_mem_cons, List.not_mem_nil, false_imp_iff, implies_true, and_true]
  have alu {x : Instr} {f : Word → Word → Word} (hx : exec x s = .next (s.alu d a b f)) (ht : exec x s = .next t) :=
    frame_setSreg hx ht
  have imm {x : Instr} {v : Slot → Word} {f : Word → Word → Word} (hx : exec x s = .next (s.aluImm d a v f))
      (ht : exec x s = .next t) := frame_setSreg hx ht
  have one {x : Instr} {f : Word → Word} (hx : exec x s = .next (s.onSlot [d, a] fun sl => sl.setSreg d (f (sl.sreg a))))
      (ht : exec x s = .next t) := frame_setSreg hx ht
  have plog {x : Instr} {f : Bool → Bool → Bool} (hx : exec x s = .next (s.plog p q r f)) (ht : exec x s = .next t) :=
    frame_setPred hx ht
  exact ⟨⟨alu rfl, alu rfl, alu rfl, alu rfl, alu rfl, alu rfl, alu rfl, alu rfl, alu rfl, alu rfl, alu rfl, alu rfl,
      alu rfl, alu rfl, alu rfl, alu rfl, alu rfl, alu rfl, alu rfl, alu rfl, one rfl, one rfl, one rfl, imm rfl, imm rfl,
      imm rfl, imm rfl, imm rfl, imm rfl, imm rfl, imm rfl, frame_setSreg rfl, alu rfl⟩,
    frame_setPred rfl, frame_setPred rfl, plog rfl, plog rfl, plog rfl, plog rfl⟩

/-! ### The register files (R132) -/

theorem registerFiles : RegisterFiles := fun x =>
  ⟨x.sreg_setSreg, x.pred_setPred, x.vreg_setVreg, x.mreg_setMreg, rfl, rfl, rfl⟩

/-! ### Registers that wait (R209) -/

theorem State.fpOp_waits {s : State} {rs : List (BitVec 5)} (h : s.cur.pendsOn rs = true) (rm n : Nat) (f : Slot → FRes)
    (w : Slot → Nat → Slot) : s.fpOp rs rm n f w = s := if_pos h

theorem pendingRegisterStalls : PendingRegisterStalls := by
  intro s d a b i t m z o x
  simp only [List.forall_mem_cons, List.not_mem_nil, false_imp_iff, implies_true, and_true]
  refine ⟨fun h => ?_, fun h => ?_, fun h => ?_⟩
  · have alu {e : Instr} {f : Word → Word → Word} (he : exec e s = .next (s.alu d a b f)) : exec e s = .next s :=
      he.trans (congrArg _ (State.onSlot_waits h _))
    have fp {e : Instr} {F : FFmt → Nat → Nat → Nat → Nat → Nat → FRes} (he : exec e s = .next (s.fpRound d a b t m F)) :
        exec e s = .next s := he.trans (congrArg _ (State.fpOp_waits h _ _ _ _))
    exact ⟨alu rfl, alu rfl, alu rfl, fp rfl, fp rfl, alu rfl⟩
  · exact ⟨congrArg Host.Outcome.next (State.onSlot_waits h _), congrArg Host.Outcome.next (State.onSlot_waits h _)⟩
  · exact ⟨congrArg Host.Outcome.next (if_pos h), congrArg Host.Outcome.next (if_pos h)⟩

/-- Settles O4: the frame by the one change of an instruction that works on its slot alone, the registers by their reading rules, and
the stall by the test that every instruction makes first. -/
theorem integerFrameAndRegisters : Obligations.IntegerFrameAndRegisters := ⟨integerFrame, registerFiles, pendingRegisterStalls⟩

end Sys2Proof.Machine
end

section
/-!
SUPPORT. The end of a loop body (R228), LOOP (R227), the branches (R222) and EXT before a word (R136-R138).
-/
namespace Sys2Proof.Machine
open Sys2Proof.Rules

/-! ### Rounds of a loop step (R228) -/

theorem pcOf_of_aligned {a : Word} (h : a.toNat % 4 = 0) : pcOf a = a := by
  have h0 : a &&& 3#64 = 0#64 := by
    apply BitVec.eq_of_toNat_eq
    rw [BitVec.toNat_and]
    exact (Nat.and_two_pow_sub_one_eq_mod a.toNat 2).trans h
  have hd : a = a &&& ~~~3#64 ||| a &&& 3#64 := by
    ext i hi
    simp only [BitVec.getElem_or, BitVec.getElem_and, BitVec.getElem_not]
    rw [← Bool.and_or_distrib_left, Bool.not_or_self, Bool.and_true]
  rw [h0, BitVec.or_zero] at hd
  exact hd.symm

section
variable {n : Nat} {x : Slot} {next : Word}

/-- No body is left or ends where no entry applies. -/
theorem Slot.loopRounds_of_not_here (h : x.loopHere = false) (taken : Bool) : Slot.loopRounds n x next taken = (x, next) := by
  cases n with
  | zero => rfl
  | succ n => rw [Slot.loopRounds, h]; rfl

/-- An instruction before the end of the body goes on. -/
theorem Slot.loopRounds_inside (h : x.loopHere = true) (hp : x.pc ≠ x.top.stop) :
    Slot.loopRounds (n + 1) x next false = (x, next) := by
  rw [Slot.loopRounds, h]
  exact if_pos hp

/-- The end of a body that is to run again. -/
theorem Slot.loopRounds_again (h : x.loopHere = true) (hp : x.pc = x.top.stop) (hc : x.top.count ≠ 1) :
    Slot.loopRounds (n + 1) x next false = ({ x with top := { x.top with count := x.top.count - 1 } }, x.top.start) := by
  rw [Slot.loopRounds, h]
  exact (if_neg (not_not.2 hp)).trans (if_pos (sub_ne_zero.2 hc))

/-- The end of a body that has run for the last time. -/
theorem Slot.loopRounds_last (h : x.loopHere = true) (hp : x.pc = x.top.stop) (hc : x.top.count = 1) :
    Slot.loopRounds (n + 1) x next false
      = Slot.loopRounds n { x with top := { x.top with count := 0 } }.dropTop next false := by
  rw [Slot.loopRounds, h]
  refine (if_neg (not_not.2 hp)).trans ?_
  rw [hc]
  rfl

/-- A transfer stays in the body, or leaves it. -/
theorem Slot.loopRounds_taken (h : x.loopHere = true) :
    Slot.loopRounds (n + 1) x next true =
      if x.top.start ≤ next ∧ next ≤ x.top.stop then (x, next) else Slot.loopRounds n x.dropTop next true := by
  rw [Slot.loopRounds, h]
  rfl

end

/-- The top entry of a pair that is one entry is disarmed. -/
theorem Slot.dropTop_of_one {x : Slot} (h : x.below.armed = false) : x.dropTop = { x with top := { x.top with armed := false } } := by
  rw [Slot.dropTop, h]
  rfl

theorem Slot.dropTop_of_two {x : Slot} (h : x.below.armed = true) :
    x.dropTop = { x with top := x.below, below := { x.below with armed := false } } := if_pos h

/-- An instruction goes where its rounds lead. -/
theorem Slot.goto_of_rounds {x y : Slot} {next dest : Word} {taken : Bool} (h : Slot.loopRounds 3 x next taken = (y, dest))
    (ha : dest.toNat % 4 = 0) : x.goto next taken = { y with pc := dest, ext := none } := by
  rw [Slot.goto, Slot.loopStep, h]
  dsimp only
  rw [pcOf_of_aligned ha]

theorem loopBoundary : LoopBoundary := by
  intro x next ha
  refine ⟨fun taken h => ?_, fun h hp => ?_, fun h hp hc hs => ?_, fun h hp hc hb => ?_, fun h hlo hhi => ?_, fun h hout hb => ?_,
    fun h hp hc hb hd hm hs hn hst => ?_⟩
  · exact Slot.goto_of_rounds (Slot.loopRounds_of_not_here h taken) ha
  · exact Slot.goto_of_rounds (Slot.loopRounds_inside h hp) ha
  · exact Slot.goto_of_rounds (Slot.loopRounds_again h hp hc) hs
  · refine Slot.goto_of_rounds (y := { x with top := { x.top with count := 0, armed := false } })
      ((Slot.loopRounds_last h hp hc).trans ?_) ha
    exact (congrArg (Slot.loopRounds 2 · next false) (Slot.dropTop_of_one (x := { x with top := { x.top with count := 0 } }) hb)).trans
      (Slot.loopRounds_of_not_here rfl _)
  · exact Slot.goto_of_rounds ((Slot.loopRounds_taken h).trans (if_pos ⟨hlo, hhi⟩)) ha
  · refine Slot.goto_of_rounds (y := { x with top := { x.top with armed := false } }) ((Slot.loopRounds_taken h).trans ?_) ha
    rw [if_neg hout, Slot.dropTop_of_one hb, Slot.loopRounds_of_not_here rfl]
  · have hhere : ({ x with top := x.below, below := { x.below with armed := false } } : Slot).loopHere = true := by
      simp [Slot.loopHere, hb, hd, hm]
    refine Slot.goto_of_rounds (y := { x with top := { x.below with count := x.below.count - 1 },
                                              below := { x.below with armed := false } })
      ((Slot.loopRounds_last h hp hc).trans ?_) hst
    exact (congrArg (Slot.loopRounds 2 · next false) (Slot.dropTop_of_two (x := { x with top := { x.top with count := 0 } }) hb)).trans
      (Slot.loopRounds_again hhere hs.symm hn)

/-! ### Branches (R222) and LOOP (R227) -/

/-- Where a B-format operand leads. -/
theorem Slot.branchTo_eq (x : Slot) (o : BitVec 21) :
    x.branchTo o = x.pc + 4 * (match x.ext with
      | none => o.signExtend 64
      | some q => (q ++ o).signExtend 64) := by
  rw [Slot.branchTo, Slot.immS, BitVec.mul_comm]
  cases x.ext <;> rfl

theorem Slot.predX_iff (x : Slot) (p : BitVec 3) (n : BitVec 1) : x.predX p n = true ↔ (x.pred p = true ↔ n = 0) := by
  have h : ∀ (v : Bool) (n : BitVec 1), (v != decide (n = 1)) = true ↔ (v = true ↔ n = 0) := by decide
  exact h _ _

theorem branchTargets : BranchTargets := by
  intro s p n o a off target
  have ht : s.cur.branchTo o = target := Slot.branchTo_eq s.cur o
  refine ⟨?_, fun h => ?_, fun h => ?_, fun hr h => ?_, fun hr h => ?_⟩
  · exact congrArg Host.Outcome.next (State.modCur_congr (by rw [ht]))
  · exact congrArg Host.Outcome.next (State.modCur_congr (by rw [if_pos ((Slot.predX_iff ..).2 h), ht]))
  · exact congrArg Host.Outcome.next (State.modCur_congr (if_neg fun hx => h ((Slot.predX_iff ..).1 hx)))
  · rw [show exec (.br a) s = execBr a s from rfl, execBr, hr, if_neg Bool.false_ne_true, if_neg (not_not.2 h)]
    exact congrArg Host.Outcome.next (State.modCur_congr rfl)
  · rw [show exec (.br a) s = execBr a s from rfl, execBr, hr, if_neg Bool.false_ne_true, if_pos h]

theorem loopArms : LoopArms := by
  intro s a o hr stop bad
  have he : exec (.loop a o) s
      = .next (if bad then s.trapIllegal (.loop a o) else s.modCur fun sl => sl.armLoop (sl.sreg a) o) := by
    rw [show exec (.loop a o) s = execLoop a o s from rfl, execLoop]
    rw [hr, if_neg Bool.false_ne_true]
    simp only [Bool.or_eq_true, Bool.and_eq_true, decide_eq_true_eq]
    rfl
  refine ⟨fun hb => ?_, fun hb h0 => ?_, fun hb h0 => ?_⟩
  · rw [he, if_pos hb]
  · rw [he, if_neg hb]
    exact congrArg Host.Outcome.next (State.modCur_congr (if_pos h0))
  · rw [he, if_neg hb]
    refine ⟨_, rfl, sameOutsideSlot_modCur s _, sameMemory_modCur s _, ?_⟩
    rw [State.cur_modCur, Slot.armLoop, if_neg h0]
    exact ⟨rfl, rfl⟩

/-! ### EXT (R136-R138) -/

theorem extPrefix : ExtPrefix := by
  intro s s1 p w
  refine ⟨fun hf => ⟨fun hend hw => ?_, fun hbad => ?_⟩, fun hf => ?_, fun c sub hf => ?_⟩
  all_goals
    rw [show exec (.ext p) s = execExt p s from rfl, execExt, hf]
  · obtain ⟨i, hi, ht⟩ := hw
    dsimp only
    rw [hi, if_neg (by simpa [ht] using hend)]
  · dsimp only
    rw [if_pos]
    rcases hbad with hend | hno
    · simp [hend]
    · cases hd : decodeS w with
      | ok i => simp [hno i hd]
      | error e => rfl

/-- Settles O7: the rounds of the loop step one by one, and the branches of each instruction. -/
theorem loopsAndBranches : Obligations.LoopsAndBranches := ⟨loopBoundary, loopArms, branchTargets, extPrefix⟩

end Sys2Proof.Machine
end

section
/-!
SUPPORT. The turns of a needle slot and of an element (R131, R137, R138, R173, R264, R479, R502).
-/
namespace Sys2Proof.Machine
open Sys2Proof.Rules

/-! ### A fetched word (R135, R137) -/

theorem Slot.decode_of_ok {x : Slot} {w : Nat} {i : Instr} (h : decodeS w = .ok i) (he : x.ext = none ∨ takesExt i = true)
    (hp : ∀ d a, i ≠ .pstatPocket d a) : x.decode w = some i := by
  have hc : ¬(x.ext.isSome && !takesExt i) = true := by
    rcases he with h | h <;> simp [h]
  rw [Slot.decode, h]
  dsimp only
  rw [if_neg hc]
  split
  next d a => exact absurd rfl (hp d a)
  next => rfl

theorem Slot.decode_of_error {x : Slot} {w : Nat} {e : DecodeError} (h : decodeS w = .error e) : x.decode w = none := by
  rw [Slot.decode, h]

/-- A page of the tile's own store gives its four bytes. -/
theorem State.fetch_store {s : State} {t k off pa : Nat} {va : Word} {fe : Bool}
    (hx : s.needleTr t k .fetch va = (s, .ok (.store t off) fe pa)) (hl : s.lsizeRefused (localLoc t off) = false)
    (hc : s.covered t (localLoc t off) 4 = false) (hh : s.holdRead t k [localLoc t off] = none)
    (hm : s.marked (localLoc t off) 4 = false) : s.fetch t k va = .word s (bytesNat (s.bytes (localLoc t off) 4)) := by
  have hu : s.unreached (.store t off) = false := rfl
  simp only [State.fetch, hx, Place.loc, hl, hu, hc, hh, hm, Bool.false_eq_true, if_false]
  rfl

/-! ### What a slot issues -/

/-- A read that a failed path holds, and that was not cut, is made again. -/
def State.retried (s : State) (t k : Nat) : State :=
  if (s.slot t k).held.isSome && !(s.slot t k).cut then s.modSlot t k fun sl => { sl with held := none } else s

theorem State.retried_eq (s : State) (t k : Nat) : s.retried t k =
    if (s.slot t k).held.isSome = true ∧ (s.slot t k).cut = false then s.modSlot t k fun sl => { sl with held := none } else s := by
  simp only [State.retried, Bool.and_eq_true, Bool.not_eq_true']

section
variable {s u : State} {t k w : Nat} (hf : (s.retried t k).fetch t k (s.slot t k).pc = .word u w)
include hf

theorem State.issue_of_decode {i : Instr} (hi : (s.slot t k).decode w = some i) : s.issue t k =
    if (s.slot t k).vecStalls i then .pass u
    else if ∃ q ∈ instrReads i, q ≠ 0 ∧ (s.slot t k).absReg q ∈ (s.slot t k).bad then .pass (u.registerTrap t)
    else .run i u := by
  have hb : ((instrReads i).any fun r => r != 0 && (s.slot t k).bad.contains ((s.slot t k).absReg r)) = true
      ↔ ∃ q ∈ instrReads i, q ≠ 0 ∧ (s.slot t k).absReg q ∈ (s.slot t k).bad := by simp
  unfold State.retried at hf
  simp only [State.issue, hf, hi]
  split
  · rfl
  · exact if_congr hb rfl rfl

theorem State.issue_of_reserved (hn : (s.slot t k).decode w = none) :
    s.issue t k = .run .reservedEncoding { u with ev := { EvArgs.none with v := BitVec.ofNat 128 w } } := by
  unfold State.retried at hf
  simp only [State.issue, hf, hn]

end

/-! ### An instruction boundary (R138, R479, R481, R502) -/

/-- The tile's cycles pass to the one of slot `k`, whose turn it is. -/
def State.ticked (s : State) (t k : Nat) : State :=
  { s.modTile t (Tile.tick (s.panel (s.panelOf t)).level k) with focus := .needle t k }

/-- The turn of a slot in its own cycle. -/
def State.boundary (s : State) (t k : Nat) : Pick :=
  let x := s.slot t k
  let ev := { EvArgs.none with tile := t, unit := k }
  if s.stopped t || !x.runs then .pass s
  else if x.dying.isSome then .run .hend s
  else if x.ext.isSome && !x.waiting then s.issue t k
  else if s.withheld t k then .pass s
  else if !x.inTrap && !x.late.isEmpty then .run .lateRefusalTrap { s with ev := ev }
  else if !x.inTrap && x.budgetDue then .run .budgetExpiry { s with ev := ev }
  else if x.waiting || x.lateFull then .pass s
  else s.issue t k

/-- A tile that goes on has a clock. -/
theorem State.dark_of_stopped {s : State} {t : Nat} (h : s.stopped t = false) : (s.silicon t).dark = false := by
  simp only [State.stopped, Bool.or_eq_false_iff] at h
  exact h.2

theorem State.needleTurn_eq {s : State} {t k : Nat} (ht : t < tileCount) (hk : k < 8) :
    s.needleTurn t k = if (s.silicon t).dark then .pass s else (s.ticked t k).boundary t k := if_neg (by omega)

section
variable {s : State} {t k : Nat}

theorem State.boundary_of_idle (h : s.stopped t = true ∨ (s.slot t k).runs = false ∨
    (s.withheld t k = true ∧ (s.slot t k).ext = none ∧ (s.slot t k).dying = none)) : s.boundary t k = .pass s := by
  rw [State.boundary]
  rcases h with h | h | ⟨hw, he, hd⟩
  · simp [h]
  · simp [h]
  · simp [hw, he, hd]

variable (hs : s.stopped t = false) (hr : (s.slot t k).runs = true)
include hs hr

theorem State.boundary_of_dying (h : (s.slot t k).dying ≠ none) : s.boundary t k = .run .hend s := by
  simp [State.boundary, hs, hr, Option.isSome_iff_ne_none, h]

variable (hd : (s.slot t k).dying = none)
include hd

theorem State.boundary_of_due (hw : s.withheld t k = false) (he : (s.slot t k).ext = none ∨ (s.slot t k).waiting = true)
    (hi : (s.slot t k).inTrap = false) :
    ((s.slot t k).late ≠ [] →
      s.boundary t k = .run .lateRefusalTrap { s with ev := { EvArgs.none with tile := t, unit := k } })
    ∧ ((s.slot t k).late = [] → (s.slot t k).budgetDue = true →
      s.boundary t k = .run .budgetExpiry { s with ev := { EvArgs.none with tile := t, unit := k } }) := by
  have hx : ((s.slot t k).ext.isSome && !(s.slot t k).waiting) = false := by
    rcases he with h | h <;> simp [h]
  refine ⟨fun hl => ?_, fun hl hb => ?_⟩
  · simp [State.boundary, hs, hr, hd, hx, hw, hi, hl]
  · simp [State.boundary, hs, hr, hd, hx, hw, hi, hl, hb]

theorem State.boundary_of_issue (hw : s.withheld t k = false ∨ (s.slot t k).ext ≠ none) (hn : (s.slot t k).waiting = false)
    (hl : (s.slot t k).late = []) (hb : (s.slot t k).budgetDue = false) : s.boundary t k = s.issue t k := by
  have hf : (s.slot t k).lateFull = false := by simp [Slot.lateFull, hl]
  rcases hw with hw | he
  · simp [State.boundary, hs, hr, hd, hw, hn, hl, hb, hf]
  · simp [State.boundary, hs, hr, hd, hn, Option.isSome_iff_ne_none, he]

end

/-! ### A step of a needle slot -/

theorem stepRunsDecodedInstructionHold : StepRunsDecodedInstructionHold := by
  intro s t k r ht hk ha u x v due open_
  have hup : s.nextUp = if (s.silicon t).dark then .pass { s with turns := s.turns + 1, agenda := r } else u.boundary t k := by
    rw [State.nextUp, ha]
    exact State.needleTurn_eq ht hk
  have hlit (h : (s.silicon t).dark = false) {p : Pick} (hp : u.boundary t k = p) : s.nextUp = p := by
    rw [hup, h, ← hp]
    rfl
  have hdark (hs : u.stopped t = false) : (s.silicon t).dark = false := State.dark_of_stopped (s := u) hs
  have hv : v = u.retried t k := (State.retried_eq u t k).symm
  refine ⟨fun h => ?_, fun h hidle => ?_, fun hs hr hd => ?_, fun hs hr hd ho hi => ?_, fun hs hw hr hd hn hl hb => ?_⟩
  · refine step_of_pass (hup.trans ?_)
    rw [h]
    rfl
  · exact step_of_pass (hlit h (State.boundary_of_idle hidle))
  · exact step_of_run (hlit (hdark hs) (State.boundary_of_dying hs hr hd))
  · obtain ⟨hlate, hbudget⟩ := State.boundary_of_due hs hr hd ho.1 ho.2 hi
    exact ⟨fun h => step_of_run (hlit (hdark hs) (hlate h)), fun h hb => step_of_run (hlit (hdark hs) (hbudget h hb))⟩
  · have hissue : s.nextUp = u.issue t k := hlit (hdark hs) (State.boundary_of_issue hs hr hd hw hn hl hb)
    rw [hv]
    refine ⟨fun u1 w hf => ⟨fun i hi he hp => ?_, fun ⟨e, he⟩ => ?_⟩, fun off pa fe e hx hls hc hh hm hi he hp hvec hbad => ?_⟩
    · have hrun := hissue.trans (State.issue_of_decode hf (Slot.decode_of_ok hi he hp))
      split
      next hvec => exact step_of_pass (hrun.trans (if_pos hvec))
      next hvec =>
        split
        next hq => exact step_of_pass (hrun.trans ((if_neg hvec).trans (if_pos hq)))
        next hq => exact step_of_run (hrun.trans ((if_neg hvec).trans (if_neg hq)))
    · exact step_of_run (hissue.trans (State.issue_of_reserved hf (Slot.decode_of_error he)))
    · have hrun := hissue.trans (State.issue_of_decode (State.fetch_store hx hls hc hh hm) (Slot.decode_of_ok hi he hp))
      have hgood : ¬∃ q ∈ instrReads e, q ≠ 0 ∧ x.absReg q ∈ x.bad := fun ⟨_, _, _, h⟩ => by simp [hbad] at h
      exact step_of_run (hrun.trans ((if_neg (by simp [x, hvec] at *)).trans (if_neg hgood)))

/-! ### A step of an element (R173, R264) -/

/-- What a slot of an element may fire: its instruction, where its guard holds. -/
def State.readySlot (s : State) (t e : Nat) (y : Nat × BitVec 32) : Option (Nat × Instr) :=
  match decodeT y.2.toNat with
  | .ok i => if s.slotReady t e i then some (y.1, i) else none
  | .error _ => none

theorem State.pickSlot_eq (s : State) (t e : Nat) : s.pickSlot t e = ((s.tile t).fabric.elem e).slots.findSome? (s.readySlot t e) := rfl

section
variable {s : State} {t e : Nat} {a b : List (Nat × BitVec 32)} {y : Nat × BitVec 32} {i : Instr}

theorem State.readySlot_eq_none (h : ∀ j, decodeT y.2.toNat = .ok j → s.slotReady t e j = false) : s.readySlot t e y = none := by
  rw [State.readySlot]
  split
  next j hj => rw [h j hj, if_neg Bool.false_ne_true]
  next => rfl

theorem State.readySlot_of_ready (hi : decodeT y.2.toNat = .ok i) (hr : s.slotReady t e i = true) :
    s.readySlot t e y = some (y.1, i) := by
  rw [State.readySlot, hi]
  exact if_pos hr

/-- Slots whose guards do not hold are passed over. -/
theorem State.findSome_readySlot (h : ∀ y ∈ a, ∀ j, decodeT y.2.toNat = .ok j → s.slotReady t e j = false) :
    a.findSome? (s.readySlot t e) = none :=
  List.findSome?_eq_none_iff.2 fun y hy => State.readySlot_eq_none (h y hy)

theorem State.pickSlot_of_none
    (h : ∀ y ∈ ((s.tile t).fabric.elem e).slots, ∀ j, decodeT y.2.toNat = .ok j → s.slotReady t e j = false) :
    s.pickSlot t e = none := (s.pickSlot_eq t e).trans (State.findSome_readySlot h)

theorem State.pickSlot_of_first (hs : ((s.tile t).fabric.elem e).slots = a ++ y :: b)
    (ha : ∀ y ∈ a, ∀ j, decodeT y.2.toNat = .ok j → s.slotReady t e j = false) (hi : decodeT y.2.toNat = .ok i)
    (hr : s.slotReady t e i = true) : s.pickSlot t e = some (y.1, i) := by
  rw [State.pickSlot_eq, hs, List.findSome?_append, State.findSome_readySlot ha, Option.none_or, List.findSome?_cons,
    State.readySlot_of_ready hi hr]

/-- The turn of an element that goes on, of a tile whose fabric is not held. -/
theorem State.elemTurn_eq (ht : t < tileCount) (he : e < 16) (hs : s.elemStopped t = false) (hh : s.fabricHeld t = false) :
    s.elemTurn t e =
      if ((s.tile t).fabric.elem e).beat.isSome then
        .run .burstBeat { s with focus := .elem t e 0, ev := { EvArgs.none with tile := t, unit := e } }
      else if (s.part t).firingStopped then .pass s
      else (s.pickSlot t e).elim (.pass s) fun p => .run p.2 { s.wakePart t with focus := .elem t e p.1 } := by
  rw [State.elemTurn, if_neg (by omega), if_neg (by simp [hs, hh])]
  cases s.pickSlot t e <;> rfl

end

theorem stepRunsElementSlot : StepRunsElementSlot := by
  intro s t e r ht he ha u E hs hh
  have hup : s.nextUp = u.elemTurn t e := by rw [State.nextUp, ha]
  rw [State.elemTurn_eq ht he hs hh] at hup
  refine ⟨fun hb => ?_, fun hb hf => ?_, fun hb hf a k w b i hsl hlow hi hr => ?_, fun hb hlow => ?_⟩
  · exact step_of_run (hup.trans (if_pos hb))
  all_goals
    replace hup := hup.trans (if_neg (show ¬E.beat.isSome = true by simp [hb]))
  · exact step_of_pass (hup.trans (if_pos hf))
  · replace hup := hup.trans (if_neg (show ¬(s.part t).firingStopped = true by simp [hf]))
    rw [State.pickSlot_of_first (s := u) hsl hlow hi hr] at hup
    exact step_of_run hup
  · rw [State.pickSlot_of_none (s := u) hlow] at hup
    exact step_of_pass (hup.trans (ite_self _))

/-- Settles O60: the turn of a needle slot by the branches of an instruction boundary and of its fetch, and that of an element by the first
slot whose guard holds. -/
theorem stepRunsDecodedInstruction : Obligations.StepRunsDecodedInstruction :=
  ⟨stepRunsDecodedInstructionHold, stepRunsElementSlot⟩

end Sys2Proof.Machine
end

section
/-!
SUPPORT. What an outstanding access returns (R209, R231, R295), and the values of the atomic operations (R153, R312).
-/
namespace Sys2Proof.Machine
open Sys2Proof.Rules

/-! ### The new value of an atomic operation (R312) -/

/-- The signed reading of a word's number. -/
theorem signed_toNat {n : Nat} (hn : 0 < n) (x : BitVec n) : signed n x.toNat = x.toInt := by
  have hp : 2 ^ n = 2 * 2 ^ (n - 1) := (mul_pow_sub_one hn.ne' 2).symm
  have hx : x.toNat % 2 ^ n = x.toNat := Nat.mod_eq_of_lt x.isLt
  rw [signed, hx, BitVec.toInt_eq_toNat_cond]
  by_cases h : x.toNat < 2 ^ (n - 1)
  · rw [if_pos h, if_pos (by omega)]
    exact_mod_cast hx
  · rw [if_neg h, if_neg (by omega)]

theorem atomicValues : AtomicValues := by
  intro b o x e hb
  have hn : 0 < 8 * b := by omega
  have hmod (y : BitVec (8 * b)) : y.toNat % 2 ^ (8 * b) = y.toNat := Nat.mod_eq_of_lt y.isLt
  simp only [List.forall_mem_cons, List.not_mem_nil, false_imp_iff, implies_true, and_true]
  simp only [amoNew, hmod, signed_toNat hn, BitVec.toNat_add, BitVec.toNat_and, BitVec.toNat_or, BitVec.toNat_xor,
    BitVec.toNat_inj, and_self]

/-! ### A reply (R209, R231, R295) -/

/-- A table reads as the first entry of its key. -/
theorem Tab.get_eq_find {α : Type} (d : α) (l : Tab α) (j : Nat) :
    Tab.get d l j = (l.find? fun e => e.1 == j).elim d Prod.snd := by
  induction l with
  | nil => rfl
  | cons e l ih =>
    obtain ⟨k, v⟩ := e
    rw [Tab.get, List.find?_cons]
    by_cases h : j = k
    · simp [h]
    · have hkj : (k == j) = false := beq_false_of_ne (Ne.symm h)
      rw [if_neg h, ih, hkj]

section
variable {s : State} {p : Pend} {t k : Nat}

theorem lanesOf_none (l : List Lane) : Machine.lanesOf none l = l := rfl

/-- A reply that nothing holds performs its access. -/
theorem exec_needleMemoryReply_performs (hp : (s.slot s.ev.tile s.ev.unit).pend? s.ev.n = some p) (hf : p.fe = false)
    (hm : s.mayPerform s.ev.tile p.id p.spans = true) (hk : ∀ v n z l got, p.kind ≠ .vec v n z l got) :
    exec .needleMemoryReply s = .next (s.performPend s.ev.tile s.ev.unit p) := by
  have hs (only : Option Nat) : p.spansOf only = p.spans := by
    rw [Pend.spansOf]
    split
    next h => exact (hk _ _ _ _ _ h).elim
    next => rfl
  have hw (only : Option Nat) : only.any p.laneWaits = false := by
    cases only with
    | none => rfl
    | some j =>
      rw [Option.any_some, Pend.laneWaits]
      split
      next h => exact (hk _ _ _ _ _ h).elim
      next => rfl
  show execNeedleMemoryReply s = _
  rw [execNeedleMemoryReply, hp]
  dsimp only
  rw [hs, hw, if_neg (by simp [hf, hm])]
  split
  next h => exact (hk _ _ _ _ _ h).elim
  next => rfl

/-- A reply to a vector load performs every lane that is left. -/
theorem exec_needleMemoryReply_lanes {v : BitVec 3} {n : Nat} {z : Bool} {l : List Lane} {got : List (Nat × Nat)}
    (hp : (s.slot s.ev.tile s.ev.unit).pend? s.ev.n = some p) (hf : p.fe = false)
    (hm : s.mayPerform s.ev.tile p.id p.spans = true) (hk : p.kind = .vec v n z l got) (hflag : s.ev.flag = false) :
    exec .needleMemoryReply s = .next (s.performLanes s.ev.tile s.ev.unit p none) := by
  have hs : p.spansOf none = p.spans := by
    rw [Pend.spansOf, Pend.spans, Pend.pieces, hk]
    dsimp only
    rw [lanesOf_none, List.map_map]
    rfl
  show execNeedleMemoryReply s = _
  rw [execNeedleMemoryReply, hp, hflag]
  dsimp only
  rw [if_neg Bool.false_ne_true, hs, if_neg (by simp [hf, hm]), hk]

theorem State.performPend_load {n : Nat} {sgn : Bool} (hr : s.refusal p.loc = none) (hk : p.kind = .load n sgn)
    (hm : s.marked p.loc n = false) :
    s.performPend t k p = s.modSlot t k fun sl => sl.complete p.id (loadWords sgn (s.bytes p.loc n)) := by
  simp only [State.performPend, hr, hk, hm, Bool.false_eq_true, if_false]

theorem State.performPend_amo {op n : Nat} {x e : BitVec 128} (hr : s.refusal p.loc = none) (hk : p.kind = .amo op n x e)
    (hm : s.marked p.loc n = false) :
    s.performPend t k p = (s.amoBy p.id t k p.loc op n x.toNat e.toNat).1.modSlot t k fun sl =>
      sl.complete p.id (pairWords n (s.amoBy p.id t k p.loc op n x.toNat e.toNat).2) := by
  simp only [State.performPend, hr, hk, hm, Bool.false_eq_true, if_false]

/-- The lanes of a vector load are performed together, and the register is written. -/
theorem State.performLanes_all {v : BitVec 3} {n : Nat} {z : Bool} {l : List Lane} {got : List (Nat × Nat)}
    (hk : p.kind = .vec v n z l got) (hl : ∀ e ∈ l, s.refusal e.loc = none ∧ s.marked e.loc ((n + 7) / 8) = false) :
    s.performLanes t k p none = s.modSlot t k fun sl =>
      (sl.setLanes v n z (got ++ l.map fun e => (e.k, s.laneAt n e.k e.loc))).dropPend p.id := by
  have hrefuse : (l.findSome? fun e => (s.refusal e.loc).map fun r => (r.1, r.2, e.va)) = none :=
    List.findSome?_eq_none_iff.2 fun e he => by rw [(hl e he).1, Option.map_none]
  have hmark : (l.find? fun e => s.marked e.loc ((n + 7) / 8)) = none :=
    List.find?_eq_none.2 fun e he => by simp [(hl e he).2]
  have hrest : (l.filter fun e => !(l.any fun x => x.k == e.k)).isEmpty = true := by
    rw [List.isEmpty_iff, List.filter_eq_nil_iff]
    exact fun e he => by simpa using ⟨e, he, rfl⟩
  simp only [State.performLanes, hk, lanesOf_none, hrefuse, hmark, hrest, if_true]

end

/-- An atomic operation with the stores of system scope that it comes after. -/
def State.behindAmo (s : State) (id t k loc n : Nat) : State :=
  if s.behind = [] ∨ loc / 2 ^ 56 = 1 then s else { s with behind := s.behind ++ [⟨id, t, k, loc, s.bytes loc n, true⟩] }

theorem State.amoBy_eq (s : State) (id t k loc op n x e : Nat) :
    s.amoBy id t k loc op n x e = (s.behindAmo id t k loc n).amoAt loc op n x e := by
  have hd : s.systemDone = decide (s.behind = []) := by
    rw [State.systemDone]
    cases s.behind <;> rfl
  rw [State.amoBy, State.behindAmo, State.noteStore, systemLater, hd]
  by_cases hb : s.behind = []
  · simp [hb]
  · simp [hb]

theorem State.readNat_behindAmo (s : State) (id t k loc n l m : Nat) : (s.behindAmo id t k loc n).readNat l m = s.readNat l m := by
  unfold State.behindAmo
  split <;> rfl

theorem needleReplies : NeedleReplies := by
  intro s p t k hp hf hm hr
  refine ⟨fun n sgn hk hmark => ?_, fun op n x e hk hmark => ?_, fun v n z l got hk hflag hl => ?_⟩
  · rw [exec_needleMemoryReply_performs hp hf hm (by simp [hk]), State.performPend_load hr hk hmark]
  · have hx : exec .needleMemoryReply s = _ := exec_needleMemoryReply_performs hp hf hm (by simp [hk])
    rw [State.performPend_amo hr hk hmark, State.amoBy_eq, State.amoAt, State.readNat_behindAmo] at hx
    intro old u
    refine ⟨fun w hw => ?_, fun hw => ?_⟩
    · rw [hx, hw]
      rfl
    · rw [hx, hw]
      rfl
  · rw [exec_needleMemoryReply_lanes hp hf hm hk hflag, State.performLanes_all hk hl]
    refine congrArg Host.Outcome.next (congrArg (s.modSlot _ _) (funext fun sl =>
      congrArg (fun f => (sl.setVreg v (ofLanes n (4096 / n) f)).dropPend p.id) (funext fun j => ?_)))
    rw [Tab.get_eq_find]
    simp only [State.laneAt]
    generalize List.find? _ _ = found
    cases found <;> rfl

/-- Settles O14: a reply by what its kind performs, and the values by the modulus of each operation. -/
theorem repliesAndAtomicValues : Obligations.RepliesAndAtomicValues := ⟨needleReplies, atomicValues⟩

end Sys2Proof.Machine
end

section
/-!
SUPPORT. Vector compares, masks, permutes and integer reductions (R142, R283, R286, R287, R292-R294).
-/
namespace Sys2Proof.Machine
open Sys2Proof.Rules

/-! ### Lanes that are built (R282) -/

theorem lanesNat_lt (w : Nat) (f : Nat → Nat) (n : Nat) : lanesNat w f n < 2 ^ (w * n) := by
  induction n with
  | zero => exact Nat.one_pos
  | succ n ih =>
    have hf : f n % 2 ^ w + 1 ≤ 2 ^ w := Nat.mod_lt _ (Nat.two_pow_pos w)
    calc lanesNat w f n + f n % 2 ^ w * 2 ^ (w * n)
      _ < 2 ^ (w * n) + f n % 2 ^ w * 2 ^ (w * n) := Nat.add_lt_add_right ih _
      _ = (f n % 2 ^ w + 1) * 2 ^ (w * n) := by rw [Nat.succ_mul, Nat.add_comm]
      _ ≤ 2 ^ w * 2 ^ (w * n) := Nat.mul_le_mul_right _ hf
      _ = 2 ^ (w * (n + 1)) := by rw [← Nat.pow_add, Nat.mul_succ, Nat.add_comm]

/-- A lane that was built is the one that it was built from. -/
theorem lane_lanesNat (w : Nat) (f : Nat → Nat) (n k : Nat) :
    lanesNat w f n / 2 ^ (w * k) % 2 ^ w = if k < n then f k % 2 ^ w else 0 := by
  have hk : 0 < 2 ^ (w * k) := Nat.two_pow_pos _
  induction n with
  | zero => simp [lanesNat]
  | succ n ih =>
    rcases Nat.lt_trichotomy k n with h | h | h
    · have hn : 2 ^ (w * n) = 2 ^ (w * k) * (2 ^ w * 2 ^ (w * (n - k - 1))) := by
        rw [← Nat.pow_add, ← Nat.pow_add, Nat.add_comm w, ← Nat.mul_succ, ← Nat.mul_add]
        congr 2
        omega
      rw [lanesNat, hn, Nat.mul_left_comm, Nat.add_mul_div_left _ _ hk, Nat.mul_left_comm, Nat.add_mul_mod_self_left, ih, if_pos h,
        if_pos (by omega)]
    · subst h
      rw [lanesNat, Nat.add_mul_div_right _ _ hk, Nat.div_eq_of_lt (lanesNat_lt w f k), Nat.zero_add, Nat.mod_mod, if_pos (by omega)]
    · have hle : 2 ^ (w * (n + 1)) ≤ 2 ^ (w * k) := Nat.pow_le_pow_right Nat.two_pos (Nat.mul_le_mul_left w h)
      rw [if_neg (by omega), Nat.div_eq_of_lt (Nat.lt_of_lt_of_le (lanesNat_lt w f (n + 1)) hle), Nat.zero_mod]

theorem lane_ofLanes {w n : Nat} (h : w * n ≤ 4096) (f : Nat → Nat) (k : Nat) :
    lane w (ofLanes w n f) k = if k < n then f k % 2 ^ w else 0 := by
  rw [lane, ofLanes, BitVec.toNat_ofNat,
    Nat.mod_eq_of_lt (Nat.lt_of_lt_of_le (lanesNat_lt w f n) (Nat.pow_le_pow_right Nat.two_pos h)), lane_lanesNat]

theorem lane_mod (w : Nat) (x : BitVec 4096) (k : Nat) : lane w x k % 2 ^ w = lane w x k := Nat.mod_mod _ _

/-- A bit of a mask that a compare writes. -/
theorem Slot.getLsbD_mergedMask (x : Slot) {n : Nat} (hn : n ≤ 1024) (d m : BitVec 2) (z : BitVec 1) (f : Nat → Bool) (k : Nat) :
    (x.mergedMask n d m z f).getLsbD k = if n ≤ k then false
      else if x.active m k then f k else if z = 1 then false else (x.mreg d).getLsbD k := by
  have hb (v : Bool) : decide (bit v % 2 = 1) = v := by cases v <;> rfl
  rw [Slot.mergedMask, BitVec.getLsbD_ofNat, Nat.testBit_eq_decide_div_mod_eq]
  have hl := lane_lanesNat 1 (fun k => bit (if x.active m k then f k else if z = 1 then false else (x.mreg d).getLsbD k)) n k
  rw [Nat.one_mul, Nat.pow_one] at hl
  rw [hl]
  by_cases h : k < n
  · have hk : k < 1024 := by omega
    rw [if_pos h, if_neg (Nat.not_le.2 h), hb, decide_eq_true hk, Bool.true_and]
  · rw [if_neg h, if_pos (Nat.not_lt.1 h)]
    simp

/-! ### The end of a vector instruction -/

@[simp] theorem Slot.vreg_advance (x : Slot) (r : BitVec 3) : x.advance.vreg r = x.vreg r := by
  rw [Slot.advance_eq]
  rfl

@[simp] theorem Slot.mreg_advance (x : Slot) (r : BitVec 2) : x.advance.mreg r = x.mreg r := by
  rw [Slot.advance_eq]
  rfl

@[simp] theorem Slot.setMreg_zero (x : Slot) (v : BitVec 1024) : x.setMreg 0#2 v = x := if_pos rfl

theorem laneBits_pos (w : BitVec 3) : 0 < laneBits w := Nat.mul_pos (by decide) (Nat.two_pow_pos _)

theorem laneBits_mul_count (w : BitVec 3) : laneBits w * (4096 / laneBits w) ≤ 4096 := Nat.mul_div_le _ _

section
variable {i : Instr} {s : State} {rs : List (BitVec 5)} (hr : ready s rs)
include hr

theorem slotDone_onSlot {f g : Slot → Slot} (hi : exec i s = .next (s.onSlot rs f)) (h : f s.cur = g s.cur) : slotDone i s g := by
  rw [slotDone, hi, State.onSlot_ready hr]
  exact congrArg _ (State.modCur_congr (congrArg Slot.advance h))

/-- An instruction that writes v[d] and nothing else. -/
theorem nextWith_setVreg {d : BitVec 3} {v : Slot → BitVec 4096} {P : BitVec 4096 → Prop}
    (hi : exec i s = .next (s.onSlot rs fun sl => sl.setVreg d (v sl))) (h : P (v s.cur)) :
    nextWith (exec i s) fun t => t = s.modCur (fun sl => (sl.setVreg d (t.cur.vreg d)).advance) ∧ P (t.cur.vreg d) := by
  have hv : (s.modCur fun sl => (sl.setVreg d (v sl)).advance).cur.vreg d = v s.cur := by
    rw [State.cur_modCur, Slot.vreg_advance, Slot.vreg_setVreg, if_pos rfl]
  refine ⟨_, hi.trans (congrArg _ (State.onSlot_ready hr _)), ?_⟩
  dsimp only
  rw [hv]
  exact ⟨State.modCur_congr rfl, h⟩

/-- An instruction that writes m[d] and nothing else; a write to m0 is discarded. -/
theorem nextWith_setMreg {d : BitVec 2} {v : Slot → BitVec 1024} {P : BitVec 1024 → Prop}
    (hi : exec i s = .next (s.onSlot rs fun sl => sl.setMreg d (v sl))) (h : P (v s.cur)) :
    nextWith (exec i s) fun t => t = s.modCur (fun sl => (sl.setMreg d (t.cur.mreg d)).advance) ∧ (d ≠ 0 → P (t.cur.mreg d)) := by
  refine ⟨_, hi.trans (congrArg _ (State.onSlot_ready hr _)), ?_⟩
  dsimp only
  rw [State.cur_modCur, Slot.mreg_advance, Slot.mreg_setMreg]
  by_cases hd : d = 0#2
  · subst hd
    exact ⟨State.modCur_congr (by rw [Slot.setMreg_zero, Slot.setMreg_zero]), fun h0 => absurd rfl h0⟩
  · rw [if_neg hd, if_pos rfl]
    exact ⟨State.modCur_congr rfl, fun _ => h⟩

/-- An instruction that writes lanes under a mask, from the value of each. -/
theorem lanesBecome_of_merged {d : BitVec 3} {m : BitVec 2} {z : BitVec 1} {w : BitVec 3} {f : Slot → Nat → Nat}
    {g : Nat → BitVec (laneBits w)}
    (hi : exec i s = .next (s.onSlot rs fun sl => sl.setVreg d (sl.merged (laneBits w) d m z (f sl))))
    (hg : ∀ k, f s.cur k % 2 ^ laneBits w = (g k).toNat) : lanesBecome i s d m z (laneBits w) (4096 / laneBits w) g := by
  refine nextWith_setVreg (P := fun v =>
    (∀ k, k < 4096 / laneBits w → BitVec.ofNat (laneBits w) (v.toNat / 2 ^ (laneBits w * k))
        = if s.cur.active m k then g k else if z = 1 then 0 else vlane s.cur (laneBits w) d k)
      ∧ ∀ k, 4096 / laneBits w ≤ k → k < 4096 / laneBits w → BitVec.ofNat (laneBits w) (v.toNat / 2 ^ (laneBits w * k)) = 0)
    hr hi ⟨fun k hk => ?_, fun k h0 h1 => absurd h1 (by omega)⟩
  apply BitVec.eq_of_toNat_eq
  rw [BitVec.toNat_ofNat]
  refine (lane_ofLanes (laneBits_mul_count w) _ k).trans ?_
  rw [if_pos hk]
  split
  · exact hg k
  split
  · exact Nat.zero_mod _
  · rw [lane_mod, vlane_toNat]

end

/-! ### Compares and masks (R142, R287, R294) -/

section
variable {n : Nat} (hn : n ≤ 64) (x y : BitVec n)
include hn

theorem slt_signExtend : (x.signExtend 64).slt (y.signExtend 64) = x.slt y := by
  rw [BitVec.slt, BitVec.slt, BitVec.toInt_signExtend_of_le hn, BitVec.toInt_signExtend_of_le hn]

theorem msb_signExtend : (x.signExtend 64).msb = x.msb := by
  rw [BitVec.msb_eq_toInt, BitVec.msb_eq_toInt, BitVec.toInt_signExtend_of_le hn]

/-- Sign extension keeps the unsigned order, which is the signed one but for the two signs. -/
theorem ult_signExtend : (x.signExtend 64).ult (y.signExtend 64) = x.ult y := by
  have h := BitVec.slt_eq_ult (x := x.signExtend 64) (y := y.signExtend 64)
  rw [slt_signExtend hn, msb_signExtend hn, msb_signExtend hn, BitVec.slt_eq_ult] at h
  simpa using h.symm

theorem signExtend_inj : x.signExtend 64 = y.signExtend 64 ↔ x = y := by
  rw [← BitVec.toInt_inj, ← BitVec.toInt_inj, BitVec.toInt_signExtend_of_le hn, BitVec.toInt_signExtend_of_le hn]

end

/-- The comparison of two lanes is that of their sign extensions. -/
theorem laneCompare (u : Slot) (w : BitVec 3) (a b : BitVec 3) (c k : Nat) :
    intCompare c (BitVec.ofInt 64 (sv (laneBits w) (lane (laneBits w) (u.vreg a) k)))
        (BitVec.ofInt 64 (sv (laneBits w) (lane (laneBits w) (u.vreg b) k)))
      = intCompare c ((vlane u (laneBits w) a k).signExtend 64) ((vlane u (laneBits w) b k).signExtend 64) := by
  rw [sv, sv, ← vlane_toNat, ← vlane_toNat, signed_toNat (laneBits_pos w), signed_toNat (laneBits_pos w)]
  rfl

theorem laneBits_le {w : BitVec 3} (hw : w.toNat ≤ 4) : laneBits w ≤ 64 :=
  Nat.mul_le_mul_left 4 (Nat.pow_le_pow_right Nat.two_pos hw)

theorem laneCount_le (w : BitVec 3) : 4096 / laneBits w ≤ 1024 :=
  Nat.div_le_div_left (c := 4) (Nat.le_mul_of_pos_right 4 (Nat.two_pow_pos _)) (by decide)

section
variable {s : State} {a b : BitVec 3} {d m : BitVec 2} {z : BitVec 1} {w : BitVec 3} {c : BitVec 4}

/-- VCMP writes the comparison that its code names. -/
theorem nextWith_vcmp {f : BitVec (laneBits w) → BitVec (laneBits w) → Bool}
    (hf : ∀ x y : BitVec (laneBits w), intCompare c.toNat (x.signExtend 64) (y.signExtend 64) = f x y) :
    nextWith (exec (.vcmp d a b m z w c) s) fun t =>
      t = s.modCur (fun sl => (sl.setMreg d (t.cur.mreg d)).advance)
      ∧ (d ≠ 0 → ∀ k, k < 1024 → (t.cur.mreg d).getLsbD k =
          if 4096 / laneBits w ≤ k then false
          else if s.cur.active m k then f (vlane s.cur (laneBits w) a k) (vlane s.cur (laneBits w) b k)
          else if z = 1 then false else (s.cur.mreg d).getLsbD k) := by
  refine nextWith_setMreg (rs := []) (P := fun v => ∀ k, k < 1024 → v.getLsbD k =
    if 4096 / laneBits w ≤ k then false
    else if s.cur.active m k then f (vlane s.cur (laneBits w) a k) (vlane s.cur (laneBits w) b k)
    else if z = 1 then false else (s.cur.mreg d).getLsbD k) rfl rfl fun k _ => ?_
  rw [Slot.getLsbD_mergedMask _ (laneCount_le w), laneCompare, hf]

end

theorem vectorMasks : VectorMasks := by
  intro s a b d m p q z w hw n
  have hn : laneBits w ≤ 64 := laneBits_le hw
  simp only [List.forall_mem_cons, List.not_mem_nil, false_imp_iff, implies_true, and_true]
  refine ⟨⟨?_, ?_, ?_, ?_, ?_, ?_, ?_, ?_, ?_, ?_, ?_, ?_⟩, ?_, ?_, ?_, ?_, ?_⟩
  · exact nextWith_vcmp (f := fun x y => x == y) fun x y => decide_eq_decide.2 (signExtend_inj hn x y)
  · exact nextWith_vcmp (f := fun x y => x != y) fun x y =>
      (decide_eq_decide.2 (not_congr (signExtend_inj hn x y))).trans (decide_not ..)
  · exact nextWith_vcmp (f := fun x y => x.slt y) fun x y => slt_signExtend hn x y
  · exact nextWith_vcmp (f := fun x y => y.sle x) fun x y =>
      (congrArg not (slt_signExtend hn x y)).trans BitVec.sle_eq_not_slt.symm
  · exact nextWith_vcmp (f := fun x y => x.sle y) fun x y =>
      (congrArg not (slt_signExtend hn y x)).trans BitVec.sle_eq_not_slt.symm
  · exact nextWith_vcmp (f := fun x y => y.slt x) fun x y => slt_signExtend hn y x
  · exact nextWith_vcmp (f := fun x y => x.ult y) fun x y => ult_signExtend hn x y
  · exact nextWith_vcmp (f := fun x y => y.ule x) fun x y =>
      (congrArg not (ult_signExtend hn x y)).trans (BitVec.ule_eq_not_ult ..).symm
  · exact nextWith_vcmp (f := fun x y => x.ule y) fun x y =>
      (congrArg not (ult_signExtend hn y x)).trans (BitVec.ule_eq_not_ult ..).symm
  · exact nextWith_vcmp (f := fun x y => y.ult x) fun x y => ult_signExtend hn y x
  · exact nextWith_vcmp (f := fun _ _ => true) fun _ _ => rfl
  · exact nextWith_vcmp (f := fun _ _ => false) fun _ _ => rfl
  all_goals exact slotDone_onSlot (rs := []) rfl rfl rfl

/-! ### Permutes (R293) -/

theorem lane_lt (w : Nat) (x : BitVec 4096) (k : Nat) : lane w x k < 2 ^ w := Nat.mod_lt _ (Nat.two_pow_pos w)

section
variable (u : Slot) (w : BitVec 3) (a b : BitVec 3) (m : BitVec 2)

/-- The active lanes' values are those of the active lanes. -/
theorem Slot.activeVals_eq : u.activeVals (laneBits w) a m
    = (((List.range (4096 / laneBits w)).filter fun k => u.active m k).map fun k => vlane u (laneBits w) a k).map BitVec.toNat := by
  rw [List.map_map]
  exact List.map_congr_left fun k _ => (vlane_toNat u _ a k).symm

theorem half_laneCount : 2048 / laneBits w = 4096 / laneBits w / 2 := by
  rw [Nat.div_div_eq_div_mul, show 4096 = 2048 * 2 from rfl, Nat.mul_div_mul_right _ _ Nat.two_pos]

theorem laneOr0_toNat (j : Nat) : laneOr0 (laneBits w) (u.vreg a) j
    = (if j < 4096 / laneBits w then vlane u (laneBits w) a j else 0).toNat := by
  rw [laneOr0]
  split
  · rw [vlane_toNat]
  · rfl

theorem slideUp_toNat (h k : Nat) : (if h ≤ k then lane (laneBits w) (u.vreg a) (k - h) else 0)
    = (if h ≤ k then vlane u (laneBits w) a (k - h) else 0).toNat := by
  split
  · rw [vlane_toNat]
  · rfl

theorem zipLane_toNat (o k : Nat) : zipLane (laneBits w) o (u.vreg a) (u.vreg b) k
    = (if k % 2 = 0 then vlane u (laneBits w) a (o + k / 2) else vlane u (laneBits w) b (o + k / 2)).toNat := by
  rw [zipLane, Nat.add_comm]
  split <;> rw [vlane_toNat]

theorem unzLane_toNat (o k : Nat) : unzLane (laneBits w) o (u.vreg a) (u.vreg b) k
    = (if k < 4096 / laneBits w / 2 then vlane u (laneBits w) a (2 * k + o)
        else vlane u (laneBits w) b (2 * (k - 4096 / laneBits w / 2) + o)).toNat := by
  rw [unzLane, half_laneCount]
  split <;> rw [vlane_toNat]

end

section
variable {i : Instr} {s : State} {d : BitVec 3} {m : BitVec 2} {z : BitVec 1} {w : BitVec 3} {rs : List (BitVec 5)}

/-- A permute gives each lane the value that it names. -/
theorem lanesBecome_of_lanes {f : Slot → Nat → Nat} {g : Nat → BitVec (laneBits w)} (hr : ready s rs)
    (hi : exec i s = .next (s.onSlot rs fun sl => sl.setVreg d (sl.merged (laneBits w) d m z (f sl))))
    (hg : ∀ k, f s.cur k = (g k).toNat) : lanesBecome i s d m z (laneBits w) (4096 / laneBits w) g :=
  lanesBecome_of_merged hr hi fun k => by rw [hg, Nat.mod_eq_of_lt (g k).isLt]

end

theorem vectorPermutes : VectorPermutes := by
  intro s d a b c m z w hw hr n l x y g act
  have hx (k : Nat) : lane (laneBits w) (s.cur.vreg a) k = (x k).toNat := (vlane_toNat s.cur _ a k).symm
  have hvals : s.cur.activeVals (laneBits w) a m = act.map fun k => (x k).toNat := List.map_congr_left fun k _ => hx k
  simp only [List.forall_mem_cons, List.not_mem_nil, false_imp_iff, implies_true, and_true]
  refine ⟨⟨?_, ?_, ?_, ?_, ?_, ?_, ?_, ?_⟩, ?_, ?_⟩
  · refine lanesBecome_of_lanes (rs := []) rfl rfl fun k => ?_
    rw [laneOr0_toNat, ← vlane_toNat]
    rfl
  · exact lanesBecome_of_lanes hr rfl fun k => slideUp_toNat ..
  · exact lanesBecome_of_lanes hr rfl fun k => laneOr0_toNat ..
  · refine lanesBecome_of_lanes (rs := []) rfl rfl fun k => ?_
    rw [zipLane_toNat, Nat.zero_add]
    rfl
  · refine lanesBecome_of_lanes (rs := []) rfl rfl fun k => ?_
    rw [half_laneCount, zipLane_toNat]
    rfl
  · exact lanesBecome_of_lanes (rs := []) rfl rfl fun k => unzLane_toNat ..
  · exact lanesBecome_of_lanes (rs := []) rfl rfl fun k => unzLane_toNat ..
  · refine lanesBecome_of_lanes (rs := []) rfl rfl fun k => ?_
    rw [hx, List.countP_eq_length_filter]
    rfl
  · refine nextWith_setVreg (rs := []) (P := fun v => ∀ k, k < l → BitVec.ofNat n (v.toNat / 2 ^ (n * k)) = match act[k]? with
      | some j => x j
      | none => 0) rfl rfl fun k hk => ?_
    apply BitVec.eq_of_toNat_eq
    rw [BitVec.toNat_ofNat]
    refine (lane_ofLanes (laneBits_mul_count w) _ k).trans ?_
    refine (if_pos hk).trans ?_
    rw [hvals, List.getD_eq_getElem?_getD, List.getElem?_map]
    cases act[k]? with
    | none => exact Nat.zero_mod _
    | some j => exact Nat.mod_eq_of_lt (x j).isLt
  · refine slotDone_onSlot hr rfl (congrArg (Slot.setSreg s.cur (global c)) ?_)
    rw [hvals]
    cases act with
    | nil => rfl
    | cons j r => exact BitVec.ofNat_toNat ..

/-! ### Reductions (R292) -/

/-- An integer reduction of some values, as a register with zeros above lane 0. -/
theorem ofNat_intBits (x : Int) : BitVec.ofNat 4096 (intBits 64 x) = (BitVec.ofInt 64 x).zeroExtend 4096 := by
  rw [intBits, ← BitVec.toNat_ofInt]
  exact BitVec.ofNat_toNat ..

section
variable {n : Nat} (l : List (BitVec n))

theorem foldl_toNat {f : BitVec n → BitVec n → BitVec n} {g : Nat → Nat → Nat} (h : ∀ x y, (f x y).toNat = g x.toNat y.toNat)
    (e : BitVec n) : (l.map BitVec.toNat).foldl g e.toNat = (l.foldl f e).toNat := by
  rw [List.foldl_map]
  exact List.foldl_hom BitVec.toNat fun x y => (h x y).symm

theorem map_sv (hn : 0 < n) : ((l.map BitVec.toNat).map fun x => sv n x) = l.map fun x => x.toInt := by
  rw [List.map_map]
  exact List.map_congr_left fun x _ => signed_toNat hn x

end

/-- The values of a reduction as integers, as its definition lifts them. -/
theorem lift_natCast (ns : List Nat) : (do let x ← ns; pure (x : Int)) = ns.map Int.ofNat := by
  induction ns with
  | nil => rfl
  | cons x ns ih => exact congrArg (Int.ofNat x :: ·) ih

theorem foldl_natCast {f : Int → Int → Int} {g : Nat → Nat → Nat} (h : ∀ x y : Nat, f x y = (g x y : Nat)) (ns : List Nat)
    (e : Nat) :
    (ns.map Int.ofNat).foldl f e = (ns.foldl g e : Nat) := by
  rw [List.foldl_map]
  exact List.foldl_hom (g₂ := fun (x : Int) (y : Nat) => f x y) Int.ofNat h

/-- A reduction of the active lanes. -/
theorem slotDone_vred {i : Instr} {s : State} {d a : BitVec 3} {m : BitVec 2} {w : BitVec 3} {f : Nat → List Nat → Int} {v : Word}
    (hi : exec i s = .next (s.vred d a m w f)) (hv : BitVec.ofInt 64 (f (laneBits w) (s.cur.activeVals (laneBits w) a m)) = v) :
    slotDone i s fun sl => sl.setVreg d (v.zeroExtend 4096) :=
  slotDone_onSlot (rs := []) rfl hi (by rw [ofNat_intBits, hv])

/-- A bitwise reduction of the active lanes. -/
theorem slotDone_vred_foldl {i : Instr} {s : State} {d a : BitVec 3} {m : BitVec 2} {w : BitVec 3} {F : Nat → List Nat → Int}
    {f : BitVec (laneBits w) → BitVec (laneBits w) → BitVec (laneBits w)} {g : Nat → Nat → Nat} {e : BitVec (laneBits w)}
    {vs : List (BitVec (laneBits w))} (hi : exec i s = .next (s.vred d a m w F))
    (hvals : s.cur.activeVals (laneBits w) a m = vs.map BitVec.toNat) (hF : ∀ l, F (laneBits w) l = (l.foldl g e.toNat : Nat))
    (h : ∀ x y, (f x y).toNat = g x.toNat y.toNat) :
    slotDone i s fun sl => sl.setVreg d (((vs.foldl f e).setWidth 64).zeroExtend 4096) := by
  refine slotDone_vred hi ?_
  rw [hF, hvals, foldl_toNat vs h, BitVec.ofInt_natCast]
  exact BitVec.ofNat_toNat ..

theorem vectorReductions : VectorReductions := by
  intro s d a m w hw n vs
  have hvals : s.cur.activeVals (laneBits w) a m = vs.map BitVec.toNat := Slot.activeVals_eq ..
  have hsv : ((vs.map BitVec.toNat).map fun x => sv (laneBits w) x) = vs.map fun x => x.toInt := map_sv vs (laneBits_pos w)
  simp only [List.forall_mem_cons, List.not_mem_nil, false_imp_iff, implies_true, and_true]
  refine ⟨?_, ?_, ?_, ?_, ?_, ?_, ?_, ?_⟩
  · exact slotDone_vred rfl (by rw [hvals, hsv])
  · exact slotDone_vred rfl (by rw [hvals, hsv, leastFrom]; push_cast; rfl)
  · exact slotDone_vred rfl (by rw [hvals, hsv, greatestOf]; push_cast; rfl)
  · refine slotDone_vred rfl ?_
    have htop : ((2 ^ laneBits w : Nat) : Int) - 1 = (2 ^ laneBits w - 1 : Nat) :=
      (Nat.cast_pred (Nat.two_pow_pos _)).symm
    rw [hvals, leastFrom, htop, List.map_id', lift_natCast, foldl_natCast (g := min) fun _ _ => (Nat.cast_min ..).symm]
    exact BitVec.ofInt_natCast ..
  · refine slotDone_vred rfl ?_
    rw [hvals, greatestOf, List.map_id', lift_natCast, ← Int.natCast_zero, foldl_natCast (g := max) fun _ _ => (Nat.cast_max ..).symm]
    exact BitVec.ofInt_natCast ..
  · exact slotDone_vred_foldl (e := BitVec.allOnes (laneBits w)) rfl hvals (fun _ => by rw [BitVec.toNat_allOnes]) BitVec.toNat_and
  · exact slotDone_vred_foldl rfl hvals (fun _ => rfl) BitVec.toNat_or
  · exact slotDone_vred_foldl rfl hvals (fun _ => rfl) BitVec.toNat_xor

/-- Settles O21: a register built of lanes reads back lane by lane, so that a compare, a permute and a reduction are each their value lane
by lane. -/
theorem vectorMasksAndPermutes : Obligations.VectorMasksAndPermutes :=
  ⟨vectorMasks, vectorPermutes, vectorReductions⟩

end Sys2Proof.Machine
end

section
/-!
SUPPORT. What an element sends without a value of its own: STEER, MSEL, SIG, SIG2 and HALT (R178, R202-R206).
-/
namespace Sys2Proof.Machine
open Sys2Proof.Rules

/-! ### The running element -/

theorem State.ft_of_elem {s : State} {t e k : Nat} (h : s.focus = .elem t e k) : s.ft = t := by rw [State.ft, h]

theorem State.fk_of_elem {s : State} {t e k : Nat} (h : s.focus = .elem t e k) : s.fk = e := by rw [State.fk, h]

@[simp] theorem State.focus_popAll (s : State) (t e : Nat) (f : TForm) : (s.popAll t e f).focus = s.focus := by
  unfold State.popAll
  dsimp only
  repeat' split
  all_goals rfl

@[simp] theorem State.focus_modElem (s : State) (t e : Nat) (g : Elem → Elem) : (s.modElem t e g).focus = s.focus := rfl

theorem Token.gap_iff (k : Token) : k.gap = true ↔ k.poison = false ∧ k.tag = 7 := by
  rw [Token.gap, Bool.and_eq_true, Bool.not_eq_true', beq_iff_eq]

/-! ### A firing that produces no value -/

theorem State.fireFixed_of_guard {s : State} {t e k : Nat} (h : s.focus = .elem t e k) {f : TForm} {ok : Bool}
    (hg : s.guardOk t e f none 0 = true) (hok : ok = true) (go : State → Token → Token → State) :
    s.fireFixed f ok go = go ((s.popAll t e f).modElem t e Elem.fired) (((s.tile t).fabric.elem e).opnd f.a)
      (((s.tile t).fabric.elem e).opnd f.b) := by
  rw [State.fireFixed, State.ft_of_elem h, State.fk_of_elem h]
  exact if_pos (by rw [hok, hg]; rfl)

/-- The effect of SIG and SIG2 at an element: poison is reported, a gap sends nothing. -/
theorem State.sig_eq {s : State} {t e k : Nat} (h : s.focus = .elem t e k) (label : Nat) (a b : Token) :
    s.sig label false a b = (if a.poison then s.sinkReport t e 3 a.data
        else if a.tag = 7 then s else s.elemSend label false a.data b.data)
    ∧ s.sig label true a b = if a.poison then s.sinkReport t e 3 a.data
        else if b.poison then s.sinkReport t e 3 b.data
        else if a.tag = 7 ∨ b.tag = 7 then s else s.elemSend label true a.data b.data := by
  rw [State.sig, State.sig, State.ft_of_elem h, State.fk_of_elem h]
  constructor
  · cases ha : a.poison <;> simp [Token.gap, ha]
  · cases ha : a.poison <;> cases hb : b.poison <;> simp [Token.gap, ha, hb]

/-- Settles O42: each instruction by what its guard lets through, on a plain operand, a gap and poison. Which of two
poisoned operands SIG2 reports is the model's choice (log 57). -/
theorem elementSends : Obligations.ElementSends := by
  intro s t e k g x u a b i l h E A B f1 f2 f0 go token selTok
  have hgo (f : TForm) : (go f).focus = .elem t e k := (s.focus_popAll t e f).trans h
  have hgap : A.gap = true ↔ A.poison = false ∧ A.tag = 7 := A.gap_iff
  refine ⟨fun hg hr => ?_, fun hg hr => ?_, fun hg hr => ?_, fun hg hr => ?_, fun hg => ?_⟩
  · refine congrArg _ ((State.fireFixed_of_guard h hg (by rw [State.ft_of_elem h, hr]) _).trans ?_)
    simp only [State.ft_of_elem h, State.fk_of_elem h]
    exact if_congr hgap rfl rfl
  · refine congrArg _ ((State.fireFixed_of_guard h hg (by rw [State.ft_of_elem h, hr]) _).trans ?_)
    simp only [State.ft_of_elem h, State.fk_of_elem h]
    exact if_congr hgap rfl rfl
  · exact congrArg _ ((State.fireFixed_of_guard h hg hr _).trans (State.sig_eq (hgo f1) _ _ _).1)
  · exact congrArg _ ((State.fireFixed_of_guard h hg hr _).trans (State.sig_eq (hgo f2) _ _ _).2)
  · refine congrArg _ ((State.fireFixed_of_guard h hg rfl _).trans ?_)
    rw [State.ft_of_elem h, State.fk_of_elem h]

end Sys2Proof.Machine
end

section
/-!
SUPPORT. The firings of an element's integer instructions: the token of a result and its value (R171, R180-R185, R192, R195).
-/
namespace Sys2Proof.Machine
open Sys2Proof.Rules

/-! ### The token of a result (R171) -/

theorem plain_eq (k : Token) : plain k = !(k.poison || k.gap) := by
  cases hp : k.poison <;> simp [plain, Token.gap, hp, bne]

theorem resultRule_resultToken (t u : Nat) (a : Token) (rest : List Token) (x : Exc) (v : Word) :
    resultRule t u a rest x v (resultToken t u (a :: rest) x v) := by
  refine ⟨fun p hp => ?_, fun hno hgap => ?_, fun hall => ?_⟩
  · rw [resultToken, hp]
    rfl
  · obtain ⟨o, ho, htag⟩ := hgap
    rw [resultToken, List.find?_eq_none.2 fun o ho => by simp [hno o ho]]
    exact if_pos (List.any_eq_true.2 ⟨o, ho, o.gap_iff.2 ⟨hno o ho, htag⟩⟩)
  · have hclean : ∀ o ∈ a :: rest, o.poison = false ∧ o.gap = false := fun o ho => by
      have h := hall o ho
      rw [plain_eq] at h
      simpa using h
    rw [resultToken, List.find?_eq_none.2 fun o ho => by simp [(hclean o ho).1]]
    dsimp only
    rw [if_neg fun h => by
      obtain ⟨o, ho, hg⟩ := List.any_eq_true.1 h
      rw [(hclean o ho).2] at hg
      cases hg]
    refine ⟨fun h4 => ?_, fun h4 h3 => ?_, fun h4 h3 h2 => ?_, fun h4 h3 h2 => ?_⟩
    all_goals simp only [poisons, poisonCause, List.head?_cons, Option.getD_some, *, Bool.true_or, Bool.or_true, Bool.or_self, Bool.false_eq_true, if_true, if_false]

/-! ### A firing that produces a value (R170-R173, R263) -/

/-- The operand of an addend register; a form without one reads as data 0. -/
def Elem.addend (E : Elem) (c : Option (BitVec 3)) : Token :=
  match c with
  | some k => E.d[k.toNat]'k.isLt
  | none => Token.zero

section
variable {s : State} {t e k : Nat} (h : s.focus = .elem t e k)
include h

theorem State.fireVal_of_guard {i : Instr} {v : ValOp} (hv : valOp i = some v)
    (hg : s.guardOk t e v.form v.addend v.copies = true) :
    s.fireVal i =
      let E := (s.tile t).fabric.elem e
      let A := E.opnd v.form.a
      let B := E.opnd v.form.b
      let C := E.addend v.addend
      fired s k v.form (plain A && plain B && plain C) v.draws v.copies v.q (v.tok t e E.q (s.elemDraw t e) A B C) := by
  extract_lets E A B C
  have hclean : (plain A && plain B && plain C) = !([A, B, C].any fun k => k.poison || k.gap) := by
    simp only [plain_eq, List.any_cons, List.any_nil, Bool.or_false, Bool.not_or, Bool.and_assoc]
  rw [hclean, fired, State.ft_of_elem h, State.fk_of_elem h, State.fireVal, State.ft_of_elem h, State.fk_of_elem h, h]
  simp only [hv]
  exact if_pos hg

section
variable {i : Instr} {F : TForm} {n : Nat} {p : BitVec 3} {add : Option (BitVec 3)} {dr : Nat}
  {tok : Nat → Nat → BitVec 8 → (Nat → Nat) → Token → Token → Token → Token} (hi : exec i s = .next (s.fireVal i))
  (hv : valOp i = some ⟨F, n, p, add, dr, tok⟩) {clean : Bool}
  (hc : (let E := (s.tile t).fabric.elem e
    plain (E.opnd F.a) && plain (E.opnd F.b) && plain (E.addend add)) = clean)
include hi hv hc

theorem fires_token {r : Token} (htok : (let E := (s.tile t).fabric.elem e
      tok t e E.q (s.elemDraw t e) (E.opnd F.a) (E.opnd F.b) (E.addend add)) = r)
    (hg : s.guardOk t e F add n = true) : exec i s = .next (fired s k F clean dr n p r) := by
  rw [hi, State.fireVal_of_guard h hv hg, ← htok, ← hc]

/-- An instruction whose token is a result of R171. -/
theorem fires_result {a : Token} {rest : List Token} {x : Exc} {val : Word} (htok : (let E := (s.tile t).fabric.elem e
      tok t e E.q (s.elemDraw t e) (E.opnd F.a) (E.opnd F.b) (E.addend add)) = resultToken t e (a :: rest) x val)
    (hg : s.guardOk t e F add n = true) :
    ∃ r, resultRule t e a rest x val r ∧ exec i s = .next (fired s k F clean dr n p r) :=
  ⟨_, resultRule_resultToken t e a rest x val, fires_token h hi hv hc htok hg⟩

end

/-- An integer instruction of two operands. -/
theorem fires_word {i : Instr} {F : TForm} {f : Word → Word → Word} (hi : exec i s = .next (s.fireVal i))
    (hv : valOp i = some (wordOp F f)) {val : Word}
    (hval : (let E := (s.tile t).fabric.elem e
      f (E.opnd F.a).data (E.opnd F.b).data) = val) (hg : s.guardOk t e F none 1 = true) :
    let E := (s.tile t).fabric.elem e
    ∃ r, resultRule t e (E.opnd F.a) [E.opnd F.b] 0 val r
      ∧ exec i s = .next (fired s k F (plain (E.opnd F.a) && plain (E.opnd F.b)) 0 1 0 r) :=
  fires_result h hi hv (Bool.and_true _) (by rw [← hval]) hg

end

/-! ### Lanes (R180) -/

theorem lanesNat_eq_sum (w : Nat) (f : Nat → Nat) (n : Nat) :
    lanesNat w f n = ((List.range n).map fun i => f i % 2 ^ w * 2 ^ (w * i)).sum := by
  induction n with
  | zero => rfl
  | succ n ih => simp [lanesNat, ih, List.range_succ]

theorem laneMap_word (f : Nat → Nat → Nat) (x y : Word) : laneMap 64 1 f x y = BitVec.ofNat 64 (f x.toNat y.toNat) := by
  apply BitVec.eq_of_toNat_eq
  simp [laneMap, lanesNat, Nat.mod_eq_of_lt x.isLt, Nat.mod_eq_of_lt y.isLt]

theorem laneMap_bytes {f h : Nat → Nat → Nat} (hf : ∀ i < 256, ∀ j < 256, f i j % 256 = h i j % 256) (x y : Word) :
    laneMap 8 8 f x y = BitVec.ofNat 64 (((List.range 8).map fun i =>
      h (x.toNat / 256 ^ i % 256) (y.toNat / 256 ^ i % 256) % 256 * 256 ^ i).sum) := by
  rw [laneMap, lanesNat_eq_sum]
  refine congrArg _ (congrArg _ (List.map_congr_left fun i _ => ?_))
  rw [Nat.pow_mul]
  exact congrArg (· * _) (hf _ (Nat.mod_lt _ (by decide)) _ (Nat.mod_lt _ (by decide)))

theorem ofNat_laneMin_signed (isMax : Bool) (x y : Word) :
    BitVec.ofNat 64 (laneMin true isMax 64 x.toNat y.toNat)
      = BitVec.ofInt 64 (if isMax then max x.toInt y.toInt else min x.toInt y.toInt) := by
  have hx : BitVec.ofInt 64 x.toInt = x := BitVec.ofInt_toInt
  have hy : BitVec.ofInt 64 y.toInt = y := BitVec.ofInt_toInt
  simp only [laneMin, if_true, signed_toNat (by decide : 0 < 64)]
  by_cases hlt : x.toInt < y.toInt
  · cases isMax <;> simp [hlt, hx, hy, max_eq_right hlt.le, min_eq_left hlt.le]
  · cases isMax <;> simp [hlt, hx, hy, max_eq_left (not_lt.1 hlt), min_eq_right (not_lt.1 hlt)]

theorem laneMin_signed (isMax : Bool) (w x y : Nat) :
    laneMin true isMax w x y = if signed w x < signed w y then (if isMax then y else x) else if isMax then x else y := by
  by_cases hlt : signed w x < signed w y <;> cases isMax <;> simp [laneMin, hlt]

theorem laneMin_unsigned (isMax : Bool) (w x y : Nat) : laneMin false isMax w x y = if isMax then max x y else min x y := by
  simp only [laneMin, if_false, Bool.false_eq_true]
  by_cases hlt : x < y
  · cases isMax <;> simp [hlt, max_eq_right hlt.le, min_eq_left hlt.le]
  · cases isMax <;> simp [hlt, max_eq_left (not_lt.1 hlt), min_eq_right (not_lt.1 hlt)]

section
variable {s : State} {t e k : Nat} (h : s.focus = .elem t e k) {i : Instr} {F : TForm} {f : Nat → Nat → Nat → Nat}
  (hi : exec i s = .next (s.fireVal i))
include h hi

/-- An integer instruction on 64 bits. -/
theorem fires_64 (hv : valOp i = some (intOp F 0 f)) {val : Word}
    (hval : (let E := (s.tile t).fabric.elem e
      BitVec.ofNat 64 (f 64 (E.opnd F.a).data.toNat (E.opnd F.b).data.toNat)) = val) (hg : s.guardOk t e F none 1 = true) :
    let E := (s.tile t).fabric.elem e
    ∃ r, resultRule t e (E.opnd F.a) [E.opnd F.b] 0 val r
      ∧ exec i s = .next (fired s k F (plain (E.opnd F.a) && plain (E.opnd F.b)) 0 1 0 r) :=
  fires_word h hi (f := laneMap 64 1 (f 64)) (hv.trans rfl) ((laneMap_word _ _ _).trans hval) hg

/-- An integer instruction on eight lanes of 8 bits. -/
theorem fires_8x8 (hv : valOp i = some (intOp F 1 f)) (l : Nat → Nat → Nat)
    (hf : ∀ i < 256, ∀ j < 256, f 8 i j % 256 = l i j % 256) (hg : s.guardOk t e F none 1 = true) :
    let E := (s.tile t).fabric.elem e
    ∃ r, resultRule t e (E.opnd F.a) [E.opnd F.b] 0 (BitVec.ofNat 64 (((List.range 8).map fun i =>
        l ((E.opnd F.a).data.toNat / 256 ^ i % 256) ((E.opnd F.b).data.toNat / 256 ^ i % 256) % 256 * 256 ^ i).sum)) r
      ∧ exec i s = .next (fired s k F (plain (E.opnd F.a) && plain (E.opnd F.b)) 0 1 0 r) :=
  fires_word h hi (f := laneMap 8 8 (f 8)) (hv.trans rfl) (laneMap_bytes hf _ _) hg

end

/-! ### Values on 64 bits (R180) -/

section
variable (x y : Word)

theorem ofNat_add_mod : BitVec.ofNat 64 ((x.toNat + y.toNat) % 2 ^ 64) = x + y :=
  BitVec.eq_of_toNat_eq (by rw [BitVec.toNat_ofNat, Nat.mod_mod, BitVec.toNat_add])

theorem ofNat_sub_mod : BitVec.ofNat 64 ((x.toNat + 2 ^ 64 - y.toNat) % 2 ^ 64) = x - y :=
  BitVec.eq_of_toNat_eq (by
    rw [BitVec.toNat_ofNat, Nat.mod_mod, BitVec.toNat_sub, Nat.add_sub_assoc y.isLt.le, Nat.add_comm])

theorem ofNat_mul_mod : BitVec.ofNat 64 (x.toNat * y.toNat % 2 ^ 64) = x * y :=
  BitVec.eq_of_toNat_eq (by rw [BitVec.toNat_ofNat, Nat.mod_mod, BitVec.toNat_mul])

end

theorem ofNat_shiftLeft (x : Word) (n : Nat) : x <<< n = BitVec.ofNat 64 (x.toNat * 2 ^ n) := by
  apply BitVec.eq_of_toNat_eq
  rw [BitVec.toNat_shiftLeft, BitVec.toNat_ofNat, Nat.shiftLeft_eq]

theorem ofNat_shiftRight (x : Word) (n : Nat) : x >>> n = BitVec.ofNat 64 (x.toNat / 2 ^ n) := by
  rw [← Nat.shiftRight_eq_div_pow, ← BitVec.toNat_ushiftRight, BitVec.ofNat_toNat, BitVec.setWidth_eq]

theorem ofInt_sshiftRight (x : Word) (n : Nat) : x.sshiftRight n = BitVec.ofInt 64 (x.toInt / 2 ^ n) := by
  rw [BitVec.sshiftRight, Int.shiftRight_eq_div_pow]
  rfl

/-! ### The statement -/

/-- Settles O39: every instruction by the value of its lanes, and its token by the cases of R171. -/
theorem elementIntegerFirings : Obligations.ElementIntegerFirings := by
  intro s t e k g x u d a b c w z o p h E A B X Y F lane sg
  have hsg (i : Nat) (hi : i < 256) : signed 8 i = sg i := by
    have := signed_toNat (by decide : 0 < 8) (BitVec.ofNat 8 i)
    rwa [BitVec.toNat_ofNat, Nat.mod_eq_of_lt hi] at this
  simp only [List.forall_mem_cons, List.not_mem_nil, false_imp_iff, implies_true, and_true]
  refine ⟨⟨?_, ?_, ?_, ?_, ?_, ?_, ?_, ?_, ?_, ?_, ?_, ?_, ?_, ?_, ?_, ?_, ?_, ?_, ?_, ?_, ?_, ?_, ?_⟩, ?_, ?_, ?_, ?_, ?_⟩
  · exact fires_64 h (F := F) rfl rfl (ofNat_add_mod X Y)
  · exact fires_64 h (F := F) rfl rfl (ofNat_sub_mod X Y)
  · exact fires_64 h (F := F) rfl rfl (ofNat_mul_mod X Y)
  · exact fires_word h (F := F) rfl rfl rfl
  · exact fires_word h (F := F) rfl rfl rfl
  · exact fires_word h (F := F) rfl rfl rfl
  · exact fires_word h (F := F) rfl rfl rfl
  · exact fires_word h (F := F) rfl rfl (ofNat_shiftLeft X _)
  · exact fires_word h (F := F) rfl rfl (ofNat_shiftRight X _)
  · exact fires_word h (F := F) rfl rfl (ofInt_sshiftRight X _)
  · exact fires_64 h (F := F) rfl rfl (ofNat_laneMin_signed false X Y)
  · exact fires_64 h (F := F) rfl rfl (ofNat_laneMin_signed true X Y)
  · exact fires_64 h (F := F) rfl rfl (congrArg (BitVec.ofNat 64) (laneMin_unsigned false 64 _ _))
  · exact fires_64 h (F := F) rfl rfl (congrArg (BitVec.ofNat 64) (laneMin_unsigned true 64 _ _))
  · exact fires_8x8 h (F := F) rfl rfl (fun i j => i + j) fun i _ j _ => Nat.mod_mod _ _
  · exact fires_8x8 h (F := F) rfl rfl (fun i j => 256 + i - j) fun i _ j _ => by rw [Nat.add_comm 256]; exact Nat.mod_mod _ _
  · exact fires_8x8 h (F := F) rfl rfl (fun i j => i * j) fun i _ j _ => Nat.mod_mod _ _
  · exact fires_8x8 h (F := F) rfl rfl min fun i _ j _ => congrArg (· % 256) (laneMin_unsigned false 8 i j)
  · exact fires_8x8 h (F := F) rfl rfl max fun i _ j _ => congrArg (· % 256) (laneMin_unsigned true 8 i j)
  · exact fires_8x8 h (F := F) rfl rfl (fun i j => if sg i < sg j then i else j) fun i hi j hj => by
      rw [laneMin_signed, hsg i hi, hsg j hj]
      rfl
  · exact fires_8x8 h (F := F) rfl rfl (fun i j => if sg i < sg j then j else i) fun i hi j hj => by
      rw [laneMin_signed, hsg i hi, hsg j hj]
      rfl
  · exact fires_word h (F := F) rfl rfl rfl
  · exact fires_word h (F := F) rfl rfl rfl
  · exact fires_result h rfl rfl (Bool.and_true _) rfl
  · refine fires_token h rfl rfl (Bool.and_true _) ?_
    show (if E.q.getLsbD p.toNat != decide (o = 1) then A else B) = _
    refine if_congr ?_ rfl rfl
    obtain rfl | rfl : o = 0 ∨ o = 1 := by decide +revert
    all_goals simp
  · exact fires_result h rfl rfl ((Bool.and_true _).trans (Bool.and_true _)) rfl
  · refine fires_token h rfl rfl ((Bool.and_true _).trans (Bool.and_true _)) ?_
    exact congrArg (Token.mk A.poison p) (if_congr A.gap_iff rfl rfl)
  · exact fun n => fires_result h rfl rfl ((Bool.and_true _).trans (Bool.and_true _)) rfl

end Sys2Proof.Machine
end

section
/-!
SUPPORT. The firings of an element's floating-point instructions (R164, R186-R190).
-/
namespace Sys2Proof.Machine
open Sys2Proof.Rules

/-! ### The lanes of a form (R164) -/

theorem gather_eq (w n : Nat) (o : Nat → FRes) :
    gather w n o = ((List.range n).foldl (fun y i => y ||| (o i).exc) 0,
      BitVec.ofNat 64 (((List.range n).map fun i => (o i).bits % 2 ^ w * 2 ^ (w * i)).sum)) := by
  rw [gather, lanesNat_eq_sum]

theorem formLanes_eq (m : BitVec 2) :
    formLanes m = (if m = 0 then 64 else if m = 3 then 16 else 32, if m = 3 then 4 else if m = 2 then 2 else 1,
      if m = 0 then f64 else if m = 3 then bf16 else f32) := by decide +revert

section
variable {s : State} {t e k : Nat} (h : s.focus = .elem t e k) {i : Instr} (hi : exec i s = .next (s.fireVal i)) {F : TForm}
include h hi

section
variable {m : BitVec 2} {W N : Nat} {G : FFmt} (hL : formLanes m = (W, N, G))
include hL

/-- A rounded instruction, by the lanes of its form. -/
theorem fires_round {r : BitVec 3} {f : FFmt → Nat → Nat → Nat → Nat → Nat → FRes} (hv : valOp i = some (roundOp F m r none f))
    (hg : s.guardOk t e F none 1 = true) :
    let E := (s.tile t).fabric.elem e
    let A := E.opnd F.a
    let B := E.opnd F.b
    let o := gather W N fun j => f G r.toNat (s.elemDraw t e j) (wlane W A.data j) (wlane W B.data j) (wlane W 0 j)
    ∃ v, resultRule t e A [B] o.1 o.2 v
      ∧ exec i s = .next (fired s k F (plain A && plain B) (if r = 4 then N else 0) 1 0 v) := by
  rw [roundOp, hL] at hv
  exact fires_result h hi hv (Bool.and_true _) rfl hg

/-- A rounded instruction that adds a data register. -/
theorem fires_round_addend {r c : BitVec 3} {f : FFmt → Nat → Nat → Nat → Nat → Nat → FRes}
    (hv : valOp i = some (roundOp F m r (some c) f)) (hg : s.guardOk t e F (some c) 1 = true) :
    let E := (s.tile t).fabric.elem e
    let A := E.opnd F.a
    let B := E.opnd F.b
    let C := E.d[c.toNat]'c.isLt
    let o := gather W N fun j => f G r.toNat (s.elemDraw t e j) (wlane W A.data j) (wlane W B.data j) (wlane W C.data j)
    ∃ v, resultRule t e A [B, C] o.1 o.2 v
      ∧ exec i s = .next (fired s k F (plain A && plain B && plain C) (if r = 4 then N else 0) 1 0 v) := by
  rw [roundOp, hL] at hv
  exact fires_result h hi hv rfl rfl hg

theorem fires_minmax {isMax : Bool} (hv : valOp i = some (minmaxOp F m isMax)) (hg : s.guardOk t e F none 1 = true) :
    let E := (s.tile t).fabric.elem e
    let A := E.opnd F.a
    let B := E.opnd F.b
    let o := gather W N fun j => G.minmax isMax (wlane W A.data j) (wlane W B.data j)
    ∃ v, resultRule t e A [B] o.1 o.2 v ∧ exec i s = .next (fired s k F (plain A && plain B) 0 1 0 v) := by
  rw [minmaxOp, hL] at hv
  exact fires_result h hi hv (Bool.and_true _) rfl hg

end

theorem fires_fcmp {c : BitVec 4} {p : BitVec 3} {G : FFmt} (hv : valOp i = some (fcmpOp F p G c))
    (hg : s.guardOk t e F none 1 = true) :
    let E := (s.tile t).fabric.elem e
    let A := E.opnd F.a
    let B := E.opnd F.b
    let o := G.compare c.toNat A.data.toNat B.data.toNat
    ∃ v, resultRule t e A [B] o.2 (BitVec.ofNat 64 (if o.1 then 1 else 0)) v
      ∧ exec i s = .next (fired s k F (plain A && plain B) 0 1 p v) :=
  fires_result h hi hv (Bool.and_true _) rfl hg

/-- A conversion of one operand. -/
theorem fires_fcvt {r : BitVec 3} {c : BitVec 7} (hv : valOp i = some (fcvtOp F r c)) (hb : F.b = none)
    (hg : s.guardOk t e F none 1 = true) :
    let E := (s.tile t).fabric.elem e
    let A := E.opnd F.a
    let q := convCode c
    let o := gather q.2.1 q.1 fun j => convert q.2.2.2.1 q.2.2.2.2 r.toNat (s.elemDraw t e j) (wlane q.2.2.1 A.data j)
    ∃ v, resultRule t e A [] o.1 o.2 v ∧ exec i s = .next (fired s k F (plain A) (if r = 4 then q.1 else 0) 1 0 v) := by
  refine fires_result h hi hv ?_ rfl hg
  rw [hb]
  exact (Bool.and_true _).trans (Bool.and_true _)

end

/-! ### The statement -/

/-- Settles O40: the lanes of each form by its width, count and format, and its token by the cases of R171. -/
theorem elementFloatFirings : Obligations.ElementFloatFirings := by
  intro s t e k g x u m d a b c r h p cc hs E A B C F W N G ln dr D all
  have hL : formLanes m = (W, N, G) := formLanes_eq m
  have hall (o : Nat → FRes) : all o = gather W N o := (gather_eq W N o).symm
  simp only [hall, List.forall_mem_cons, List.not_mem_nil, false_imp_iff, implies_true, and_true]
  refine ⟨fun hg => ⟨⟨?_, ?_, ?_⟩, ?_, ?_⟩, fun hg => ?_, fun hg => ⟨?_, ?_⟩, fun hg => ?_⟩
  · exact fires_round hs (F := F) rfl hL (f := fun G m w x y _ => G.add m w x y) rfl hg
  · exact fires_round hs (F := F) rfl hL (f := fun G m w x y _ => G.sub m w x y) rfl hg
  · exact fires_round hs (F := F) rfl hL (f := fun G m w x y _ => G.mul m w x y) rfl hg
  · exact fires_minmax hs (F := F) rfl hL (isMax := false) rfl hg
  · exact fires_minmax hs (F := F) rfl hL (isMax := true) rfl hg
  · exact fires_round_addend hs (F := F) rfl hL (f := fun G m w x y z => G.fma m w x y z) rfl hg
  · exact fires_fcmp hs (F := { F with pred := true }) (G := f64) rfl rfl hg
  · exact fires_fcmp hs (F := { F with pred := true }) (G := f32) rfl rfl hg
  · have hcvt := fires_fcvt hs (i := .tFcvt g x u d a r cc) rfl (F := { F with b := none }) (r := r) (c := cc) rfl rfl hg
    simp only [gather_eq] at hcvt
    exact hcvt

end Sys2Proof.Machine
end

section
/-!
SUPPORT. Where the result of a firing goes, slots that do not fire, bursts and squashes (R172-R174, R263-R266).
-/
namespace Sys2Proof.Machine
open Sys2Proof.Rules

/-! ### An element that is changed -/

/-- A change of a fabric counts by what it makes of the fabric that is there. -/
theorem State.modFabric_congr {s : State} {t : Nat} {f g : Fabric → Fabric} (h : f (s.tile t).fabric = g (s.tile t).fabric) :
    s.modFabric t f = s.modFabric t g := by
  show { s with tiles := s.tiles.put t { s.tile t with fabric := f (s.tile t).fabric } } = _
  rw [h]
  rfl

theorem State.modElem_congr {s : State} {t e : Nat} {f g : Elem → Elem}
    (h : f ((s.tile t).fabric.elem e) = g ((s.tile t).fabric.elem e)) : s.modElem t e f = s.modElem t e g :=
  State.modFabric_congr (by rw [Fabric.modElem, Fabric.modElem, h])

@[simp] theorem Fabric.elem_modElem_self (F : Fabric) (e : Nat) (g : Elem → Elem) : (F.modElem e g).elem e = g (F.elem e) :=
  Tab.get_put_self _ _ _ _

@[simp] theorem State.elem_modElem_self (s : State) (t e : Nat) (g : Elem → Elem) :
    ((s.modElem t e g).tile t).fabric.elem e = g ((s.tile t).fabric.elem e) := by
  rw [State.modElem, State.fabric_modFabric_self, Fabric.elem_modElem_self]

@[simp] theorem State.elem_sinkReport (s : State) (t unit what : Nat) (w : Word) (e : Nat) :
    ((s.sinkReport t unit what w).tile t).fabric.elem e = (s.tile t).fabric.elem e := by
  rw [State.fabric_sinkReport]
  rfl

/-! ### Destinations (R172, R178) -/

theorem Elem.getLsbD_setQ (E : Elem) (k : BitVec 3) (b : Bool) (i : Nat) (hi : i < 8) :
    (E.setQ k b).q.getLsbD i = if i = k.toNat then b else E.q.getLsbD i := by
  have h := bit_of_setBit E.q k (BitVec.ofNat 3 i) b
  have hi3 : (BitVec.ofNat 3 i).toNat = i := by rw [BitVec.toNat_ofNat, Nat.mod_eq_of_lt hi]
  rw [hi3] at h
  refine h.trans (if_congr ?_ rfl rfl)
  rw [← BitVec.toNat_inj, hi3]

section
variable (s : State) (t e : Nat) {d : BitVec 4} (p : BitVec 3) (v : Token)

theorem State.putDest_of_reg (n : Nat) (h : d.toNat < 8) :
    s.putDest t e d p n v = s.modElem t e fun E => { E with d := E.d.set d.toNat v h } := by
  rw [State.putDest, if_pos h]
  exact State.modElem_congr (by rw [Elem.setD, dif_pos h])

/-- Copies go down the wire of each output channel that a destination names. -/
theorem State.putDest_of_chans (n : Nat) (h8 : ¬d.toNat < 8) (hd : d ≠ 13) :
    s.putDest t e d p n v
      = (destChans d).foldl (fun a k => (List.replicate n v).foldl (fun b x => b.wirePush t (.elem e k) x) a) s := by
  rw [State.putDest, if_neg h8, if_neg hd]

/-- One copy goes down the wires of the channels that a destination names. -/
theorem State.putDest_of_list {l : List Nat} (h8 : ¬d.toNat < 8) (hd : d ≠ 13) (hl : destChans d = l) :
    s.putDest t e d p 1 v = l.foldl (fun a k => a.wirePush t (.elem e k) v) s := by
  rw [s.putDest_of_chans t e p v 1 h8 hd, hl]
  simp only [List.replicate_one, List.foldl_cons, List.foldl_nil]

theorem State.putDest_of_chan {i : Nat} (hi : i < 4) (h : d.toNat = 8 + i) :
    s.putDest t e d p 1 v = s.wirePush t (.elem e i) v := by
  refine s.putDest_of_list t e p v (l := [i]) (by omega) (by rintro rfl; simp at h; omega) ?_
  unfold destChans
  rw [h]
  obtain rfl | rfl | rfl | rfl : i = 0 ∨ i = 1 ∨ i = 2 ∨ i = 3 := by omega
  all_goals rfl

end

theorem elementDestinations : ElementDestinations := by
  intro s t e n d p v E
  refine ⟨s.putDest_of_reg t e p v n, fun i hi h => s.putDest_of_chan t e p v hi h, ?_, ?_,
    s.putDest_of_chans t e p v n (by decide) (by decide), fun hp ht => ?_, fun hv => ?_, fun hp => ?_⟩
  · rw [s.putDest_of_list t e p v (l := [0, 1]) (by decide) (by decide) rfl]
    simp only [List.foldl_cons, List.foldl_nil]
  · rw [s.putDest_of_list t e p v (l := [0, 1, 2, 3]) (by decide) (by decide) rfl]
    simp only [List.foldl_cons, List.foldl_nil]
  · show s.putPred t e p v = s
    rw [State.putPred, if_neg (by rw [hp]; exact Bool.false_ne_true), if_pos (v.gap_iff.2 ⟨hp, ht⟩)]
  · rw [plain_eq, Bool.not_eq_true', Bool.or_eq_false_iff] at hv
    obtain ⟨hp, hg⟩ := hv
    refine ⟨(E.setQ p (decide (v.data ≠ 0))).q, (E.setQ p (decide (v.data ≠ 0))).resolved, ?_, rfl, fun i hi => ?_⟩
    · show s.putPred t e p v = _
      rw [State.putPred, if_neg (by rw [hp]; exact Bool.false_ne_true), if_neg (by rw [hg]; exact Bool.false_ne_true)]
      exact State.modElem_congr rfl
    · exact E.getLsbD_setQ p _ i hi
  · show (((s.putPred t e p v).tile t).fabric.elem e).q.getLsbD p.toNat = false
    rw [State.putPred, if_pos hp, State.elem_sinkReport, State.elem_modElem_self, Elem.getLsbD_setQ _ _ _ _ p.isLt, if_pos rfl]

/-! ### Slots that do not fire (R263) -/

/-- What keeps a slot of an element with trigger `g`, `x` and first source `a` from firing. -/
def Elem.held (E : Elem) (g : BitVec 2) (x : BitVec 3) (a : BitVec 4) : Prop :=
  E.halted = true ∨ E.stopped = true ∨ E.beat.isSome = true ∨ (g = 1 ∧ E.q.getLsbD x.toNat = false)
    ∨ (g = 2 ∧ E.q.getLsbD x.toNat = true) ∨ (8 ≤ a.toNat ∧ E.burst ≠ 0 ∧ E.chans.get [] (a.toNat % 4) = [])

theorem Elem.need_pos {E : Elem} (h : E.burst ≠ 0) (f : TForm) : 0 < E.need f := by
  unfold Elem.need
  split
  · omega
  · decide

/-- A source whose channel is empty is not present. -/
theorem Elem.not_present {E : Elem} {a : BitVec 4} (ha : 8 ≤ a.toNat) (hc : E.chans.get [] (a.toNat % 4) = []) {n : Nat} (hn : 0 < n) :
    E.present (some a) n = false := by
  have hchan : TForm.chan (some a) = some (a.toNat % 4) := if_pos ha
  rw [Elem.present, hchan]
  dsimp only
  rw [hc]
  refine decide_eq_false ?_
  split
  · exact Nat.not_le.2 hn
  · exact Nat.not_le.2 Nat.one_pos

theorem State.guardOk_of_held {s : State} {t e : Nat} {f : TForm} {a : BitVec 4} (ha : f.a = some a)
    (hh : ((s.tile t).fabric.elem e).held f.g f.x a) (add : Option (BitVec 3)) (c : Nat) : s.guardOk t e f add c = false := by
  unfold State.guardOk
  dsimp only
  rcases hh with h | h | h | ⟨hg, h⟩ | ⟨hg, h⟩ | ⟨h8, hb, h⟩
  · simp [h]
  · simp [h]
  · simp [Option.isNone_eq_false_iff.2 h]
  · simp [Elem.triggered, hg, h]
  · simp [Elem.triggered, hg, h]
  · simp [State.operandsOk, ha, Elem.not_present h8 h (Elem.need_pos hb f)]

section
variable {s : State} {t e k : Nat} (h : s.focus = .elem t e k)
include h

theorem State.fireVal_of_not_guard {i : Instr} {v : ValOp} (hv : valOp i = some v)
    (hg : s.guardOk t e v.form v.addend v.copies = false) : s.fireVal i = s := by
  rw [State.fireVal, State.ft_of_elem h, State.fk_of_elem h]
  simp only [hv]
  exact if_neg (by rw [ValOp.pushes, hg]; exact Bool.false_ne_true)

theorem State.fireFixed_of_not_guard {f : TForm} (hg : s.guardOk t e f none 0 = false) (ok : Bool) (go : State → Token → Token → State) :
    s.fireFixed f ok go = s := by
  rw [State.fireFixed, State.ft_of_elem h, State.fk_of_elem h]
  exact if_neg (by rw [hg, Bool.and_false]; exact Bool.false_ne_true)

theorem State.fireMem_of_not_guard {f : TForm} (hg : s.guardOk t e f none 1 = false) (K : ElemOpKind) : s.fireMem f K = s := by
  rw [State.fireMem, State.ft_of_elem h, State.fk_of_elem h]
  exact if_pos (by rw [State.memReady, hg]; rfl)

end

theorem elementGuards : ElementGuards := by
  intro s t e k g x u d a b l m q n r y h E hh
  have hE : E.held g x a := hh
  have hguard (f : TForm) (hg : f.g = g) (hx : f.x = x) (ha : f.a = some a) (add : Option (BitVec 3)) (c : Nat) :
      s.guardOk t e f add c = false := State.guardOk_of_held ha (by rw [hg, hx]; exact hE) add c
  simp only [List.forall_mem_cons, List.not_mem_nil, false_imp_iff, implies_true, and_true]
  refine ⟨?_, ?_, ?_, ?_, ?_, ?_, ?_, ?_, ?_, ?_⟩
  · exact congrArg _ (State.fireVal_of_not_guard h rfl (hguard _ rfl rfl rfl _ _))
  · exact congrArg _ (State.fireVal_of_not_guard h rfl (hguard _ rfl rfl rfl _ _))
  · exact congrArg _ (State.fireVal_of_not_guard h rfl (hguard _ rfl rfl rfl _ _))
  · exact congrArg _ (State.fireVal_of_not_guard h rfl (hguard _ rfl rfl rfl _ _))
  · exact congrArg _ (State.fireVal_of_not_guard h rfl (hguard _ rfl rfl rfl _ _))
  · exact congrArg _ (State.fireMem_of_not_guard h (hguard _ rfl rfl rfl _ _) _)
  · exact congrArg _ (State.fireFixed_of_not_guard h (hguard _ rfl rfl rfl _ _) _ _)
  · exact congrArg _ (State.fireFixed_of_not_guard h (hguard _ rfl rfl rfl _ _) _ _)
  · exact congrArg _ (State.fireFixed_of_not_guard h (hguard _ rfl rfl rfl _ _) _ _)
  · exact congrArg _ (State.fireFixed_of_not_guard h (hguard _ rfl rfl rfl _ _) _ _)

/-! ### Bursts and squashes (R173, R265, R266) -/

/-- The beat that is due fires the slot again where its operands and room are there. -/
theorem State.beat_of_due {s : State} {t e k n : Nat} (hb : ((s.tile t).fabric.elem e).beat = some (k, n)) {i : Instr}
    (hi : decodeT (((s.tile t).fabric.elem e).slots.get 0 k).toNat = .ok i) {v : ValOp} (hv : valOp i = some v) :
    s.beat t e = if s.operandsOk t e v.form v.addend 1 v.copies then
      (s.valFire t e v).modElem t e fun E =>
        { E with beat := if n + 1 < E.burst then some (k, n + 1) else none } else s := by
  unfold State.beat
  simp only [hb, hi, hv]
  rfl

theorem Elem.squashed_of_resolved {E : Elem} (h : E.resolved = true) (n : Nat) :
    E.squashed n = { E with resolved := false, squash := BitVec.ofNat 32 (min (2 ^ 32 - 1) (E.squash.toNat + min n 2)) } := by
  have hs : (if 2 ^ 32 - 1 ≤ E.squash.toNat + min n 2 then BitVec.allOnes 32 else E.squash + BitVec.ofNat 32 (min n 2))
      = BitVec.ofNat 32 (min (2 ^ 32 - 1) (E.squash.toNat + min n 2)) := by
    split
    next hle => rw [min_eq_left hle]; rfl
    next hlt => rw [min_eq_right (Nat.le_of_lt (not_le.1 hlt)), BitVec.ofNat_add, BitVec.ofNat_toNat, BitVec.setWidth_eq]
  rw [Elem.squashed, if_pos h, hs]

theorem burstsAndSquashes : BurstsAndSquashes := by
  intro s k n i v t e E
  refine ⟨fun hb hi hv => ⟨fun hok => ?_, fun hno => ?_⟩, fun hr => ?_, fun hr => ?_⟩
  · exact congrArg _ ((State.beat_of_due hb hi hv).trans (if_pos hok))
  · exact congrArg _ ((State.beat_of_due hb hi hv).trans (if_neg (by rw [hno]; exact Bool.false_ne_true)))
  · exact congrArg _ (State.modElem_congr (Elem.squashed_of_resolved hr _))
  · refine nextWith_of_eq rfl ?_
    rw [State.elem_modElem_self, Elem.squashed, if_neg (by rw [hr]; exact Bool.false_ne_true)]

/-- Settles O41: a destination by its code, a guard by the part of it that fails, a beat by its operands and room. -/
theorem elementDestinationsAndGuards : Obligations.ElementDestinationsAndGuards :=
  ⟨elementDestinations, elementGuards, burstsAndSquashes⟩

end Sys2Proof.Machine
end

section
/-!
SUPPORT. What LDR, STR and the AMOs of an element do when they fire (R196-R201).
-/
namespace Sys2Proof.Machine
open Sys2Proof.Rules

/-! ### The cases of R196 -/

/-- The operation that element `e` of tile `t` enters the path with, before it has a location. -/
def State.pathOp (s : State) (t e : Nat) (f : TForm) (K : ElemOpKind) : ElemOp :=
  let E := (s.tile t).fabric.elem e
  ⟨s.seq, e, K, (E.opnd f.a).data, 0, false, (E.opnd f.b).data, ((E.src f.dest).getD Token.zero).data, f.dest, (E.opnd f.a).tag,
    false, none, false, false⟩

/-- The machine once element `e` has fired a memory operation, before its access. -/
def State.popFired (s : State) (t e : Nat) (f : TForm) : State := (s.popAll t e f).modElem t e Elem.fired

/-- An aligned access of plain operands, by what the checks of the path make of it. -/
def State.pathTake (s : State) (t e : Nat) (f : TForm) (K : ElemOpKind) (u : PathUse) : State :=
  let o := s.pathOp t e f K
  match u with
  | .off => (s.modElem t e fun E => { E with off := true }).offExtents t 8 o.va
  | .stop r kind => (s.modElem t e fun E => { E with stopped := true }).stopGen t 8 r kind o.va
  | .ok loc fe => ((s.popFired t e f).useExtent t 8 o.va).enterOp t { o with loc := loc, fe := fe }

section
variable {s : State} {t e k : Nat} (h : s.focus = .elem t e k) {f : TForm} {K : ElemOpKind} (hm : s.memReady t e f K = true)
  (hs : s.stops t = false)
include h hm hs

theorem State.fireMem_of_poison {p : Token} (hp : (let E := (s.tile t).fabric.elem e
      [E.opnd f.a, E.opnd f.b].find? fun v => v.poison) = some p) :
    s.fireMem f K = ((s.popFired t e f).sinkReport t e K.what p.data).atOnce t (s.pathOp t e f K)
      ⟨true, (((s.tile t).fabric.elem e).opnd f.a).tag, p.data⟩ := by
  rw [State.fireMem, State.ft_of_elem h, State.fk_of_elem h, if_neg (by simp [hm, hs])]
  simp only [hp]
  rfl

/-- Of operands that are not poisoned a gap makes no access, then a misaligned address, then a path that is stopped. -/
theorem State.fireMem_of_clean (ha : (((s.tile t).fabric.elem e).opnd f.a).poison = false)
    (hb : (((s.tile t).fabric.elem e).opnd f.b).poison = false) :
    s.fireMem f K =
      let A := ((s.tile t).fabric.elem e).opnd f.a
      let B := ((s.tile t).fabric.elem e).opnd f.b
      let o := s.pathOp t e f K
      let go := s.popFired t e f
      if A.tag = 7 ∨ B.tag = 7 then go.atOnce t o ⟨false, 7, 0⟩
      else if A.data.toNat % K.size ≠ 0 then
        (go.sinkReport t e K.what (originWord t e 4)).atOnce t o ⟨true, A.tag, originWord t e 4⟩
      else if s.pathFree t = false then s
      else s.pathTake t e f K (s.pathUse t K A.data) := by
  extract_lets A B o go
  have hgap : (A.gap || B.gap) = true ↔ A.tag = 7 ∨ B.tag = 7 := by
    rw [Bool.or_eq_true, Token.gap_iff, Token.gap_iff]
    exact or_congr (and_iff_right ha) (and_iff_right hb)
  rw [State.fireMem, State.ft_of_elem h, State.fk_of_elem h, if_neg (by simp [hm, hs])]
  simp only [List.find?_cons, ha, hb, List.find?_nil]
  refine if_congr hgap rfl (if_congr Iff.rfl rfl (if_congr (by rw [Bool.not_eq_true']) rfl ?_))
  show _ = s.pathTake t e f K (s.pathUse t K A.data)
  cases hu : s.pathUse t K A.data <;> rfl

end

/-! ### The statement -/

theorem ElemOpKind.size_eq (K : ElemOpKind) : K.size = if K = .amo 10 then 4 else 8 := by
  unfold ElemOpKind.size
  split
  · rfl
  next hne => rw [if_neg hne]

/-- Settles O43: a memory operation by the cases of R196 in their order. Which of two poisoned operands is
reported, and what CAS compares with where DEST is poison or a gap, are the model's choice (log 57); LDR delivers poison at once as
wires within a tile are instant (log 32). -/
theorem elementMemoryFirings : Obligations.ElementMemoryFirings := by
  intro s t e k g x u d a b n h c m hf E tok fL fS q hq f K A B z what o go hm hs
  have hrow : exec q.1 s = .next (s.fireMem f K) ∧ f.dest = d := by
    simp only [List.mem_cons, List.not_mem_nil, or_false] at hq
    obtain rfl | rfl | rfl | rfl | rfl | rfl | rfl | rfl | rfl | rfl | rfl | rfl | rfl := hq
    all_goals exact ⟨rfl, rfl⟩
  obtain ⟨hi, hd⟩ := hrow
  have hz : z = K.size := K.size_eq.symm
  have hw : what = K.what := by cases hK : K <;> simp only [what, hK] <;> rfl
  have ho : s.pathOp t e f K = o := by rw [State.pathOp, hd]
  refine ⟨fun p hp => ?_, fun ha hb => ?_⟩
  · rw [hi, State.fireMem_of_poison hf hm hs hp, ho, hw]
    rfl
  · rw [hi, State.fireMem_of_clean hf hm hs ha hb, ho, hw, hz]
    refine ⟨fun hg => congrArg _ (if_pos hg), fun hga hgb => ?_⟩
    rw [if_neg (not_or.2 ⟨hga, hgb⟩)]
    refine ⟨fun hal => congrArg _ (if_pos hal), fun hal hfree => ?_, fun hal hfree => ?_⟩
    · exact congrArg _ ((if_neg (not_not.2 hal)).trans (if_pos hfree))
    · rw [if_neg (not_not.2 hal), if_neg (by rw [hfree]; exact Bool.noConfusion)]
      refine ⟨fun hu => ?_, fun r kk hu => ?_, fun loc fe hu => ?_⟩
      · rw [hu, State.pathTake, ho]
        rfl
      · rw [hu, State.pathTake, ho]
      · rw [hu, State.pathTake, ho]
        rfl

end Sys2Proof.Machine
end

section
/-!
SUPPORT. The outstanding operations of a tile's elements: what changes them and leaves them alone, and their completion (R197, R200).
-/
namespace Sys2Proof.Machine
open Sys2Proof.Rules

/-! ### Operations by number -/

section
variable {F : Fabric} {i : Nat} {o : ElemOp}

theorem Fabric.id_of_op (h : F.op? i = some o) : o.id = i := beq_iff_eq.1 (List.find?_some h :)

theorem Fabric.op_modOp_self {g : ElemOp → ElemOp} (hg : ∀ x, (g x).id = x.id) (h : F.op? i = some o) :
    (F.modOp i g).op? i = some (g o) := by
  have hid (x : ElemOp) : ((fun x => x.id == i) ∘ fun x => if x.id == i then g x else x) x = (x.id == i) := by
    rw [Function.comp_apply]
    split
    · rw [hg]
    · rfl
  rw [Fabric.op?, Fabric.modOp, List.find?_map, funext hid, show F.ops.find? (fun x => x.id == i) = some o from h, Option.map_some,
    Fabric.id_of_op h, if_pos (beq_self_eq_true i)]

/-- A change of operation `i` shows in every operation of that number. -/
theorem Fabric.mem_modOp {g : ElemOp → ElemOp} {x : ElemOp} (hx : x ∈ (F.modOp i g).ops) (hid : x.id = i) :
    ∃ y ∈ F.ops, y.id = i ∧ x = g y := by
  obtain ⟨y, hy, rfl⟩ := List.mem_map.1 hx
  by_cases hyi : (y.id == i) = true
  · rw [if_pos hyi]
    exact ⟨y, hy, beq_iff_eq.1 hyi, rfl⟩
  · rw [if_neg hyi] at hid
    exact absurd (beq_iff_eq.2 hid) hyi

end

/-! ### What leaves the operations alone -/

section
variable {s : State} {t : Nat}

/-- A change of a fabric that leaves its operations alone. -/
theorem State.ops_modFabric {u : Nat} {f : Fabric → Fabric} (h : ∀ F, (f F).ops = F.ops) :
    ((s.modFabric u f).tile t).fabric.ops = (s.tile t).fabric.ops := by
  by_cases e : t = u
  · subst e
    rw [State.fabric_modFabric_self, h]
  · rw [State.modFabric, State.tile_modTile_of_ne _ _ e]

theorem State.ops_modPart (u : Nat) (g : Part → Part) : ((s.modPart u g).tile t).fabric.ops = (s.tile t).fabric.ops :=
  State.ops_modFabric fun _ => rfl

theorem State.ops_sinkPut (d : Nat × Sink) (k : Token) : ((s.sinkPut d k).tile t).fabric.ops = (s.tile t).fabric.ops := by
  unfold State.sinkPut
  split
  all_goals exact State.ops_modFabric fun _ => rfl

theorem State.ops_sendToken (u : Nat) (d : Nat × Sink) (k : Token) :
    ((s.sendToken u d k).tile t).fabric.ops = (s.tile t).fabric.ops := by
  unfold State.sendToken
  dsimp only
  split
  · rw [State.wakePart, State.ops_modPart, State.ops_sinkPut]
  · split
    all_goals exact State.ops_modPart (s := s) u fun p => { p with s := p.s + 1 }

theorem State.ops_wirePush (u : Nat) (src : Source) (k : Token) :
    ((s.wirePush u src k).tile t).fabric.ops = (s.tile t).fabric.ops := by
  unfold State.wirePush
  split
  · exact foldl_keeps (fun a : State => (a.tile t).fabric.ops) _ (fun _ _ => State.ops_sendToken _ _ _) _ _
  · rfl

theorem State.ops_putPred (e : Nat) (k : BitVec 3) (v : Token) : ((s.putPred t e k v).tile t).fabric.ops = (s.tile t).fabric.ops := by
  unfold State.putPred
  dsimp only
  split
  · rw [State.fabric_sinkReport]
    exact State.ops_modFabric fun _ => rfl
  · split
    · rfl
    · exact State.ops_modFabric fun _ => rfl

theorem State.ops_putDest (e : Nat) (d : BitVec 4) (p : BitVec 3) (n : Nat) (v : Token) :
    ((s.putDest t e d p n v).tile t).fabric.ops = (s.tile t).fabric.ops := by
  unfold State.putDest
  split
  · exact State.ops_modFabric fun _ => rfl
  · split
    · exact State.ops_putPred e p v
    · exact foldl_keeps (fun a : State => (a.tile t).fabric.ops) _ (fun _ _ =>
        foldl_keeps (fun a : State => (a.tile t).fabric.ops) _ (fun _ _ => State.ops_wirePush _ _ _) _ _) _ _

end

/-! ### What leaves memory alone -/

section
variable (s : State) (t : Nat)

theorem State.memory_report (unit : Nat) (st : BitVec 4) (v w : Word) : (s.report t unit st v w).memory = s.memory := by
  unfold State.report
  dsimp only
  split <;> rfl

theorem State.memory_sinkReport (unit what : Nat) (w : Word) : (s.sinkReport t unit what w).memory = s.memory := by
  unfold State.sinkReport
  dsimp only
  split
  · exact State.memory_report _ _ _ _ _ _
  · split <;> rfl

theorem State.memory_hwStitch (dst label : Nat) (elem : Bool) (unit : Nat) (st : BitVec 4) (v w : Word) (x : Option (BitVec 32)) :
    (s.hwStitch t dst label elem unit st v w x).memory = s.memory := rfl

theorem State.memory_useFree : s.useFree.memory = s.memory := rfl

theorem State.tile_useFree (u : Nat) : s.useFree.tile u = s.tile u := rfl

theorem State.memory_startTest (a b c : Nat) (x : Bool) : (s.startTest t a b c x).memory = s.memory := rfl

theorem State.memory_stopGen (g r k : Nat) (va : Word) : (s.stopGen t g r k va).memory = s.memory := by
  rw [State.stopGen, State.memory_hwStitch]
  rfl

theorem State.memory_putPred (e : Nat) (k : BitVec 3) (v : Token) : (s.putPred t e k v).memory = s.memory := by
  unfold State.putPred
  dsimp only
  split
  · exact State.memory_sinkReport _ _ _ _ _
  · split <;> rfl

theorem State.memory_putDest (e : Nat) (d : BitVec 4) (p : BitVec 3) (n : Nat) (v : Token) :
    (s.putDest t e d p n v).memory = s.memory := by
  unfold State.putDest
  split
  · rfl
  · split
    · exact State.memory_putPred _ _ _ _ _
    · exact foldl_keeps State.memory _ (fun _ _ => foldl_keeps State.memory _ (fun _ _ => State.memory_wirePush _ _ _ _) _ _) _ _

end

/-! ### A completion (R197, R200) -/

/-- What the destination of an operation that has read `v` is told. -/
def ElemOp.completion (o : ElemOp) (v : Token) : Token :=
  match o.kind with
  | .amo _ => v
  | _ => Token.zero

section
variable {s s1 : State} {t : Nat} {o : ElemOp} {v : Token} (hg : o.got = some v) (ht : o.told = false)

theorem State.tellOp_of_none (hg : o.got = none) : s.tellOp t o = s := by rw [State.tellOp, hg]

include hg ht

theorem State.tellOp_of_got : s.tellOp t o =
    ((s.modFabric t fun F => F.modOp o.id fun x => { x with told := true }).putDest t o.elem o.dest 0 1 (o.completion v)).modFabric t
      Fabric.sweepOps := by
  rw [State.tellOp, hg]
  dsimp only
  rw [if_neg (by rw [ht]; exact Bool.false_ne_true)]
  rfl

theorem State.memory_tellOp : (s.tellOp t o).memory = s.memory := by
  rw [State.tellOp_of_got hg ht]
  exact State.memory_putDest _ _ _ _ _ _ _

/-- An operation that has read `v` is told: where the elements and wires of its tile are as in `s`, as the statements say it. -/
theorem opTold_tellOp (hops : ∀ x ∈ (s1.tile t).fabric.ops, x.id = o.id → x.got = some v)
    (he : (s1.tile t).fabric.elems = (s.tile t).fabric.elems) (hw : (s1.tile t).fabric.wires = (s.tile t).fabric.wires) :
    opTold s (s1.tellOp t o) t o v (o.completion v) := by
  rw [State.tellOp_of_got hg ht]
  generalize hs2 : s1.modFabric t (fun F => F.modOp o.id fun x => { x with told := true }) = s2
  have h2 : (s2.tile t).fabric = (s1.tile t).fabric.modOp o.id fun x => { x with told := true } := by
    rw [← hs2, State.fabric_modFabric_self]
  refine ⟨fun x hx => ?_, fun h8 => ?_, fun i hi hd => ?_⟩
  · have hmem := List.mem_of_find?_eq_some (hx :)
    rw [State.fabric_modFabric_self] at hmem
    have hmem := List.mem_of_mem_filter hmem
    rw [State.ops_putDest, h2] at hmem
    obtain ⟨y, hy, hyid, rfl⟩ := Fabric.mem_modOp hmem (Fabric.id_of_op hx)
    exact ⟨hops y hy hyid, rfl⟩
  · rw [s2.putDest_of_reg t o.elem 0 _ 1 h8, State.fabric_modFabric_self]
    show ((State.tile _ t).fabric.elem o.elem).d[o.dest.toNat] = _
    simp only [State.elem_modElem_self, Vector.getElem_set_self]
  · rw [s2.putDest_of_chan t o.elem 0 _ hi hd]
    have htook : tookWire s2 ((s2.wirePush t (.elem o.elem i) (o.completion v)).modFabric t Fabric.sweepOps) t (.elem o.elem i)
        (o.completion v) := tookWire_wirePush (by rw [State.fabric_modFabric_self]; rfl) rfl
    have hel : (s2.tile t).fabric.elems = (s.tile t).fabric.elems := by rw [h2]; exact he
    have hwi : (s2.tile t).fabric.wires = (s.tile t).fabric.wires := by rw [h2]; exact hw
    simpa only [tookWire, Fabric.wire?, Fabric.elem, hel, hwi] using htook

end

end Sys2Proof.Machine
end

section
/-!
SUPPORT. The steps of an element's outstanding operation: performed, refused, made again, answered (R196-R200, R308, R309, R328, R489).
-/
namespace Sys2Proof.Machine
open Sys2Proof.Rules

/-! ### An operation that is performed -/

section
variable {s : State} {o : ElemOp} (hop : (s.tile s.ev.tile).fabric.op? s.ev.n = some o) (ht : o.told = false)
include hop ht

theorem exec_elementMemCompletion_refused (hr : o.refused = true) :
    exec .elementMemCompletion s = .next (s.reissue s.ev.tile o) := by
  show execElementMemCompletion s = _
  simp only [execElementMemCompletion, hop, ht, hr, Bool.false_eq_true, if_false, if_true]

variable (hr : o.refused = false)
include hr

theorem exec_elementMemCompletion_got (hg : o.got.isSome = true) :
    exec .elementMemCompletion s = .next (s.tellOp s.ev.tile o) := by
  have hid : (s.tile s.ev.tile).fabric.op? o.id = some o := by rw [Fabric.id_of_op hop]; exact hop
  show execElementMemCompletion s = _
  simp only [execElementMemCompletion, hop, ht, hr, hg, hid, Bool.false_eq_true, if_false, if_true]

variable (hg : o.got = none)
include hg

theorem exec_elementMemCompletion {u : State} (hu : s.memPerform s.ev.tile o = u) {x : ElemOp}
    (hx : (u.tile s.ev.tile).fabric.op? o.id = some x) : exec .elementMemCompletion s = .next (u.tellOp s.ev.tile x) := by
  show execElementMemCompletion s = _
  simp only [execElementMemCompletion, hop, ht, hr, hg, hu, hx, Option.isSome_none, Bool.false_eq_true, if_false]

/-- An operation that its owner leaves waiting is as it was. -/
theorem exec_elementMemCompletion_waits {u : State} (hu : s.memPerform s.ev.tile o = u)
    (hf : (u.tile s.ev.tile).fabric = (s.tile s.ev.tile).fabric) : exec .elementMemCompletion s = .next u := by
  rw [exec_elementMemCompletion hop ht hr hg hu (x := o) (by rw [hf, Fabric.id_of_op hop]; exact hop), State.tellOp_of_none hg]

/-- An operation that reads `v` where memory becomes that of `u` is told. -/
theorem performed {u : State} {v : Token}
    (hu : s.memPerform s.ev.tile o = u.modFabric s.ev.tile fun F => F.modOp o.id fun x => { x with got := some v })
    (hf : (u.tile s.ev.tile).fabric = (s.tile s.ev.tile).fabric) :
    nextWith (exec .elementMemCompletion s) fun w => opTold s w s.ev.tile o v (o.completion v) ∧ w.memory = u.memory := by
  have hfab : ((u.modFabric s.ev.tile fun F => F.modOp o.id fun x => { x with got := some v }).tile s.ev.tile).fabric
      = (s.tile s.ev.tile).fabric.modOp o.id fun x => { x with got := some v } := by rw [State.fabric_modFabric_self, hf]
  refine nextWith_of_eq (exec_elementMemCompletion hop ht hr hg hu (x := { o with got := some v }) ?_) ⟨?_, ?_⟩
  · rw [hfab]
    exact Fabric.op_modOp_self (g := fun x => { x with got := some v }) (fun _ => rfl) (by rw [Fabric.id_of_op hop]; exact hop)
  · refine opTold_tellOp (o := { o with got := some v }) rfl ht (fun x hx hid => ?_) (by rw [hfab]; rfl) (by rw [hfab]; rfl)
    rw [hfab] at hx
    obtain ⟨y, -, -, rfl⟩ := Fabric.mem_modOp hx hid
    rfl
  · exact State.memory_tellOp (o := { o with got := some v }) rfl ht

end

/-! ### What its owner does (R198-R200, R309) -/

section
variable {s : State} {t : Nat} {o : ElemOp}

theorem State.noteStore_eq (id u loc n : Nat) (rel : Bool) : ∃ b, s.noteStore id t u loc n rel = { s with behind := b } := by
  unfold State.noteStore
  split
  · exact ⟨_, rfl⟩
  · exact ⟨s.behind, rfl⟩

/-- The machine with the word of an element's store written, but for the operation. -/
def State.stored (s : State) (t : Nat) (o : ElemOp) : State :=
  let u := (s.noteStore o.id t 16 o.loc 8 o.fe).write o.loc (natBytes 8 o.data.toNat)
  if o.fe then u.fill o.loc else u

theorem State.stored_eq (s : State) (t : Nat) (o : ElemOp) : ∃ b m, s.stored t o =
    { s with behind := b, marks := m, mem := cellWrite s.mem o.loc (natBytes 8 o.data.toNat),
             empties := if o.fe then natErase o.loc s.empties else s.empties } := by
  obtain ⟨b, hb⟩ := s.noteStore_eq (t := t) o.id 16 o.loc 8 o.fe
  rw [State.stored, hb]
  split
  all_goals exact ⟨b, _, rfl⟩

/-- The machine with the word of an element's AMO on `b` bytes written, but for the operation. -/
def State.amoed (s : State) (t : Nat) (o : ElemOp) (op b : Nat) : State :=
  ((s.behindAmo o.id t 16 o.loc b).amoAt o.loc op b o.data.toNat o.exp.toNat).1

theorem State.amoAt_snd (loc op b x e : Nat) : (s.amoAt loc op b x e).2 = s.readNat loc b := by
  unfold State.amoAt
  dsimp only
  split <;> rfl

theorem State.amoed_eq (s : State) (t : Nat) (o : ElemOp) (op b : Nat) : ∃ l m, s.amoed t o op b =
    { s with behind := l, marks := m,
             mem := (amoNew op b (s.readNat o.loc b) o.data.toNat o.exp.toNat).elim s.mem fun v =>
               cellWrite s.mem o.loc (natBytes b v) } := by
  have hb : ∃ l, s.behindAmo o.id t 16 o.loc b = { s with behind := l } := by
    unfold State.behindAmo
    split
    · exact ⟨s.behind, rfl⟩
    · exact ⟨_, rfl⟩
  obtain ⟨l, hl⟩ := hb
  rw [State.amoed, State.amoAt, State.readNat_behindAmo, hl]
  cases amoNew op b (s.readNat o.loc b) o.data.toNat o.exp.toNat
  all_goals exact ⟨l, _, rfl⟩

/-- What LDR reads. -/
def State.elemRead (s : State) (t : Nat) (o : ElemOp) : Token :=
  if s.isMarked o.loc then ⟨true, o.tag, markOrigin t o.loc⟩ else ⟨false, o.tag, s.read64 o.loc⟩

theorem State.performElem_ldr {e c : Nat} (hk : o.kind = .ldr e c) :
    s.performElem t o = s.modFabric t fun F => F.modOp o.id fun x => { x with got := some (s.elemRead t o) } := by
  rw [State.performElem, hk]
  rfl

theorem State.performElem_str (hk : o.kind = .str) :
    s.performElem t o = (s.stored t o).modFabric t fun F => F.modOp o.id fun x => { x with got := some Token.zero } := by
  rw [State.performElem, hk]
  rfl

section
variable {op : Nat} (hk : o.kind = .amo op)
include hk

theorem State.performElem_amo_marked (hm : s.isMarked (wordOf o.loc) = true) :
    s.performElem t o = s.modFabric t fun F => F.modOp o.id fun x => { x with got := some ⟨true, o.tag, markOrigin t o.loc⟩ } := by
  simp only [State.performElem, hk, hm, if_true]
  rfl

theorem State.performElem_amo (hm : s.isMarked (wordOf o.loc) = false) :
    s.performElem t o =
      let b := if op = 10 then 4 else 8
      (s.amoed t o op b).modFabric t fun F => F.modOp o.id fun x =>
        { x with got := some ⟨false, o.tag, BitVec.ofNat 64 (s.readNat o.loc b)⟩ } := by
  simp only [State.performElem, hk, hm, State.amoBy_eq, State.amoAt_snd, State.readNat_behindAmo, Bool.false_eq_true, if_false]
  rfl

end

theorem wordOf_of_aligned {n : Nat} (h : n % 8 = 0) : wordOf n = n := Nat.div_mul_cancel (Nat.dvd_of_mod_eq_zero h)

/-- No older access of a slot is on the bytes of an operation, its way is open, and it is not at a full-empty word's queue. -/
def State.opClear (s : State) (t : Nat) (o : ElemOp) : Prop :=
  s.olderNeedle t o.id [(o.loc, o.kind.size)] = false ∧ s.pathOpen t o.loc = true ∧ ∀ q ∈ s.feWait, q.who ≠ .elem t o.id

section
variable (hc : s.opClear t o)

theorem State.memPerform_of_not_clear (hc : ¬s.opClear t o) : s.memPerform t o = s := by
  refine if_pos ?_
  by_contra hn
  simp only [Bool.or_eq_true, not_or, Bool.not_eq_true', Bool.not_eq_false, Bool.not_eq_true, List.any_eq_false, beq_iff_eq] at hn
  obtain ⟨⟨hold, hopen⟩, hwait⟩ := hn
  exact hc ⟨hold, hopen, hwait⟩

include hc

theorem State.not_held_of_clear :
    ¬(s.olderNeedle t o.id [(o.loc, o.kind.size)] || !s.pathOpen t o.loc || (s.feWait.any fun q => q.who == .elem t o.id)) = true := by
  obtain ⟨hold, hopen, hwait⟩ := hc
  simpa [hold, hopen] using hwait

/-- An access of an operation that its owner turns back stops the path. -/
theorem State.memPerform_of_refusal {c d : Nat} (hr : s.refusal o.loc = some (c, d)) :
    s.memPerform t o = s.refuseOp t o (if c = 0x06 then 4 else 3) := by
  rw [State.memPerform, if_neg (State.not_held_of_clear hc), hr]
  by_cases h6 : c = 6
  · subst h6
    rfl
  · rw [if_neg h6]
    split
    next heq => exact absurd (congrArg Prod.fst (Option.some.inj heq)) h6
    next heq => rfl
    next heq => cases heq

variable (hr : s.refusal o.loc = none)
include hr

theorem State.memPerform_of_plain (hf : o.fe = false) : s.memPerform t o = s.performElem t o := by
  rw [State.memPerform, if_neg (State.not_held_of_clear hc), hr]
  exact if_pos (by rw [hf]; rfl)

section
variable (hf : o.fe = true) (h8 : o.loc % 8 = 0)
include hf h8

theorem State.memPerform_fe_ldr {e c : Nat} (hk : o.kind = .ldr e c) : s.memPerform t o = s.feRequest (.elem t o.id) o.loc := by
  rw [State.memPerform, if_neg (State.not_held_of_clear hc), hr, hk]
  simp only [hf, wordOf_of_aligned h8, Bool.not_true, Bool.false_eq_true, if_false]

theorem State.memPerform_fe_str (hk : o.kind = .str) : s.memPerform t o =
    if s.olderStores t o.loc o.id || (systemOwner o.loc && !s.systemDone) then s else (s.performElem t o).serve o.loc := by
  rw [State.memPerform, if_neg (State.not_held_of_clear hc), hr, hk]
  simp only [hf, wordOf_of_aligned h8, Bool.not_true, Bool.false_eq_true, if_false]

end
end

/-! ### Full-empty words (R309) -/

/-- No request that waits can proceed: a word that changes serves none. -/
theorem State.serve_of_not_ready (h : ∀ q ∈ s.feWait, s.feReady q = false) (w : Nat) : s.serve w = s := by
  have hstay (n : Nat) : State.serveWord n s w = s := by
    cases n with
    | zero => rfl
    | succ n =>
      have hnone : (s.feWait.find? fun q => q.word == w && !q.retry && s.feReady q) = none :=
        List.find?_eq_none.2 fun q hq => by rw [h q hq, Bool.and_false]; exact Bool.false_ne_true
      rw [State.serveWord, hnone]
  exact hstay _

theorem State.serve_of_idle (h : s.feWait = []) (w : Nat) : s.serve w = s :=
  State.serve_of_not_ready (by rw [h]; exact fun _ hq => absurd hq List.not_mem_nil) w

section
variable (hw : s.feWait = [])
include hw

theorem State.feRequest_of_full (hop : (s.tile t).fabric.op? o.id = some o) {e c : Nat} (hk : o.kind = .ldr e c)
    (hopen : s.pathOpen t o.loc = true) (he : s.isEmpty o.loc = false) :
    s.feRequest (.elem t o.id) o.loc = s.performElem t o := by
  have hs : { s with feWait := s.feWait.filter fun x => x.who != FeWho.elem t o.id } = s := by
    rw [show s.feWait.filter (fun x => x.who != FeWho.elem t o.id) = s.feWait by rw [hw]; rfl]
  rw [State.feRequest]
  refine (if_pos ?_).trans ?_
  · simp [State.feReady, State.feWantsEmpty, FeReq.polls, FeReq.tile, State.feAhead, hw, he, hopen]
  · have hserve : s.feServe ⟨.elem t o.id, o.loc, false⟩ = s.performElem t o := by
      simp only [State.feServe, hop, hs]
    rw [hserve]
    exact State.serve_of_idle (by rw [State.performElem_ldr hk]; exact hw) _

theorem State.feRequest_of_empty (he : s.isEmpty o.loc = true) :
    s.feRequest (.elem t o.id) o.loc = { s with feWait := [⟨.elem t o.id, o.loc, s.feTurned t o.loc⟩] } := by
  have hready (u : State) (hu : u.empties = s.empties) (r : Bool) : u.feReady ⟨.elem t o.id, o.loc, r⟩ = false := by
    rw [State.feReady, State.isEmpty, hu, show s.empties.contains o.loc = true from he]
    rfl
  rw [State.feRequest]
  refine (if_neg (by simp [hready s rfl])).trans ?_
  show State.serve { s with feWait := s.feWait ++ [⟨.elem t o.id, o.loc, s.feTurned t o.loc⟩] } o.loc = _
  rw [hw, List.nil_append]
  refine State.serve_of_not_ready (fun q hq => ?_) _
  rw [List.mem_singleton.1 hq]
  exact hready _ rfl _

end

/-! ### An operation that is turned back (R196, R362) -/

@[simp] theorem Fabric.elem_modGen (F : Fabric) (g : Nat) (f : Stream → Stream) (e : Nat) : (F.modGen g f).elem e = F.elem e := by
  unfold Fabric.modGen
  split <;> rfl

@[simp] theorem Fabric.ops_modGen (F : Fabric) (g : Nat) (f : Stream → Stream) : (F.modGen g f).ops = F.ops := by
  unfold Fabric.modGen
  split <;> rfl

theorem State.fabric_stopGen (g r k : Nat) (va : Word) :
    ((s.stopGen t g r k va).tile t).fabric = (s.tile t).fabric.modGen g fun x =>
      { x with reason := BitVec.ofNat 3 r, kind := BitVec.ofNat 3 (if r = 2 then k else 0), gfva := va } := by
  rw [State.stopGen, State.fabric_hwStitch, State.fabric_modFabric_self]

/-- The machine with an operation refused and its element stopped. -/
def State.turnedBack (s : State) (t : Nat) (o : ElemOp) : State :=
  (s.modFabric t fun F => F.modOp o.id fun x => { x with refused := true }).modElem t o.elem fun E => { E with stopped := true }

theorem State.fabric_turnedBack : ((s.turnedBack t o).tile t).fabric =
    ((s.tile t).fabric.modOp o.id fun x => { x with refused := true }).modElem o.elem fun E => { E with stopped := true } := by
  rw [State.turnedBack, State.modElem, State.fabric_modFabric_self, State.fabric_modFabric_self]

/-- A path that has stopped already keeps its reason. -/
theorem State.refuseOp_cases (r : Nat) :
    (2 ≤ (s.tile t).fabric.path.reason.toNat ∧ (s.tile t).fabric.path.reason.toNat ≤ 4 ∧ s.refuseOp t o r = s.turnedBack t o)
    ∨ s.refuseOp t o r = (s.turnedBack t o).stopGen t 8 r 0 o.va := by
  by_cases h : 2 ≤ (s.tile t).fabric.path.reason.toNat ∧ (s.tile t).fabric.path.reason.toNat ≤ 4
  · exact .inl ⟨h.1, h.2, if_pos h⟩
  · exact .inr (if_neg h)

theorem State.memory_refuseOp (r : Nat) : (s.refuseOp t o r).memory = s.memory := by
  rcases s.refuseOp_cases (t := t) (o := o) r with ⟨-, -, h⟩ | h
  · rw [h]
    rfl
  · rw [h, State.memory_stopGen]
    rfl

theorem State.stopped_refuseOp (r : Nat) : (((s.refuseOp t o r).tile t).fabric.elem o.elem).stopped = true := by
  rcases s.refuseOp_cases (t := t) (o := o) r with ⟨-, -, h⟩ | h
  · rw [h, State.fabric_turnedBack, Fabric.elem_modElem_self]
  · rw [h, State.fabric_stopGen, Fabric.elem_modGen, State.fabric_turnedBack, Fabric.elem_modElem_self]

theorem State.op_refuseOp (hop : (s.tile t).fabric.op? o.id = some o) (r : Nat) :
    ((s.refuseOp t o r).tile t).fabric.op? o.id = some { o with refused := true } := by
  have hops : ((s.refuseOp t o r).tile t).fabric.ops = ((s.turnedBack t o).tile t).fabric.ops := by
    rcases s.refuseOp_cases (t := t) (o := o) r with ⟨-, -, h⟩ | h
    · rw [h]
    · rw [h, State.fabric_stopGen, Fabric.ops_modGen]
  rw [Fabric.op?, hops, State.fabric_turnedBack]
  exact Fabric.op_modOp_self (g := fun x => { x with refused := true }) (fun _ => rfl) hop

theorem State.path_refuseOp (hp : (s.tile t).fabric.path.reason.toNat < 2 ∨ 4 < (s.tile t).fabric.path.reason.toNat) (r : Nat) :
    ((s.refuseOp t o r).tile t).fabric.path.reason = BitVec.ofNat 3 r ∧ ((s.refuseOp t o r).tile t).fabric.path.gfva = o.va := by
  rcases s.refuseOp_cases (t := t) (o := o) r with ⟨h2, h4, -⟩ | h
  · omega
  · rw [h, State.fabric_stopGen]
    exact ⟨rfl, rfl⟩

theorem State.refuseOp_stops (r : Nat) :
    sameMemory s (s.refuseOp t o r) ∧ (((s.refuseOp t o r).tile t).fabric.elem o.elem).stopped = true
    ∧ ((s.tile t).fabric.path.reason.toNat < 2 ∨ 4 < (s.tile t).fabric.path.reason.toNat →
      ((s.refuseOp t o r).tile t).fabric.path.gfva = o.va ∧ ((s.refuseOp t o r).tile t).fabric.path.reason = BitVec.ofNat 3 r) :=
  ⟨sameMemory_of_memory_eq (State.memory_refuseOp r), State.stopped_refuseOp r, fun hp => (State.path_refuseOp hp r).symm⟩

/-! ### An operation made again, and one whose way fails (R196, R362) -/

theorem State.reissue_of_ok {loc : Nat} {fe : Bool} (hp : (s.tile t).fabric.path.reason = 0)
    (hfirst : ∀ x ∈ (s.tile t).fabric.ops, x.refused = true → o.id ≤ x.id) (hs : s.stops t = false)
    (hu : s.pathUse t o.kind o.va = .ok loc fe) :
    s.reissue t o = (s.useExtent t 8 o.va).modFabric t fun F =>
      (F.modOp o.id fun x => { x with refused := false, loc := loc, fe := fe }).freeElems := by
  rw [State.reissue, hu]
  refine if_neg ?_
  rintro (h | h | h)
  · exact h hp
  · obtain ⟨x, hx, hlt⟩ := List.any_eq_true.1 h
    rw [Bool.and_eq_true, decide_eq_true_iff] at hlt
    exact absurd (hfirst x hx hlt.1) (by omega)
  · rw [hs] at h
    cases h

/-- A lost operation reads the poison of its way, and is told. -/
theorem opTold_opPathError {u : Nat} (hop : (s.tile t).fabric.op? o.id = some o) (ht : o.told = false) :
    let v : Token := ⟨true, o.tag, originWord u 28 6⟩
    opTold s (s.opPathError t u o) t o v (o.completion v) ∧ (s.opPathError t u o).memory = s.memory := by
  obtain ⟨v, hv⟩ : ∃ v : Token, v = ⟨true, o.tag, originWord u 28 6⟩ := ⟨_, rfl⟩
  rw [← hv]
  generalize hs1 : (if o.kind = .str then s.sinkReport t o.elem 1 (originWord u 28 6) else s) = s1
  have hkeep : (s1.tile t).fabric.ops = (s.tile t).fabric.ops ∧ (s1.tile t).fabric.elems = (s.tile t).fabric.elems
      ∧ (s1.tile t).fabric.wires = (s.tile t).fabric.wires ∧ s1.memory = s.memory := by
    rw [← hs1]
    split
    · rw [State.fabric_sinkReport]
      exact ⟨rfl, rfl, rfl, State.memory_sinkReport _ _ _ _ _⟩
    · exact ⟨rfl, rfl, rfl, rfl⟩
  obtain ⟨hops, hel, hwi, hmem⟩ := hkeep
  have hfab : ((s1.modFabric t fun F => F.modOp o.id fun x => { x with got := some v }).tile t).fabric
      = (s1.tile t).fabric.modOp o.id fun x => { x with got := some v } := State.fabric_modFabric_self _ _ _
  have hrun : s.opPathError t u o
      = (s1.modFabric t fun F => F.modOp o.id fun x => { x with got := some v }).tellOp t { o with got := some v } := by
    rw [State.opPathError]
    simp only [hs1, hfab, ← hv]
    rw [Fabric.op_modOp_self (o := o) (g := fun x => { x with got := some v }) (fun _ => rfl) (by rw [Fabric.op?, hops]; exact hop)]
  rw [hrun]
  refine ⟨opTold_tellOp (o := { o with got := some v }) rfl ht (fun x hx hid => ?_) (by rw [hfab]; exact hel) (by rw [hfab]; exact hwi),
    (State.memory_tellOp (o := { o with got := some v }) rfl ht).trans hmem⟩
  rw [hfab] at hx
  obtain ⟨y, -, -, rfl⟩ := Fabric.mem_modOp hx hid
  rfl

end

end Sys2Proof.Machine
end

section
/-!
SUPPORT. The clauses of an element operation's steps, put together (R196-R200, R308, R309, R328, R489).
-/
namespace Sys2Proof.Machine
open Sys2Proof.Rules

/-! ### What its owner has done to memory -/

section
variable {s w : State} {t : Nat} {o : ElemOp}

theorem mem_of_stored (h : w.memory = (s.stored t o).memory) :
    w.mem = cellWrite s.mem o.loc (natBytes 8 o.data.toNat) ∧ w.empties = if o.fe then natErase o.loc s.empties else s.empties := by
  obtain ⟨b, m, hst⟩ := s.stored_eq t o
  rw [hst] at h
  simp only [State.memory, Prod.mk.injEq] at h
  obtain ⟨hm, he, -⟩ := h
  exact ⟨hm, he⟩

theorem mem_of_amoed {op b : Nat} (h : w.memory = (s.amoed t o op b).memory) :
    w.empties = s.empties ∧ w.mem = match amoNew op b (s.readNat o.loc b) o.data.toNat o.exp.toNat with
      | some v => cellWrite s.mem o.loc (natBytes b v)
      | none => s.mem := by
  obtain ⟨l, m, ham⟩ := s.amoed_eq t o op b
  rw [ham] at h
  simp only [State.memory, Prod.mk.injEq] at h
  obtain ⟨hm, he, -⟩ := h
  refine ⟨he, hm.trans ?_⟩
  cases amoNew op b (s.readNat o.loc b) o.data.toNat o.exp.toNat <;> rfl

theorem State.fabric_stored (s : State) (t u : Nat) (o : ElemOp) : ((s.stored t o).tile u).fabric = (s.tile u).fabric := by
  obtain ⟨b, m, hst⟩ := s.stored_eq t o
  rw [hst]
  rfl

theorem State.feWait_stored (s : State) (t : Nat) (o : ElemOp) : (s.stored t o).feWait = s.feWait := by
  obtain ⟨b, m, hst⟩ := s.stored_eq t o
  rw [hst]

theorem State.fabric_amoed (s : State) (t u : Nat) (o : ElemOp) (op b : Nat) :
    ((s.amoed t o op b).tile u).fabric = (s.tile u).fabric := by
  obtain ⟨l, m, ham⟩ := s.amoed_eq t o op b
  rw [ham]
  rfl

theorem mem_natErase {w n : Nat} {l : List Nat} : w ∈ natErase n l ↔ w ∈ l ∧ w ≠ n := by
  rw [natErase, List.mem_filter, bne_iff_ne]

end

/-! ### The completion of an outstanding operation -/

section
variable {s : State} {o : ElemOp} (hop : (s.tile s.ev.tile).fabric.op? s.ev.n = some o) (ht : o.told = false) (hr : o.refused = false)
include hop ht hr

/-- An operation that has read its value tells it. -/
theorem elementMemCompletion_got (huniq : ∀ x ∈ (s.tile s.ev.tile).fabric.ops, x.id = o.id → x = o) {v : Token}
    (hg : o.got = some v) :
    nextWith (exec .elementMemCompletion s) fun u => sameMemory s u ∧ opTold s u s.ev.tile o v (o.completion v) :=
  nextWith_of_eq (exec_elementMemCompletion_got hop ht hr (by rw [hg]; rfl))
    ⟨sameMemory_of_memory_eq (State.memory_tellOp hg ht), opTold_tellOp hg ht (fun x hx hid => by rw [huniq x hx hid, hg]) rfl rfl⟩

variable (hg : o.got = none)
include hg

/-- An operation that reads `v` and leaves memory alone. -/
theorem performed_read {v : Token}
    (hu : s.memPerform s.ev.tile o = s.modFabric s.ev.tile fun F => F.modOp o.id fun x => { x with got := some v }) :
    nextWith (exec .elementMemCompletion s) fun u => sameMemory s u ∧ opTold s u s.ev.tile o v (o.completion v) := by
  obtain ⟨w, hw, htold, hmem⟩ := performed hop ht hr hg hu rfl
  exact ⟨w, hw, sameMemory_of_memory_eq hmem, htold⟩

/-- A store that its owner performs. -/
theorem performed_str (hk : o.kind = .str) (hu : s.memPerform s.ev.tile o = s.performElem s.ev.tile o) :
    nextWith (exec .elementMemCompletion s) fun u => opTold s u s.ev.tile o Token.zero Token.zero
      ∧ u.mem = cellWrite s.mem o.loc (natBytes 8 o.data.toNat) ∧ u.empties = if o.fe then natErase o.loc s.empties else s.empties := by
  obtain ⟨w, hw, htold, hmem⟩ := performed hop ht hr hg (hu.trans (State.performElem_str hk)) (s.fabric_stored _ _ o)
  rw [ElemOp.completion, hk] at htold
  exact ⟨w, hw, htold, mem_of_stored hmem⟩

theorem performed_ldr {e c : Nat} (hk : o.kind = .ldr e c) (hu : s.memPerform s.ev.tile o = s.performElem s.ev.tile o) :
    nextWith (exec .elementMemCompletion s) fun u => sameMemory s u ∧ opTold s u s.ev.tile o (s.elemRead s.ev.tile o) Token.zero := by
  have h := performed_read hop ht hr hg (hu.trans (State.performElem_ldr hk))
  rw [ElemOp.completion, hk] at h
  exact h

variable (hc : s.opClear s.ev.tile o)
include hc

theorem elementMemCompletion_amo (hm : s.refusal o.loc = none) (hf : o.fe = false) {op : Nat} (hk : o.kind = .amo op) :
    let b := if op = 10 then 4 else 8
    let old := s.readNat o.loc b
    let bad : Token := ⟨true, o.tag, markOrigin s.ev.tile o.loc⟩
    (s.isMarked (wordOf o.loc) = true → nextWith (exec .elementMemCompletion s) fun u => sameMemory s u ∧ opTold s u s.ev.tile o bad bad)
    ∧ (s.isMarked (wordOf o.loc) = false → nextWith (exec .elementMemCompletion s) fun u =>
        opTold s u s.ev.tile o ⟨false, o.tag, BitVec.ofNat 64 old⟩ ⟨false, o.tag, BitVec.ofNat 64 old⟩ ∧ u.empties = s.empties
        ∧ u.mem = match amoNew op b old o.data.toNat o.exp.toNat with
          | some v => cellWrite s.mem o.loc (natBytes b v)
          | none => s.mem) := by
  intro b old bad
  have hplain := State.memPerform_of_plain hc hm hf
  refine ⟨fun hmark => ?_, fun hmark => ?_⟩
  · have h := performed_read hop ht hr hg (hplain.trans (State.performElem_amo_marked hk hmark))
    rw [ElemOp.completion, hk] at h
    exact h
  · obtain ⟨w, hw, htold, hmem⟩ := performed hop ht hr hg (hplain.trans (State.performElem_amo hk hmark)) (s.fabric_amoed _ _ o op b)
    rw [ElemOp.completion, hk] at htold
    exact ⟨w, hw, htold, mem_of_amoed hmem⟩

/-- A store to a full-empty word that no older store of its tile holds back marks the word full (R309). -/
theorem elementMemCompletion_fe_str (hm : s.refusal o.loc = none) (hf : o.fe = true) (hwait : s.feWait = []) (h8 : o.loc % 8 = 0)
    (hk : o.kind = .str) (hold : s.olderStores s.ev.tile o.loc o.id = false) (hsys : systemOwner o.loc = false) :
    nextWith (exec .elementMemCompletion s) fun u =>
      opTold s u s.ev.tile o Token.zero Token.zero ∧ u.mem = cellWrite s.mem o.loc (natBytes 8 o.data.toNat)
      ∧ o.loc ∉ u.empties ∧ ∀ w, w ≠ o.loc → (w ∈ u.empties ↔ w ∈ s.empties) := by
  have hserve : (s.performElem s.ev.tile o).serve o.loc = s.performElem s.ev.tile o :=
    State.serve_of_idle (by rw [State.performElem_str hk]; exact (s.feWait_stored _ o).trans hwait) _
  have hu : s.memPerform s.ev.tile o = s.performElem s.ev.tile o := by
    rw [State.memPerform_fe_str hc hm hf h8 hk, hold, hsys, Bool.false_and, Bool.or_false, if_neg Bool.false_ne_true, hserve]
  obtain ⟨w, hw, htold, hmem, hemp⟩ := performed_str hop ht hr hg hk hu
  rw [if_pos hf] at hemp
  refine ⟨w, hw, htold, hmem, ?_, fun x hx => ?_⟩
  · rw [hemp, mem_natErase]
    exact fun h => h.2 rfl
  · rw [hemp, mem_natErase]
    exact and_iff_left hx

theorem elementMemCompletion_fe_str_waits (hm : s.refusal o.loc = none) (hf : o.fe = true) (h8 : o.loc % 8 = 0) (hk : o.kind = .str)
    (hold : s.olderStores s.ev.tile o.loc o.id = true) : exec .elementMemCompletion s = .next s :=
  exec_elementMemCompletion_waits hop ht hr hg (by rw [State.memPerform_fe_str hc hm hf h8 hk, hold]; rfl) rfl

theorem elementMemCompletion_fe_ldr (hm : s.refusal o.loc = none) (hf : o.fe = true) (hwait : s.feWait = []) (h8 : o.loc % 8 = 0)
    {e c : Nat} (hk : o.kind = .ldr e c) :
    (s.isEmpty o.loc = false → nextWith (exec .elementMemCompletion s) fun u =>
        sameMemory s u ∧ opTold s u s.ev.tile o (s.elemRead s.ev.tile o) Token.zero)
    ∧ (s.isEmpty o.loc = true → nextWith (exec .elementMemCompletion s) fun u =>
        sameMemory s u ∧ u.tiles = s.tiles ∧ ∃ r, u.feWait = [⟨.elem s.ev.tile o.id, o.loc, r⟩]) := by
  have hreq := State.memPerform_fe_ldr hc hm hf h8 hk
  obtain ⟨-, hopen, -⟩ := hc
  refine ⟨fun hfull => ?_, fun hempty => ?_⟩
  · refine performed_ldr hop ht hr hg hk (hreq.trans ?_)
    exact State.feRequest_of_full hwait (by rw [Fabric.id_of_op hop]; exact hop) hk hopen hfull
  · exact nextWith_of_eq (exec_elementMemCompletion_waits hop ht hr hg (hreq.trans (State.feRequest_of_empty hwait hempty)) rfl)
      ⟨sameMemory_of_memory_eq rfl, rfl, _, rfl⟩

/-- An access that its owner turns back stops the path, and waits to be made again (R196, R362). -/
theorem elementMemCompletion_turned_back {c d : Nat} (hm : s.refusal o.loc = some (c, d))
    (hp : (s.tile s.ev.tile).fabric.path.reason.toNat < 2 ∨ 4 < (s.tile s.ev.tile).fabric.path.reason.toNat) :
    nextWith (exec .elementMemCompletion s) fun u => sameMemory s u ∧ ((u.tile s.ev.tile).fabric.elem o.elem).stopped = true
      ∧ (u.tile s.ev.tile).fabric.path.reason = (if c = 0x06 then 4 else 3) ∧ (u.tile s.ev.tile).fabric.path.gfva = o.va
      ∧ ∃ x, (u.tile s.ev.tile).fabric.op? o.id = some x ∧ x.refused = true := by
  have hid : (s.tile s.ev.tile).fabric.op? o.id = some o := by rw [Fabric.id_of_op hop]; exact hop
  have hx := State.op_refuseOp hid (if c = 0x06 then 4 else 3)
  obtain ⟨hmem, hstop, hpath⟩ := State.refuseOp_stops (s := s) (t := s.ev.tile) (o := o) (if c = 0x06 then 4 else 3)
  obtain ⟨hva, hreason⟩ := hpath hp
  refine nextWith_of_eq ((exec_elementMemCompletion hop ht hr hg (State.memPerform_of_refusal hc hm) hx).trans
    (congrArg _ (State.tellOp_of_none hg))) ⟨hmem, hstop, ?_, hva, _, hx, rfl⟩
  rw [hreason]
  split <;> rfl

end

/-! ### The other steps of an operation -/

section
variable {s : State} {o : ElemOp}

/-- An operation that came back refused is made again at its address. -/
theorem elementMemCompletion_made_again {loc : Nat} {fe : Bool} (hop : (s.tile s.ev.tile).fabric.op? s.ev.n = some o)
    (ht : o.told = false) (hr : o.refused = true) (hp : (s.tile s.ev.tile).fabric.path.reason = 0)
    (hfirst : ∀ x ∈ (s.tile s.ev.tile).fabric.ops, x.refused = true → o.id ≤ x.id) (hs : s.stops s.ev.tile = false)
    (hu : s.pathUse s.ev.tile o.kind o.va = .ok loc fe) :
    nextWith (exec .elementMemCompletion s) fun u => sameMemory s u
      ∧ (u.tile s.ev.tile).fabric.op? o.id = some { o with refused := false, loc := loc, fe := fe } := by
  refine nextWith_of_eq ((exec_elementMemCompletion_refused hop ht hr).trans (congrArg _ (State.reissue_of_ok hp hfirst hs hu)))
    ⟨sameMemory_of_memory_eq rfl, ?_⟩
  rw [State.fabric_modFabric_self, State.useExtent, State.fabric_modFabric_self]
  exact Fabric.op_modOp_self (F := (s.tile s.ev.tile).fabric) (g := fun x => { x with refused := false, loc := loc, fe := fe })
    (fun _ => rfl) (by rw [Fabric.id_of_op hop]; exact hop)

theorem exec_ldrReply {v : Token}
    (ho : (((((s.tile s.ev.tile).fabric.elem s.ev.unit).replies.get [] s.ev.n).head?.bind (s.tile s.ev.tile).fabric.op?)) = some o)
    (hg : o.got = some v) :
    exec .ldrReply s = .next ((s.modFabric s.ev.tile fun F =>
        ((F.modElem s.ev.unit fun E =>
          { E with
            replies := E.replies.put s.ev.n ((E.replies.get [] s.ev.n).drop 1)
            chans := E.chans.put s.ev.n (E.chans.get [] s.ev.n ++ [v]) }).modOp
              (((F.elem s.ev.unit).replies.get [] s.ev.n).headD 0) fun x => { x with replied := true }).sweepOps).wakePart s.ev.tile) := by
  obtain ⟨id, hid, hop⟩ := Option.bind_eq_some_iff.1 ho
  show Host.Outcome.next (s.ldrReply s.ev.tile s.ev.unit s.ev.n) = _
  simp only [State.ldrReply, hid, hop, hg]
  congr 2
  refine State.modFabric_congr ?_
  rw [List.headD_eq_head?_getD, hid]
  rfl

/-- What the refusal of an operation's access by its way leaves, by its cause (R362, R489). -/
def State.wayRefused (s : State) (t : Nat) (o : ElemOp) : LateCause → State
  | .elsize => s.refuseOp t o 3
  | .epeer => s.refuseOp t o 4
  | .epath => s.opPathError t (s.ev.v.toNat % tileCount) o
  | .edata => s

theorem exec_generatorAccessRefused_path (hunit : s.ev.unit = 8) (hop : (s.tile s.ev.tile).fabric.op? s.ev.n = some o)
    (ht : o.told = false) (hr : o.refused = false)
    (hg : o.got = none) (hcause : s.causeHolds s.ev.tile o.loc o.kind.size (!o.kind.isAmo) s.ev.cause = true) :
    exec .generatorAccessRefused s = .next (s.wayRefused s.ev.tile o s.ev.cause) := by
  show execGeneratorAccessRefused s = _
  simp only [execGeneratorAccessRefused, hunit, hop, ht, hr, hg, hcause, if_true, Option.isSome_none, Bool.not_true, Bool.or_self,
    Bool.false_eq_true, if_false]
  cases s.ev.cause <;> rfl

end

theorem elementParityError_halts (s : State) : nextWith (exec .elementParityError s) fun w => sameMemory s w
    ∧ ((w.tile s.ev.tile).fabric.elem (s.ev.unit % 16)).halted = true := by
  refine nextWith_of_eq (t := _) rfl ⟨sameMemory_of_memory_eq ?_, ?_⟩
  · rw [State.memory_startTest, State.memory_useFree, State.memory_useFree, State.memory_hwStitch]
    rfl
  · rw [State.fabric_startTest, State.tile_useFree, State.tile_useFree, State.fabric_hwStitch, State.elem_modElem_self]

/-- The access of an operation that its way refuses. -/
theorem elementAccessRefused {s : State} {o : ElemOp} (hunit : s.ev.unit = 8)
    (hop : (s.tile s.ev.tile).fabric.op? s.ev.n = some o) (ht : o.told = false) (hr : o.refused = false)
    (hg : o.got = none) (hcause : s.causeHolds s.ev.tile o.loc o.kind.size (!o.kind.isAmo) s.ev.cause = true) :
    (s.ev.cause = .elsize ∨ s.ev.cause = .epeer → nextWith (exec .generatorAccessRefused s) fun w =>
      sameMemory s w ∧ ((w.tile s.ev.tile).fabric.elem o.elem).stopped = true
      ∧ ((s.tile s.ev.tile).fabric.path.reason.toNat < 2 ∨ 4 < (s.tile s.ev.tile).fabric.path.reason.toNat →
        (w.tile s.ev.tile).fabric.path.gfva = o.va
        ∧ (w.tile s.ev.tile).fabric.path.reason = if s.ev.cause = .elsize then 3 else 4))
    ∧ (s.ev.cause = .epath → nextWith (exec .generatorAccessRefused s) fun w =>
        let lost : Token := ⟨true, o.tag, originWord (s.ev.v.toNat % tileCount) 28 6⟩
        sameMemory s w ∧ opTold s w s.ev.tile o lost (o.completion lost)) := by
  have hrun := exec_generatorAccessRefused_path hunit hop ht hr hg hcause
  refine ⟨?_, fun hpath => ?_⟩
  · rintro (hcs | hcs)
    · rw [hcs] at hrun
      rw [if_pos hcs]
      exact nextWith_of_eq hrun (State.refuseOp_stops _)
    · rw [hcs] at hrun
      rw [if_neg (by rw [hcs]; decide)]
      exact nextWith_of_eq hrun (State.refuseOp_stops _)
  · rw [hpath] at hrun
    obtain ⟨htold, hmem⟩ := opTold_opPathError (u := s.ev.v.toNat % tileCount) (by rw [Fabric.id_of_op hop]; exact hop) ht
    exact nextWith_of_eq hrun ⟨sameMemory_of_memory_eq hmem, htold⟩

theorem elementMemoryStepsHold : ElementMemoryStepsHold := by
  intro s t F
  refine ⟨fun o hop huniq ht hr => ⟨fun v hg => ?_, fun hg => ?_⟩, fun o loc fe hop ht hr hp hfirst hs _ hu => ?_, fun o v ho hg => ?_,
    fun o hunit hop ht hr hg hcause => ⟨?_, fun hpath _ => ?_⟩, elementParityError_halts s⟩
  · exact elementMemCompletion_got hop ht hr huniq hg
  · intro clear bad word
    refine ⟨fun hc => ?_, fun hc hm hf => ⟨fun e c hk => ?_, fun hk => ?_, fun op hk => ?_⟩,
      fun hc hm hf hwait h8 => ⟨fun hk hold hsys => ?_, fun hk hold => ?_, fun e c hk => ?_⟩, fun hc c d hm hp => ?_⟩
    · exact exec_elementMemCompletion_waits hop ht hr hg (State.memPerform_of_not_clear hc) rfl
    · exact performed_ldr hop ht hr hg hk (State.memPerform_of_plain hc hm hf)
    · have h := performed_str hop ht hr hg hk (State.memPerform_of_plain hc hm hf)
      rw [if_neg (by rw [hf]; exact Bool.false_ne_true)] at h
      exact h
    · exact elementMemCompletion_amo hop ht hr hg hc hm hf hk
    · exact elementMemCompletion_fe_str hop ht hr hg hc hm hf hwait h8 hk hold hsys
    · exact elementMemCompletion_fe_str_waits hop ht hr hg hc hm hf h8 hk hold
    · exact elementMemCompletion_fe_ldr hop ht hr hg hc hm hf hwait h8 hk
    · exact elementMemCompletion_turned_back hop ht hr hg hc hm hp
  · exact elementMemCompletion_made_again hop ht hr hp hfirst hs hu
  · exact exec_ldrReply ho hg
  · exact (elementAccessRefused hunit hop ht hr hg hcause).1
  · exact (elementAccessRefused hunit hop ht hr hg hcause).2 hpath

end Sys2Proof.Machine
end

section
/-!
SUPPORT. The loader at a generator that is off its extents or that an invalidation has paused (R360-R364).
-/
namespace Sys2Proof.Machine
open Sys2Proof.Rules

section
variable {s : State} {t g : Nat}

theorem State.fabric_genGo : ∃ l, ((s.genGo t g).tile t).fabric
    = { (s.tile t).fabric.modGen g fun x => { x with reason := 0, kind := 0 } with elems := l } := by
  rw [State.genGo, State.fabric_modFabric_self]
  dsimp only
  split
  all_goals exact ⟨_, rfl⟩

/-- A generator whose extents are changed runs again with them. -/
theorem State.gen_genGo (f : Stream → Stream) :
    (((s.modFabric t fun F => F.modGen g f).genGo t g).tile t).fabric.gen g
      = { f ((s.tile t).fabric.gen g) with reason := 0, kind := 0 } := by
  obtain ⟨l, h⟩ := State.fabric_genGo (s := s.modFabric t fun F => F.modGen g f) (t := t) (g := g)
  rw [h, State.fabric_modFabric_self]
  show (((s.tile t).fabric.modGen g f).modGen g _).gen g = _
  rw [Fabric.gen_modGen_self, Fabric.gen_modGen_self]

theorem State.genFault_of_none {r k : Nat} {va : Word} (hq : ∀ q ∈ s.feWait, q.who ≠ .poll t g)
    (hj : ((s.tile t).fabric.gen g).job = none) :
    s.genFault t g r k va = (if g = 8 then s.modFabric t Fabric.stopElems else s).stopGen t g r k va := by
  rw [State.genFault]
  simp only [State.pollDone_of_quiet hq, hj]

/-- A generator without a job stops; with the path, so do the elements whose accesses it held. -/
theorem State.fabric_genFault {r k : Nat} {va : Word} (hq : ∀ q ∈ s.feWait, q.who ≠ .poll t g)
    (hj : ((s.tile t).fabric.gen g).job = none) :
    ((s.genFault t g r k va).tile t).fabric
      = (if g = 8 then (s.tile t).fabric.stopElems else (s.tile t).fabric).modGen g fun x =>
          { x with reason := BitVec.ofNat 3 r, kind := BitVec.ofNat 3 (if r = 2 then k else 0), gfva := va } := by
  rw [State.genFault_of_none hq hj, State.fabric_stopGen]
  split
  · rw [State.fabric_modFabric_self]
  · rfl

/-- A fault of the loader's walk at a generator without a job: it stops with the fault's kind at `va`. -/
theorem State.genFault_walkEnd {n : Nat} {va : Word} (hq : ∀ q ∈ s.feWait, q.who ≠ .poll t g)
    (hj : ((s.tile t).fabric.gen g).job = none) :
    let w := (s.walkEnd t (8 + g)).genFault t g 2 n va
    ((w.tile t).fabric.gen g).reason = 2 ∧ ((w.tile t).fabric.gen g).kind = BitVec.ofNat 3 n
    ∧ ((w.tile t).fabric.gen g).gfva = va ∧ sameMemory s w
    ∧ (g = 8 → ∀ e, ((s.tile t).fabric.elem e).off = true → ((w.tile t).fabric.elem e).stopped = true) := by
  intro w
  have hfab := State.fabric_genFault (s := s.walkEnd t (8 + g)) (r := 2) (k := n) (va := va) hq hj
  have hgen : (w.tile t).fabric.gen g = _ := (congrArg (Fabric.gen · g) hfab).trans (Fabric.gen_modGen_self _ _ _)
  refine ⟨congrArg Stream.reason hgen, congrArg Stream.kind hgen, congrArg Stream.gfva hgen, sameMemory_of_memory_eq ?_,
    fun h8 e hoff => ?_⟩
  · have hrun : w = _ := State.genFault_of_none (s := s.walkEnd t (8 + g)) hq hj
    rw [hrun, State.memory_stopGen]
    split <;> rfl
  · rw [hfab, Fabric.elem_modGen, if_pos h8]
    have hstop := Tab.get_map (fun E : Elem => { E with stopped := E.stopped || E.off, off := false }) (d := Elem.reset) rfl
      (s.tile t).fabric.elems e
    rw [Fabric.elem, Fabric.stopElems]
    refine (congrArg Elem.stopped hstop).trans ?_
    rw [show (Tab.get Elem.reset (s.tile t).fabric.elems e).off = true from hoff]
    exact Bool.or_true _

/-! ### One pass of the loader (R360-R364) -/

section
variable (hr : ((s.tile t).fabric.gen g).reason = 1)
include hr

theorem State.extentPatch_of_run {x : Extent}
    (hx : s.genRun t g ((s.tile t).fabric.gen g).asid ((s.tile t).fabric.gen g).gen ((s.tile t).fabric.gen g).gfva
      (s.ahead t g ((s.tile t).fabric.gen g).gfva) = .ok x) :
    s.extentPatch t g = ((s.walkEnd t (8 + g)).modFabric t fun F => F.modGen g fun y =>
      { y with ext := extentPut y.ext (extentCap g) { x with used := s.turns } }).genGo t g := by
  simp only [State.extentPatch, hr, hx, if_true]

theorem State.extentPatch_of_run_error {n : Nat}
    (hx : s.genRun t g ((s.tile t).fabric.gen g).asid ((s.tile t).fabric.gen g).gen ((s.tile t).fabric.gen g).gfva
      (s.ahead t g ((s.tile t).fabric.gen g).gfva) = .error n) :
    s.extentPatch t g = if n = heldKind then s else (s.walkEnd t (8 + g)).genFault t g 2 n ((s.tile t).fabric.gen g).gfva := by
  simp only [State.extentPatch, hr, hx, if_true]

end

section
variable (hr : ((s.tile t).fabric.gen g).reason = 5)
include hr

theorem State.extentPatch_of_repatch {l : List Extent} (hl : s.repatch t g ((s.tile t).fabric.gen g).ext = .ok l) :
    s.extentPatch t g = ((s.walkEnd t (8 + g)).modFabric t fun F => F.modGen g fun y => { y with ext := l }).genGo t g := by
  simp only [State.extentPatch, hr, hl, if_true, show ¬((5 : BitVec 3) = 1) by decide, if_false]

theorem State.extentPatch_of_repatch_error {n : Nat} {va : Word}
    (hl : s.repatch t g ((s.tile t).fabric.gen g).ext = .error (n, va)) :
    s.extentPatch t g = if n = heldKind then s else (s.walkEnd t (8 + g)).genFault t g 2 n va := by
  simp only [State.extentPatch, hr, hl, if_true, show ¬((5 : BitVec 3) = 1) by decide, if_false]

end

/-- A generator that gets extents runs again, and memory stays. -/
theorem State.genGo_walkEnd (f : Stream → Stream) :
    let w := ((s.walkEnd t (8 + g)).modFabric t fun F => F.modGen g f).genGo t g
    ((w.tile t).fabric.gen g).ext = (f ((s.tile t).fabric.gen g)).ext ∧ ((w.tile t).fabric.gen g).reason = 0 ∧ sameMemory s w := by
  intro w
  have hgen : (w.tile t).fabric.gen g = _ := State.gen_genGo (s := s.walkEnd t (8 + g)) f
  exact ⟨by rw [hgen]; rfl, by rw [hgen], sameMemory_of_memory_eq rfl⟩

end

theorem exec_extentPatch {s : State} (hg : s.ev.unit < 9) (hf : s.ev.flag = false) :
    exec .extentPatch s = .next (s.extentPatch s.ev.tile s.ev.unit) := by
  show execExtentPatch s = _
  rw [execExtentPatch]
  simp only [Nat.mod_eq_of_lt hg, hf, Bool.false_eq_true, if_false]

theorem extentsPatched : ExtentsPatched := by
  intro s t g G run quiet hg hf
  have hrun := exec_extentPatch hg hf
  refine ⟨fun x hr hx => ?_, fun hr hx => ?_, fun n hr hx hn hj hq => ?_, fun l hr hl => ?_, fun n va hr hl hn hj hq => ?_⟩
  · exact nextWith_of_eq (hrun.trans (congrArg _ (State.extentPatch_of_run hr hx))) (State.genGo_walkEnd _)
  · exact hrun.trans (congrArg _ ((State.extentPatch_of_run_error hr hx).trans (if_pos rfl)))
  · exact nextWith_of_eq (hrun.trans (congrArg _ ((State.extentPatch_of_run_error hr hx).trans (if_neg hn))))
      (State.genFault_walkEnd hq hj)
  · exact nextWith_of_eq (hrun.trans (congrArg _ (State.extentPatch_of_repatch hr hl))) (State.genGo_walkEnd _)
  · obtain ⟨hreason, hkind, hva, hmem, -⟩ := State.genFault_walkEnd (n := n) (va := va) hq hj
    exact nextWith_of_eq (hrun.trans (congrArg _ ((State.extentPatch_of_repatch_error hr hl).trans (if_neg hn))))
      ⟨hreason, hkind, hva, hmem⟩

/-- Settles O44: the steps of an operation, and the pass of the loader over a generator. The unit number in the word of a path
error is the model's choice (log 52), and so are the gate and the way that R309 leaves open (log 11). -/
theorem elementMemorySteps : Obligations.ElementMemorySteps := ⟨elementMemoryStepsHold, extentsPatched⟩

end Sys2Proof.Machine
end
